-- ==== Sys2Proof/Word.lean ====
section
/-! DEFINITION. The word types of the panel: a scalar register, a vector register, a lane mask or descriptor, and
a byte. Arithmetic on them is `BitVec`'s own, which wraps modulo the width as R44 and R90 say. -/

namespace Sys2Proof

/-- A scalar register, a counter word, a global address (R28, R37). -/
abbrev Word := BitVec 64
/-- A vector register (R37). -/
abbrev Vec := BitVec 2048
/-- A lane mask or a 32-byte descriptor (R37). -/
abbrev Wide := BitVec 256
/-- One byte. -/
abbrev Byte := BitVec 8

end Sys2Proof
end

