-- ==== Sys2Proof/Config.lean ====
section
/-! DEFINITION. What one panel's manufacture fixes and the spec leaves open, and the free values: constants with no
body, of which nothing can be proved but what holds for every value. Log 4 names each. -/

namespace Sys2Proof.Config

/-- A fresh free bit pattern for each count (log 4): the value of a read whose bytes the physical fault decides. -/
opaque freeNat : Nat → Nat

/-- The panel's serial number, its printed form, its part number and hardware revision (R360), and the carrier's position
straps (R545). -/
opaque serialNumber : Nat
opaque serialText : List Byte
opaque product : List Byte
opaque revision : Nat
opaque ppos : Nat

/-- The boot ROM's version, which the spec does not state (R460). -/
opaque bootRomVersion : Nat

/-- The digest of contents that the model does not hold: 0 and 1 the factory's images A and B, 2 + d the core firmware of the
image whose digest is d (R460; log 7). -/
opaque digestNat : Nat → Nat
/-- The training revision of a firmware version (R423; log 4). -/
opaque trainRevision : Nat → Nat

/-- The length of the rerank payload that the image of an identity declares, at most 8,128 (R254, R321); no object of the
dictionary carries it (log 64). -/
opaque rerankPayload : Nat → Fin 8129

/-- The unique device secret of a hub, 32 bytes, and the key hash of a signing slot, 48 bytes: the factory's fuses (R456). -/
opaque uds : Nat → List Byte
opaque slotHash : Nat → List Byte

/-- The DER bytes of an Alias certificate that says these things, with the nonce of its signature (R461; log 7). -/
opaque aliasDer : List (List Byte) → List Byte

/-- The DER bytes of a report that says these things, with the nonce of its signature (R463; log 7). -/
opaque reportDer : List (List Byte) → List Byte

/-- Factory bytes: kind 0 the DeviceID certificate of a hub, 2 the root key hash, 3 the report extension's OID (R456, R463; log 7). -/
opaque derBytes : Nat → Nat → List Byte

end Sys2Proof.Config
end

