-- ==== Sys2Proof/Machine/Tab.lean ====
section
/-! DEFINITION. A sparse table: what an unlisted key reads as is the caller's default. Register files, hop tables,
per-site records and the like are held so, ordered by key. -/

namespace Sys2Proof.Machine

/-- A table from a number to a value; an unlisted key reads as the reader's default. -/
abbrev Tab (α : Type) := List (Nat × α)

/-- The value at `k`, or `d`. -/
def Tab.get {α : Type} (d : α) : Tab α → Nat → α
  | [], _ => d
  | (j, x) :: t, k => if j = k then x else Tab.get d t k

/-- The table with `k` holding `v`; keys stay in rising order. -/
def Tab.set {α : Type} (k : Nat) (v : α) : Tab α → Tab α
  | [] => [(k, v)]
  | (j, x) :: t => if j = k then (k, v) :: t else if k < j then (k, v) :: (j, x) :: t else (j, x) :: Tab.set k v t

/-- The listed value at `k`. -/
def Tab.find? {α : Type} : Tab α → Nat → Option α
  | [], _ => none
  | (j, x) :: t, k => if j = k then some x else Tab.find? t k

/-- The table without `k`. -/
def Tab.del {α : Type} (k : Nat) (t : Tab α) : Tab α := t.filter fun e => decide (e.1 ≠ k)

/-- Change the value at `k`. -/
def Tab.upd {α : Type} (d : α) (k : Nat) (f : α → α) (t : Tab α) : Tab α := Tab.set k (f (Tab.get d t k)) t

/-- Change the value at each key listed. -/
def Tab.updAll {α : Type} (d : α) (ks : List Nat) (f : Nat → α → α) (t : Tab α) : Tab α :=
  ks.foldl (fun t k => Tab.upd d k (f k) t) t

end Sys2Proof.Machine
end

