-- ==== Sys2Proof/Terms.lean ====
section
/-! DEFINITION. The operands of the commands: bundle slots and their words (R40, R41), cells (R150), control
messages (R289, R304), unit names (R494), and what a physical check reports. -/

namespace Sys2Proof

/-- A bundle slot, in the order of R75 (S is 0, C is 7). -/
inductive Slot where
  | s | v0 | v1 | m | l0 | l1 | n | c
  deriving DecidableEq, Repr

/-- Does a slot have an operation of this opcode (R44-R50)? -/
def listedOpc (sl : Slot) (opc : Nat) : Bool :=
  match sl with
  | .s => decide (1 ≤ opc ∧ opc ≤ 0x0E) || decide (0x10 ≤ opc ∧ opc ≤ 0x13) || [0x18, 0x19, 0x1C, 0x1D].contains opc
  | .v0 | .v1 => decide (1 ≤ opc ∧ opc ≤ 0x0E) || decide (0x10 ≤ opc ∧ opc ≤ 0x18)
  | .m => decide (1 ≤ opc ∧ opc ≤ 4)
  | .l0 | .l1 | .c => decide (1 ≤ opc ∧ opc ≤ 9)
  | .n => decide (1 ≤ opc ∧ opc ≤ 5)

/-- A vector unit. -/
inductive VUnit where
  | v0 | v1
  deriving DecidableEq, Repr

/-- A stream slot. -/
inductive LUnit where
  | l0 | l1
  deriving DecidableEq, Repr

/-- One slot of a bundle without its opcode, which the command names (R41). LI and LIH read SA, SB, SC and IMM
together as their 45-bit immediate. -/
structure SlotWord where
  prd : BitVec 4
  pneg : Bool
  dst : BitVec 6
  sa : BitVec 6
  sb : BitVec 6
  sc : BitVec 6
  imm : BitVec 27
  deriving DecidableEq, Repr

/-- What a word's or a flit's check bits found (R195, R287): physical, so the command brings it. -/
inductive WordChk where
  | ok
  | corrected
  | uncorrectable
  deriving DecidableEq, Repr

/-- What the check bits of the words of a scratchpad read found (R109): the words, by byte offset div 8, that were corrected
and those that cannot be. Physical, so the command brings it; words that the read does not touch count for nothing. -/
structure Ecc where
  fixed : List Nat
  bad : List Nat
  deriving DecidableEq, Repr, Inhabited

/-- What a fault does to one lane of a row word on a read: the bits of its 32 bytes and of its lane check that come back wrong
(R126, R127). Lane 8 is the parity lane. Physical, so the command brings it. -/
structure LaneErr where
  lane : Nat
  data : BitVec 256
  check : BitVec 32
  deriving DecidableEq, Repr

/-- The faults of a row word: none where it reads as it is stored. -/
abbrev RowErr := List LaneErr
/-- The faults that an access meets, by row word. -/
abbrev RowErrs := List (Nat × RowErr)

/-- Who makes a register access (R177, R441): the hub itself or not, and the partition it carries, if any. -/
structure By where
  hub : Bool
  part : Option Nat
  deriving DecidableEq, Repr

/-- A register write: through a global address, with the faults of row words that it covers in part (R30, R126), or to a function's
BAR 0 on a port (R312). -/
inductive RegTarget where
  | ga (by_ : By) (a : Nat) (rows : RowErrs)
  | bar0 (port fn off : Nat)
  deriving DecidableEq, Repr

/-- A 48-byte cell: header word (R151) and payload. -/
structure Cell where
  hdr : BitVec 64
  pay : BitVec 320
  deriving DecidableEq, Repr

/-- A unit of the state book (R494, R514). Cores are numbered 4 * site + core. -/
inductive UnitId where
  | site (s : Nat)
  | core (k : Nat)
  | stack (s : Nat)
  | port (p : Nat)
  | block (b : Nat)
  | panel
  deriving DecidableEq, Repr

/-- A link frame of a fabric port (R518, R519): its SEQ, ACK and NAK, the credits it returns per VC, its cells; a frame that
carries fewer than 20 ends in null cells. -/
structure LinkFrame where
  seq : Nat
  ack : Nat
  nak : Bool
  cred : List Nat
  cells : List Cell
  deriving DecidableEq, Repr

/-- The kinds of control message with their bodies (R304). -/
inductive Msg where
  | freeze (region cause : Nat)
  | fence (kind num epoch reason : Nat)
  | faultReport (ev core : Nat) (data : BitVec 64)
  | arrive (region d block mask : Nat)
  | release (region d : Nat) (restore : Bool) (t : Nat)
  | epochSet (seq part : Nat) (trun : Bool) (tqid epoch : Nat)
  | ack (seq region : Nat)
  | nack (seq region : Nat)
  | liveWrite (index sub off : Nat) (data : BitVec 64)
  | liveCommit (num count : Nat)
  | sieveDone (passes : Nat) (errs : BitVec 64)
  | event (ev core supp : Nat) (data : BitVec 64)
  | lateNotice (ownerCore srcCore win reason gen cur off : Nat)
  | undeliverable (cls kind dst : Nat)
  | cfgWrite (table index : Nat) (value : BitVec 64)
  | cfgRead (table index : Nat)
  | cfgData (table index : Nat) (value : BitVec 64)
  | hubBeat (gen : Nat) (active : Bool) (tick : Nat)
  | nodeBeat (errs tick : Nat)
  | bulkOpen (sess space mask base len : Nat)
  | bulkData (sess index : Nat) (data : BitVec 64)
  | bulkClose (sess : Nat) (crc : BitVec 64)
  | bulkResult (sess status missing first : Nat)
  | reserved (cls kind : Nat)
  deriving DecidableEq, Repr

/-- What the physical side of a bring-up phase gave, as the hub finds it at the phase's end (R415): images whose bytes read
as written; dies whose PLL did not lock; interfaces whose saved settings failed PRBS31, links, stacks and dies that failed
training; units that failed self-test; dies that took no firmware; ports that detect no partner. -/
inductive PhaseOut where
  | go
  | boot (readA readB : Bool) (ms : Nat)
  | map (calibBad : Bool)
  | pll (unlocked : List Nat)
  | train (prbs : List Nat) (links : List (Nat × Nat)) (stackSites ctl : List Nat)
  | bist (cores dies stackSites maps repaired : List Nat)
  | bcast (failed : List Nat)
  | fabric (silent : List Nat)
  deriving DecidableEq, Repr

/-- A control message with its header (R289): `dmode` 0 unicast to `dst`, 1 to the active hub, 2 multicast to group
`dst`, 3 every node; `src` the sending site, or the originating hub for a multicast; `tag` the TAG, `mseq` the
multicast sequence. -/
structure Pkt where
  dmode : Nat
  dst : Nat
  src : Nat
  tag : Nat
  mseq : Nat
  msg : Msg
  deriving DecidableEq, Repr

/-- A group's answer on the PMBus: VOUT in mV, IOUT in 0.1 A, temperature in 0.1 °C, whether PEC held and whether STATUS_WORD
has a fault bit. -/
structure PmRead where
  vout : Nat
  iout : Nat
  temp : Int
  pec : Bool
  fault : Bool
  deriving DecidableEq, Repr

/-- What a COPY_IN meets: the blocks of host memory that it reads, each with its CRC, none where the read of one fails (R323), and the
faults of the row words that it covers in part (R126). -/
structure HostBlocks where
  blocks : List (Option (List Byte × BitVec 32))
  rows : RowErrs
  deriving DecidableEq, Repr

/-- A reading of standby power: VSB12 and the hold-up bank, in mV (R379, R394). -/
structure RailRead where
  vsb12 : Nat
  bank : Nat
  deriving DecidableEq, Repr

/-- How a record's write ends: whether its read-back agrees, and the voltage of the hold-up bank after it, in mV (R394, R395). -/
structure NvEnd where
  ok : Bool
  bank : Nat
  deriving DecidableEq, Repr

end Sys2Proof
end

