-- ==== Sys2Proof/Machine/BootState.lean ====
section
/-! DEFINITION. The state of bring-up, of the floor plan map and of the factory's words (R413-R437). -/

namespace Sys2Proof.Machine

/-- How far a die has come at bring-up: unpowered, released with straps not read, held in reset because its straps, its
fuses or a bring-up phase failed, running. -/
inductive DieUp where
  | off | released | held | running
  deriving DecidableEq, Repr

/-- The calibration record of R434, R437. `inForce` holds the object values that every unit uses since its bring-up;
the stored ones are the dictionary's (R435). -/
structure Calib where
  user : Bool
  writes : Nat
  tick : Nat
  crc : Nat
  valid : Bool
  inForce : Tab (List Byte)
  deriving DecidableEq, Repr

structure Boot where
  porDone : Bool                      -- VSB12 power-on reset released
  held : Bool                         -- PANEL_RST_N asserted
  phase : Nat                         -- R415 code; 0 before the origin, 15 halted
  since : Nat
  ticks : Tab Nat                     -- ticks in each phase
  late : Nat                          -- bit per phase
  ready : Bool
  coolWait : Nat
  coolFrom : Option Nat
  coolRaised : Bool
  refWait : Nat
  refFrom : Option Nat
  trainFull : Bool
  image : Tab Nat                     -- per hub: 0 A, 1 B, 0xFF failed; 0xFE not yet running
  aFails : Nat
  bFails : Nat
  romTime : Nat
  bootHub : Nat                       -- the hub that runs the sequence: 0 A, 1 B
  hubDown : List Nat                  -- hubs whose images both failed
  dieUp : Tab DieUp
  strap : Tab Nat                     -- strap words as read (R32)
  fuse : Tab (BitVec 32)              -- die fuse words as the factory burned them, where they are not the variant's
  dieId : Tab (BitVec 64)
  vword : Tab (BitVec 64)             -- hub variant words, by hub; unlisted is the variant's own
  map : Tab (BitVec 32)               -- floor plan map entries by site; unlisted is the variant's as shipped
  portMap : Tab Nat
  generation : Nat
  mapPending : Bool                   -- the map differs from its MRAM record
  bistRepairs : List Nat              -- dies that needed repairs at this bring-up
  fellBack : List Nat                 -- dies whose fallback has been raised at this bring-up (R424)
  training : List (Nat × Nat)         -- valid saved records: site, band
  trainPending : List (Nat × Nat)     -- records to be stored (R425)
  stored : Nat
  storeRefused : Nat
  calib : Calib
  tested : List Nat                   -- dies that have passed phases 5 to 7
  retraining : List (Nat × Nat)       -- dies whose links retrain after a full die reset, with the tick they end (R445)
  deriving DecidableEq, Repr

/-- The boot state right after the origin of R414: phase 1, nothing powered but the always-on domains. -/
def boot0 : Boot :=
  { porDone := true, held := false, phase := 1, since := 0, ticks := [], late := 0, ready := false, coolWait := 0,
    coolFrom := none, coolRaised := false, refWait := 0, refFrom := none, trainFull := false, image := [], aFails := 0,
    bFails := 0, romTime := 0, bootHub := 0, hubDown := [], dieUp := [], strap := [], fuse := [], dieId := [],
    vword := [], map := [], portMap := [], generation := 0, mapPending := false, bistRepairs := [], fellBack := [],
    training := [], trainPending := [], stored := 0, storeRefused := 0,
    calib := { user := false, writes := 0, tick := 0, crc := 0, valid := true, inForce := [] }, tested := [],
    retraining := [] }

end Sys2Proof.Machine
end

