-- ==== Sys2Proof/Machine/ClockState.lean ====
section
/-! DEFINITION. The state of the references, the timebase, the die clocks and the step plans (R362-R378). -/

namespace Sys2Proof.Machine

/-- A step plan as armed at a die or issued by the hub (R371): number, step, T, and the spread setting that it brings
(R375). -/
structure Plan where
  num : Nat
  step : Nat
  t : Nat
  spread : Nat × Nat
  deriving DecidableEq, Repr

/-- A plan the hub has issued and not settled: the dies it went to, those whose ACK has come, those that missed the
deadline and await the readback. -/
structure PlanOut where
  plan : Plan
  targets : List Nat
  acked : List Nat
  missed : List Nat
  applied : List Nat
  judged : Bool
  deriving DecidableEq, Repr

/-- A die's clock (R366-R374): `left` VCO periods remain in the CK_CORE cycle in progress, `clk` counts cycles, `stall`
stall cycles are still to pass, `budget` holds the cycle counts of stretches that drew on the budget. -/
structure DieClk where
  localMode : Bool
  step : Nat
  left : Nat
  clk : Nat
  stall : Nat
  stretch : Bool                      -- the cycle in progress is stretched
  locked : Bool
  tripped : Bool
  tbOff : BitVec 64                   -- the die's copy of the timebase less the count itself (R367)
  armed : Option Plan
  lastPlan : Nat
  raised : Bool                       -- regulators raised for an armed plan (R372)
  budget : List Nat
  stretched : Nat
  emerg : Nat                         -- emergency step-downs (R373)
  emergAt : Option (Nat × Nat)        -- tick and step of the last one
  asked : Option Nat                  -- a step request on its way to the hub (R373)
  tjDowns : Nat
  trips : Nat
  plans : Nat
  mism : Nat
  junction : Option Int               -- hottest junction, 0.1 °C
  dram : Option Int
  excluded : Nat
  deriving DecidableEq, Repr

def dieClk0 : DieClk :=
  { localMode := true, step := 0, left := 0, clk := 0, stall := 0, stretch := false, locked := false, tripped := false,
    tbOff := 0, armed := none, lastPlan := 0, raised := false, budget := [], stretched := 0, emerg := 0, emergAt := none, asked := none,
    tjDowns := 0, trips := 0, plans := 0, mism := 0, junction := none, dram := none, excluded := 0 }

/-- A reference input at the hubs' monitor (R364). -/
structure RefIn where
  valid : Bool
  ever : Bool
  good : Nat                          -- consecutive good 100 µs measurements
  deriving DecidableEq, Repr, Inhabited

/-- References and timebase (R363-R367). `use`: 0 REFA, 1 REFB, 2 holdover. -/
structure Clocks where
  vco : Nat                           -- VCO periods since the timebase started (the model's; log 5)
  tb : Nat
  origin : Nat                        -- tick at which the sequence of bring-up began (R414)
  tbRun : Bool
  die : Tab DieClk
  refA : RefIn
  refB : RefIn
  use : Nat
  failovers : Nat
  holdover : Nat
  holdFrom : Option Nat
  settle : Nat                        -- OSC_SETTLE code sampled
  settled : Bool
  rootB : Bool                        -- the tree's root is hub B's PLL
  plans : List PlanOut
  planNum : Nat
  stepNow : Nat                       -- step of the last plan that every die applied (R378)
  issued : Nat
  missedPlans : Nat
  spreadDue : Bool                    -- a committed spread change awaits its plan (R375)
  spread : Nat × Nat                  -- depth code and period in effect at the dies
  periph : Tab (BitVec 32)            -- peripheral enables per hub (R376)
  deriving DecidableEq, Repr

def clocks0 : Clocks :=
  { vco := 0, tb := 0, origin := 0, tbRun := true, die := [], refA := default, refB := default, use := 0,
    failovers := 0, holdover := 0, holdFrom := none, settle := 7, settled := false, rootB := false, plans := [],
    planNum := 0, stepNow := 0, issued := 0, missedPlans := 0, spreadDue := false, spread := (0, 3125),
    periph := [] }

end Sys2Proof.Machine
end

