-- ==== Sys2Proof/Machine/Bits.lean ====
section
/-! DEFINITION. Bit-field, sign-extension and byte-order helpers. Every multi-byte value of the panel is
little-endian (R5), so byte 0 is the least significant. -/

namespace Sys2Proof.Machine

/-- Bits [hi:lo] of `x`, as a number. -/
def fld {n : Nat} (x : BitVec n) (hi lo : Nat) : Nat := x.toNat / 2 ^ lo % 2 ^ (hi + 1 - lo)

/-- Bit `i` of `x`. -/
def bit {n : Nat} (x : BitVec n) (i : Nat) : Bool := x.getLsbD i

/-- Bits [hi:lo] of a number. -/
def nfld (x hi lo : Nat) : Nat := x / 2 ^ lo % 2 ^ (hi + 1 - lo)

/-- A `w`-bit two's-complement field read as an integer. -/
def sextN (w x : Nat) : Int := if x % 2 ^ w < 2 ^ (w - 1) then (x % 2 ^ w : Nat) else ((x % 2 ^ w : Nat) : Int) - 2 ^ w

/-- An integer modulo 2^w, as a bit vector. -/
def wrap (w : Nat) (i : Int) : BitVec w := BitVec.ofInt w i

/-- Little-endian bytes to a number. -/
def leNat : List Byte → Nat
  | [] => 0
  | b :: bs => b.toNat + 256 * leNat bs

/-- The `n` low bytes of a number, little-endian. -/
def leBytes : Nat → Nat → List Byte
  | 0, _ => []
  | n + 1, x => BitVec.ofNat 8 x :: leBytes n (x / 256)

/-- The lanes of width `w` of a number, lane 0 lowest: `n` of them. -/
def lanes : Nat → Nat → Nat → List Nat
  | _, 0, _ => []
  | w, n + 1, x => x % 2 ^ w :: lanes w n (x / 2 ^ w)

/-- The number whose lanes of width `w` are given, lane 0 lowest. -/
def unlanes (w : Nat) : List Nat → Nat
  | [] => 0
  | x :: xs => x % 2 ^ w + 2 ^ w * unlanes w xs

/-- The bytes [off, off + len) of a number replaced by the low bytes of `v`. -/
def splice (x off len v : Nat) : Nat :=
  x % 256 ^ off + 256 ^ off * (v % 256 ^ len) + 256 ^ (off + len) * (x / 256 ^ (off + len))

/-- Ceiling of a division. -/
def ceilDiv (a b : Nat) : Nat := (a + b - 1) / b

/-- The numbers below `n` whose bit is set in `m`, ascending. -/
def bitsSet (n m : Nat) : List Nat := (List.range n).filter fun i => m.testBit i

/-- The number with exactly the listed bits set. -/
def ofBits (l : List Nat) : Nat := l.foldl (fun a i => a ||| 2 ^ i) 0

/-- Round a number up to a multiple of `a`. -/
def roundUp (x a : Nat) : Nat := ceilDiv x a * a

/-- A two's-complement 16-bit reading of an integer, as the object dictionary stores it (R341). -/
def i16 (x : Int) : Nat := (wrap 16 x).toNat

end Sys2Proof.Machine
end

