-- ==== Sys2Proof/Machine/Float.lean ====
section
/-! DEFINITION. Exact numbers and the number formats (R76, R77): every value is decoded to a sign, a whole
magnitude and a power of two, computed on exactly, and rounded once where the spec rounds. -/

namespace Sys2Proof.Machine

/-- An exact value: not a number, an infinity, or (-1)^s * m * 2^e. Zero keeps its sign. -/
inductive Num where
  | nan
  | inf (s : Bool)
  | fin (s : Bool) (m : Nat) (e : Int)
  deriving DecidableEq, Repr

/-- Rounding of R91 and R93: to nearest even, toward zero, or stochastic with a 32-bit draw. -/
inductive Rnd where
  | rne
  | rtz
  | stoch (draw : Nat)
  deriving DecidableEq, Repr

/-- A binary format: exponent bits, mantissa bits, bias (R76). -/
structure Fmt where
  eb : Nat
  mb : Nat
  bias : Nat
  deriving DecidableEq, Repr

def fmtFP32 : Fmt := ⟨8, 23, 127⟩
def fmtBF16 : Fmt := ⟨8, 7, 127⟩
def fmtFP16 : Fmt := ⟨5, 10, 15⟩
def fmtE2M1 : Fmt := ⟨2, 1, 1⟩
def fmtE2M3 : Fmt := ⟨2, 3, 1⟩
def fmtE3M2 : Fmt := ⟨3, 2, 3⟩
def fmtE4M3 : Fmt := ⟨4, 3, 7⟩
def fmtE5M2 : Fmt := ⟨5, 2, 15⟩

/-- The value of an encoding all of whose exponents are finite (R76). -/
def Fmt.fin (f : Fmt) (x : Nat) : Num :=
  let s := x.testBit (f.eb + f.mb)
  let ex := nfld x (f.eb + f.mb - 1) f.mb
  let m := x % 2 ^ f.mb
  if ex = 0 then .fin s m (1 - (f.bias : Int) - f.mb) else .fin s (2 ^ f.mb + m) ((ex : Int) - f.bias - f.mb)

/-- The value of an IEEE encoding: the top exponent is infinity or NaN. -/
def Fmt.ieee (f : Fmt) (x : Nat) : Num :=
  if nfld x (f.eb + f.mb - 1) f.mb = 2 ^ f.eb - 1 then
    if x % 2 ^ f.mb = 0 then .inf (x.testBit (f.eb + f.mb)) else .nan
  else f.fin x

/-- Does the magnitude round up, when `rem` of `2^sh` is discarded below the kept `mant`? (R87, R93) -/
def roundsUp (r : Rnd) (mant rem sh : Nat) : Bool :=
  match r with
  | .rne => decide (2 ^ sh < 2 * rem) || (decide (2 * rem = 2 ^ sh) && decide (mant % 2 = 1))
  | .rtz => false
  | .stoch d => decide (2 ^ 32 ≤ rem * 2 ^ 32 / 2 ^ sh + d)

/-- `m * 2^e` as a whole multiple of `2^q`, rounded. -/
def quantize (r : Rnd) (m : Nat) (e q : Int) : Nat :=
  if q ≤ e then m * 2 ^ (e - q).toNat
  else
    let sh := (q - e).toNat
    let mant := m / 2 ^ sh
    if roundsUp r mant (m % 2 ^ sh) sh then mant + 1 else mant

/-- The magnitude code (exponent and mantissa fields) of `m * 2^e` in the format, its exponent unbounded above. -/
def Fmt.code (f : Fmt) (r : Rnd) (m : Nat) (e : Int) : Nat :=
  if m = 0 then 0 else
    let q := max ((Nat.log2 m : Int) + e - f.mb) (1 - (f.bias : Int) - f.mb)
    let mant := quantize r m e q
    if mant < 2 ^ f.mb then mant else ((q + f.mb + f.bias).toNat) * 2 ^ f.mb + (mant - 2 ^ f.mb)

/-- The code of infinity. -/
def Fmt.infCode (f : Fmt) : Nat := (2 ^ f.eb - 1) * 2 ^ f.mb

/-- The canonical NaN of an IEEE format (R77). -/
def Fmt.nanCode (f : Fmt) : Nat := f.infCode + 2 ^ (f.mb - 1)

/-- A sign put above a code. -/
def Fmt.signed (f : Fmt) (s : Bool) (c : Nat) : Nat := (if s then 2 ^ (f.eb + f.mb) else 0) + c

/-- An exact value rounded into an IEEE format (R87, R91): overflow gives infinity, but toward zero the largest
finite value. -/
def Fmt.enc (f : Fmt) (r : Rnd) : Num → Nat
  | .nan => f.nanCode
  | .inf s => f.signed s f.infCode
  | .fin s m e =>
    let c := f.code r m e
    if c < f.infCode then f.signed s c
    else match r with
      | .rtz => f.signed s (f.infCode - 1)
      | _ => f.signed s f.infCode

/-- Is the value beyond the format's range, so that R91 saturates or sends it to infinity? -/
def Fmt.above (f : Fmt) (r : Rnd) : Num → Bool
  | .fin _ m e => decide (f.infCode ≤ f.code r m e)
  | _ => false

namespace Num

def zero : Num := .fin false 0 0

def isNan : Num → Bool
  | .nan => true
  | _ => false

def isFin : Num → Bool
  | .fin _ _ _ => true
  | _ => false

def isZero : Num → Bool
  | .fin _ m _ => decide (m = 0)
  | _ => false

def sign : Num → Bool
  | .nan => false
  | .inf s => s
  | .fin s _ _ => s

def neg : Num → Num
  | .nan => .nan
  | .inf s => .inf (!s)
  | .fin s m e => .fin (!s) m e

/-- The signed mantissa at exponent `e0`, no larger than its own. -/
def scaled (s : Bool) (m : Nat) (e e0 : Int) : Int :=
  let v : Int := (m * 2 ^ (e - e0).toNat : Nat)
  if s then -v else v

/-- A signed integer times 2^e; zero is +0. -/
def ofInt (i e : Int) : Num := .fin (decide (i < 0)) i.natAbs e

/-- Exact IEEE sum: an exact zero of unlike signs is +0, infinities of unlike signs give NaN. -/
def add : Num → Num → Num
  | .nan, _ => .nan
  | _, .nan => .nan
  | .inf s, .inf t => if s = t then .inf s else .nan
  | .inf s, .fin _ _ _ => .inf s
  | .fin _ _ _, .inf t => .inf t
  | .fin s m e, .fin t n g =>
    if m = 0 ∧ n = 0 then .fin (s && t) 0 0
    else
      let e0 := min e g
      ofInt (scaled s m e e0 + scaled t n g e0) e0

/-- Exact IEEE product: infinity times zero is NaN. -/
def mul : Num → Num → Num
  | .nan, _ => .nan
  | _, .nan => .nan
  | .inf s, .inf t => .inf (xor s t)
  | .inf s, .fin t n _ => if n = 0 then .nan else .inf (xor s t)
  | .fin s m _, .inf t => if m = 0 then .nan else .inf (xor s t)
  | .fin s m e, .fin t n g => .fin (xor s t) (m * n) (e + g)

/-- Multiply by 2^k. -/
def scale (k : Int) : Num → Num
  | .fin s m e => .fin s m (e + k)
  | x => x

/-- IEEE less-than; false with NaN, and -0 equals +0 (R89). -/
def lt : Num → Num → Bool
  | .nan, _ => false
  | _, .nan => false
  | .inf s, .inf t => s && !t
  | .inf s, .fin _ _ _ => s
  | .fin _ _ _, .inf t => !t
  | .fin s m e, .fin t n g => decide (scaled s m e (min e g) < scaled t n g (min e g))

/-- IEEE equality; false with NaN, and -0 equals +0 (R89). -/
def eq : Num → Num → Bool
  | .nan, _ => false
  | _, .nan => false
  | .inf s, .inf t => decide (s = t)
  | .fin s m e, .fin t n g => decide (scaled s m e (min e g) = scaled t n g (min e g))
  | _, _ => false

/-- The order of R89 for VMAX and VMIN: as `lt`, with -0 below +0. -/
def below (a b : Num) : Bool := lt a b || (eq a b && a.isZero && a.sign && !b.sign)

def max (a b : Num) : Num := if a.isNan || b.isNan then .nan else if below a b then b else a
def min (a b : Num) : Num := if a.isNan || b.isNan then .nan else if below b a then b else a

end Num

/-- FP32 addition of R85: `c + p` rounded once to nearest even. -/
def addFP32 (c : Nat) (p : Num) : Nat := fmtFP32.enc .rne (Num.add (fmtFP32.ieee c) p)

/-- The largest number whose square is at most `x`, found bit by bit from bit `k - 1` down. -/
def isqrtFrom (x : Nat) : Nat → Nat → Nat
  | 0, a => a
  | k + 1, a => isqrtFrom x k (if (a + 2 ^ k) * (a + 2 ^ k) ≤ x then a + 2 ^ k else a)

def isqrt (x : Nat) : Nat := isqrtFrom x (Nat.log2 x / 2 + 1) 0

/-- A truncated magnitude with a sticky bit below it: rounding it to nearest rounds the true value. -/
def sticky (s : Bool) (t : Nat) (exact : Bool) (e : Int) : Num := .fin s (2 * t + if exact then 0 else 1) (e - 1)

/-- 1/a (R88). -/
def recip : Num → Num
  | .nan => .nan
  | .inf s => .fin s 0 0
  | .fin s m e =>
    if m = 0 then .inf s
    else
      let k := Nat.log2 m + 40
      sticky s (2 ^ k / m) (decide (2 ^ k % m = 0)) (-(k : Int) - e)

/-- 1/sqrt a (R88). -/
def rsqrt : Num → Num
  | .nan => .nan
  | .inf s => if s then .nan else .fin false 0 0
  | .fin s m e =>
    if m = 0 then .inf s
    else if s then .nan
    else
      let n := if e % 2 = 0 then m else 2 * m
      let h := (if e % 2 = 0 then e else e - 1) / 2
      let k := Nat.log2 n + 40
      let t := isqrt (4 ^ k / n)
      sticky false t (decide (t * t * n = 4 ^ k)) (-(k : Int) - h)

/-- Working precision, in bits, of VEXP2 and VLOG2 (log 8: enough for a correct rounding of FP32). -/
def transBits : Nat := 256

/-- 2^f * 2^transBits for the fraction whose bits follow: each set bit j multiplies by 2^(2^-j), `root` being that
root in fixed point. -/
def exp2Frac : List Bool → Nat → Nat → Nat
  | [], _, acc => acc
  | b :: bs, root, acc =>
    let r := isqrt (root * 2 ^ transBits)
    exp2Frac bs r (if b then acc * r / 2 ^ transBits else acc)

/-- 2^a (R88). -/
def exp2 : Num → Num
  | .nan => .nan
  | .inf s => if s then .fin false 0 0 else .inf false
  | .fin s m e =>
    if m = 0 then .fin false 1 0
    else if ¬ s ∧ (7 : Int) ≤ (Nat.log2 m : Int) + e then .inf false
    else if s ∧ Num.lt (.fin s m e) (.fin true 150 0) then .fin false 0 0
    else
      let fx := Num.scaled s m (e + 160) 0   -- the input in units of 2^-160, exact down to FP32's 2^-149
      let i := fx / 2 ^ 160
      let f := (fx % 2 ^ 160).toNat
      let bits := (List.range 160).map fun j => f.testBit (159 - j)
      if f = 0 then .fin false 1 i
      else sticky false (exp2Frac bits (2 * 2 ^ transBits) (2 ^ transBits)) false (i - transBits)

/-- The fraction bits of log2 y for y in [1, 2) held in fixed point: squaring doubles the logarithm. -/
def log2Frac : Nat → Nat → Nat → Nat
  | 0, _, acc => acc
  | n + 1, y, acc =>
    let y2 := y * y / 2 ^ transBits
    if 2 * 2 ^ transBits ≤ y2 then log2Frac n (y2 / 2) (2 * acc + 1) else log2Frac n y2 (2 * acc)

/-- log2 a (R88). -/
def log2 : Num → Num
  | .nan => .nan
  | .inf s => if s then .nan else .inf false
  | .fin s m e =>
    if m = 0 then .inf true
    else if s then .nan
    else
      let l := Nat.log2 m
      let ex : Int := (l : Int) + e
      if m = 2 ^ l then Num.ofInt ex 0
      else
        let y := m * 2 ^ transBits / 2 ^ l
        Num.ofInt (2 * (ex * 2 ^ 100 + (log2Frac 100 y 0 : Int)) + 1) (-101)

/-- An exact value rounded to a whole number (R91). -/
def roundInt (r : Rnd) (s : Bool) (m : Nat) (e : Int) : Int :=
  let q : Int := (quantize r m e 0 : Nat)
  if s then -q else q

/-- One draw of the stochastic rounding generator: the word drawn and the next state (R93). -/
def genDraw (g : BitVec 128) : Nat × BitVec 128 :=
  let x := g.extractLsb' 0 32
  let y := g.extractLsb' 32 32
  let z := g.extractLsb' 64 32
  let w := g.extractLsb' 96 32
  let t := x ^^^ (x <<< 11)
  let w' := w ^^^ (w >>> 19) ^^^ t ^^^ (t >>> 8)
  (w'.toNat, w' ++ w ++ z ++ y)

/-- `n` draws in order, and the state after them. -/
def genDraws : Nat → BitVec 128 → List Nat × BitVec 128
  | 0, g => ([], g)
  | n + 1, g =>
    let d := genDraw g
    let r := genDraws n d.2
    (d.1 :: r.1, r.2)

/-- A seed that leaves all bits zero sets the state to 1 (R93). -/
def genFix (g : BitVec 128) : BitVec 128 := if g = 0 then 1 else g

/-- The value of an element of MFMT format code `c` (R76). -/
def mxElem (c x : Nat) : Num :=
  if c = 0 then fmtE2M1.fin (x % 16)
  else if c = 1 then fmtE2M3.fin (x % 64)
  else if c = 2 then fmtE3M2.fin (x % 64)
  else if c = 3 then (if x % 128 = 127 then .nan else fmtE4M3.fin (x % 256))
  else if c = 4 then fmtE5M2.ieee (x % 256)
  else if c = 5 then Num.ofInt (sextN 8 x) (-6)
  else if c = 6 then fmtBF16.ieee (x % 65536)
  else fmtFP16.ieee (x % 65536)

/-- Element width in bits of MFMT format code `c`. -/
def mxWidth (c : Nat) : Nat := if c = 0 then 4 else if c ≤ 2 then 6 else if c ≤ 5 then 8 else 16

/-- Bytes of the 96 elements of one row or column (R80, R81). -/
def mxData (c : Nat) : Nat := 12 * mxWidth c

/-- A-row size in bytes (R80). -/
def mxRow (c : Nat) : Nat := if c = 0 then 64 else if c ≤ 5 then 128 else 192

/-- Has the format block scales (R79)? -/
def mxScaled (c : Nat) : Bool := decide (c ≤ 5)

/-- Tile image bytes (R81). -/
def mxTile (c : Nat) : Nat := 96 * mxData c + if mxScaled c then 288 else 0

/-- Panel image bytes for `n` arrays: the tiles, then zeros to a multiple of 64 (R82). -/
def mxPanel (c n : Nat) : Nat := roundUp (n * mxTile c) 64

/-- The MMUL issue interval of R46. -/
def mmulInterval (a b : Nat) : Nat := if a = 0 ∧ b = 0 then 1 else if 6 ≤ a ∨ 6 ≤ b then 4 else 2

/-- The block partial of R84: the products of one block of 32, exactly, under the two scale codes. -/
def blockPartial (as bs : List Num) (xa xb : Option Nat) : Num :=
  if xa = some 255 ∨ xb = some 255 then .nan
  else
    let prods := List.zipWith Num.mul as bs
    let sum := prods.foldl Num.add Num.zero
    let k : Int := (match xa with | some x => (x : Int) - 127 | none => 0) + (match xb with | some x => (x : Int) - 127 | none => 0)
    match sum with
    | .fin _ 0 _ => Num.zero
    | v => v.scale k

/-- MX conversion of R92: the element code of `x` in format `c` under block scale `sc`, and whether it saturated. -/
def mxEnc (c : Nat) (r : Rnd) (sc : Nat) (x : Num) : Nat × Bool :=
  let f := if c = 0 then fmtE2M1 else if c = 1 then fmtE2M3 else if c = 2 then fmtE3M2 else if c = 3 then fmtE4M3 else fmtE5M2
  let nanElem := if c = 3 then 0x7F else if c = 4 then 0x7E else 0
  let maxCode := if c = 0 then 7 else if c = 1 then 31 else if c = 2 then 31 else if c = 3 then 0x7E else 0x7B
  if sc = 255 then (nanElem, false)
  else match x.scale (127 - (sc : Int)) with
    | .nan => (nanElem, false)
    | .inf s => if c = 5 then ((if s then 0x81 else 0x7F), true) else (f.signed s maxCode, true)
    | .fin s m e =>
      if c = 5 then
        let i := roundInt r s m (e + 6)
        if i < -127 then (0x81, true) else if 127 < i then (0x7F, true) else ((wrap 8 i).toNat, false)
      else
        let k := f.code r m e
        if maxCode < k then (f.signed s maxCode, true) else (f.signed s k, false)

end Sys2Proof.Machine
end

