-- ==== Sys2Proof/Machine/CoreState.lean ====
section
/-! DEFINITION. The state of a compute core (R37, R38, R55, R58, R61, R62, R70, R75, R101, R106, R111-R120, R122). -/

namespace Sys2Proof.Machine

/-- Run state of CSTAT (R74). `halting` reads as running: HALT has issued and the core's work is completing (R50). -/
inductive RunState where
  | stopped | running | waiting | halting | halted | faulted | resetting
  deriving DecidableEq, Repr

/-- A register write that an operation has issued and that has not landed (R51). -/
inductive RegWrite where
  | s (n : Nat) (x : Word)
  | p (n : Nat) (b : Bool)
  | v (n : Nat) (x : Vec)
  | vlanes (n lo w : Nat) (x : Vec)   -- VCVT and VFROMEX80: bytes lo to lo + w - 1 only (R91, R97)
  | q (n : Nat) (x : Wide)
  | d (n : Nat) (x : Wide)
  | c (n : Nat)                       -- NRSTC: the counter becomes 0
  | spec (n : Nat) (x : Word)         -- MTS
  | exf                               -- the range flag of R95, R97 is set
  | fmt (a b : Nat)                   -- MFMT
  | drop (mask : Nat)                 -- SDROP
  | swap (mask : Nat)                 -- MSWAP
  | acc (arr row : Nat) (zero : Bool) (parts : List (List Num))   -- MMUL: partials P0..P2 of each column
  | clr (arr row : Nat)               -- MCLR of one row
  | wopen (n : Nat) (d : Wide)        -- NWOPEN that passed its checks (R112)
  | wclose (n : Nat) (ctr : Option Nat)  -- NWCLOSE (R116)
  deriving DecidableEq, Repr

/-- An in-flight write: the run cycle at whose end it lands (R51). The list is kept in issue order, and within a
bundle in slot order, which is the order of R52. -/
structure InFlight where
  due : Nat
  w : RegWrite
  deriving DecidableEq, Repr

/-- A hardware loop register (R37, R55). -/
structure LoopReg where
  count : Nat
  start : Nat
  stop : Nat
  deriving DecidableEq, Repr, Inhabited

/-- A staging slot's state (R70). -/
inductive StageSt where
  | empty | pending | full | poison
  deriving DecidableEq, Repr

/-- A staging slot: its state, the SRA's stream number, whether any of its data has been read, and its delivery cycle. -/
structure Stage where
  st : StageSt
  sid : Nat
  read : Bool
  ready : Nat
  deriving DecidableEq, Repr

/-- A running stream (R57, R58): the copied descriptor, the sums base + s[SA] and base + s[SB], its start cycle, the
units captured from the source, the units delivered (kind 1: presented to the stack port), the row words granted and
landed, the captured units not yet delivered (oldest first), and the PC of the bundle that started it. `slot` is the
staging slot of an SRA. `bfmt` is the format in force at SRUN (A for kind 2, B for kind 3; R80, R82). A stream whose own
unit faulted is taken off the list, or, of kind 1, is `dead`: it presents no further unit (R72). -/
structure Stream where
  sid : Nat
  eng : Nat
  desc : Wide
  src : Nat
  dst : Nat
  start : Nat
  bfmt : Nat
  slot : Nat
  captured : Nat
  delivered : Nat
  granted : Nat                       -- row words granted up to the first that is not
  ahead : List Nat                    -- row words granted beyond it
  base : Tab Nat                      -- physical base of each unit whose first row word has been granted (R146)
  landed : Nat
  bufs : List Nat
  pc : Nat
  dead : Bool
  deriving DecidableEq, Repr

/-- A posted send or receive (R61, R158): the descriptor, the payload base, the ordinal of its first bound entry among
the track's entries counted over repetitions, cells read from (or written to) the scratchpad, and cells that have left. -/
structure Post where
  send : Bool
  desc : Wide
  base : Nat
  ord0 : Nat
  read : Nat
  fired : Nat
  done : Nat
  hdr : BitVec 64
  pc : Nat
  deriving DecidableEq, Repr

/-- What a waiting core waits for (R62). -/
inductive WaitKind where
  | counter (c v : Nat)
  | sends
  | barrier (d : Nat)
  | post (send : Bool) (desc : Wide) (add : Word) (pc : Nat)
  deriving DecidableEq, Repr

/-- A synchronisation wait: what it waits for, its expected length and its issue cycle (R62, R63). -/
structure Wait where
  kind : WaitKind
  expect : Nat
  start : Nat
  deriving DecidableEq, Repr

/-- The fault record of R75. -/
structure FaultRec where
  ev : Nat
  pc : Nat
  slot : Nat
  step : Nat
  icc : Nat
  deriving DecidableEq, Repr, Inhabited

/-- State of a window (R111-R120). `notify`: counters to increment when it is CLOSED (R116). -/
inductive WinSt where
  | closed | opened | closing
  deriving DecidableEq, Repr

structure Window where
  st : WinSt
  desc : Wide
  gen : Nat
  inflight : Nat
  done : Nat
  late : Nat
  notify : List Nat
  deriving DecidableEq, Repr

/-- Who asks for an unscheduled part (R106). -/
inductive Agent where
  | nLate | nDelayed | window | general | check
  deriving DecidableEq, Repr

/-- What an unscheduled part does when its bank is won. -/
inductive PartAct where
  | recv (ord0 track addr : Nat) (data : List Byte) (range : Bool)
  | send (track ord addr off n pc : Nat)
  | win (w : Nat) (addr : Nat) (data : List Byte)
  | read (addr off n : Nat)
  | write (addr : Nat) (data : List Byte)
  | scan (addr n : Nat)
  deriving DecidableEq, Repr

/-- A waiting unscheduled part: the access that it belongs to, agent, bank, clock of the request (R103, R108). -/
structure UPart where
  acc : Nat
  agent : Agent
  bank : Nat
  asked : Nat
  starved : Bool
  act : PartAct
  deriving DecidableEq, Repr

/-- Rank of a scheduled access (R66, R105): class 0 L0, 1 L1, 2 receive writes, 3 send reads; within an L slot its own
operation is 0 and a stream 1 + its number, else the core track. -/
structure Rank where
  cls : Nat
  sub : Nat
  deriving DecidableEq, Repr

/-- A scheduled write of the run cycle (R105): its rank, its `n` bytes at global address `ga`, and what memory held there
when it was made. -/
structure CycW where
  rk : Rank
  ga : Nat
  n : Nat
  v : Nat
  old : Nat
  deriving DecidableEq, Repr

/-- Who asked for a general access (R106): a service request (R174); a host's read through the aperture, by port and function
(R316); a write that nobody answers; a block of a COPY_IN (R323). -/
inductive Asker where
  | service (req : Cell)
  | aperture (hp fn : Nat)
  | posted
  | copyIn (id : Nat)
  deriving DecidableEq, Repr

/-- A general access to a site's scratchpads under way in parts (R106, R107): the data read so far, the parts left, the clock
at which it is answered, and its status, 0, 1 refused or 2 uncorrectable (R109, R174). -/
structure GenAcc where
  id : Nat
  who : Asker
  site : Nat
  data : List Byte
  left : Nat
  due : Nat
  status : Nat
  deriving DecidableEq, Repr

/-- A check engine's scan of a scratchpad range (R106, R488): its access, offset and length, what it has read, and whether a
word stopped it. -/
structure ScanRun where
  acc : Nat
  at_ : Nat
  len : Nat
  got : List Byte
  stopped : Bool
  deriving DecidableEq, Repr

/-- A receive write on its way to its bank cycle (R157, R158): the run cycle, the post's first ordinal and track, the
address and bytes, and the RANGE bit. -/
structure RecvDue where
  due : Nat
  ord0 : Nat
  track : Nat
  addr : Nat
  data : List Byte
  range : Bool
  deriving DecidableEq, Repr

/-- Stall and wait counters (R75). -/
structure WaitCtr where
  bank : Nat
  corr : Nat
  die : Nat
  wait : Nat
  slip : Nat
  collisions : Nat
  unposted : Nat
  deriving DecidableEq, Repr, Inhabited

/-- Run-ahead counters (R75). -/
structure RunAhead where
  issued : Nat
  dropped : Nat
  poisoned : Nat
  served : Nat
  deriving DecidableEq, Repr, Inhabited

/-- Arithmetic counters (R101). -/
structure ArithCtr where
  nans : Nat
  infs : Nat
  ex80 : Nat
  vcvt : Nat
  deriving DecidableEq, Repr, Inhabited

/-- Scratchpad counters (R122). -/
structure ScratchCtr where
  parts : Nat
  waitCc : Nat
  longest : Nat
  misses : Nat
  starved : Nat
  corrected : Nat
  uncorr : Nat
  deriving DecidableEq, Repr, Inhabited

/-- Window counters (R122). -/
structure WinCtr where
  accepted : Nat
  completed : Nat
  late : Nat
  violations : Nat
  sent : Nat
  received : Nat
  suppressed : Nat
  deriving DecidableEq, Repr, Inhabited

/-- The last-discard record (R122). -/
structure Discard where
  reason : Nat
  win : Nat
  gen : Nat
  cur : Nat
  site : Nat
  core : Nat
  off : Nat
  step : Nat
  deriving DecidableEq, Repr, Inhabited

/-- KV counters (R149). -/
structure KvCtr where
  units : Nat
  faults : Nat
  refused : Nat
  deriving DecidableEq, Repr, Inhabited

/-- An event of a core held back until its bundle issues: code, core, data (R43: an illegal bundle raises nothing else). -/
structure HeldEv where
  ev : Nat
  data : Option Word
  deriving DecidableEq, Repr

/-- Everything of a core that a bundle may change, and so that an illegal bundle leaves unchanged (R43). -/
structure CoreA where
  s : Tab Word
  p : Tab Bool
  v : Tab Vec
  q : Tab Wide
  d : Tab Wide
  c : Tab (BitVec 32)
  lc : Tab LoopReg
  loops : List Nat                  -- active loop registers, innermost first (R55)
  pc : Nat
  rc : Nat
  issued : Nat                      -- the first run cycle in which the next bundle may issue
  icc : Nat
  bbuf : Tab Nat                    -- B buffer 2 * array + buffer, 4,896 bytes as a number
  swap : Nat                        -- swap bit per array (R83)
  acc : Tab Nat                     -- accumulator row 256 * array + row, 384 bytes as a number
  feed : List Nat                   -- A rows, head next, each up to 192 bytes as a number
  fmtA : Nat
  fmtB : Nat
  stage : Tab Stage
  duty : Word
  step : Word
  epoch : Word
  rnd : Word
  exf : Word
  gen : BitVec 128
  inflight : List InFlight
  lastT : Tab Nat                   -- 1 + last transcendental issue cycle per V unit, 0 none (R53)
  lastM : Nat                       -- 1 + last MMUL issue cycle, 0 none
  branch : Option (Nat × Nat)       -- taken branch: target, bundles left up to the last delay bundle (R54)
  skip : Option Nat                 -- a zero-count LOOP in the open bundle: where issue goes on (R55)
  run : RunState
  fcode : Nat
  frec : FaultRec
  waits : List Wait
  streams : List Stream
  nextSid : Nat
  posts : List Post
  win : Tab Window
  wctr : WaitCtr
  ra : RunAhead
  arith : ArithCtr
  wnctr : WinCtr
  kv : KvCtr
  sctr : ScratchCtr
  evq : List HeldEv                 -- events of the open bundle (R43)
  banks : List (List Nat)           -- scheduled accesses of this run cycle: their banks (R66)
  feedLog : List (Nat × Nat × Nat)  -- rows that kind-2 streams fed in this cycle: stream, slot, PC (R47)
  stallReq : Nat                    -- stall cycles that the open bundle asks of the die (R66)
  deriving DecidableEq, Repr

/-- A core. `snap` and `last` belong to the bundle that is issuing: the state before it and the last slot seen (none: no
bundle is open). `stores` holds the scheduled writes since the run cycle began, newest first (R60, R105). -/
structure Core where
  a : CoreA
  snap : Option CoreA
  stores : List CycW
  last : Option Nat
  parts : List UPart
  rot : Tab Nat                     -- rotation pointer per bank: 0 window, 1 general, 2 check (R106)
  granted : List (Agent × Nat)      -- unscheduled grants of this CK_CORE cycle
  stallBanks : List (Nat × Nat)     -- banks in conflict, with the stall cycles for which each still serves (R65, R66)
  stallLeft : Nat                   -- what is left of the stall that its last bundle asked for (R66)
  clearing : Nat                    -- CK_CORE cycles left of the scratchpad clear (R110)
  discard : Discard
  noticed : List Nat                -- source cores already sent a notice in this step (R117)
  base : Word                       -- stack region (R59)
  limit : Word
  stg : Nat                         -- staging size object (R69)
  pstride : Nat
  kvmap : Tab (BitVec 32)
  openSeen : Bool                   -- the current span has had an open cycle (R108)
  missDue : Nat                     -- spans that ended without one and are not yet counted
  winq : List Cell                  -- window writes taken from a core track and not yet checked (R114)
  loaded : Bool                     -- a program has been loaded (R37)
  ran : Bool                        -- it has been started since
  recvs : List RecvDue
  halfRead : Tab (List Byte)        -- per delayed send read: what its parts have read so far (R103, R106)
  deriving DecidableEq, Repr

def stage0 : Stage := ⟨.empty, 0, false, 0⟩
def window0 : Window := ⟨.closed, 0, 0, 0, 0, 0, []⟩

/-- A core after a core reset (R37, R38, R73): the stack region and other objects of a die that bring-up has just
started are zero. -/
def coreA0 : CoreA :=
  { s := [], p := [(0, true)], v := [], q := [], d := [], c := [], lc := [], loops := [], pc := 0, rc := 0, issued := 0, icc := 0,
    bbuf := [], swap := 0, acc := [], feed := [], fmtA := 0, fmtB := 0, stage := [], duty := 0, step := 0, epoch := 0,
    rnd := 0, exf := 0, gen := 1, inflight := [], lastT := [], lastM := 0, branch := none, skip := none, run := .stopped, fcode := 0,
    frec := default, waits := [], streams := [], nextSid := 0, posts := [], win := [], wctr := default, ra := default,
    arith := default, wnctr := default, kv := default, sctr := default, evq := [], banks := [], feedLog := [], stallReq := 0 }

def core0 : Core :=
  { a := coreA0, snap := none, stores := [], last := none, parts := [], rot := [], granted := [], stallBanks := [],
    stallLeft := 0, clearing := 0, discard := default, noticed := [], base := 0, limit := 0, stg := 0, pstride := 0, kvmap := [],
    openSeen := false, missDue := 0, winq := [], loaded := false, ran := false, recvs := [], halfRead := [] }

/-- Core `k` as bring-up starts it: DUTY names the core, with index 0 until an image gives one (R38; log 43). -/
def coreInit (k : Nat) : Core := { core0 with a := { coreA0 with duty := BitVec.ofNat 64 (k % 4) } }

end Sys2Proof.Machine
end

