-- ==== Sys2Proof/Machine/FabState.lean ====
section
/-! DEFINITION. The state of the fabric ports and of the meridian chain (R515-R545, R547). -/

namespace Sys2Proof.Machine

/-- Port counters (R545). -/
structure PortCtr where
  sent : Nat
  received : Nat
  checkFail : Nat
  replays : Nat
  holds : Nat
  discards : Nat
  attempts : Nat
  deriving DecidableEq, Repr, Inhabited

/-- A fabric port. `since` is the tick at which the phase began, `groups` has bit g while group g takes part, `width` the
PSTAT code. `fails` holds the ticks of failed trainings. `recvSeq` is the last SEQ received in order, if any; `nak` whether
this side asks for replay, `failRow` the failed replays in a row; `replay` the frames sent and not acknowledged, oldest
first, `resend` those being replayed; `perSec` per direction (0 in, 1 out) the second and its replays. `inq` and `egr` hold
the cells per VC, oldest first; `turn` the last VC served; `credit` what the sender holds per VC; `ret` the credits to
return. `pulled` is the tick at which the cable of an UP port was removed; from a cut until it is UP again the port has
`cut` set (R547). `authAt` is the tick from which a failed verification is tried again (R472). -/
structure FPort where
  phase : Nat
  since : Nat
  groups : Nat
  width : Nat
  session : Bool
  counter : Nat                       -- frames sent sealed since the session began
  seen : Nat                          -- frames received sealed since the session began
  sendKey : List Byte                 -- key and salt toward the partner, and from it (R465, R473)
  recvKey : List Byte
  nonce : List Byte                   -- the 16 bytes of this side's hello nonce (R527)
  peerNonce : List Byte               -- the second half of the partner's
  half : Option LinkFrame             -- the first frame of a pair that waits for its second (R520)
  sent : List (List Byte)             -- the frame or sealed pair last sent, as its bytes
  fails : List Nat
  sendSeq : Nat
  trainSeq : Nat                      -- SEQ of the frames of a training
  recvSeq : Option Nat
  nak : Bool
  failRow : Nat
  perSec : Tab (Nat × Nat)
  replay : List LinkFrame
  resend : List LinkFrame
  inq : Tab (List Cell)
  egr : Tab (List Cell)
  turn : Nat
  credit : Tab Nat
  ret : Tab Nat
  route : Tab (BitVec 32)
  slot : Tab (Tab Nat)
  inTag : Tab Nat
  egTag : Tab Nat
  egDst : Tab Nat
  limit : Tab Nat
  peer : List Byte                    -- the last hello received (R528)
  helloed : Bool                      -- a hello has come in this training
  prevSerial : List Byte
  held : Bool                         -- the expected peer holds the port at phase 6
  helloAt : Nat                       -- tick of the last hello sent
  lmSent : Bool                       -- the session's first link management cell has been sent (R527)
  pulled : Option Nat
  cut : Bool
  authAt : Option Nat
  framesUp : Nat
  ctr : PortCtr
  deriving DecidableEq, Repr

def fport0 : FPort :=
  { phase := 1, since := 0, groups := 0, width := 0, session := false, counter := 0, seen := 0, sendKey := [], recvKey := [], nonce := [],
    peerNonce := [], half := none, sent := [], fails := [], sendSeq := 0, trainSeq := 0, recvSeq := none,
    nak := false, failRow := 0, perSec := [], replay := [], resend := [], inq := [], egr := [], turn := 6, credit := [], ret := [],
    route := [], slot := [], inTag := [], egTag := [], egDst := [], limit := [], peer := [], helloed := false, prevSerial := [],
    held := false, helloAt := 0, lmSent := false, pulled := none, cut := false, authAt := none, framesUp := 0, ctr := default }

/-- The meridian chain (R537-R540): valid and bad frames in a row, lock, the last valid frame's TB with the tick at which the
frame ended, its HOPS, frames that were invalid or missing, the open latch, the tick from which a conflict is checked again,
whether the chain was found too long, and the last frame sent. -/
structure Meridian where
  good : Nat
  bad : Nat
  locked : Bool
  lastTb : Nat
  lastAt : Nat
  lastHops : Nat
  invalid : Nat
  openLatch : Bool
  conflict : Option Nat
  tooLong : Bool
  out : Option (BitVec 128)
  deriving DecidableEq, Repr

/-- A fabric cell on the ring: the member it is at, its output port, its way, the cell with its fabric header, and the port whose
ingress buffer it has still to leave (R522, R531). -/
structure RingCell where
  site : Nat
  port : Nat
  clockwise : Bool
  cell : Cell
  owes : Option Nat
  deriving DecidableEq, Repr

structure Fabric where
  port : Tab FPort
  mer : Meridian
  per : Nat
  bank : Nat
  sepoch : Nat
  switch : Option (Nat × Nat × Nat)   -- switch tick, bank, PER
  transit : List RingCell             -- cells crossing the ring, oldest first (R531)
  deriving DecidableEq, Repr

def meridian0 : Meridian :=
  { good := 0, bad := 0, locked := false, lastTb := 0, lastAt := 0, lastHops := 0, invalid := 0, openLatch := false,
    conflict := none, tooLong := false, out := none }

def fabric0 : Fabric :=
  { port := [], mer := meridian0, per := 1, bank := 0, sepoch := 0, switch := none, transit := [] }

end Sys2Proof.Machine
end

