-- ==== Sys2Proof/Machine/HostState.lean ====
section
/-! DEFINITION. The state of the host interface (R308-R335): ports, functions, queues, mailboxes, and what the panel
has written to host memory. -/

namespace Sys2Proof.Machine

/-- STATE of a queue (R317). -/
inductive QueueSt where
  | disabled | enabled | error | draining
  deriving DecidableEq, Repr

/-- A queue register entry (R317), its phase and sequence (R324), and the entries posted but not yet signalled with the
tick of the oldest (R328). `busy`: a command of the queue has started and not finished (R319). `dropped`: events that
found the ring full (R329). -/
structure Queue where
  base : Nat
  log2n : Nat
  vec : Nat
  cq : Nat
  en : Bool
  st : QueueSt
  head : Nat
  tail : Nat
  cnt : Nat
  time : Nat
  phase : Bool
  seq : Nat
  unsig : Nat
  oldest : Nat
  busy : Bool
  dropped : Nat
  deriving DecidableEq, Repr

def queue0 : Queue :=
  { base := 0, log2n := 0, vec := 0, cq := 0, en := false, st := .disabled, head := 0, tail := 0, cnt := 1, time := 0,
    phase := true, seq := 0, unsig := 0, oldest := 0, busy := false, dropped := 0 }

/-- A completion (R324) before its phase and sequence are known. -/
structure Completion where
  cq : Nat
  sq : Nat
  opc : Nat
  status : Nat
  cid : Nat
  info1 : Nat
  info2 : Nat
  htag : Nat
  qid : Option Nat
  deriving DecidableEq, Repr

/-- What the panel does to the host: a write of bytes at a host address, an MSI-X interrupt of a port's function, or the
answer to an aperture read. -/
inductive HostOut where
  | write (addr : Nat) (data : List Byte)
  | msix (port fn vec : Nat)
  | readData (port fn : Nat) (data : List Byte)
  | readRefused (port fn : Nat) (abort : Bool)   -- Unsupported Request, or Completer Abort (R316)
  deriving DecidableEq, Repr

/-- Function counters (R335). -/
structure FnCtr where
  taken : Nat
  posted : Nat
  rewritten : Nat
  dropped : Nat
  refusals : Nat
  crc : Nat
  dma : Nat
  events : Nat
  holds : Nat
  deriving DecidableEq, Repr, Inhabited

/-- A copy in progress (R323, R482). -/
structure Copy where
  id : Nat
  fn : Nat
  sq : Nat
  cid : Nat
  copyIn : Bool
  ga : Nat
  len : Nat
  block : Nat                         -- block now being checked
  data : List Byte                    -- COPY_IN: the bytes read from the host
  asked : Bool                        -- the check engine has been asked for this block
  writing : Bool                      -- COPY_IN: parts of the block are still to be performed (R107)
  retried : Bool
  haddr : Nat
  caddr : Nat
  rows : RowErrs                      -- COPY_IN: the faults of row words that it covers in part (R126)
  stop : Option (Nat × Nat)           -- a host failure met: the block it lies at, the status it gives (R323, R325)
  deriving DecidableEq, Repr

/-- One function: index 0 is the PF, n + 1 is VF n. -/
structure Fn where
  icause : Nat
  slices : Tab (BitVec 64)
  sq : Tab Queue
  cq : Tab Queue
  ring : Queue
  held : List Completion
  reqLen : Nat
  busy : Bool
  rspLen : Nat
  req : List Byte
  rsp : List Byte
  msix : Tab (Tab (BitVec 128))       -- per port, vectors 0 to 31
  pend : Tab Nat                      -- per port, pending bits
  unconfirmed : List (Nat × Nat × List Byte)  -- mirrored, not confirmed: queue (16 for the ring), host address, bytes (R332)
  ctr : FnCtr
  deriving DecidableEq, Repr

def fn0 : Fn :=
  { icause := 0, slices := [], sq := [], cq := [], ring := queue0, held := [], reqLen := 0, busy := false, rspLen := 0,
    req := [], rsp := [], msix := [], pend := [], unconfirmed := [], ctr := default }

/-- A PCI Express port (R308, R335). -/
structure Port where
  up : Bool
  rate : Nat
  width : Nat
  flit : Bool
  perst : Bool                        -- PERST_N asserted
  enumd : Bool                        -- the host has enabled bus mastering and MSI-X (R334)
  vfs : Nat                           -- NumVFs (R311)
  deriving DecidableEq, Repr

def port0 : Port := { up := false, rate := 0, width := 0, flit := false, perst := true, enumd := false, vfs := 0 }

/-- A service request that the hub has sent and not seen answered (R174): its TAG, the guest and TAG it was made for, and
the response cells still to come. -/
structure SvcOut where
  tag : Nat
  guest : Nat
  gtag : Nat
  left : Nat
  deriving DecidableEq, Repr

structure HostIf where
  port : Tab Port
  fn : Tab Fn
  copies : List Copy
  nextCopy : Nat
  taken : Bool
  takeovers : Nat
  svc : List SvcOut
  svcTag : Nat                        -- request number of the next service request
  out : List HostOut                  -- newest last
  deriving DecidableEq, Repr

def hostIf0 : HostIf := { port := [], fn := [], copies := [], nextCopy := 0, taken := false, takeovers := 0, svc := [], svcTag := 0, out := [] }

end Sys2Proof.Machine
end

