-- ==== Sys2Proof/Machine/OdState.lean ====
section
/-! DEFINITION. The state of the object dictionary and management access (R336-R361). Every setting of the panel that
is not another unit's own state is a value here, by index and sub-index, as the bytes it is written with; an unlisted
one holds its table's default. -/

namespace Sys2Proof.Machine

/-- Session level (R340). -/
inductive Level where
  | b | e | s
  deriving DecidableEq, Repr

/-- A staged write: index, sub-index, field, bytes (R346). -/
structure Staged where
  index : Nat
  sub : Nat
  field : Nat
  data : List Byte
  deriving DecidableEq, Repr

/-- An open segmented transfer (R349). -/
structure Transfer where
  write : Bool
  stage : Bool
  index : Nat
  sub : Nat
  field : Nat
  total : Nat
  data : List Byte                    -- bytes received, or the snapshot being read
  moved : Nat
  last : Nat                          -- tick of the last segment
  deriving DecidableEq, Repr

/-- A response (R355): abort code, data, total. -/
structure Resp where
  abort : Nat
  data : List Byte
  total : Nat
  more : Bool                         -- further segments follow
  commits : Nat
  deriving DecidableEq, Repr, Inhabited

/-- An event entry as reported and logged (R329). -/
structure Entry where
  ev : Nat
  sev : Nat
  site : Nat
  core : Nat
  tick : Nat
  data : BitVec 64
  supp : Nat
  eseq : Nat
  deriving DecidableEq, Repr

/-- A report sent and not yet acknowledged (R357). -/
structure Unacked where
  entry : Entry
  sentAt : Nat
  resends : Nat
  deriving DecidableEq, Repr

/-- A session: management sessions 0 to 15, mailbox sessions 16 (PF) to 32 (R350, R360). -/
structure Session where
  slot : Nat
  id : Nat
  level : Level
  scope : Nat                         -- 0xFF panel, else a partition
  last : Nat                          -- tick of the last request
  seq : Option Nat
  resp : Resp
  stage : List Staged
  recorded : List (Nat × Nat)         -- commit counts recorded at the first staged write of a block
  xfer : Option Transfer
  threshold : Nat
  eseq : Nat
  due : List Entry                    -- events to report
  unacked : List Unacked
  lost : Bool
  requests : Nat
  cred : Nat                          -- credential slot that opened it
  hdr : List Byte                     -- the header of the request last taken
  seg : Nat                           -- the segment it came on: 0 A, 1 B
  keys : List Byte                    -- K_req, then K_rsp; none on the mailbox (R465, R470)
  eph : List Byte                     -- the panel's ephemeral public key of its exchange (R463, R470)
  deriving DecidableEq, Repr

/-- Protocol counters (R360). -/
structure ProtoCtr where
  rxA : Nat
  rxB : Nat
  discarded : Nat
  dup : Nat
  badSeq : Nat
  sent : Nat
  resent : Nat
  lost : Nat
  down : Nat
  deriving DecidableEq, Repr, Inhabited

/-- Manager counters (R360). -/
structure MgrCtr where
  accepted : Nat
  stale : Nat
  staleEpoch : Nat
  deriving DecidableEq, Repr, Inhabited

structure Od where
  val : Tab (List Byte)               -- 256 * index + sub-index to bytes
  pendingLive : Tab (List Byte)       -- committed LIVE objects not yet applied everywhere: the values still in force (R339, R347)
  commits : Tab Nat                   -- commit count per block (R344)
  sessions : List Session
  nextId : Nat
  ended : List (Nat × Nat)            -- ended session IDs with the reason that ended them (R351)
  hme : Nat
  mgr : MgrCtr
  proto : ProtoCtr
  segDown : List Nat                  -- management segments counted down: 0 A, 1 B (R354)
  lastFrame : Tab Nat                 -- tick of the last valid frame or beacon per segment
  out : List (Nat × Nat × Resp)       -- responses sent: session ID, SEQ, response; newest last
  reports : List (Nat × Entry)        -- entries reported: session ID, entry; newest last
  frames : List (Nat × List Byte)     -- the frames sent, each with its segment, their data enciphered; newest last
  net : List (Nat × List Byte)        -- Neighbor Discovery and echo answers per attachment; newest last
  deriving DecidableEq, Repr

def od0 : Od :=
  { val := [], pendingLive := [], commits := [], sessions := [], nextId := 1, ended := [], hme := 0, mgr := default,
    proto := default, segDown := [], lastFrame := [], out := [], reports := [], frames := [], net := [] }

end Sys2Proof.Machine
end

