-- ==== Sys2Proof/Machine/HubState.lean ====
section
/-! DEFINITION. The state of the control network (R285-R307), of the state book and of the event log (R494-R514,
R564). -/

namespace Sys2Proof.Machine

/-- A unit state (R514), in the order of its codes. -/
inductive USt where
  | absent | failed | hamper | ready | assigned | running | fenced | suspect
  deriving DecidableEq, Repr

/-- A state book record (R514). `own` is false while the state came from the container alone (R495); `takeover` marks a
fence by takeover (R505); `probes` holds the ticks of its probes. -/
structure URec where
  st : USt
  prior : USt
  cause : Nat
  tick : Nat
  evid : Nat
  probes : List Nat
  own : Bool
  takeover : Bool
  deriving DecidableEq, Repr

/-- A raised event on its way: code, site (0xFF none), core, unit key, data. -/
structure Ev where
  ev : Nat
  site : Nat
  core : Nat
  key : Nat
  data : BitVec 64
  deriving DecidableEq, Repr

/-- The span in which an event is limited (R564): a second, a minute, a step (until released), for good. -/
inductive Span where
  | always | second | minute | step | once
  deriving DecidableEq, Repr

/-- A suppression latch (R564): code and unit, the span index of the last entry raised, whether it still limits, and
the repeats suppressed since. -/
structure Latch where
  ev : Nat
  key : Nat
  idx : Nat
  live : Bool
  supp : Nat
  deriving DecidableEq, Repr

/-- Control counters of a node (R307). -/
structure CtlCtr where
  sent : Nat
  received : Nat
  corrected : Nat
  replays : Nat
  dups : Nat
  old : Nat
  undeliverable : Nat
  delayed : Nat
  deferred : Nat
  ignored : Nat
  reserved : Nat
  deriving DecidableEq, Repr, Inhabited

/-- A bulk session at a target (R305): space, core mask, base offset, length in units, and the units written. -/
structure BulkIn where
  sess : Nat
  space : Nat
  mask : Nat
  base : Nat
  len : Nat
  refused : Bool
  units : Tab (BitVec 64)
  deriving DecidableEq, Repr

/-- A control node (R285). `linkDown` lists the ports whose link is declared down, `probed` those of them over which a
probe of the hub has come (R288); `seen` holds per hub the newest
MSEQ and the sequences seen of the 4,096 before it (R292); `urgent` is the paced queue of R296. `out` holds the messages that wait
at each port, by 8 * port + class, with the tick at which they came (R294, R297); those under port 5 have found no live port
(R293). `wire` holds per port the messages that its link has begun to bring, as words, and `rx` how many flits of the first have
come (R287, R289); `inbox` the messages delivered, in arrival order (R294). -/
structure Node where
  linkDown : List Nat
  probed : List Nat
  groups : Nat
  route : Tab Nat
  routeWrites : Nat
  seen : Tab (Nat × List Nat)
  hub : Nat
  gen : Nat
  urgent : List Pkt
  lastUrgent : Option Nat
  fails : Tab Nat                     -- consecutive replays of one message per port (R288)
  replay : Tab (List Pkt)             -- last 16 messages sent per port (R287)
  out : Tab (List (Pkt × Nat))
  wire : Tab (List (BitVec 128))
  rx : Tab Nat
  inbox : List Pkt
  beatAt : Option Nat                 -- tick of the last beat sent (R299)
  bulk : List BulkIn
  errs : Nat                          -- errors since the last beat (R304)
  ctr : CtlCtr
  deriving DecidableEq, Repr

def node0 : Node :=
  { linkDown := [], probed := [], groups := 0, route := [], routeWrites := 0, seen := [], hub := 0, gen := 0, urgent := [],
    lastUrgent := none, fails := [], replay := [], out := [], wire := [], rx := [], inbox := [],
    beatAt := none, bulk := [], errs := 0, ctr := default }

/-- An epoch set that the hub has sent and not every router has acknowledged (R301). `ledger`: a query whose ledger
epoch is written when it completes (R260). -/
structure EpochOut where
  seq : Nat
  part : Nat
  trun : Bool
  tqid : Nat
  epoch : Nat
  missing : List Nat
  sentAt : Nat
  tries : Nat
  deriving DecidableEq, Repr

/-- A LIVE set sent to a die and not acknowledged (R302): commit number, site, region, its writes. -/
structure LiveOut where
  num : Nat
  site : Nat
  region : Nat
  writes : List (Nat × Nat × Nat × BitVec 64)
  deriving DecidableEq, Repr

/-- A bulk session at the hub (R305). -/
structure BulkOut where
  sess : Nat
  group : Nat
  targets : List Nat
  done : List Nat
  crc : List Nat
  incomplete : List Nat
  data : Tab (BitVec 64)
  check : BitVec 64
  resends : Tab Nat
  deriving DecidableEq, Repr

/-- The nodes of the control network and the hubs' side of it. -/
structure Ctl where
  node : Tab Node
  mseq : Nat                          -- multicast sequence of hub A (R289)
  mseqB : Nat                         -- and of hub B
  setSeq : Nat
  epochs : List EpochOut
  lives : List LiveOut
  liveNum : Nat
  bulks : List BulkOut
  lastBulk : Nat
  lastBeat : Tab Nat                  -- tick of the last NODE_BEAT per die
  missed : Tab Nat
  hubBeatA : Nat                      -- tick of the last hub A beat at hub B
  hubMissed : Nat
  linkReport : Option Nat             -- tick of a link-down report whose routes are not yet rewritten
  reads : List (Nat × Nat × Nat × Option (BitVec 64))  -- CFG_READ: tag, table, index, value returned
  deriving DecidableEq, Repr

def ctl0 : Ctl :=
  { node := [], mseq := 0, mseqB := 0, setSeq := 0, epochs := [], lives := [], liveNum := 0, bulks := [],
    lastBulk := 0, lastBeat := [], missed := [], hubBeatA := 0, hubMissed := 0, linkReport := none, reads := [] }

/-- A probe in progress (R500). -/
structure Probe where
  key : Nat
  started : Nat
  deriving DecidableEq, Repr

/-- The state book, the event log and what recovery keeps (R494-R514). -/
structure Book where
  unit : Tab URec                     -- by unit key
  pendingEvid : List (Nat × Nat)      -- evidence reported to the hub and not yet acted on: unit key, EV or cause
  planMiss : Tab (List Nat)           -- ticks of step-plan misses per site (R498)
  log : List Entry
  eseq : Nat
  lost : Nat                          -- entries overwritten unread
  readTo : Nat                        -- entries below this log sequence have been read
  latch : List Latch
  conflicts : Nat
  probesRun : Nat
  probesFailed : Nat
  probes : List Probe
  asked : List Nat                    -- units for which REINSTATE asks a probe (R505)
  expelPorts : List Nat               -- ports that EXPEL fenced (R504)
  expelled : Bool
  active : Nat                        -- 0 hub A, 1 hub B
  tgen : Nat
  tookOver : Bool
  takeDue : Bool                      -- hub B has decided to take over (R507)
  standbyLost : Bool
  deriving DecidableEq, Repr

def book0 : Book :=
  { unit := [], pendingEvid := [], planMiss := [], log := [], eseq := 0, lost := 0, readTo := 0, latch := [],
    conflicts := 0, probesRun := 0, probesFailed := 0, probes := [], asked := [], expelPorts := [], expelled := false, active := 0, tgen := 0,
    tookOver := false, takeDue := false, standbyLost := false }

end Sys2Proof.Machine
end

