-- ==== Sys2Proof/Machine/Mem.lean ====
section
/-! DEFINITION. The panel's byte memory: stacks, scratchpads and program stores, one list of cells keyed by global
address (R28). An unlisted address reads as zero: what bring-up phase 7 and a core reset leave (R123, R110); see log 6.
The list is canonical: addresses strictly rising, no cell holding zero. -/

namespace Sys2Proof.Machine

/-- The panel's memory. -/
abbrev Mem := List Host.Cell

/-- What an unlisted address reads as (R110, R123; log 6). -/
def memDefault : Byte := 0

/-- One byte. -/
def Mem.read : Mem → Nat → Byte
  | [], _ => memDefault
  | (j, x) :: t, a => if j = a then x else Mem.read t a

/-- Put a cell at its place among cells of other addresses. -/
def Mem.insert (a : Nat) (b : Byte) : Mem → Mem
  | [] => [(a, b)]
  | (j, x) :: t => if a < j then (a, b) :: (j, x) :: t else (j, x) :: Mem.insert a b t

/-- Write one byte; writing the value an unlisted address reads as removes the cell. -/
def Mem.write (m : Mem) (a : Nat) (b : Byte) : Mem :=
  if b = memDefault then m.filter (fun c => decide (c.1 ≠ a))
  else Mem.insert a b (m.filter (fun c => decide (c.1 ≠ a)))

/-- `n` bytes from `a` up. -/
def Mem.readN (m : Mem) (a : Nat) : Nat → List Byte
  | 0 => []
  | n + 1 => m.read a :: Mem.readN m (a + 1) n

/-- Write bytes from `a` up. -/
def Mem.writeL (m : Mem) (a : Nat) : List Byte → Mem
  | [] => m
  | b :: bs => Mem.writeL (m.write a b) (a + 1) bs

/-- `n` bytes from `a` up as a little-endian number. -/
def Mem.num (m : Mem) (a n : Nat) : Nat := leNat (m.readN a n)

/-- Write the `n` low bytes of a number, little-endian. -/
def Mem.setNum (m : Mem) (a n x : Nat) : Mem := m.writeL a (leBytes n x)

/-- Zero every byte of [lo, hi). -/
def Mem.clear (m : Mem) (lo hi : Nat) : Mem := m.filter (fun c => decide (c.1 < lo ∨ hi ≤ c.1))

/-- The canonical form: addresses strictly rising, no cell equal to what an unlisted address reads as. -/
def Mem.wf : Mem → Bool
  | [] => true
  | [c] => decide (c.2 ≠ memDefault)
  | c :: d :: t => decide (c.2 ≠ memDefault) && decide (c.1 < d.1) && Mem.wf (d :: t)

end Sys2Proof.Machine
end

