-- ==== Sys2Proof/Machine/NetState.lean ====
section
/-! DEFINITION. The state of a die router (R154-R178), its operator units (R182-R205) and its links (R169). -/

namespace Sys2Proof.Machine

/-- Router counters (R178). -/
structure RouterCtr where
  forwarded : Nat
  lateFirings : Nat
  lateSum : Nat
  maxLate : Nat
  creditHold : Nat
  absentCell : Nat
  lateSends : Nat
  lateRecvs : Nat
  misdelivered : Nat
  boundary : Nat
  service : Nat
  starved : Nat
  deriving DecidableEq, Repr, Inhabited

/-- Operator counters (R205). -/
structure OpCtr where
  taken : Nat
  results : Nat
  staleUnit : Nat
  staleDest : Nat
  mismatch : Nat
  order : Nat
  range : Nat
  corrections : Nat
  deriving DecidableEq, Repr, Inhabited

/-- A flit in the sender's replay buffer: its number, the number it acknowledges, its cells with their tracks, and its credits
with track and VC as 8 * track + VC (R169). -/
structure Flit where
  seq : Nat
  ack : Nat
  cells : List (Nat × Cell)
  credits : List (Nat × Nat)
  deriving DecidableEq, Repr

/-- A die edge's end of its link (R169): as a receiver, `next` is the flit sequence number expected, `fails` the consecutive
failures of one sequence number, `perSec` the replays of the second `sec`; as a sender, `txSeq` is the number of the next new
flit, `txAt` the VCO period from which the next flit may leave, `buf` the replay buffer, oldest first. -/
structure Link where
  txSeq : Nat
  txAt : Nat
  buf : List Flit
  next : Nat
  waiting : Bool
  fails : Nat
  sec : Nat
  perSec : Nat
  degraded : Bool
  failed : Bool
  flits : Nat
  crc : Nat
  replays : Nat
  longest : Nat
  deriving DecidableEq, Repr, Inhabited

/-- A formed result waiting in a unit's queue: the cycle from which it may be taken, and the cell (R185). -/
structure OpResult where
  ready : Nat
  formed : Bool
  cell : Cell
  deriving DecidableEq, Repr

/-- An operator unit's running state (R184, R185, R194, R195, R197). `kept` holds, for each operand taken of the group
in progress, its payload or none for a contribution that is not kept; `pairs` the merge store, each pair with its
input; `lastKept` the last pair kept of each input. -/
structure OpUnit where
  opr : Nat
  trun : Bool
  tqid : Nat
  cep : Nat
  count : Nat
  ge : Nat
  kept : List (Option (BitVec 320))
  range : Bool
  outj : Nat
  pairs : List Nat
  lastKept : Tab Nat
  queue : List OpResult
  lastReady : Nat
  deriving DecidableEq, Repr

/-- A destination epoch register (R198). -/
structure DestEpoch where
  trun : Bool
  tqid : Nat
  epoch : Nat
  deriving DecidableEq, Repr, Inhabited

/-- A cell in the N engine's buffer: its ordinal on the track, the clock from which it is there, and itself (R104, R158). -/
structure SendCell where
  ord : Nat
  ready : Nat
  cell : Cell
  deriving DecidableEq, Repr

/-- A die router. Input queues are keyed 8 * track code + VC, send buffers by 16 * core + track, service queues by edge
(0 north to 3 west). -/
structure Router where
  hop : Tab (BitVec 64)
  seg : Tab (BitVec 128)
  committed : Nat                     -- bit n: segment n is committed
  exec : Option Nat                   -- the segment in execution
  drained : Bool
  cyc : Nat                           -- run cycles from cycle 0 of the step (R155)
  fired : Tab Nat                     -- repetitions of each entry that have fired
  late : Nat                          -- router lateness of the step (R171)
  stalled : Option (Nat × Nat)        -- entry and repetition of NET_STALLED (R172)
  inq : Tab (List Cell)
  sendBuf : Tab (List SendCell)       -- cells read and not yet fired (R158)
  sent : Tab Nat                      -- cells of an edge output track and VC whose credits are out (R168)
  vcLim : Tab Nat
  permit : Tab Nat
  transit : Tab (BitVec 32)
  held : List (Nat × Cell)            -- cells the transit domain holds: entry, cell (R164)
  svcq : Tab (List Cell)
  agent : List Cell
  reply : List Cell                   -- responses of the agent that wait for a service queue
  tx : Tab (List (Nat × Cell))        -- per edge: cells put on its output tracks that no flit has taken yet (R157, R169)
  wire : Tab (List Cell)              -- per edge input track: cells of accepted flits on their way to the VC queue (R166)
  creditIn : List (Nat × Nat)         -- credits of accepted flits not yet counted: 8 * code + VC, number (R168, R169)
  svcSince : Tab Nat                  -- per TAG: CK_CORE cycle at which a service cell came to this router (R175)
  svcWaited : List Nat                -- TAGs of service cells already counted as starved
  busyOut : List Nat                  -- outputs that have taken a cell in this cycle, inputs that have given one (R156)
  busyIn : List Nat
  link : Tab Link
  ctr : RouterCtr
  refusal : Nat × Nat × Nat × Nat     -- segment, entry, check, tick of the last refused commit (R178)
  udesc : Tab (BitVec 256)            -- unit descriptors, 16 * segment + unit (R182)
  unit : Tab OpUnit
  dest : Tab DestEpoch
  octr : OpCtr
  lastEpochSeq : Option Nat           -- last applied EPOCH_SET sequence (R301)
  deriving DecidableEq, Repr

def link0 : Link := default

def opUnit0 : OpUnit :=
  { opr := 0, trun := false, tqid := 0, cep := 0, count := 0, ge := 0, kept := [], range := false, outj := 0,
    pairs := [], lastKept := [], queue := [], lastReady := 0 }

def router0 : Router :=
  { hop := [], seg := [], committed := 0, exec := none, drained := false, cyc := 0, fired := [], late := 0,
    stalled := none, inq := [], sendBuf := [], sent := [], vcLim := [], permit := [], transit := [],
    held := [], svcq := [], agent := [], reply := [], tx := [], wire := [], creditIn := [], svcSince := [], svcWaited := [], busyOut := [], busyIn := [], link := [], ctr := default, refusal := (0, 0, 0, 0),
    udesc := [], unit := [], dest := [], octr := default, lastEpochSeq := none }

end Sys2Proof.Machine
end

