-- ==== Sys2Proof/Machine/PartState.lean ====
section
/-! DEFINITION. The state of partitions and resets (R438-R455), of security (R456-R480) and of the check engines
(R481-R493). -/

namespace Sys2Proof.Machine

/-- Phase of a partition (R439). -/
inductive PartPhase where
  | free | formed | packing
  deriving DecidableEq, Repr

/-- The pack-up in progress (R447): its step, whether it is a DISSOLVE, the ticks at which it and its step began, the
drain limit in force for it, the members FAILED at its start, and the dies whose zeroise, reset or key load is awaited. -/
structure PackUp where
  step : Nat
  dissolve : Bool
  start : Nat
  since : Nat
  limit : Nat
  failed0 : List Nat
  zeroise : List Nat
  resets : List Nat
  loads : List Nat
  deriving DecidableEq, Repr, Inhabited

/-- The partition status record of R455. -/
structure PartStat where
  keys : Nat
  resets : Nat
  lastStep : Nat
  drain : Nat
  absorbed : Nat
  cut : Nat
  total : Nat
  failed : Nat
  deriving DecidableEq, Repr, Inhabited

structure Part where
  phase : PartPhase
  sealed : Bool
  members : List Nat
  keyGen : Nat                        -- key generation since panel reset
  key : Option Nat                    -- the stack key in force: key 1, then key 2 above it (R465)
  pack : Option PackUp
  loading : List (Nat × Nat)          -- base dies with the tick of their last key load (R467)
  removing : List Nat                 -- removed dies whose wipe is in progress (R440)
  waiting : Option (BitVec 256)       -- the members of a formation that waits for the entropy source (R464)
  stat : PartStat
  deriving DecidableEq, Repr

def part0 : Part :=
  { phase := .free, sealed := false, members := [], keyGen := 0, key := none, pack := none, loading := [],
    removing := [], waiting := none, stat := default }

/-- Reset counters of a site (R455). -/
structure ResetCtr where
  core : Nat
  die : Nat
  full : Nat
  kept : Nat
  transit : Nat
  deriving DecidableEq, Repr, Inhabited

/-- A die reset in progress (R445, R446): whether it keeps the transit domain, and the partition whose reset it is
part of. -/
structure DieReset where
  keep : Bool
  part : Option Nat
  removal : Option Nat
  deriving DecidableEq, Repr

/-- A firmware image in NOR (R458): the SHA-384 of its header and body, empty for the factory's image (log 7); validity,
version, SVN, signing slot. -/
structure Image where
  digest : List Byte
  valid : Bool
  version : Nat
  svn : Nat
  slot : Nat
  deriving DecidableEq, Repr

/-- An image write in progress (R474): the image, the session that writes it, the sectors programmed. -/
structure ImageWrite where
  image : Nat
  slot : Nat
  sectors : Nat
  deriving DecidableEq, Repr

/-- A pending session of step 2 of R470. -/
structure PendingAuth where
  id : Nat
  slot : Nat
  cred : Nat
  level : Nat
  scope : Nat
  since : Nat
  mailbox : Bool
  keys : List Byte                    -- K_req, then K_rsp (R465)
  eph : List Byte                     -- the panel's ephemeral public key (R470)
  said : List Byte                    -- T2 followed by the Alias signature, which step 3 signs (R470)
  deriving DecidableEq, Repr

/-- A credential slot's failures in the current minute and the tick at which its lockout ends (R470). -/
structure CredLock where
  minute : Nat
  fails : Nat
  until_ : Option Nat
  deriving DecidableEq, Repr, Inhabited

/-- A guest request held by checks 5 and 6 of R478, with the tick it was held. -/
structure HeldReq where
  req : Cell
  since : Nat
  deriving DecidableEq, Repr

/-- A guest's firewall (R476-R478, R480). -/
structure Guest where
  linkUp : Bool
  rate : Nat
  advanced : Bool
  bucket : Nat
  filledAt : Nat
  outstanding : List Nat              -- TAGs outstanding
  held : List HeldReq
  second : Nat
  inSecond : Nat
  admitted : Nat
  bytes : Nat
  refusals : Nat
  heldTicks : Nat
  fences : Nat
  answers : List Cell                 -- response cells given to the guest, under its own TAGs; newest last
  deriving DecidableEq, Repr

def guest0 : Guest :=
  { linkUp := false, rate := 0, advanced := false, bucket := 0, filledAt := 0, outstanding := [], held := [], second := 0,
    inSecond := 0, admitted := 0, bytes := 0, refusals := 0, heldTicks := 0, fences := 0, answers := [] }

/-- The security state. The keys that this hub and its dies hold are bytes; the identities that signing needs are the boot ROM's
(log 7). -/
structure Sec where
  meas : Tab (Tab (List Byte))        -- per hub, M0 to M7
  cdi : Tab (List Byte)               -- per hub, in the security engine (R461)
  alias_ : Tab Nat                    -- Alias private scalar per hub, in the security engine (R461)
  aliasCert : Tab (List (List Byte))  -- per hub, what the Alias certificate says: the two public keys, M0, M1, the signature's nonce (R461)
  udsLocked : List Nat                -- hubs whose UDS lock is set
  image : Tab Image
  imgWrite : Option ImageWrite
  minSvn : Nat
  revoked : Nat                       -- bit per signing slot
  programmed : Nat
  owned : Bool
  healthy : Tab Bool                  -- entropy source per hub; unlisted healthy
  reports : Tab Nat                   -- reports signed per hub since its reset
  report : Tab (List (List Byte))     -- per session slot, what the report of its last nonce says (R463)
  keysMade : Nat
  authed : Nat
  authFails : Nat
  pendingAuth : List PendingAuth
  lock : Tab CredLock
  guest : Tab Guest
  transport : Tab (List Byte)         -- transport keys by 256 * hub + site (R465, R466)
  deriving DecidableEq, Repr

def image0 : Image := ⟨[], true, 0, 0, 0⟩

def sec0 : Sec :=
  { meas := [], cdi := [], alias_ := [], aliasCert := [], udsLocked := [], image := [], imgWrite := none, minSvn := 0, revoked := 0,
    programmed := 1, owned := false, healthy := [], reports := [], report := [], keysMade := 0,
    authed := 0, authFails := 0, pendingAuth := [], lock := [], guest := [], transport := [] }

/-- A result entry (R491). -/
structure CheckRes where
  state : Nat
  reason : Nat
  last : Nat
  alive : Nat
  crc : Nat
  bytes : Nat
  tick : Nat
  deriving DecidableEq, Repr, Inhabited

/-- Why the hub asked for a scan on channel 0 (R485): the readback or the egress read of a copy's block, or the
verification of a directory entry. -/
inductive ScanFor where
  | user (part : Option Nat)
  | ingress (copy block : Nat)
  | egress (copy block : Nat)
  | shard (entry : Nat) (bits : BitVec 128)
  deriving DecidableEq, Repr

/-- A descriptor waiting or running (R486). -/
structure CheckDesc where
  desc : BitVec 256
  why : ScanFor
  deriving DecidableEq, Repr

/-- A result of channel 0: what it was for, the reason (0 good), the CRC, and the bytes read, which an egress block carries to
the hub (R483). -/
structure ScanRes where
  why : ScanFor
  reason : Nat
  crc : BitVec 64
  data : List Byte
  deriving DecidableEq, Repr

structure CheckEng where
  queue0 : List CheckDesc
  chan : Tab CheckDesc                -- outstanding descriptors of channels 1 to 15
  running : Option Nat                -- channel being served
  turn : Nat                          -- last of channels 1 to 15 served
  ready : List ScanRes                -- channel 0 results the hub has not yet acted on
  scan : Option ScanRun               -- the scratchpad range being read (R106)
  res : Tab CheckRes
  accepted : Nat
  repeats : Nat
  skips : Nat
  errors : Nat
  discarded : Nat
  bytes : Nat
  deriving DecidableEq, Repr

def checkRes0 : CheckRes := { state := 0, reason := 0, last := 0xFF, alive := 0, crc := 0, bytes := 0, tick := 0 }

def checkEng0 : CheckEng :=
  { queue0 := [], chan := [], running := none, turn := 15, ready := [], scan := none, res := [], accepted := 0, repeats := 0, skips := 0,
    errors := 0, discarded := 0, bytes := 0 }

/-- Chain counters (R493). -/
structure ChainCtr where
  inBlocks : Nat
  crc32 : Nat
  readback : Nat
  second : Nat
  outBlocks : Nat
  outMis : Nat
  deriving DecidableEq, Repr, Inhabited

end Sys2Proof.Machine
end

