-- ==== Sys2Proof/Machine/PowerState.lean ====
section
/-! DEFINITION. The state of power delivery, the energy ledger, nonvolatile records and the thermal model
(R379-R412). Energies are whole microjoules, temperatures tenths of a degree, resistances and factors exact quotients. -/

namespace Sys2Proof.Machine

/-- An exact quotient. -/
structure Q where
  num : Int
  den : Nat
  deriving DecidableEq, Repr

/-- How far the enabling of a block has come (R386). -/
inductive BlkSt where
  | off | enabling | up | failed
  deriving DecidableEq, Repr

/-- A power block (R384-R391, R406-R409, R412). -/
structure Blk where
  st : BlkSt
  since : Nat
  vcode : Nat
  vmin : Bool                         -- the last frame was VALID
  frames : Nat
  frame : BitVec 32                   -- the last frame sent on VMIN_N (R384)
  lowFor : Nat                        -- ticks VIR has been outside its range, and above 1.70 V (R379)
  highFor : Nat
  vout : Nat
  iout : Nat
  temp : Int
  pec : Nat                           -- polls in a row that failed PEC (R385)
  badPoll : Bool                      -- a poll has failed since the last calibration (R391)
  e10 : Nat                           -- energy at VIR since the last calibration and in this second, µJ; counts since then
  c10 : Nat
  eSec : Nat
  calOk : Bool                        -- a calibration is in force; else the factory factor
  factor : Q
  collapses : Nat
  faults : Nat
  collapsedAt : Option Nat
  driver : Option Nat                 -- designated die (R384)
  estJ : Bool                         -- an estimate is in force; else the factory value (R406)
  estD : Bool
  sumJ : Int                          -- sums and counts of this second's hottest readings (R406)
  cntJ : Nat
  sumD : Int
  cntD : Nat
  rthJ : Q
  rthD : Q
  cap : Nat
  fJ : Int
  fD : Int
  held : Bool
  heldAt : Nat
  holds : Nat
  shifts : Nat
  above : Nat                          -- windows over its own cap (R407)
  power : Nat                         -- measured power of the last window, W
  deriving DecidableEq, Repr

/-- A block that is off. -/
def blk0 : Blk :=
  { st := .off, since := 0, vcode := 0, vmin := false, frames := 0, frame := 0,
    lowFor := 0, highFor := 0, vout := 0, iout := 0, temp := 0,
    pec := 0, badPoll := false, e10 := 0, c10 := 0, eSec := 0, calOk := false, factor := ⟨0, 1⟩, collapses := 0, faults := 0,
    collapsedAt := none, driver := none, estJ := false, estD := false, sumJ := 0, cntJ := 0, sumD := 0, cntD := 0,
    rthJ := ⟨0, 1⟩, rthD := ⟨0, 1⟩, cap := 0, fJ := 0, fD := 0, held := false, heldAt := 0, holds := 0, shifts := 0,
    above := 0, power := 0 }

/-- A partition's ledger account (R389, R390, R399). `queue` holds the regions waiting at condition 4, in order. -/
structure Acct where
  balance : Int
  depth : Nat
  debits : Nat
  lastDebits : Nat
  measured : Nat
  admitted : Nat
  oversize : Nat
  waitTicks : Nat
  queue : List Nat
  deriving DecidableEq, Repr, Inhabited

/-- A persistent record's slot in MRAM: its 32-byte header, and its body by object (R395). -/
structure NvSlot where
  hdr : List Byte
  body : List (Nat × List Byte)       -- object keys with their values
  deriving DecidableEq, Repr, Inhabited

/-- A fault manager's command (R358). -/
structure MgrCmd where
  cmd : Nat
  kind : Nat
  unit : Nat
  epoch : Nat
  reason : Nat
  manager : Nat
  deriving DecidableEq, Repr

/-- What waits for a record to be stored (R348, R359): values by object key, the blocks whose commit it is, the request to
answer (session slot, session ID, SEQ), whether the values were staged, a manager's command. -/
structure NvJob where
  puts : List (Nat × List Byte)
  blocks : List Nat
  reply : Option (Nat × Nat × Nat)
  staged : Bool
  cmd : Option MgrCmd
  index : Nat                         -- of a commit of several sub-indices: the index, and those still to come (R346)
  rest : List Nat
  deriving DecidableEq, Repr

def job0 : NvJob := { puts := [], blocks := [], reply := none, staged := false, cmd := none, index := 0, rest := [] }

/-- A nonvolatile write, waiting or begun (R394-R396): record, the SEQ it carries once begun, the body, provisional at hub B,
and what waits for it. -/
structure NvWrite where
  id : Nat
  seq : Nat
  body : List (Nat × List Byte)
  begun : Bool
  job : NvJob
  deriving DecidableEq, Repr

structure Power where
  blk : Tab Blk
  acct : Tab Acct
  share : Tab Nat                     -- shares in force this window (R393)
  depthN : Nat
  cap : Nat                           -- power cap in force
  thermalCap : Nat
  effCap : Nat
  thermalGoverns : Bool
  common : Nat
  panelW : Nat
  total : Nat
  setpoint : Nat
  vsb12 : Nat                         -- mV
  holdOnly : Bool                     -- the hubs run from the hold-up bank
  chosen : Nat                        -- step chosen by the governor
  atDepth : Nat
  overCap : Nat
  over95 : Nat
  under90 : Nat
  changes : Nat
  capDowns : Nat
  ceiling : Nat
  freeWindows : Nat                   -- consecutive windows with no block held (R409)
  forced : Nat
  trips : Nat
  bank : Nat                          -- bank voltage, mV
  bankC : Nat                         -- measured capacitance, µF
  checked : Nat
  refused : Nat
  lastEst : Nat
  nv : Tab (NvSlot × NvSlot)
  writes : List NvWrite
  inlet : Int                         -- 0.01 °C
  outlet : Int
  inletRead : Bool                    -- a reading has succeeded since panel reset (R419)
  inletOk : Bool
  outletOk : Bool
  inFail : Nat
  outFail : Nat
  failed : Nat
  rise : Nat
  inletHotAt : Option Nat
  inletHeld : Bool
  allHeld : Bool                      -- every block held until its first forecast after a takeover (R410)
  inRange : Bool                      -- the inlet was last read from 20 °C to 40 °C (R402)
  sumC : Int                          -- sum and count of this second's coolant readings (R406)
  cntC : Nat
  dieUJ : Tab Nat                     -- energy measured per die in the last window (R391)
  skip : Bool                         -- the next window start neither corrects nor refills: it follows a takeover (R393)
  guard : Nat                         -- thermal settings in force (R412)
  holdLimit : Nat
  deriving DecidableEq, Repr

def power0 : Power :=
  { blk := [], acct := [], share := [], depthN := 2, cap := 16000, thermalCap := 0, effCap := 16000,
    thermalGoverns := false, common := 0, panelW := 0, total := 0, setpoint := 1500, vsb12 := 12000, holdOnly := false,
    chosen := 6, atDepth := 0, overCap := 0, over95 := 0, under90 := 0, changes := 0, capDowns := 0, ceiling := 7,
    freeWindows := 0, forced := 0, trips := 0, bank := 12000, bankC := 12000, checked := 0, refused := 0, lastEst := 0,
    nv := [], writes := [], inlet := 2500, outlet := 2500, inletRead := false, inletOk := true, outletOk := true, inFail := 0, outFail := 0,
    failed := 0, rise := 0, inletHotAt := none, inletHeld := false, allHeld := false,
    inRange := true, sumC := 0, cntC := 0, dieUJ := [], skip := false, guard := 5, holdLimit := 100 }

end Sys2Proof.Machine
end

