-- ==== Sys2Proof/Machine/RegionState.lean ====
section
/-! DEFINITION. The state of a region (R206-R233), of its retrieval loop (R256, R267) and of its sequence
(R268-R284). -/

namespace Sys2Proof.Machine

/-- Phase of a region (R208). -/
inductive Phase where
  | free | defined | armed | active | frozen | ended
  deriving DecidableEq, Repr

/-- A committed checkpoint slot (R227). -/
structure CkSlot where
  step : Nat
  barrier : Nat
  valid : Bool
  deriving DecidableEq, Repr, Inhabited

/-- Step counters (R233). -/
structure StepCtr where
  completed : Nat
  overruns : Nat
  maxSlip : Nat
  ovStep : Nat
  ovSlip : Nat
  ovSlack : Nat
  admission : Nat
  freezes : Nat
  restarts : Nat
  discards : Nat
  deriving DecidableEq, Repr, Inhabited

/-- A bound lane of a batch: the query and its bound epoch (R256). -/
structure Lane where
  lane : Nat
  qid : Nat
  epoch : Nat
  empty : Bool
  deriving DecidableEq, Repr

/-- A bound batch (R255, R256, R258): its lanes, the members whose Sieve has reported its pass done, and the tick from which its
result blocks may be read, 0 until its completion barrier. -/
structure Batch where
  lanes : List Lane
  scanned : List Nat
  endAt : Nat
  deriving DecidableEq, Repr

/-- The sequence of a region (R268, R273, R284): the length in force; the lengths staged, oldest first, and those that a release
under way applies (R231, R347); the map entries written as (core, page, value) (R276); whether the conflict of R277 has been
raised since the last release. -/
structure Seq where
  length : Nat
  staged : List Nat
  sending : List Nat
  written : List (Nat × Nat × BitVec 32)
  raised : Bool
  pages : Nat
  applied : Nat
  longest : Nat
  conflicts : Nat
  deriving DecidableEq, Repr, Inhabited

/-- How far a RESTART has come (R230): core resets under way; the epoch set with a set sequence awaits its acknowledgements;
the restore step's release is due. -/
inductive RestartStage where
  | resets | epochs (seq : Nat) | releasing
  deriving DecidableEq, Repr

/-- A RESTART accepted and not yet released: its stage, the slot it uses, each duty's generation block (R229, R230). -/
structure Restart where
  stage : RestartStage
  slot : Nat
  gens : List (Nat × List Byte)
  deriving DecidableEq, Repr

/-- How far the release of the current barrier has come (R214): waiting for arrivals; conditions 1 and 2 hold and LIVE
values are being applied; waiting for the ledger and the holds; admitted. -/
inductive RelStage where
  | arriving | live | admission | admitted
  deriving DecidableEq, Repr

structure Region where
  phase : Phase
  part : Nat
  row0 : Nat
  col0 : Nat
  row1 : Nat
  col1 : Nat
  image : Nat
  restore : Nat
  count : Nat                         -- members at the definition
  members : List Nat                  -- sites that hold the region's duties now
  duty : Tab Nat                      -- duty index to site (R207)
  subst : Tab Nat                     -- member site to substitute site, where there is one (R223)
  moved : List (Nat × Nat)            -- duties moved by substitution, with their sites (R225)
  step : Nat
  cur : Nat                           -- descriptor in force
  restoring : Bool                    -- the restore step is running (R230)
  cause : Nat
  freezing : Bool
  immediate : Bool
  later : Nat                         -- later freeze triggers (R220)
  stopped : List Nat                  -- footprint sites that have stopped (R222)
  lastCell : Nat                      -- tick of the last region cell to arrive while freezing
  bar : Option Nat                    -- the barrier now being arrived at
  arrived : List Nat
  firstTick : Nat                     -- first arrival, or the freeze trigger (R216)
  relTick : Nat                       -- start tick of the last release
  stage : RelStage
  admitTick : Nat                     -- tick at which condition 3 came to hold
  slip : Nat                          -- step slip of the last step that ended (R218)
  slots : Tab CkSlot
  variant : List (Nat × Nat)          -- variant in force: duty, site (R226)
  staging : List (Nat × Nat)
  liveAcks : List Nat                 -- members whose LIVE acknowledgement is awaited (R231)
  ctr : StepCtr
  batches : List Batch                -- oldest first (R256)
  nsh : Tab Nat                       -- entries of each member's shard list at the last binding (R240, R256)
  seq : Seq
  lim : Nat × Nat × Nat               -- barrier timeout, release lead, step watchdog in force (R216, R233)
  forced : Bool                       -- a hold is overridden for the waiting step (R409)
  starting : Bool                     -- the release under way is that of START (R209)
  restart : Option Restart            -- the RESTART under way (R230)
  pendKeys : List Nat                 -- committed LIVE objects not yet applied to this region, as 256 * index + sub (R231)
  sending : List (Nat × List Byte)    -- those being applied, with their values
  deriving DecidableEq, Repr

def region0 : Region :=
  { phase := .free, part := 0, row0 := 0, col0 := 0, row1 := 0, col1 := 0, image := 0, restore := 0, count := 0,
    members := [], duty := [], subst := [], moved := [], step := 0, cur := 0, restoring := false, cause := 0, freezing := false,
    immediate := false, later := 0, stopped := [], lastCell := 0, bar := none, arrived := [], firstTick := 0,
    relTick := 0, stage := .arriving, admitTick := 0, slip := 0, slots := [], variant := [], staging := [],
    liveAcks := [], ctr := default, batches := [], nsh := [], seq := default, lim := (200000, 64, 100000000), forced := false, starting := false, restart := none, pendKeys := [], sending := [] }

/-- What a compute die knows of its region and step: the release it waits to start, the barrier its unanswered arrival
names, whether it has stopped under a freeze, and the CK_CORE count at its step's start tick (R213, R215, R218). -/
structure DieRun where
  region : Option Nat
  rel : Option (Nat × Bool × Nat)     -- released barrier, restore flag, start tick
  sent : Option Nat
  frozen : Bool
  tick : Nat                          -- start tick of the step in progress
  clkT : Nat                          -- CK_CORE count at the first edge at or after it
  running : Bool                      -- a step is in progress
  stopAsked : Option (Nat × Nat)      -- FREEZE received: region, cause
  liveSet : Tab (List (Nat × Nat × Nat × BitVec 64))  -- staged LIVE writes by commit number (R302)
  ignored : Nat                       -- releases ignored (R300, R307)
  live : Tab (List Byte)              -- LIVE values in force at the die, 256 * index + sub; unlisted: the default (R231)
  clocked : Option Nat                -- arrival count of the step in progress, where the die has arrived (R218)
  fresh : Bool                        -- the release awaited is that of START or of a restart (R209, R230)
  sentAt : Nat                        -- tick of the last arrival (R217)
  deriving DecidableEq, Repr

def dieRun0 : DieRun :=
  { region := none, rel := none, sent := none, frozen := false, tick := 0, clkT := 0, running := false,
    stopAsked := none, liveSet := [], ignored := 0, live := [], clocked := none, fresh := false, sentAt := 0 }

end Sys2Proof.Machine
end

