-- ==== Sys2Proof/Machine/SieveState.lean ====
section
/-! DEFINITION. The state of a Sieve engine (R241-R250), the Shard Directory (R237, R239) and the Query Ledger
(R252-R255). -/

namespace Sys2Proof.Machine

/-- SSTAT's state (R241). -/
inductive SieveSt where
  | idle | scanning | ready | aborted
  deriving DecidableEq, Repr

/-- Sieve counters (R267). -/
structure SieveCtr where
  passes : Nat
  bytes : Nat
  codes : Nat
  pairs : Nat
  errors : Nat
  waits : Nat
  waitTicks : Nat
  aborted : Nat
  deriving DecidableEq, Repr, Inhabited

/-- A Sieve. `armed` is set by GO until the scan begins (R243, R249); `cur` is the descriptor of the pass that scans. -/
structure Sieve where
  qmem : Tab (BitVec 8)               -- query memory, 64 lanes of 4 KiB (R241)
  lane : Tab (BitVec 256)
  pass : BitVec 512
  armed : Bool
  cur : BitVec 512
  shard : Tab (BitVec 64)
  st : SieveSt
  buffer : Nat                        -- buffer the next pass uses (R249)
  passes : Nat
  errMask : Nat
  heaps : Tab (List Nat)              -- per lane, its pairs in rank order (R247)
  emit : Tab (List Cell)              -- emission buffers 0 and 1: cells that have not fired
  emitCode : Tab Nat                  -- per buffer, the router input code at which its cells enter (R250)
  mask : Nat                          -- lane errors of the pass in progress (R262)
  heldFrom : Option Nat               -- tick from which a pass waits for its buffer (R249)
  ctr : SieveCtr
  deriving DecidableEq, Repr

def sieve0 : Sieve :=
  { qmem := [], lane := [], pass := 0, armed := false, cur := 0, shard := [], st := .idle, buffer := 0, passes := 0, errMask := 0, heaps := [],
    emit := [], emitCode := [], mask := 0, heldFrom := none, ctr := default }

/-- A lane's table entry; one never written since the reset is EMPTY (R242, R443). -/
def Sieve.laneAt (v : Sieve) (n : Nat) : BitVec 256 := Tab.get (BitVec.ofNat 256 (2 ^ 255)) v.lane n

/-- State of a directory entry (R239), in the codes of R267. -/
inductive ShardSt where
  | empty | verifying | usable | bad | lost
  deriving DecidableEq, Repr

structure DirEntry where
  bits : BitVec 128
  st : ShardSt
  deriving DecidableEq, Repr

def dirEntry0 : DirEntry := ⟨0, .empty⟩

/-- State of a query (R255). -/
inductive QuerySt where
  | free | queued | scanning | merging | reranking | ending
  deriving DecidableEq, Repr

/-- A Query Ledger entry (R252) with what the hub holds beside it (R321): the function and queue that submitted it, its
CID, result buffer and payloads, whether its completion has been written, and the shard counts of its scan. -/
structure Query where
  st : QuerySt
  epoch : Nat
  part : Nat
  km1 : Nat
  status : Nat
  sfirst : Nat
  scm1 : Nat
  alive : Nat
  lane : Nat
  region : Nat
  prof : Nat
  deadline : Nat
  rcq : Nat
  htag : Nat
  fn : Nat
  sq : Nat
  cid : Nat
  raddr : Nat
  rlen : Nat
  pay1 : List Byte
  pay2 : List Byte
  posted : Bool                       -- its result payload has been written and its completion posted or held
  written : Bool
  silent : Bool                       -- cancelled by an FLR: no completion is written (R331)
  scanned : Nat
  skipped : Nat
  deriving DecidableEq, Repr

def query0 : Query :=
  { st := .free, epoch := 0, part := 0, km1 := 0, status := 0, sfirst := 0, scm1 := 0, alive := 0, lane := 0,
    region := 0, prof := 0, deadline := 0, rcq := 0, htag := 0, fn := 0, sq := 0, cid := 0, raddr := 0, rlen := 0,
    pay1 := [], pay2 := [], posted := false, written := false, silent := false, scanned := 0, skipped := 0 }

/-- Ledger counters of a partition (R267). -/
structure LedgerCtr where
  submitted : Nat
  refused : Nat
  completed : Tab Nat                 -- by status 0 to 7
  batches : Nat
  lanes : Nat
  deriving DecidableEq, Repr, Inhabited

/-- The retrieval state of the hubs. `order` is the submission order of queued and bound queries. -/
structure Retrieval where
  dir : Tab DirEntry
  query : Tab Query
  order : List Nat
  dirSel : Nat
  qSel : Nat
  ctr : Tab LedgerCtr
  verify : List Nat                   -- entries whose verification has still to be asked for (R239, R264)
  deriving DecidableEq, Repr

def retrieval0 : Retrieval := { dir := [], query := [], order := [], dirSel := 0, qSel := 0, ctr := [], verify := [] }

end Sys2Proof.Machine
end

