-- ==== Sys2Proof/Machine/StackState.lean ====
section
/-! DEFINITION. The state of a bonded memory stack and its base die (R123-R149). The bytes themselves are in the
panel's memory; here are the requests in flight, the tracker, the spare map and the key ranges. -/

namespace Sys2Proof.Machine

/-- Who asked for a row word (R128). -/
inductive Requester where
  | core | sra | sieve | ga | scrub
  deriving DecidableEq, Repr

/-- How a row word's lane checks came out (R127). -/
inductive RowOutcome where
  | unchecked | clean | parity | rebuilt | uncorr
  deriving DecidableEq, Repr

/-- What the check logic makes of a row word as it reads (R127): the lanes that fail, parity being bit 8, whether a rebuilt lane
passes its check, and the plaintext delivered. -/
structure RowChk where
  fails : BitVec 9
  rebuilt : Bool
  data : Nat
  deriving DecidableEq, Repr

abbrev RowChks := List (Nat × RowChk)

/-- A granted row-word read (R130, R135): core, stream, unit, index within the unit, address, grant in run cycles and
in CK_CORE cycles, data as it will be delivered, and whether the data has arrived. -/
structure RowReq where
  core : Nat
  sid : Nat
  slot : Nat
  unit : Nat
  idx : Nat
  addr : Nat
  dest : Nat
  rc : Nat
  clk : Nat
  data : Nat
  sra : Bool
  dropped : Bool
  out : RowOutcome
  deriving DecidableEq, Repr

/-- A correction tracker entry (R138): the logical row of a layer, its count and first tick. -/
structure Track where
  ch : Nat
  bank : Nat
  row : Nat
  layer : Nat
  count : Nat
  first : Nat
  deriving DecidableEq, Repr

/-- A retirement whose copy is in progress (R139): the entry being prepared and its place in the map. -/
structure Retire where
  slot : Nat
  entry : BitVec 64
  old : Option Nat
  deriving DecidableEq, Repr

/-- A valid key-range entry (R144): [base, limit) in units of 64 MiB, partition. -/
structure KeyRange where
  base : Nat
  limit : Nat
  part : Nat
  deriving DecidableEq, Repr

/-- Stack counters (R149). -/
structure StackCtr where
  corrected : Nat
  uncorr : Nat
  retired : Nat
  exhausted : Nat
  replaced : Nat
  scrubs : Nat
  deferred : Nat
  chan : Nat
  bank : Nat
  late : Nat
  deriving DecidableEq, Repr, Inhabited

/-- The last stack error (R149). -/
structure StackErr where
  kind : Nat
  addr : Nat
  lanes : Nat
  req : Nat
  core : Nat
  tick : Nat
  deriving DecidableEq, Repr, Inhabited

structure Stack where
  reqs : List RowReq
  granted : Nat × List Nat            -- aligned span of 8 cycles and the channels granted in it (R131)
  passAt : Option Nat                 -- CK_CORE cycle of the last grant pass
  rows : Tab (Nat × Nat × Nat)        -- per CH * 32 + BANK: last granted ROW + 1, span of 64, changes in it
  fast : Bool
  tracker : List Track
  spare : Tab (BitVec 64)
  used : Tab Nat                      -- spare rows ever used, keyed (layer * 16 + ch) * 32 + bank
  retiring : List Retire
  mapPending : Bool                   -- the spare map still has to be stored in MRAM
  writeback : List Nat                -- row words whose correction write-back waits (R137)
  refreshPos : Nat
  scrubPos : Nat
  level : Nat
  dram : List (Option Int)            -- DRAM sensor readings in 0.1 °C
  hot : Bool                          -- level 3 forced by a DRAM sensor (R143)
  ranges : List KeyRange              -- the valid entries of the table of 16 (R144)
  keys : Tab Nat                      -- the key register of each partition: key 1 then key 2, 0 where none is held (R144, R467)
  tags : Tab Nat                      -- the key under which each row word was last written (log 7)
  ctr : StackCtr
  err : StackErr
  deriving DecidableEq, Repr

def stack0 : Stack :=
  { reqs := [], granted := (0, []), passAt := none, rows := [], fast := false, tracker := [], spare := [], used := [], retiring := [],
    mapPending := false, writeback := [], refreshPos := 0, scrubPos := 0, level := 0, dram := [], hot := false,
    ranges := [], keys := [], tags := [], ctr := default, err := default }

end Sys2Proof.Machine
end

