-- ==== Sys2Proof/Syntax.lean ====
section
/-! DEFINITION. The commands of the panel: one constructor per row of the opcode table. Cores are numbered
4 * site + core. What a command takes beside its unit is what comes to the unit from outside it: slot words, cells,
messages, and the outcome of physical checks. -/

namespace Sys2Proof

/-- A command (R35 to R564: the rows of the opcode table). -/
inductive Instr where
  /-- NOP A slot holding opcode 0x00 issues and does nothing. (R41) -/
  | nop (k : Nat) (sl : Slot) (opc : BitVec 8)
  /-- ADD The scalar slot adds two scalar registers modulo 2^64. (R44) -/
  | add (k : Nat) (w : SlotWord)
  /-- SUB The scalar slot subtracts two scalar registers. (R44) -/
  | sub (k : Nat) (w : SlotWord)
  /-- ADDI The scalar slot adds a sign-extended immediate to a scalar register. (R44) -/
  | addi (k : Nat) (w : SlotWord)
  /-- AND The scalar slot forms the bitwise AND of two registers. (R44) -/
  | and (k : Nat) (w : SlotWord)
  /-- OR The scalar slot forms the bitwise OR of two registers. (R44) -/
  | or (k : Nat) (w : SlotWord)
  /-- XOR The scalar slot forms the bitwise XOR of two registers. (R44) -/
  | xor (k : Nat) (w : SlotWord)
  /-- SHL The scalar slot shifts left by a register amount. (R44) -/
  | shl (k : Nat) (w : SlotWord)
  /-- SHR The scalar slot shifts right logically. (R44) -/
  | shr (k : Nat) (w : SlotWord)
  /-- SAR The scalar slot shifts right arithmetically. (R44) -/
  | sar (k : Nat) (w : SlotWord)
  /-- SHLI The scalar slot shifts left by an immediate amount. (R44) -/
  | shli (k : Nat) (w : SlotWord)
  /-- MUL The scalar slot writes the low 64 bits of a product. (R44) -/
  | mul (k : Nat) (w : SlotWord)
  /-- MULHU The scalar slot writes the high 64 bits of an unsigned product. (R44) -/
  | mulhu (k : Nat) (w : SlotWord)
  /-- MIN The scalar slot writes the signed minimum. (R44) -/
  | min (k : Nat) (w : SlotWord)
  /-- MAX The scalar slot writes the signed maximum. (R44) -/
  | max (k : Nat) (w : SlotWord)
  /-- CMPEQ The scalar slot writes equality of two registers to a predicate. (R44) -/
  | cmpeq (k : Nat) (w : SlotWord)
  /-- CMPLT The scalar slot writes signed less-than to a predicate. (R44) -/
  | cmplt (k : Nat) (w : SlotWord)
  /-- CMPLTU The scalar slot writes unsigned less-than to a predicate. (R44) -/
  | cmpltu (k : Nat) (w : SlotWord)
  /-- CMPLTI The scalar slot compares a register with an immediate into a predicate. (R44) -/
  | cmplti (k : Nat) (w : SlotWord)
  /-- LI The scalar slot loads a sign-extended 45-bit immediate. (R44) -/
  | li (k : Nat) (w : SlotWord)
  /-- LIH The scalar slot loads the high 19 bits of a register. (R44) -/
  | lih (k : Nat) (w : SlotWord)
  /-- MFS The scalar slot reads a special register. (R44) -/
  | mfs (k : Nat) (w : SlotWord)
  /-- MTS The scalar slot writes a special register, such as a seed or RNDMODE. (R44) -/
  | mts (k : Nat) (w : SlotWord)
  /-- VADD A vector unit adds lane-wise. (R45) -/
  | vadd (k : Nat) (u : VUnit) (w : SlotWord)
  /-- VSUB A vector unit subtracts lane-wise. (R45) -/
  | vsub (k : Nat) (u : VUnit) (w : SlotWord)
  /-- VMUL A vector unit multiplies lane-wise. (R45) -/
  | vmul (k : Nat) (u : VUnit) (w : SlotWord)
  /-- VFMA A vector unit performs a fused multiply-add with one rounding. (R45) -/
  | vfma (k : Nat) (u : VUnit) (w : SlotWord)
  /-- VMAX A vector unit takes the lane-wise maximum. (R45) -/
  | vmax (k : Nat) (u : VUnit) (w : SlotWord)
  /-- VMIN A vector unit takes the lane-wise minimum. (R45) -/
  | vmin (k : Nat) (u : VUnit) (w : SlotWord)
  /-- VAND A vector unit forms a bitwise AND. (R45) -/
  | vand (k : Nat) (u : VUnit) (w : SlotWord)
  /-- VOR A vector unit forms a bitwise OR. (R45) -/
  | vor (k : Nat) (u : VUnit) (w : SlotWord)
  /-- VXOR A vector unit forms a bitwise XOR. (R45) -/
  | vxor (k : Nat) (u : VUnit) (w : SlotWord)
  /-- VSHUF A vector unit shuffles bytes by an index vector. (R45) -/
  | vshuf (k : Nat) (u : VUnit) (w : SlotWord)
  /-- VBCAST A vector unit broadcasts a scalar to every lane. (R45) -/
  | vbcast (k : Nat) (u : VUnit) (w : SlotWord)
  /-- VCMPLT A vector unit writes a less-than lane mask. (R45) -/
  | vcmplt (k : Nat) (u : VUnit) (w : SlotWord)
  /-- VCMPEQ A vector unit writes an equality lane mask. (R45) -/
  | vcmpeq (k : Nat) (u : VUnit) (w : SlotWord)
  /-- VSEL A vector unit selects bytes under a lane mask. (R45) -/
  | vsel (k : Nat) (u : VUnit) (w : SlotWord)
  /-- VEXP2 A vector unit computes a correctly rounded 2^a in FP32. (R88) -/
  | vexp2 (k : Nat) (u : VUnit) (w : SlotWord)
  /-- VLOG2 A vector unit computes a correctly rounded log2 in FP32. (R88) -/
  | vlog2 (k : Nat) (u : VUnit) (w : SlotWord)
  /-- VRSQRT A vector unit computes a correctly rounded reciprocal square root. (R88) -/
  | vrsqrt (k : Nat) (u : VUnit) (w : SlotWord)
  /-- VRCP A vector unit computes a correctly rounded reciprocal. (R88) -/
  | vrcp (k : Nat) (u : VUnit) (w : SlotWord)
  /-- VCVT A vector unit converts lanes between types under RNDMODE, drawing stochastic words in mode 2. (R91) -/
  | vcvt (k : Nat) (u : VUnit) (w : SlotWord)
  /-- VRMAX A vector unit writes the maximum over all lanes to every lane. (R45) -/
  | vrmax (k : Nat) (u : VUnit) (w : SlotWord)
  /-- VRSUM A vector unit sums 64 FP32 lanes in a fixed pairwise tree. (R87) -/
  | vrsum (k : Nat) (u : VUnit) (w : SlotWord)
  /-- VTOEX80 A vector unit converts 24 FP32 lanes to EX80 payloads, setting the range flag as needed. (R95) -/
  | vtoex80 (k : Nat) (u : VUnit) (w : SlotWord)
  /-- VFROMEX80 A vector unit converts EX80 payloads back to FP32 with one rounding. (R97) -/
  | vfromex80 (k : Nat) (u : VUnit) (w : SlotWord)
  /-- MFMT The matrix slot sets the A and B operand formats for later MMULs. (R46) -/
  | mfmt (k : Nat) (w : SlotWord)
  /-- MMUL The matrix slot pops an A row and accumulates its product with each masked B tile. (R85) -/
  | mmul (k : Nat) (w : SlotWord)
  /-- MSWAP The matrix slot swaps active and shadow B buffers of masked arrays. (R46) -/
  | mswap (k : Nat) (w : SlotWord)
  /-- MCLR The matrix slot clears a range of accumulator rows to +0.0. (R46) -/
  | mclr (k : Nat) (w : SlotWord)
  /-- LDV A stream slot loads 256 scratchpad bytes into a vector register. (R48) -/
  | ldv (k : Nat) (u : LUnit) (w : SlotWord) (ecc : Ecc)
  /-- STV A stream slot stores a vector register to the scratchpad. (R48) -/
  | stv (k : Nat) (u : LUnit) (w : SlotWord)
  /-- LDQ A stream slot loads a lane mask from the scratchpad. (R48) -/
  | ldq (k : Nat) (u : LUnit) (w : SlotWord) (ecc : Ecc)
  /-- STQ A stream slot stores a lane mask to the scratchpad. (R48) -/
  | stq (k : Nat) (u : LUnit) (w : SlotWord)
  /-- LDESC A stream slot loads a 32-byte descriptor into the descriptor pool. (R48) -/
  | ldesc (k : Nat) (u : LUnit) (w : SlotWord) (ecc : Ecc)
  /-- SRUN A stream slot starts a stream from a descriptor after checking every unit range. (R58) -/
  | srun (k : Nat) (u : LUnit) (w : SlotWord)
  /-- SRA A stream slot starts a run-ahead stack read into a staging slot. (R70) -/
  | sra (k : Nat) (u : LUnit) (w : SlotWord)
  /-- SDROP A stream slot drops the staging slots named in a mask. (R70) -/
  | sdrop (k : Nat) (u : LUnit) (w : SlotWord)
  /-- LDS A stream slot loads 256 bytes from a staging slot according to its state. (R70) -/
  | lds (k : Nat) (u : LUnit) (w : SlotWord) (ecc : Ecc)
  /-- NSEND The network slot posts a send descriptor and binds its cells to hop-table entries. (R158) -/
  | nsend (k : Nat) (w : SlotWord)
  /-- NRECV The network slot posts a receive descriptor and binds it to hop-table entries. (R158) -/
  | nrecv (k : Nat) (w : SlotWord)
  /-- NRSTC The network slot clears an arrival counter. (R49) -/
  | nrstc (k : Nat) (w : SlotWord)
  /-- NWOPEN The network slot opens a window from an open descriptor after its checks. (R112) -/
  | nwopen (k : Nat) (w : SlotWord)
  /-- NWCLOSE The network slot begins the two-phase close of a window and advances its generation. (R116) -/
  | nwclose (k : Nat) (w : SlotWord)
  /-- BR The control slot branches to an immediate bundle after two delay bundles. (R54) -/
  | br (k : Nat) (w : SlotWord)
  /-- BRL The control slot branches and links the return index into s63. (R50) -/
  | brl (k : Nat) (w : SlotWord)
  /-- BRX The control slot branches to a bundle held in a register. (R50) -/
  | brx (k : Nat) (w : SlotWord)
  /-- LOOP The control slot starts a hardware loop with a count and end bundle. (R55) -/
  | loop (k : Nat) (w : SlotWord)
  /-- WAITC The control slot waits until an arrival counter reaches a value. (R62) -/
  | waitc (k : Nat) (w : SlotWord)
  /-- WAITS The control slot waits until every posted send has left the core. (R62) -/
  | waits (k : Nat) (w : SlotWord)
  /-- BAR The control slot arrives at a barrier and waits for its release. (R212) -/
  | bar (k : Nat) (w : SlotWord)
  /-- EVT The control slot raises a program event carrying a register. (R50) -/
  | evt (k : Nat) (w : SlotWord)
  /-- HALT The control slot stops issue and awaits completion of the core's work. (R50) -/
  | halt (k : Nat) (w : SlotWord)
  /-- RESULT_WRITEBACK An issued operation writes its destination at the end of its latency. (R51) -/
  | resultWriteback (k : Nat)
  /-- STREAM_UNIT_DELIVERY A stream unit reaches its destination at its delivery cycle. (R58) -/
  | streamUnitDelivery (k : Nat) (sid : Nat) (ecc : Ecc)
  /-- WAIT_END A wait ends once its condition holds and no register write is in flight. (R62) -/
  | waitEnd (k : Nat)
  /-- HALT_COMPLETE The program ends once every stream, send and write of the core has completed. (R50) -/
  | haltComplete (k : Nat)
  /-- SCRATCHPAD_CLEAR_DONE The 2,048 cc scratchpad clear of a core reset completes and waiting unscheduled requests proceed. (R110) -/
  | scratchpadClearDone (k : Nat)
  /-- CONTROL_SPACE_SPECIAL_WRITE A control-space write to a special register of a stopped core acts by register. (R563) -/
  | controlSpaceSpecialWrite (k : Nat) (n : Nat) (x : Word)
  /-- PROGRAM_STORE_WRITE A write to a program store is performed only while its core is stopped. (R56) -/
  | programStoreWrite (k : Nat) (off : Nat) (data : List Byte)
  /-- REGISTER_WRITE A write to a register with no row of its own is checked and performed or refused. (R30) -/
  | registerWrite (t : RegTarget) (data : List Byte)
  /-- UNSCHEDULED_PART_GRANT A waiting unscheduled part wins a free bank and is performed. (R106) -/
  | unscheduledPartGrant (k : Nat) (bank : Nat) (ecc : Ecc)
  /-- UNSCHEDULED_STARVED An unscheduled part's wait passes the starvation threshold. (R108) -/
  | unscheduledStarved (k : Nat)
  /-- OPEN_CYCLE_MISS An aligned span ends with no open cycle and a miss is counted. (R108) -/
  | openCycleMiss (k : Nat)
  /-- WINDOW_INGRESS_CHECK A window write cell taken from a core track is checked and accepted or discarded. (R114) -/
  | windowIngressCheck (k : Nat)
  /-- WINDOW_CLOSE_COMPLETE A closing window's in-flight count reaches zero and it becomes CLOSED. (R116) -/
  | windowCloseComplete (k : Nat) (w : Nat)
  /-- STACK_REQUEST_GRANT Pending row-word requests are granted per core and die rules, or deferred. (R130) -/
  | stackRequestGrant (cs : Nat)
  /-- STACK_READ_CHECK A row word read in the base die is classified by its lane checks. (R127) -/
  | stackReadCheck (k : Nat) (sid : Nat) (unit : Nat) (idx : Nat) (err : RowErr)
  /-- STACK_ROW_WORD_RELEASE The landing buffer releases a row word at its fixed point. (R135) -/
  | stackRowWordRelease (k : Nat) (sid : Nat) (unit : Nat) (idx : Nat)
  /-- CORRECTION_WRITEBACK A corrected row word is rewritten in a reserved slot. (R137) -/
  | correctionWriteback (cs : Nat)
  /-- REFRESH The base die refreshes rows within the period of its coupling level. (R137) -/
  | refresh (cs : Nat)
  /-- SCRUB Scrub reads a row word through the check path within the scrub period. (R137) -/
  | scrub (cs : Nat) (err : RowErr)
  /-- ROW_RETIRED A retirement copy completes, the spare entry takes force and the map store begins. (R139) -/
  | rowRetired (cs : Nat) (slot : Nat)
  /-- SPARE_MAP_STORE_RETRY The hub retries a refused spare-map store each second. (R139) -/
  | spareMapStoreRetry (cs : Nat)
  /-- COUPLING_SAMPLE The hardwired sensor path sets the stack coupling level every 1 µs. (R141) -/
  | couplingSample (cs : Nat) (t : Int) (dram : List (Option Int))
  /-- COUPLING_LEVEL_SET On T96 and T64 the hub sets each stack's level every 250 µs. (R143) -/
  | couplingLevelSet (cs : Nat) (t : Int) (dram : List (Option Int))
  /-- KV_MAP_ENTRY_WRITE A write to a KV page map entry is accepted or refused by entry and core state. (R147) -/
  | kvMapEntryWrite (k : Nat) (page : Nat) (x : BitVec 32)
  /-- HOP_ENTRY_FIRE A hop-table entry fires once its order, cell and output conditions hold. (R156) -/
  | hopEntryFire (mesh : Nat) (e : Nat) (ecc : WordChk)
  /-- OPERATOR_RESULT_READY An operator unit's result cell enters its result queue D cycles after the group completes. (R185) -/
  | operatorResultReady (cs : Nat) (u : Nat)
  /-- SEND_PAYLOAD_READ A posted send reads a cell payload at s − 8, or late at unscheduled rank. (R158) -/
  | sendPayloadRead (k : Nat) (track : Nat) (ecc : Ecc)
  /-- CELL_ARRIVAL A cell arrives on an edge input track and enters its VC queue or is discarded. (R167) -/
  | cellArrival (mesh : Nat) (code : Nat) (c : Cell)
  /-- CREDIT_RETURN A returned credit reduces the sender's track and VC counts. (R168) -/
  | creditReturn (mesh : Nat) (out : Nat) (vc : Nat) (n : Nat)
  /-- LINK_FLIT_RECEIVE A link flit is checked; a CRC failure starts a replay. (R169) -/
  | linkFlitReceive (mesh : Nat) (edge : Nat) (seq : Nat) (ack : Nat) (ok : Bool) (ns : Nat)
  /-- TRANSIT_FORWARD The transit domain forwards a cell from its entry's input to its output. (R164) -/
  | transitForward (cs : Nat) (i : Nat)
  /-- NET_STALLED An unfired entry reaches the network wait limit and the region freezes. (R172) -/
  | netStalled (mesh : Nat) (e : Nat)
  /-- SERVICE_CELL_QUEUE A VC 7 cell moves to a service queue or the service agent. (R175) -/
  | serviceCellQueue (mesh : Nat) (code : Nat)
  /-- SERVICE_STARVED A service cell waits at a router past the starvation threshold. (R175) -/
  | serviceStarved (mesh : Nat)
  /-- SERVICE_READ A service agent performs a read request and returns response cells. (R174) -/
  | serviceRead (mesh : Nat) (err : RowErr)
  /-- SERVICE_WRITE A service agent performs a write request and returns one response. (R174) -/
  | serviceWrite (mesh : Nat) (err : RowErr)
  /-- SERVICE_RESPONSE A service response reaches the hub and completes its access. (R174) -/
  | serviceResponse (hub : Nat)
  /-- SEGMENT_COMMIT A segment is checked and committed, or refused with the first failing check. (R160) -/
  | segmentCommit (mesh : Nat) (n : Nat)
  /-- HOP_TABLE_WRITE A write to a hop entry or segment descriptor uncommits its segment or is refused. (R161) -/
  | hopTableWrite (mesh : Nat) (e : Nat) (x : BitVec 128)
  /-- UNIT_DESCRIPTOR_WRITE A write to an operator unit descriptor uncommits its segment or is refused. (R182) -/
  | unitDescriptorWrite (cs : Nat) (n : Nat) (u : Nat) (x : BitVec 256)
  /-- REGION_RECORD_COMMIT Committing a region record defines the region or is refused. (R206) -/
  | regionRecordCommit (r : Nat) (part : Nat) (row0 : Nat) (col0 : Nat) (row1 : Nat) (col1 : Nat) (image : Nat) (restore : Nat)
  /-- ARM A DEFINED region is armed once descriptor 0 and windows are ready. (R209) -/
  | arm (r : Nat)
  /-- START An ARMED region is released at barrier 0. (R209) -/
  | start (r : Nat)
  /-- FREEZE_COMMAND The FREEZE command triggers a freeze of an ACTIVE region. (R220) -/
  | freezeCommand (r : Nat)
  /-- RESTART A FROZEN region is reset, its epoch advanced and its restore step released. (R230) -/
  | restart (r : Nat)
  /-- REGION_DISSOLVE A region's cores are reset and its members returned; the region becomes FREE. (R209) -/
  | regionDissolve (r : Nat)
  /-- DIE_BARRIER_ARRIVAL A member die meets its arrival conditions and sends ARRIVE. (R213) -/
  | dieBarrierArrival (cs : Nat)
  /-- ARRIVE An ARRIVE message merges masks or reaches the barrier root. (R300) -/
  | arrive (node : Nat) (k : Pkt)
  /-- BARRIER_RELEASE The root decides a release once all conditions hold and names its start tick. (R214) -/
  | barrierRelease (r : Nat)
  /-- RELEASE A RELEASE message reaches a waiting die and arms its start tick. (R300) -/
  | release (node : Nat) (k : Pkt)
  /-- STEP_START At the start tick each die starts run cycle 0 and its segment, incrementing STEP. (R215) -/
  | stepStart (cs : Nat)
  /-- BARRIER_TIMEOUT The barrier timeout expires and the region freezes immediately. (R216) -/
  | barrierTimeout (r : Nat)
  /-- STEP_WATCHDOG The step watchdog expires and the region freezes immediately. (R216) -/
  | stepWatchdog (r : Nat)
  /-- FREEZE An urgent FREEZE message stops issue on a die's cores. (R221) -/
  | freeze (node : Nat) (k : Pkt)
  /-- FREEZE_COMPLETE Every footprint die has stopped and no region cell arrived for 100 ticks; the region is FROZEN. (R222) -/
  | freezeComplete (r : Nat)
  /-- SUBSTITUTION A FAILED member's duty moves to its HAMPER substitute site. (R225) -/
  | substitution (r : Nat) (site : Nat) (listed : Bool)
  /-- VARIANT_IN_FORCE_WRITE A write of the variant-in-force object puts a variant in force or is refused. (R226) -/
  | variantInForceWrite (r : Nat) (l : List (Nat × Nat))
  /-- VARIANT_STAGING_WRITE A staging declaration records staged variant sets or is refused. (R226) -/
  | variantStagingWrite (r : Nat) (l : List (Nat × Nat))
  /-- SIEVE_PASS_GO Writing GO arms a Sieve pass at tick T. (R243) -/
  | sievePassGo (cs : Nat) (x : BitVec 512)
  /-- SIEVE_PASS_START At tick T, or after an emission buffer hold ends, the Sieve starts scanning. (R249) -/
  | sievePassStart (cs : Nat) (rows : RowErrs)
  /-- SIEVE_PASS_DONE The Sieve writes its lists, increments the emit counter and reports done. (R245) -/
  | sievePassDone (cs : Nat)
  /-- SIEVE_DONE The hub receives a Sieve's done message and error mask. (R304) -/
  | sieveDone (node : Nat) (k : Pkt)
  /-- QUERY A QUERY entry is checked and accepted into the Query Ledger or refused. (R321) -/
  | query (fn : Nat) (sq : Nat) (entry : BitVec 512) (data : Option (List Byte))
  /-- CANCEL A CANCEL command ends a query and advances its epoch. (R260) -/
  | cancel (fn : Nat) (sq : Nat) (entry : BitVec 512)
  /-- EARLY_EXIT An EARLY_EXIT command ends a query with the results it has finished. (R260) -/
  | earlyExit (fn : Nat) (sq : Nat) (entry : BitVec 512)
  /-- DEADLINE_CHECK Every 1,000 ticks hub A checks deadlines and expires queries as early exits. (R260) -/
  | deadlineCheck
  /-- QUERY_COMPLETION 1 µs after the completion barrier the hub reads result blocks and writes completions. (R258) -/
  | queryCompletion (r : Nat)
  /-- DIRECTORY_ENTRY_WRITE A Shard Directory entry is written atomically to both hubs and verification starts. (R238) -/
  | directoryEntryWrite (part : Option Nat) (i : Nat) (x : BitVec 128)
  /-- SHARD_VERIFY_DONE Verification of a directory entry ends, making it USABLE or BAD. (R239) -/
  | shardVerifyDone (i : Nat)
  /-- SEQUENCE_RECORD_COMMIT A sequence record or ring order commit is checked for fit. (R272) -/
  | sequenceRecordCommit (r : Nat) (ring : Bool) (data : List Byte)
  /-- SEQUENCE_LENGTH_WRITE A sequence length write is staged, applied at once, or shrinks the map. (R273) -/
  | sequenceLengthWrite (r : Nat) (x : BitVec 32)
  /-- CTL_FLIT_RECEIVE A control flit is received, corrected or replay-requested. (R287) -/
  | ctlFlitReceive (node : Nat) (port : Nat) (chk : WordChk)
  /-- CTL_LINK_DOWN A control link direction is declared down after silence or replays. (R288) -/
  | ctlLinkDown (node : Nat) (port : Nat)
  /-- CTL_MESSAGE_FORWARD A node forwards a unicast or floods a multicast message. (R293) -/
  | ctlMessageForward (node : Nat) (port : Nat)
  /-- ROUTE_TABLE_REWRITE The active hub recomputes and writes route tables after a link-down report. (R293) -/
  | routeTableRewrite
  /-- URGENT_QUEUE_PACE A node sends its next queued urgent report at most once per 100 ticks. (R296) -/
  | urgentQueuePace (node : Nat)
  /-- FENCE An urgent FENCE message stops a die and disables its links. (R503) -/
  | fence (node : Nat) (k : Pkt)
  /-- FAULT_REPORT The active hub receives a fault report and turns it into an event. (R303) -/
  | faultReport (node : Nat) (k : Pkt)
  /-- EPOCH_SET A router applies a newer epoch set and acknowledges it. (R301) -/
  | epochSet (node : Nat) (k : Pkt)
  /-- ACK The hub collects an acknowledgement of an epoch set, LIVE commit or stop. (R301) -/
  | ack (node : Nat) (k : Pkt)
  /-- NACK A die rejects an incomplete LIVE commit and the hub resends it. (R302) -/
  | nack (node : Nat) (k : Pkt)
  /-- LIVE_WRITE A die stages 8 bytes of a LIVE value or step plan. (R302) -/
  | liveWrite (node : Nat) (k : Pkt)
  /-- LIVE_COMMIT A die applies a complete set of staged values at once and acknowledges. (R302) -/
  | liveCommit (node : Nat) (k : Pkt)
  /-- EVENT The active hub receives an event message from a die. (R303) -/
  | event (node : Nat) (k : Pkt)
  /-- LATE_NOTICE A late-write notice reaches the source core and is counted. (R303) -/
  | lateNotice (node : Nat) (k : Pkt)
  /-- UNDELIVERABLE A source receives notice that its unicast was discarded. (R293) -/
  | undeliverable (node : Nat) (k : Pkt)
  /-- CFG_WRITE A node writes a route, group or active-hub table entry. (R304) -/
  | cfgWrite (node : Nat) (k : Pkt)
  /-- CFG_READ A node returns a configuration table value. (R304) -/
  | cfgRead (node : Nat) (k : Pkt)
  /-- CFG_DATA The hub receives a configuration read response. (R304) -/
  | cfgData (node : Nat) (k : Pkt)
  /-- HUB_BEAT A node adopts a newer active hub and takeover generation. (R298) -/
  | hubBeat (node : Nat) (k : Pkt)
  /-- HUB_BEAT_SEND Each hub multicasts its heartbeat every hub beat period. (R299) -/
  | hubBeatSend (hub : Nat)
  /-- NODE_BEAT The active hub receives a die's heartbeat and error count. (R299) -/
  | nodeBeat (node : Nat) (k : Pkt)
  /-- NODE_BEAT_SEND Each die sends its heartbeat every node beat period. (R299) -/
  | nodeBeatSend (node : Nat)
  /-- NODE_BEAT_MISSED Consecutive missed beats from a die become evidence against it. (R498) -/
  | nodeBeatMissed (node : Nat)
  /-- HUB_LOSS_TIMEOUT Hub B sees no hub A beat for the loss timeout and takes over or declines. (R507) -/
  | hubLossTimeout
  /-- EPOCH_SET_RETRY Missing epoch-set ACKs after 100 µs cause a resend or evidence. (R301) -/
  | epochSetRetry (seq : Nat)
  /-- BULK_OPEN A target opens a bulk session into a program store or die control space. (R305) -/
  | bulkOpen (node : Nat) (k : Pkt)
  /-- BULK_DATA A target writes 8 bulk bytes at their index. (R305) -/
  | bulkData (node : Nat) (k : Pkt)
  /-- BULK_CLOSE A target checks its CRC-64 and answers BULK_RESULT. (R305) -/
  | bulkClose (node : Nat) (k : Pkt)
  /-- BULK_RESULT The hub takes a target's result and resends missing indices. (R305) -/
  | bulkResult (node : Nat) (k : Pkt)
  /-- PERST_RELEASE Release of a port's PERST_N brings its link up. (R310) -/
  | perstRelease (hp : Nat) (rate : Nat) (width : Nat) (flit : Bool) (enumd : Bool) (vfs : Nat)
  /-- PERST_ASSERT Assertion of PERST_N resets one port and its functions as an FLR. (R310) -/
  | perstAssert (hp : Nat)
  /-- HOST_LINK_DOWN A host link goes down while PERST_N is released. (R310) -/
  | hostLinkDown (hp : Nat)
  /-- SQ_TAIL_DOORBELL A submission queue tail doorbell makes entries available or errors the queue. (R318) -/
  | sqTailDoorbell (hp : Nat) (fn : Nat) (sq : Nat) (x : BitVec 32)
  /-- CQ_HEAD_DOORBELL A completion queue head doorbell frees room and held entries post. (R318) -/
  | cqHeadDoorbell (hp : Nat) (fn : Nat) (cq : Nat) (x : BitVec 32)
  /-- EVENT_RING_DOORBELL An event ring head doorbell frees room. (R329) -/
  | eventRingDoorbell (hp : Nat) (fn : Nat) (x : BitVec 32)
  /-- QUEUE_ENABLE Writing EN = 1 enables a queue or puts it in error. (R317) -/
  | queueEnable (hp : Nat) (fn : Nat) (q : Nat) (x : BitVec 64)
  /-- QUEUE_DISABLE Writing EN = 0 starts draining a queue. (R319) -/
  | queueDisable (hp : Nat) (fn : Nat) (q : Nat) (x : BitVec 64)
  /-- QUEUE_DRAINED A draining queue's started commands finish and it becomes disabled. (R319) -/
  | queueDrained (fn : Nat) (q : Nat)
  /-- HOST_NOP A NOP submission entry completes. (R320) -/
  | hostNop (fn : Nat) (sq : Nat) (entry : BitVec 512)
  /-- COPY_IN A COPY_IN command checks its range and writes verified blocks into panel memory. (R323) -/
  | copyIn (fn : Nat) (sq : Nat) (entry : BitVec 512) (host : HostBlocks)
  /-- COPY_OUT A COPY_OUT command reads blocks and writes data and CRCs to the host. (R323) -/
  | copyOut (fn : Nat) (sq : Nat) (entry : BitVec 512)
  /-- CQ_COALESCE_TIMEOUT The oldest unsignalled completion has waited TIME ticks and the vector is raised. (R328) -/
  | cqCoalesceTimeout (fn : Nat) (cq : Nat)
  /-- ICAUSE_CLEAR A write-1-to-clear write clears ICAUSE bits. (R312) -/
  | icauseClear (hp : Nat) (fn : Nat) (x : BitVec 64)
  /-- APERTURE_SLICE_WRITE A slice register write sets its base and enable or is dropped. (R315) -/
  | apertureSliceWrite (hp : Nat) (fn : Nat) (i : Nat) (x : BitVec 64)
  /-- APERTURE_READ A BAR 2 read is translated through its slice and served or refused. (R316) -/
  | apertureRead (hp : Nat) (fn : Nat) (slice : Nat) (off : Nat) (n : Nat) (rows : RowErrs)
  /-- APERTURE_WRITE A BAR 2 write is translated through its slice and performed or dropped. (R316) -/
  | apertureWrite (hp : Nat) (fn : Nat) (slice : Nat) (off : Nat) (data : List Byte) (rows : RowErrs)
  /-- MAILBOX_GO Writing GO submits a mailbox request, answered in the response buffer. (R330) -/
  | mailboxGo (hp : Nat) (fn : Nat) (len : Nat)
  /-- FLR A function level reset disables queues, cancels queries and resets registers. (R331) -/
  | flr (hp : Nat) (fn : Nat)
  /-- INGRESS_READBACK_DONE A COPY_IN block readback is compared with its ingress CRC-64. (R482) -/
  | ingressReadbackDone (fn : Nat) (sq : Nat)
  /-- EGRESS_BLOCK_DONE A COPY_OUT block's hub CRC-64 is compared with its egress CRC-64. (R483) -/
  | egressBlockDone (fn : Nat) (sq : Nat) (clean : Bool)
  /-- CHECK_DESCRIPTOR_WRITE A check descriptor is accepted, rejected by its alive value, or refused. (R487) -/
  | checkDescriptorWrite (cs : Nat) (part : Option Nat) (x : BitVec 256)
  /-- CHECK_SCAN_DONE A check engine scan ends with a CRC or an error. (R488) -/
  | checkScanDone (cs : Nat) (chan : Nat) (rows : RowErrs)
  /-- READ An object-dictionary READ returns an object or field. (R355) -/
  | read (g : Nat) (h : Nat) (tag : Option (BitVec 128)) (sess : Nat) (seq : Nat) (index : Nat) (sub : Nat) (field : Nat) (pending : Bool)
  /-- WRITE An object-dictionary WRITE commits a whole object or stages a write. (R345) -/
  | write (g : Nat) (h : Nat) (tag : Option (BitVec 128)) (sess : Nat) (seq : Nat) (index : Nat) (sub : Nat) (field : Nat) (stage : Bool) (total : Nat) (data : List Byte)
  /-- SEG_READ A further segment of a segmented read is returned. (R349) -/
  | segRead (g : Nat) (h : Nat) (tag : Option (BitVec 128)) (sess : Nat) (seq : Nat) (offset : Nat)
  /-- SEG_WRITE A further segment of a segmented write is taken. (R349) -/
  | segWrite (g : Nat) (h : Nat) (tag : Option (BitVec 128)) (sess : Nat) (seq : Nat) (offset : Nat) (data : List Byte)
  /-- END_TRANSFER The open transfer of a session ends. (R355) -/
  | endTransfer (g : Nat) (h : Nat) (tag : Option (BitVec 128)) (sess : Nat) (seq : Nat)
  /-- DESCRIBE The type, access, level and length of an object are returned. (R355) -/
  | describe (g : Nat) (h : Nat) (tag : Option (BitVec 128)) (sess : Nat) (seq : Nat) (index : Nat) (sub : Nat)
  /-- READ_STAGED The session's staged value of a field is returned. (R355) -/
  | readStaged (g : Nat) (h : Nat) (tag : Option (BitVec 128)) (sess : Nat) (seq : Nat) (index : Nat) (sub : Nat) (field : Nat)
  /-- DISCARD The session's stage is emptied. (R346) -/
  | discard (g : Nat) (h : Nat) (tag : Option (BitVec 128)) (sess : Nat) (seq : Nat)
  /-- COMMIT A write to commit sub-index 0xFE commits a block's staged values together. (R346) -/
  | commit (g : Nat) (h : Nat) (tag : Option (BitVec 128)) (sess : Nat) (seq : Nat) (index : Nat) (which : Nat)
  /-- HELLO A hub answers HELLO with the serial and its role. (R355) -/
  | hello (g : Nat) (h : Nat) (seq : Nat)
  /-- SESSION_OPEN A session open request runs an exchange step and may open a session. (R351) -/
  | sessionOpen (g : Nat) (h : Nat) (tag : Option (BitVec 128)) (sess : Nat) (seq : Nat) (level : Nat) (scope : Nat) (step : Byte) (exchange : List Byte)
  /-- SESSION_CLOSE A session is closed and its stage discarded. (R351) -/
  | sessionClose (g : Nat) (h : Nat) (tag : Option (BitVec 128)) (sess : Nat) (seq : Nat)
  /-- KEEPALIVE A session's idle time is reset. (R351) -/
  | keepalive (g : Nat) (h : Nat) (tag : Option (BitVec 128)) (sess : Nat) (seq : Nat)
  /-- REPORT_ACK A session acknowledges reports up to a sequence. (R357) -/
  | reportAck (g : Nat) (h : Nat) (tag : Option (BitVec 128)) (sess : Nat) (eseq : Nat)
  /-- REPORT_SEND The active hub sends pending events to a session within the reporting deadline. (R357) -/
  | reportSend (slot : Nat)
  /-- REPORT_RESEND An unacknowledged report is resent after 50 ms, up to 8 times. (R357) -/
  | reportResend (slot : Nat)
  /-- SESSION_IDLE_TIMEOUT A session idle past the timeout ends. (R351) -/
  | sessionIdleTimeout (slot : Nat)
  /-- TRANSFER_GAP_TIMEOUT A segmented transfer ends after a gap of more than 1 s. (R349) -/
  | transferGapTimeout (slot : Nat)
  /-- AUTH_PENDING_TIMEOUT A pending session not completed within 5 s is discarded. (R470) -/
  | authPendingTimeout (id : Nat)
  /-- CREDENTIAL_LOCKOUT_END A locked credential slot's lockout time ends. (R470) -/
  | credentialLockoutEnd (n : Nat)
  /-- MGMT_SEGMENT_DOWN A management segment with no valid frame or beacon for 1 s is counted down. (R354) -/
  | mgmtSegmentDown (g : Nat)
  /-- MANAGER_FENCE An accepted FENCE command cuts a site or port off and marks it FENCED. (R503) -/
  | managerFence (kind : Nat) (unit : Nat) (epoch : Nat) (reason : Nat) (manager : Nat)
  /-- EXPEL An accepted EXPEL fences every port and closes the meridian bypass. (R504) -/
  | expel (epoch : Nat) (reason : Nat) (manager : Nat)
  /-- REINSTATE An accepted REINSTATE moves a unit to SUSPECT and probes it. (R505) -/
  | reinstate (kind : Nat) (unit : Nat) (epoch : Nat) (reason : Nat) (manager : Nat)
  /-- OSC_SETTLE_EXPIRY The strap-set settle delay ends and the references are first checked. (R363) -/
  | oscSettleExpiry (a : Bool) (b : Bool)
  /-- REF_RECHECK With no valid reference the hub checks again every 1 ms. (R363) -/
  | refRecheck (a : Bool) (b : Bool)
  /-- REF_EDGE_LOSS No rising edge for 40 ns declares a reference lost. (R364) -/
  | refEdgeLoss (i : Nat)
  /-- REF_MEASUREMENT Each 100 µs frequency measurement qualifies or loses a reference. (R364) -/
  | refMeasurement (i : Nat) (hz : Nat)
  /-- TB_ALIGNMENT_MARKER Every 65,536 ticks each die compares the marker with its timebase copy. (R367) -/
  | tbAlignmentMarker (node : Nat) (drift : BitVec 64)
  /-- PLL_UNLOCK A die PLL loses lock, stopping CK_CORE and reporting a fault. (R369) -/
  | pllUnlock (node : Nat)
  /-- STEP_PLAN_DEADLINE At T − 1,000 ticks the hub finds which dies acknowledged a step plan. (R371) -/
  | stepPlanDeadline (num : Nat)
  /-- STEP_PLAN_READBACK At T + 100 ticks the hub reads a missed die's step and replans if needed. (R371) -/
  | stepPlanReadback (num : Nat)
  /-- REGULATOR_RAISE From T − 1,000 ticks a die stepping up raises its core rail. (R372) -/
  | regulatorRaise (node : Nat)
  /-- STEP_PLAN_APPLY At tick T a die ends its cycle and switches N to the planned step. (R372) -/
  | stepPlanApply (node : Nat)
  /-- DROOP_STRETCH A droop detector stretches a cycle within the budget or steps down in emergency. (R373) -/
  | droopStretch (cs : Nat)
  /-- STEP_REQUEST The hub receives a step request and issues a panel plan within 1 ms. (R373) -/
  | stepRequest (die : Nat)
  /-- DIE_CLOCK_MODE_WRITE A write sets a die to SYNC or LOCAL mode or is refused. (R374) -/
  | dieClockModeWrite (node : Nat) (x : Nat)
  /-- PERIPHERAL_ENABLE_WRITE A write to the peripheral enable word sets or clears bits or is refused. (R376) -/
  | peripheralEnableWrite (hub : Nat) (x : BitVec 32)
  /-- VMIN_FRAME A block's VMIN_N line sends its minimum VIR frame every 100 ticks. (R384) -/
  | vminFrame (blk : Nat) (vcode : Nat)
  /-- BLOCK_COLLAPSE A block's sense tap or VMIN frame shows collapse and the block is fenced, frozen and FAILED. (R387) -/
  | blockCollapse (blk : Nat)
  /-- FUSE_NOT_TRIPPED 1 ms after a collapse the group still draws current. (R387) -/
  | fuseNotTripped (blk : Nat) (iout : Nat)
  /-- PMBUS_POLL Every 10 ms the hub polls every powered converter group. (R385) -/
  | pmbusPoll (l : List (Nat × Option PmRead))
  /-- PMB_ALERT Assertion of PMB_ALERT_N makes the hub read every group's status within 1 ms. (R553) -/
  | pmbAlert (bad : List Nat)
  /-- BLOCK_POWER_GOOD An enabled block shows power good and valid VMIN and the next block follows. (R386) -/
  | blockPowerGood (blk : Nat)
  /-- BLOCK_ENABLE_TIMEOUT A block not up within 20 ms is turned off and marked FAILED. (R386) -/
  | blockEnableTimeout (blk : Nat)
  /-- LEDGER_WINDOW_START At each 1 ms window the hub corrects, refills and clamps balances and governs the step. (R390) -/
  | ledgerWindowStart (acts : List (Nat × Nat))
  /-- STEP_ADMISSION A waiting step is admitted once its partition balance covers its ENERGY. (R390) -/
  | stepAdmission (r : Nat)
  /-- CALIBRATION_FACTOR_UPDATE Every 10 ms each block's energy calibration factor is recomputed. (R391) -/
  | calibrationFactorUpdate (blk : Nat)
  /-- VSB12_LOW VSB12 falls below 10.8 V. (R379) -/
  | vsb12Low (x : RailRead)
  /-- VSB12_LOSS VSB12 below 9.0 V makes the hub turn groups off and shed loads. (R561) -/
  | vsb12Loss (x : RailRead)
  /-- NV_RECORD_WRITE An MRAM record write completes and is read back, taking force or being refused. (R395) -/
  | nvRecordWrite (e : NvEnd)
  /-- TJ_LIMIT A die at Tj max makes an emergency step-down, repeating every 100 µs. (R404) -/
  | tjLimit (die : Nat)
  /-- THERMAL_TRIP A die at 115 °C for 1 µs stops and drops to retention. (R405) -/
  | thermalTrip (die : Nat)
  /-- THERMAL_REPORT Every 250 µs the hub receives each die's hottest readings. (R401) -/
  | thermalReport (die : Nat) (junction : List Int) (dram : List Int)
  /-- RTH_ESTIMATE Every second the hub estimates block resistances and caps. (R406) -/
  | rthEstimate
  /-- THERMAL_FORECAST Every 250 µs the hub forecasts block temperatures and sets holds. (R408) -/
  | thermalForecast
  /-- HOLD_LIMIT_EXPIRY A block held for the hold limit lowers the ceiling or forces admission. (R409) -/
  | holdLimitExpiry (blk : Nat)
  /-- COOLANT_POLL Every 100 ms the hub reads the coolant sensors. (R403) -/
  | coolantPoll (inlet : Option Int) (outlet : Option Int)
  /-- VSB12_POR_RELEASE The hubs' power-on reset is released and the straps are sampled. (R414) -/
  | vsb12PorRelease (settle : Nat)
  /-- PANEL_RESET PANEL_RST_N asserted for 10 µs resets every die and empties hub tables. (R413) -/
  | panelReset (bankC : Nat)
  /-- PANEL_RESET_RELEASE Release of PANEL_RST_N sets the sequence origin and starts the timebase. (R414) -/
  | panelResetRelease
  /-- BRINGUP_PHASE_ADVANCE A bring-up phase's condition holds and the next phase starts. (R415) -/
  | bringupPhaseAdvance (o : PhaseOut)
  /-- BRINGUP_LATE A bring-up phase exceeds its limit. (R415) -/
  | bringupLate
  /-- HUB_B_BOOT_TIMEOUT Hub A has neither started nor signalled failure 1 s after t+0 and hub B reads the images. (R418) -/
  | hubBBootTimeout (readA : Bool) (readB : Bool) (ms : Nat)
  /-- COOLANT_WAIT_RETRY Every 100 ms the hub rechecks the inlet before enabling compute blocks. (R419) -/
  | coolantWaitRetry
  /-- STRAP_CHECK A die reads and checks its strap word when its reset is released. (R17) -/
  | strapCheck (die : Nat) (w : BitVec 17)
  /-- TRAINING_STORE_RETRY A refused training record store is retried every 10 s. (R425) -/
  | trainingStoreRetry
  /-- MAP_WRITE_RETRY A refused floor plan map write is retried every 1 s. (R427) -/
  | mapWriteRetry
  /-- FLOORPLAN_CLEARANCE Writing 1 clears a field-failed site for retest or is refused. (R429) -/
  | floorplanClearance (site : Nat) (x : Nat)
  /-- PARTITION_RECORD_COMMIT A partition record commit adds or removes members after its checks. (R440) -/
  | partitionRecordCommit (part : Nat) (sealed : Bool) (members : BitVec 256)
  /-- MEMBER_ERASE_DONE A removed die's stack wipe completes and it becomes READY. (R440) -/
  | memberEraseDone (cs : Nat)
  /-- PARTITION_RESET RESET starts a pack-up after which the partition is formed again with a new key. (R447) -/
  | partitionReset (part : Nat)
  /-- PARTITION_DISSOLVE DISSOLVE starts a pack-up after which the partition is FREE. (R447) -/
  | partitionDissolve (part : Nat)
  /-- PACKUP_STEP_DONE A pack-up step's completion condition holds and the next step begins. (R447) -/
  | packupStepDone (part : Nat)
  /-- PACKUP_DRAIN_LIMIT The drain limit passes and the pack-up moves to the cut. (R447) -/
  | packupDrainLimit (part : Nat)
  /-- KEY_ZEROISE_TIMEOUT A base die does not acknowledge key zeroise within 10 µs and is FAILED. (R451) -/
  | keyZeroiseTimeout (part : Nat) (cs : Nat)
  /-- CORE_RESET_COMMAND A reset command with a core mask resets the named cores. (R446) -/
  | coreResetCommand (cs : Nat) (mask : Nat)
  /-- DIE_RESET_COMMAND A reset command of 0x10 starts a die reset. (R446) -/
  | dieResetCommand (cs : Nat)
  /-- DIE_RESET_DONE A die reset completes, keeping or resetting the transit domain. (R446) -/
  | dieResetDone (die : Nat) (fell : Bool)
  /-- REPORT_NONCE_WRITE Writing a nonce makes the hub sign an attestation report. (R463) -/
  | reportNonceWrite (slot : Nat) (nonce : BitVec 384)
  /-- ENTROPY_FAILED An entropy health test fails and key generation stops. (R464) -/
  | entropyFailed (hub : Nat)
  /-- ENTROPY_RETEST The stopped entropy source is retested every 1 s. (R464) -/
  | entropyRetest (hub : Nat) (ok : Bool)
  /-- KEY_LOAD_TIMEOUT A base die does not acknowledge a key load within 10 µs and is FAILED. (R467) -/
  | keyLoadTimeout (part : Nat) (cs : Nat)
  /-- CREDENTIAL_WRITE An S session writes a credential slot, ending sessions opened with it. (R468) -/
  | credentialWrite (slot : Nat) (n : Nat) (data : List Byte)
  /-- BOOT_IMAGE_WRITE An image is written sector by sector and checked at the end. (R474) -/
  | bootImageWrite (i : Nat) (slot : Nat) (data : List Byte)
  /-- RAISE_MIN_SVN Image control 1 burns the minimum SVN up to the running image's SVN. (R475) -/
  | raiseMinSvn
  /-- REVOKE_SIGNING_SLOT Image control 2 to 5 burns the revocation fuse of a signing slot. (R475) -/
  | revokeSigningSlot (slot : Nat)
  /-- MEASUREMENT_EXTEND A 48-byte digest is extended into measurement register M5 to M7. (R460) -/
  | measurementExtend (i : Nat) (digest : BitVec 384)
  /-- GUEST_REQUEST A guest's service request is checked by the firewall and refused, held or admitted. (R478) -/
  | guestRequest (g : Nat) (c : Cell)
  /-- GUEST_REQUEST_RELEASE A held guest request gains a slot and bucket bytes and is admitted. (R478) -/
  | guestRequestRelease (g : Nat)
  /-- FABRIC_LINK_SESSION A training port runs its authenticated link session and loads keys. (R472) -/
  | fabricLinkSession (port : Nat) (ok : Bool)
  /-- FABRIC_AUTH_RETRY A port that failed authentication retries every 10 s. (R472) -/
  | fabricAuthRetry (port : Nat) (ok : Bool)
  /-- STATE_EVIDENCE Data-path evidence reaching the active hub moves a unit to SUSPECT or FAILED. (R498) -/
  | stateEvidence
  /-- PROBE_START A probe of a SUSPECT unit starts once no region holding it is ACTIVE or ARMED. (R500) -/
  | probeStart (unit : UnitId)
  /-- PROBE_COMPLETE A probe ends and the unit returns to its prior state or becomes FAILED. (R501) -/
  | probeComplete (unit : UnitId) (fail : Option Nat)
  /-- TAKEOVER Hub B holds hub A in reset and becomes the active hub. (R508) -/
  | takeover (stored : Bool)
  /-- RATE_SPAN_END An aligned second or minute span ends and per-span limits restart. (R564) -/
  | rateSpanEnd
  /-- PORT_TRAINING_PHASE A fabric port passes a training phase and moves on. (R517) -/
  | portTrainingPhase (port : Nat) (groups : Nat)
  /-- PORT_TRAINING_TIMEOUT A training phase exceeds its limit and training restarts or the port becomes SUSPECT. (R517) -/
  | portTrainingTimeout (port : Nat) (signal : Bool)
  /-- FABRIC_FRAME_RECEIVE A link frame or sealed pair is verified and its cells, acks and credits processed. (R520) -/
  | fabricFrameReceive (port : Nat) (pair : Bool) (f : List Byte) (second : List Byte)
  /-- FABRIC_FRAME_SEND A port fills each frame's cell positions from its slot-table entry. (R533) -/
  | fabricFrameSend (port : Nat)
  /-- FABRIC_HELLO A received hello is recorded and checked against the expected peer. (R528) -/
  | fabricHello (port : Nat) (payload : BitVec 320)
  /-- RING_TRANSIT A fabric cell for another panel crosses the ring to its output port master. (R531) -/
  | ringTransit (site : Nat)
  /-- MERIDIAN_FRAME_RECEIVE A follower takes a meridian frame, locking, loading or losing the chain. (R538) -/
  | meridianFrameReceive (frame : Option (BitVec 128))
  /-- MERIDIAN_FRAME_EMIT A head emits a meridian frame every 128 ticks. (R537) -/
  | meridianFrameEmit
  /-- MERIDIAN_RECHECK Every 1 s a conflicted follower checks whether it may load the count. (R540) -/
  | meridianRecheck
  /-- SCHEDULE_SWITCH At the announced tick every port master switches slot-table banks. (R534) -/
  | scheduleSwitch
  /-- FABRIC_SCHEDULE_COMMIT A fabric schedule commit requests a bank switch or is refused. (R538) -/
  | fabricScheduleCommit (per : Nat) (bank : Nat) (tick : Nat)
  /-- PANEL_ID_WRITE A panel ID write takes effect at once and is carried in the next hellos. (R528) -/
  | panelIdWrite (slot : Nat) (id : BitVec 16)
  /-- CABLE_REMOVAL A fabric cable is removed from an UP port, which keeps its buffers for 10 s. (R547) -/
  | cableRemoval (port : Nat)
  /-- CABLE_HOLD_EXPIRY After 10 s without the same partner the port cuts its held cells. (R547) -/
  | cableHoldExpiry (port : Nat)
  /-- HUB_B_BEATS_MISSED Hub A, while active, stops receiving hub B's beats, marks SDD FENCED, stops mirroring and raises STANDBY_HUB_LOST. (R509) -/
  | hubBBeatsMissed
  /-- GUEST_LINK_UP A guest site's UCIe link comes up and its identity is extended into M4. (R460) -/
  | guestLinkUp (g : Nat) (rate : Nat) (advanced : Bool) (ident : List Byte)
  /-- MGMT_SEGMENT_RETURN A management segment counted down receives a valid frame or PLCA beacon again and EV 0x0E22 is raised for the return. (R354) -/
  | mgmtSegmentReturn (g : Nat)
  /-- NEIGHBOR_DISCOVERY The panel answers an IPv6 Neighbor Discovery message on a management segment. (R354) -/
  | neighborDiscovery (h : Nat) (g : Nat) (target : BitVec 128)
  /-- ICMPV6_ECHO The panel answers an ICMPv6 echo request on a management segment. (R354) -/
  | icmpv6Echo (h : Nat) (g : Nat) (target : BitVec 128) (data : List Byte)
  deriving DecidableEq, Repr

end Sys2Proof
end

