-- ==== Sys2Proof/Machine/State.lean ====
section
/-! DEFINITION. The state of the panel as plain data: everything the spec gives it, the bytes of its stacks,
scratchpads and program stores, and the queue of commands that wait. -/

namespace Sys2Proof.Machine

/-- Everything but the byte memory and the queue. Per-core tables are keyed 4 * site + core, per-die tables by site,
the others by their own numbers. `free` counts the free values taken (the model's own; log 4). -/
structure Panel where
  variant : Nat                       -- 1 T128, 2 T96, 3 T64 (R32)
  free : Nat
  clk : Clocks
  core : Tab Core
  rtr : Tab Router
  stk : Tab Stack
  sve : Tab Sieve
  die : Tab DieRun
  reg : Tab Region
  part : Tab Part
  chk : Tab CheckEng
  rctr : Tab ResetCtr
  rst : Tab DieReset
  book : Book
  ctl : Ctl
  od : Od
  ret : Retrieval
  host : HostIf
  pwr : Power
  boot : Boot
  sec : Sec
  chain : ChainCtr
  fab : Fabric
  gaRefusals : Nat
  gen : List GenAcc                   -- general accesses under way (R106)
  nextAcc : Nat                       -- the next unscheduled access (the model's own)
  deriving DecidableEq, Repr

/-- The panel right after the origin of bring-up (R414): every die in reset and unpowered, every table empty (R413),
the timebase at 0 (R367). The variant is T128 (log 2). -/
def Panel.reset : Panel :=
  { variant := 1, free := 0, clk := clocks0, core := [], rtr := [], stk := [], sve := [], die := [], reg := [],
    part := [], chk := [], rctr := [], rst := [], book := book0, ctl := ctl0, od := od0, ret := retrieval0,
    host := hostIf0, pwr := power0, boot := boot0, sec := sec0, chain := default, fab := fabric0, gaRefusals := 0, gen := [], nextAcc := 0 }

/-- The whole machine: the commands waiting, first in first out; the bytes, by global address (R28); the rest. -/
structure State where
  pending : List Instr
  mem : Mem
  p : Panel
  deriving DecidableEq, Repr

/-- The machine right after reset: no command waits, memory lists nothing (R110, R123). -/
def State.reset : State := { pending := [], mem := [], p := Panel.reset }

/-- What stops a command: nothing does. Whatever the spec refuses, discards or ignores is a next state, and a command that
names no unit of any panel of the series changes nothing (log 47); so no constructor, and nobody raises one. -/
inductive Fault where
  deriving DecidableEq, Repr

/-- Commands that are refused by the model itself. -/
inductive Refusal where
  /-- The command has no meaning here; raised by Dispatch only. Safe: nothing is claimed of it. -/
  | notModelled (mnemonic : String)
  deriving DecidableEq, Repr

end Sys2Proof.Machine
end

