-- ==== Sys2Proof/Machine/Units.lean ====
section
/-! DEFINITION. Where the dies sit (R10-R13), how they group into blocks, ports and the ring (R18-R27), what the variant
fuses (R2, R432), and the keys under which units are held. -/

namespace Sys2Proof.Machine

def rowOf (s : Nat) : Nat := s / 16
def colOf (s : Nat) : Nat := s % 16
def siteAt (r c : Nat) : Nat := 16 * r + c

/-- A byte that is a site number (R10). -/
def isSite (s : Nat) : Bool := decide (s < 256) && decide (rowOf s ≤ 13) && decide (colOf s ≤ 13)
/-- A compute position (R11). -/
def isCompute (s : Nat) : Bool := decide (1 ≤ rowOf s) && decide (rowOf s ≤ 12) && decide (1 ≤ colOf s) && decide (colOf s ≤ 12)
def isHub (s : Nat) : Bool := decide (s = 0x00) || decide (s = 0xDD)
def isGuest (s : Nat) : Bool := decide (s = 0x0D) || decide (s = 0xD0)
/-- The edge dies in clockwise order from hub A (R12, R26). -/
def edgeDies : List Nat :=
  [0x01, 0x03, 0x05, 0x07, 0x09, 0x0B, 0x1D, 0x3D, 0x5D, 0x7D, 0x9D, 0xBD, 0xDB, 0xD9, 0xD7, 0xD5, 0xD3, 0xD1, 0xB0,
    0x90, 0x70, 0x50, 0x30, 0x10]
def isEdge (s : Nat) : Bool := edgeDies.contains s
/-- The second position of an edge die (R12). -/
def isContinuation (s : Nat) : Bool :=
  isSite s && !isCompute s && !isHub s && !isGuest s && !isEdge s
/-- A die position (R11). -/
def isDie (s : Nat) : Bool := isCompute s || isEdge s || isHub s || isGuest s
/-- The centre of a compute block (R19). -/
def isHamperPos (s : Nat) : Bool := isCompute s && decide (rowOf s % 3 = 2) && decide (colOf s % 3 = 2)

/-- All die positions, ascending. -/
def allDies : List Nat := (List.range 222).filter isDie
def computeSites : List Nat := (List.range 205).filter isCompute

/-- Position type of R32. -/
def posType (s : Nat) : Nat :=
  if isHamperPos s then 1 else if isCompute s then 0 else if isEdge s then 2 else if isContinuation s then 3
  else if isHub s then 4 else 5

/-- The edge die whose positions include a position (R12). -/
def edgeOwner (s : Nat) : Nat :=
  if isEdge s then s else if rowOf s = 0 ∨ rowOf s = 13 then s - 1 else s - 16

/-- The power block of a position (R19, R20). -/
def blockOf (s : Nat) : Nat :=
  if isCompute s then 4 * ((rowOf s - 1) / 3) + (colOf s - 1) / 3
  else if s = 0x00 then 16 else if s = 0x0D then 17 else if s = 0xDD then 18 else if s = 0xD0 then 19
  else if rowOf s = 0 then 16 else if colOf s = 13 then 17 else if rowOf s = 13 then 18 else 19

/-- The hamper position of a compute block (R19). -/
def hamperOf (b : Nat) : Nat := siteAt (3 * (b / 4) + 2) (3 * (b % 4) + 2)

/-- The two edge dies of a port: lanes 0 to 15, then 16 to 31 (R25). -/
def portDies (pt : Nat) : Nat × Nat := (edgeDies.getD (2 * pt) 0, edgeDies.getD (2 * pt + 1) 0)
/-- The port master (R515). -/
def portMaster (pt : Nat) : Nat := (portDies pt).1
/-- The port of an edge die. -/
def portOfDie (s : Nat) : Nat := (edgeDies.findIdx (· = s)) / 2

/-- The members of the perimeter ring, clockwise (R26). -/
def ringOrder : List Nat := [0x00] ++ edgeDies.take 12 ++ [0xDD] ++ edgeDies.drop 12

/-- BLKF by variant (R432). -/
def blkFuses (v : Nat) : Nat := if v = 2 then 0xF000 else if v = 3 then 0xFF00 else 0
/-- PORTF by variant (R432). -/
def portFuses (v : Nat) : Nat := if v = 2 then 0x1C0 else if v = 3 then 0x3F0 else 0
/-- Is the die at a position fused ABSENT on the variant (R27, R432)? -/
def fusedDie (v s : Nat) : Bool :=
  if isCompute s then (blkFuses v).testBit (blockOf s) else decide (v = 2) && isEdge s && decide (blockOf s = 18)
def portFused (v pt : Nat) : Bool := (portFuses v).testBit pt
/-- Stack layers enabled (R432). -/
def variantLayers (v : Nat) : Nat := if v = 3 then 9 else 12
/-- Stack capacity in bytes (R2, R29): 4 GiB per layer. -/
def stackBytes (v : Nat) : Nat := variantLayers v * 2 ^ 32
/-- Row words of a key-range unit, 64 MiB (R144). -/
def rangeUnit : Nat := 2 ^ 18
/-- Active compute sites as shipped (R2). -/
def variantSites (v : Nat) : Nat := if v = 2 then 96 else if v = 3 then 64 else 128

/-- The neighbour of a die across edge 0 north, 1 east, 2 south, 3 west (R13), compute dies only. -/
def neighbour (s e : Nat) : Nat :=
  let r := rowOf s
  let c := colOf s
  if e = 0 then (if r = 1 then edgeOwner (siteAt 0 c) else siteAt (r - 1) c)
  else if e = 1 then (if c = 12 then edgeOwner (siteAt r 13) else siteAt r (c + 1))
  else if e = 2 then (if r = 12 then edgeOwner (siteAt 13 c) else siteAt (r + 1) c)
  else (if c = 1 then edgeOwner (siteAt r 0) else siteAt r (c - 1))

/-- Position in the ring, and the neighbours of a ring member. -/
def ringIdx (s : Nat) : Nat := ringOrder.findIdx (· = s)
def ringNext (s : Nat) : Nat := ringOrder.getD ((ringIdx s + 1) % 26) 0
def ringPrev (s : Nat) : Nat := ringOrder.getD ((ringIdx s + 25) % 26) 0

/-- The dies at the other ends of a die's data links: mesh edges, and ring links. -/
def linkedDies (s : Nat) : List Nat :=
  if isCompute s then [neighbour s 0, neighbour s 1, neighbour s 2, neighbour s 3]
  else if isEdge s then
    (computeSites.filter fun t => (List.range 4).any fun e => neighbour t e == s) ++ [ringNext s, ringPrev s]
  else if isHub s then [ringNext s, ringPrev s] else []

/-- Keys of the state book (R514): sites by number, then cores, stacks, ports, blocks, the panel. -/
def keyCore (k : Nat) : Nat := 0x1000 + k
def keyStack (s : Nat) : Nat := 0x2000 + s
def keyPort (pt : Nat) : Nat := 0x3000 + pt
def keyBlock (b : Nat) : Nat := 0x3100 + b
def keyFn (f : Nat) : Nat := 0x4000 + f
def keyPanel : Nat := 0x5000

def UnitId.key : UnitId → Nat
  | .site s => s
  | .core k => keyCore k
  | .stack s => keyStack s
  | .port b => keyPort b
  | .block b => keyBlock b
  | .panel => keyPanel

/-- The site of a core number. -/
def siteOf (k : Nat) : Nat := k / 4
def coreOf (k : Nat) : Nat := k % 4
/-- The cores of a site. -/
def coresOf (s : Nat) : List Nat := [4 * s, 4 * s + 1, 4 * s + 2, 4 * s + 3]

/-- Global addresses of a core's scratchpad and program store, and of a stack (R28, R29). -/
def gaStack (s a : Nat) : Nat := s * 2 ^ 44 + a
def gaScratch (k a : Nat) : Nat := siteOf k * 2 ^ 44 + 2 ^ 40 + coreOf k * 2 ^ 26 + a
def gaProgram (k a : Nat) : Nat := siteOf k * 2 ^ 44 + 2 * 2 ^ 40 + coreOf k * 2 ^ 26 + a
def scratchBytes : Nat := 2 ^ 26
def programBytes : Nat := 2 ^ 22

end Sys2Proof.Machine
end

