-- ==== Sys2Proof/Machine/OdTable.lean ====
section
/-! DEFINITION. The object dictionary's table: every object with its sub-index rule, type, access, level, persistence,
fields, ranges and defaults, as the spec's object tables list them (R32, R75, R101, R122, R149, R178, R205, R233, R267,
R284, R307, R335, R360, R378, R399, R412, R437, R455, R480, R493, R514, R545). -/

namespace Sys2Proof.Machine

/-- Object types (R338). -/
inductive OTy where
  | bool | u8 | u16 | u32 | u64 | i16 | i32 | i64 | f32 | tb | uj | str | blob | record
  deriving DecidableEq, Repr

/-- Type code of DESCRIBE (R338, R355). -/
def OTy.code : OTy → Nat
  | .bool => 1 | .u8 => 2 | .u16 => 3 | .u32 => 4 | .u64 => 5 | .i16 => 6 | .i32 => 7 | .i64 => 8 | .f32 => 9
  | .tb => 10 | .uj => 11 | .str => 12 | .blob => 13 | .record => 14

/-- Size of a field of the type; a STR field takes 64 bytes (R338). -/
def OTy.size : OTy → Nat
  | .bool => 1 | .u8 => 1 | .u16 => 2 | .u32 => 4 | .u64 => 8 | .i16 => 2 | .i32 => 4 | .i64 => 8 | .f32 => 4
  | .tb => 8 | .uj => 8 | .str => 64 | .blob => 0 | .record => 0

/-- Access classes (R339). -/
inductive OAcc where
  | const | ro | wo | rw | live | still
  deriving DecidableEq, Repr

def OAcc.code : OAcc → Nat
  | .const => 0 | .ro => 1 | .wo => 2 | .rw => 3 | .live => 4 | .still => 5

/-- Sub-index rules. -/
inductive OSub where
  | only (n : Nat)                    -- exactly this one
  | upTo (n : Nat)                    -- 0 to n
  | site | mesh | node | die | compute
  | port                              -- 0 to 0x0B, not fused (R545)
  deriving DecidableEq, Repr

/-- A field: type, whether it is RO within the record, default, lowest and highest value. -/
structure OFld where
  ty : OTy
  ro : Bool
  dflt : Nat
  lo : Nat
  hi : Nat
  deriving DecidableEq, Repr

/-- An object. A per-core object (R75) has `quad` set and stands for four indices. A BLOB has `len` bytes, or up to
`len` in whole elements of `elem` bytes when `var`; `fill` is its default byte. -/
structure ORow where
  index : Nat
  quad : Bool
  sub : OSub
  ty : OTy
  acc : OAcc
  level : Level
  pers : Bool
  len : Nat
  var : Bool
  elem : Nat
  fill : Nat
  flds : List OFld
  deriving DecidableEq, Repr

def fW (ty : OTy) (d lo hi : Nat) : OFld := ⟨ty, false, d, lo, hi⟩
def fRO (ty : OTy) : OFld := ⟨ty, true, 0, 0, 2 ^ (8 * ty.size) - 1⟩
def fAny (ty : OTy) : OFld := ⟨ty, false, 0, 0, 2 ^ (8 * ty.size) - 1⟩

def fldsLen : List OFld → Nat
  | [] => 0
  | f :: fs => f.ty.size + fldsLen fs

/-- A record. -/
def oRec (i : Nat) (sub : OSub) (acc : OAcc) (lv : Level) (pers : Bool) (fs : List OFld) : ORow :=
  ⟨i, false, sub, .record, acc, lv, pers, fldsLen fs, false, 1, 0, fs⟩
/-- A scalar. -/
def oNum (i : Nat) (sub : OSub) (acc : OAcc) (lv : Level) (pers : Bool) (f : OFld) : ORow :=
  ⟨i, false, sub, f.ty, acc, lv, pers, f.ty.size, false, 1, 0, [f]⟩
/-- A BLOB of fixed length. -/
def oBlob (i : Nat) (sub : OSub) (acc : OAcc) (lv : Level) (pers : Bool) (len elem fill : Nat) : ORow :=
  ⟨i, false, sub, .blob, acc, lv, pers, len, false, elem, fill, []⟩
/-- A BLOB or STR of varying length. -/
def oVar (i : Nat) (sub : OSub) (ty : OTy) (acc : OAcc) (lv : Level) (pers : Bool) (len elem : Nat) : ORow :=
  ⟨i, false, sub, ty, acc, lv, pers, len, true, elem, 0, []⟩
def ORow.q (r : ORow) : ORow := { r with quad := true }

def m8 : Nat := 255
def m16 : Nat := 65535
def m32 : Nat := 4294967295
def m64 : Nat := 18446744073709551615

/-- Area 0x1000 (R360). -/
def odRows1 : List ORow :=
  [oRec 0x1000 (.only 0) .const .b false [fRO .str, fRO .str, fRO .u8, fRO .str, fRO .u16, fRO .u64],
   oRec 0x1001 (.only 0) .ro .b false [fRO .u8, fRO .u32, fRO .u32, fRO .u32],
   oRec 0x1010 (.only 0) .rw .e true [fW .bool 1 0 1, fW .bool 1 0 1, fW .u16 48720 1024 65535, fW .u8 8 2 32,
     fW .u8 32 20 255, fW .u8 0 0 31, fW .u8 1 0 31, fW .u8 1 0 31, fW .u8 0 0 31],
   oBlob 0x1011 (.only 0) .ro .b false 96 24 0,
   oBlob 0x1012 (.only 0) .rw .e true 48 24 0,
   oRec 0x1020 (.only 0) .rw .e true [fW .u32 300 10 3600, fW .u8 16 1 16],
   oRec 0x1021 (.upTo 0x20) .ro .b false [fRO .u8, fRO .u8, fRO .u8, fRO .u8, fRO .u16, fRO .u32, fRO .u64, fRO .u16],
   oNum 0x1023 (.only 0) .rw .b false (fW .u8 1 0 3),
   oNum 0x1030 (.only 0) .ro .b true (fRO .u16),
   oRec 0x1030 (.only 1) .ro .b false [fRO .u64, fRO .u32, fRO .u16],
   oRec 0x1031 (.only 0) .ro .b false [fRO .u64, fRO .u64, fRO .u64, fRO .u64, fRO .u64, fRO .u64, fRO .u64, fRO .u32,
     fRO .u32],
   oRec 0x1032 (.only 0) .wo .e false [fAny .u8, fAny .u8, fAny .u8, fW .u8 0 0 0, fAny .u16, fW .u16 0 0 0, fAny .u32,
     fAny .u32]]

/-- Area 0x2000 (R378). -/
def odRows2 : List ORow :=
  [oNum 0x2000 (.only 0) .ro .b false (fRO .tb),
   oRec 0x2001 (.only 0) .ro .b false [fRO .bool, fRO .bool, fRO .u8, fRO .u32, fRO .u64, fRO .u8],
   oNum 0x2002 (.only 0) .rw .e true (fW .bool 0 0 1),
   oRec 0x2010 (.only 0) .ro .b false [fRO .u8, fRO .u8, fRO .tb, fRO .u32, fRO .u32, fRO .u32],
   oRec 0x2011 (.only 0) .rw .e true [fW .u8 0 0 7, fW .u8 6 0 7, fW .u8 7 0 7, fW .u32 2000 2000 100000],
   oRec 0x2013 .node .ro .b false [fRO .u8, fRO .u8, fRO .bool, fRO .u64, fRO .u32, fRO .u32, fRO .u32],
   oNum 0x2014 .node .rw .e false (fW .u8 1 0 1),
   oNum 0x2015 (.only 0) .rw .e false (fW .u8 4 0 7),
   oRec 0x2020 (.only 0) .rw .e true [fW .u8 0 0 10, fW .u16 3125 1588 3333],
   oNum 0x2030 (.upTo 1) .rw .e false (fW .u32 0 0 0xFFF)]

/-- Area 0x3000 (R399, R412). -/
def odRows3 : List ORow :=
  [oRec 0x3000 (.only 0) .ro .b false [fRO .u32, fRO .uj, fRO .uj, fRO .u16, fRO .u16, fRO .u32],
   oRec 0x3001 (.upTo 0x13) .ro .b false [fRO .u16, fRO .u16, fRO .u32, fRO .i16, fRO .f32, fRO .u32, fRO .u32],
   oNum 0x3002 (.only 0) .rw .b true (fW .u32 16000 4000 18000),
   oNum 0x3003 (.only 0) .rw .e true (fW .u16 1500 1350 1650),
   oRec 0x3004 (.only 0) .rw .e true [fW .u8 2 1 16, fW .bool 1 0 1],
   oNum 0x3005 (.upTo 15) .rw .e true (fW .u8 1 1 255),
   oRec 0x3006 (.upTo 15) .ro .b false [fRO .i64, fRO .u64, fRO .uj, fRO .uj, fRO .u64, fRO .u32, fRO .u64],
   oRec 0x3007 (.only 0) .ro .b false [fRO .u16, fRO .u32, fRO .u32, fRO .u64, fRO .u64, fRO .u32],
   oRec 0x3008 (.only 0) .ro .b false [fRO .u8, fRO .u16, fRO .u16, fRO .u32, fRO .u32],
   oRec 0x3010 (.only 0) .ro .b false [fRO .u32, fRO .u32, fRO .u8, fRO .u32, fRO .u32, fRO .u32],
   oRec 0x3011 (.upTo 0x13) .ro .b false [fRO .f32, fRO .f32, fRO .u32, fRO .i16, fRO .i16, fRO .bool, fRO .u32, fRO .u32],
   oRec 0x3012 .die .ro .b false [fRO .i16, fRO .i16, fRO .u8, fRO .u32, fRO .u32],
   oRec 0x3013 (.only 0) .rw .e true [fW .u8 5 2 20, fW .u32 100 10 10000],
   oRec 0x3014 (.only 0) .ro .b false [fRO .i16, fRO .i16, fRO .bool, fRO .bool, fRO .i16, fRO .u32]]

/-- Area 0x4000 (R32, R437, R455). -/
def odRows4 : List ORow :=
  [oNum 0x4000 (.only 1) .const .b false (fRO .u8),
   oNum 0x4000 (.only 2) .ro .b false (fRO .u8),
   oNum 0x4000 (.only 3) .const .b false (fRO .u8),
   oNum 0x4001 .site .const .b false (fRO .u8),
   oNum 0x4002 .site .const .b false (fRO .u8),
   oNum 0x4003 .site .ro .e false (fRO .u32),
   oNum 0x4004 (.only 0) .ro .b false (fRO .u64),
   oNum 0x4010 (.upTo 15) .const .b false (fRO .u8),
   oNum 0x4020 (.upTo 11) .const .b false (fRO .u16),
   oRec 0x4030 (.only 0) .ro .b false [fRO .u8, fRO .bool, fRO .tb, fRO .tb, fRO .tb, fRO .tb, fRO .tb, fRO .tb, fRO .tb,
     fRO .tb, fRO .tb, fRO .tb, fRO .tb, fRO .tb, fRO .u8, fRO .u16],
   oBlob 0x4031 (.only 0) .ro .b false 1040 4 0,
   oNum 0x4032 (.only 0) .ro .b true (fRO .u32),
   oNum 0x4033 .site .wo .e false (fW .u8 0 1 1),
   oRec 0x4034 .site .const .e false [fRO .u32, fRO .u64, fRO .u64],
   oRec 0x4035 (.only 0) .ro .b false [fRO .u8, fRO .u8, fRO .u32, fRO .u32, fRO .u32],
   oRec 0x4036 (.only 0) .rw .e true [fW .bool 1 0 1, fW .bool 0 0 1, fRO .u32, fRO .u32],
   oRec 0x4040 (.upTo 15) .rw .e false [fRO .u8, fW .bool 0 0 1, fAny .u64, fAny .u64, fAny .u64, fAny .u64, fRO .u8],
   oNum 0x4041 (.upTo 15) .wo .e false (fW .u8 0 1 2),
   oRec 0x4042 (.upTo 15) .ro .b false [fRO .u32, fRO .u32, fRO .u8, fRO .u32, fRO .u64, fRO .u64, fRO .u32, fRO .u16],
   oNum 0x4043 .compute .ro .b false (fRO .u8),
   oNum 0x4044 (.only 0) .rw .e true (fW .u32 10000 1000 100000),
   oNum 0x4045 .compute .wo .e false (fW .u8 0 1 16),
   oRec 0x4046 .compute .ro .b false [fRO .u32, fRO .u32, fRO .u32, fRO .u32, fRO .u64]]

/-- Area 0x5000 (R75, R101, R233, R284). -/
def odRows5 : List ORow :=
  [(oRec 0x5000 .compute .ro .b false [fRO .u64, fRO .u64, fRO .u64]).q,
   (oRec 0x5004 .compute .ro .b false [fRO .u64, fRO .u64, fRO .u64, fRO .u64, fRO .u64, fRO .u32, fRO .u32]).q,
   (oRec 0x5008 .compute .still .e false [fAny .u64, fAny .u64]).q,
   (oNum 0x500C .compute .still .e false (fW .u8 0 0 32)).q,
   (oRec 0x5010 .compute .ro .b false [fRO .u16, fRO .u16, fRO .u8, fRO .u32, fRO .u64]).q,
   (oRec 0x5014 .compute .ro .e false [fRO .u64, fRO .u64, fRO .u64, fRO .u64]).q,
   (oRec 0x5018 .compute .ro .e false [fRO .u64, fRO .u64, fRO .u64, fRO .u64]).q,
   oNum 0x5020 (.only 0) .const .b false (fRO .u32),
   oNum 0x5020 (.only 1) .const .b false (fRO .u16),
   (oBlob 0x5021 .compute .still .e false 16 16 0).q,
   oRec 0x5040 (.upTo 0x3F) .rw .b false [fAny .u8, fAny .u8, fAny .u8, fAny .u8, fAny .u8, fAny .u64, fAny .u8, fRO .u8],
   oNum 0x5041 (.upTo 0x3F) .wo .b false (fW .u8 0 1 5),
   oRec 0x5042 (.upTo 0x3F) .ro .b false [fRO .u8, fRO .u32, fRO .u8, fRO .u16, fRO .u32, fRO .u8, fRO .bool, fRO .u32,
     fRO .u8, fRO .bool],
   oBlob 0x5043 (.upTo 0x3F) .rw .e false 8192 32 0,
   oBlob 0x5044 (.upTo 0x3F) .rw .e false 1024 2 0,
   oBlob 0x5045 (.upTo 0x3F) .rw .e false 8192 32 0,
   oBlob 0x5046 (.upTo 0x3F) .ro .b false 512 4 0,
   oVar 0x5047 (.upTo 0x3F) .blob .rw .e false 64 4,
   oVar 0x5048 (.upTo 0x3F) .blob .rw .e false 64 4,
   oRec 0x5049 (.upTo 0x3F) .ro .b false [fRO .u64, fRO .u64, fRO .u32, fRO .u32, fRO .u32, fRO .u32, fRO .u64, fRO .u32,
     fRO .u32, fRO .u64],
   oNum 0x5050 (.only 0) .live .e false (fW .u32 200000 1000 100000000),
   oNum 0x5050 (.only 1) .live .e false (fW .u16 64 32 1024),
   oNum 0x5050 (.only 2) .live .e false (fW .tb 100000000 100000 360000000000),
   oRec 0x5060 (.upTo 0x3F) .rw .b false [fW .u8 0 0 1, fW .u16 0 1 4096, fW .u32 0 0 2097152, fW .u16 0 1 256,
     fW .u32 0 0 786431, fRO .u32],
   oBlob 0x5061 (.upTo 0x3F) .rw .b false 128 1 0xFF,
   oNum 0x5062 (.upTo 0x3F) .live .b false (fAny .u32),
   oRec 0x5063 (.upTo 0x3F) .ro .b false [fRO .u32, fRO .u32, fRO .u64, fRO .u32, fRO .u32]]

/-- Area 0x6000 (R122, R149). -/
def odRows6 : List ORow :=
  [(oRec 0x6000 .compute .ro .b false [fRO .u64, fRO .u64, fRO .u32, fRO .u64, fRO .u64, fRO .u64, fRO .u32]).q,
   (oRec 0x6004 .compute .ro .b false [fRO .u64, fRO .u64, fRO .u64, fRO .u64, fRO .u32, fRO .u64, fRO .u64]).q,
   (oBlob 0x6008 .compute .still .e false 128 2 0).q,
   oNum 0x600C (.only 0) .live .e false (fW .u16 16 2 256),
   oNum 0x600C (.only 1) .live .e false (fW .u32 1024 64 65536),
   (oRec 0x6010 .compute .ro .e false [fRO .u8, fRO .u8, fRO .u16, fRO .u16, fRO .u8, fRO .u8, fRO .u32, fRO .u32]).q,
   oRec 0x6020 .compute .ro .b false [fRO .u8, fRO .u64, fRO .u8, fRO .u8, fRO .i16, fRO .u16, fRO .u16],
   oNum 0x6021 .compute .still .e false (fW .u8 0 0 1),
   oRec 0x6022 .compute .ro .b false [fRO .u64, fRO .u64, fRO .u32, fRO .u32, fRO .u32, fRO .u32, fRO .u64, fRO .u64,
     fRO .u64, fRO .u32],
   oBlob 0x6023 .compute .ro .e false 32768 8 0,
   oRec 0x6024 .compute .ro .e false [fRO .u8, fRO .u64, fRO .u16, fRO .u8, fRO .u8, fRO .tb],
   oRec 0x6025 (.only 0) .rw .b true [fW .u8 4 1 255, fW .tb 8640000000000 100000000 60480000000000,
     fW .u32 3600 600 604800],
   (oNum 0x6030 .compute .still .e false (fW .u32 0 0 786431)).q,
   (oRec 0x6034 .compute .ro .e false [fRO .u64, fRO .u32, fRO .u32]).q]

/-- Area 0x7000 (R178, R205, R307). -/
def odRows7 : List ORow :=
  [oRec 0x7000 .mesh .ro .b false [fRO .u8, fRO .u32, fRO .u32, fRO .u64],
   oRec 0x7001 .mesh .ro .b false [fRO .u64, fRO .u64, fRO .u64, fRO .u32, fRO .u64, fRO .u64, fRO .u64, fRO .u64,
     fRO .u32, fRO .u32, fRO .u64, fRO .u32],
   oRec 0x7002 .mesh .ro .b false ((List.range 4).flatMap fun _ => [fRO .u64, fRO .u64, fRO .u64, fRO .u32, fRO .u8]),
   oNum 0x7003 .mesh .wo .e false (fW .u8 0 0 63),
   oRec 0x7004 .mesh .ro .e false [fRO .u8, fRO .u16, fRO .u8, fRO .tb],
   oBlob 0x7005 .mesh .ro .b false 128 4 0,
   oNum 0x7008 (.only 0) .live .e false (fW .u32 65536 1024 16777216),
   oNum 0x7008 (.only 1) .live .e false (fW .u32 4096 64 1048576),
   oNum 0x7008 (.only 2) .rw .b true (fW .u32 1000 1 1000000),
   oRec 0x7010 .compute .ro .b false [fRO .u64, fRO .u64, fRO .u64, fRO .u64, fRO .u32, fRO .u64, fRO .u64, fRO .u32],
   oBlob 0x7011 .compute .ro .e false 128 8 0,
   oBlob 0x7012 .compute .ro .e false 512 8 0,
   oNum 0x7013 .compute .ro .e false (fRO .u16),
   oRec 0x7020 .node .ro .b false [fRO .u8, fRO .u8, fRO .u8, fRO .u32],
   oRec 0x7021 .node .ro .b false [fRO .u64, fRO .u64, fRO .u64, fRO .u64, fRO .u64, fRO .u32, fRO .u32, fRO .u32, fRO .u32,
     fRO .u32],
   oBlob 0x7022 .node .ro .e false 32 1 0,
   oBlob 0x7023 .node .ro .e false 256 1 0,
   oRec 0x7024 (.only 0) .rw .b true [fW .u32 1000 100 100000, fW .u32 10000 1000 1000000, fW .u32 10000 1000 1000000,
     fW .u8 4 2 16],
   oRec 0x7025 (.only 0) .ro .b false [fRO .u8, fRO .u16, fRO .u16, fRO .u16, fRO .u16]]

/-- Areas 0x8000 and 0x9000 (R267, R335). -/
def odRows8 : List ORow :=
  [oRec 0x8000 (.only 0) .const .b false [fRO .u32, fRO .u32, fRO .u8, fRO .u16],
   oRec 0x8001 (.upTo 15) .still .e false [fAny .u32, fAny .u32, fAny .u32],
   oBlob 0x8002 (.upTo 15) .rw .b false 64 4 0,
   oNum 0x8010 (.only 0) .rw .b false (fW .u32 0 0 524287),
   oBlob 0x8010 (.only 1) .rw .b false 16 16 0,
   oNum 0x8010 (.only 2) .ro .b false (fRO .u8),
   oVar 0x8011 (.only 0) .blob .rw .e false 16777216 16,
   oRec 0x8020 (.upTo 0x3F) .rw .b false [fW .u8 0 0 15, fW .u16 0 0 4096, fAny .u8, fAny .u8, fAny .u8, fAny .u8, fAny .u64],
   oBlob 0x8021 (.upTo 0x3F) .rw .e false 2048 16 0,
   oVar 0x8022 (.upTo 0x3F) .blob .rw .e false 32768 4,
   oBlob 0x8023 (.upTo 0x3F) .rw .e false 1024 16 0,
   oNum 0x8030 (.only 0) .rw .b false (fW .u32 0 0 262143),
   oBlob 0x8030 (.only 1) .ro .b false 32 32 0,
   oRec 0x8031 (.upTo 15) .ro .b false [fRO .u64, fRO .u64, fRO .u64, fRO .u64, fRO .u64, fRO .u64, fRO .u64, fRO .u64,
     fRO .u64, fRO .u64, fRO .u32, fRO .u64, fRO .u64],
   oRec 0x8040 .compute .ro .b false [fRO .u64, fRO .u64, fRO .u64, fRO .u64, fRO .u32, fRO .u64, fRO .u64, fRO .u32],
   oRec 0x9000 (.only 0) .ro .b false [fRO .bool, fRO .u16, fRO .u8, fRO .bool, fRO .bool, fRO .bool, fRO .u16, fRO .u8,
     fRO .bool, fRO .bool, fRO .u8],
   oRec 0x9001 (.upTo 16) .ro .b false [fRO .u64, fRO .u64, fRO .u32, fRO .u64, fRO .u64, fRO .u32, fRO .u32, fRO .u64,
     fRO .u32],
   oBlob 0x9002 (.upTo 16) .ro .b false 1056 32 0,
   oRec 0x9003 (.only 0) .rw .e true [fW .u8 64 8 64, fW .u8 16 1 16]]

/-- Areas 0xA000 and 0xB000 (R545, R480). -/
def odRowsA : List ORow :=
  [oNum 0xA000 (.only 0) .rw .e true (fW .u16 0xFFFF 0 0xFFFF),
   oNum 0xA000 (.only 1) .const .b false (fRO .u16),
   oBlob 0xA001 (.only 0) .rw .e true 16 1 0,
   oRec 0xA002 (.upTo 11) .ro .b false [fRO .u8, fRO .u8, fRO .bool, fRO .u64, fRO .u64, fRO .u64, fRO .u64, fRO .u64,
     fRO .u64, fRO .u32],
   oBlob 0xA003 .port .ro .b false 40 40 0,
   oVar 0xA004 .port .str .rw .e true 64 1,
   oBlob 0xA010 (.only 0) .rw .e false 16384 4 0,
   oBlob 0xA020 .port .rw .e false 65536 1 0,
   oBlob 0xA021 .port .rw .e false 288 1 0xFF,
   oBlob 0xA022 .port .still .e false 16 2 0,
   oRec 0xA030 (.only 0) .rw .e false [fW .u32 1 1 65536, fW .u8 0 0 1, fAny .tb, fRO .u8, fRO .u16],
   oRec 0xA040 (.only 0) .rw .e true [fW .u8 0 0 1, fRO .bool, fRO .bool, fRO .u8, fRO .u64],
   oNum 0xA041 (.only 0) .rw .b true (fW .u32 1000 1 1000000),
   oRec 0xB000 (.only 0) .ro .b false [fRO .bool, fRO .bool, fRO .u8, fRO .u8, fRO .u8, fRO .u64, fRO .u32, fRO .u64,
     fRO .u64],
   oVar 0xB001 (.upTo 1) .blob .const .b false 2048 1,
   oVar 0xB002 (.upTo 1) .blob .ro .b false 65536 1,
   oBlob 0xB003 (.only 0) .const .b false 48 48 0,
   oVar 0xB004 (.only 0) .str .const .b false 64 1,
   oBlob 0xB010 (.only 0) .wo .b false 48 48 0,
   oVar 0xB010 (.only 1) .blob .ro .b false 65536 1,
   oVar 0xB011 (.upTo 1) .blob .wo .s false 16777216 1,
   oNum 0xB012 (.only 0) .wo .s false (fW .u8 0 1 5),
   oRec 0xB013 (.only 0) .ro .b false [fRO .bool, fRO .u32, fRO .u16, fRO .u8, fRO .bool, fRO .u32, fRO .u16, fRO .u8],
   oBlob 0xB020 (.upTo 7) .ro .b false 48 48 0,
   oBlob 0xB021 (.upTo 7) .wo .e false 48 48 0,
   oBlob 0xB030 (.upTo 31) .rw .s true 112 112 0,
   oRec 0xB031 (.only 0) .rw .s true [fW .u8 8 1 64, fW .u32 60 10 86400],
   oBlob 0xB040 (.upTo 1) .rw .e true 400 400 0,
   oRec 0xB041 (.upTo 1) .ro .b false [fRO .bool, fRO .u8, fRO .u8, fRO .u64, fRO .u64, fRO .u64, fRO .u64, fRO .u32],
   oVar 0xB050 (.only 0) .blob .rw .s true 4096 64]

/-- Areas 0xC000, 0xD000 and 0xE000 (R437, R493, R514). The F32 ranges of the block factors are those of R437 as bit
patterns, which order as the positive values do. -/
def odRowsC : List ORow :=
  [oRec 0xC000 (.only 0) .ro .b false [fRO .u8, fRO .u32, fRO .tb, fRO .u32, fRO .bool],
   oBlob 0xC001 .site .rw .e true 256 4 0,
   oBlob 0xC002 .site .rw .e true 4096 1 0,
   oRec 0xC003 (.upTo 0x13) .rw .e true [fW .f32 0x2B8CBCCC 0x2B8CBCCC 0x358637BD, fW .f32 0x3A83126F 0x3A83126F 0x3F800000,
     fW .f32 0x3A83126F 0x3A83126F 0x3F800000, fW .f32 0x41000000 0x3F800000 0x42C80000],
   oBlob 0xD000 .compute .wo .b false 32 32 0,
   oBlob 0xD001 .compute .ro .b false 512 32 0,
   oRec 0xD002 .compute .ro .b false [fRO .u64, fRO .u32, fRO .u32, fRO .u32, fRO .u32, fRO .u64],
   oRec 0xD010 (.only 0) .ro .b false [fRO .u64, fRO .u32, fRO .u32, fRO .u32, fRO .u64, fRO .u32],
   oRec 0xE000 (.only 0) .ro .b false [fRO .u16, fRO .u32, fRO .u64],
   oVar 0xE001 (.only 0) .blob .ro .b false 262144 32,
   oVar 0xE002 (.only 0) .blob .const .b false 65536 4,
   oRec 0xE010 .site .ro .b false [fRO .u8, fRO .u8, fRO .u16, fRO .tb, fRO .u32, fRO .u8],
   (oRec 0xE011 .compute .ro .b false [fRO .u8, fRO .u8, fRO .u16, fRO .tb, fRO .u32, fRO .u8]).q,
   oRec 0xE015 .compute .ro .b false [fRO .u8, fRO .u8, fRO .u16, fRO .tb, fRO .u32, fRO .u8],
   oRec 0xE016 (.upTo 11) .ro .b false [fRO .u8, fRO .u8, fRO .u16, fRO .tb, fRO .u32, fRO .u8],
   oRec 0xE017 (.upTo 0x13) .ro .b false [fRO .u8, fRO .u8, fRO .u16, fRO .tb, fRO .u32, fRO .u8],
   oRec 0xE018 (.only 0) .ro .b false [fRO .u8, fRO .u8, fRO .u8, fRO .u8, fRO .u8, fRO .u8, fRO .u8, fRO .u8, fRO .bool,
     fRO .u8, fRO .u8, fRO .u64, fRO .u32, fRO .u32],
   oRec 0xE020 (.only 0) .rw .e true [fW .bool 1 0 1, fW .u8 3 1 16, fW .u32 3600 60 86400, fW .u32 1000 1 1000000]]

/-- The rows of one area, by the top digit of the index. -/
def odArea (i : Nat) : List ORow :=
  match i / 0x1000 with
  | 1 => odRows1 | 2 => odRows2 | 3 => odRows3 | 4 => odRows4 | 5 => odRows5 | 6 => odRows6 | 7 => odRows7
  | 8 => odRows8 | 9 => odRows8 | 10 => odRowsA | 11 => odRowsA | 12 => odRowsC | 13 => odRowsC | 14 => odRowsC
  | _ => []

/-- Does a row stand for the index? -/
def ORow.has (r : ORow) (i : Nat) : Bool := if r.quad then decide (r.index ≤ i ∧ i < r.index + 4) else decide (r.index = i)

/-- Does the sub-index name an element (R337)? -/
def OSub.ok (v : Nat) : OSub → Nat → Bool
  | .only n, s => decide (s = n)
  | .upTo n, s => decide (s ≤ n)
  | .site, s => isSite s
  | .mesh, s => isCompute s || isEdge s
  | .node, s => isCompute s || isEdge s || isHub s
  | .die, s => isDie s
  | .compute, s => isCompute s
  | .port, s => decide (s ≤ 11) && !portFused v s

/-- What sub-index 0xFF of an array object reads (R337). -/
def OSub.last : OSub → Option Nat
  | .only _ => none
  | .upTo n => some n
  | .site => some 0xDD
  | .mesh => some 0xDD
  | .node => some 0xDD
  | .die => some 0xDD
  | .compute => some 0xCC
  | .port => some 11

/-- The row of an object, by its index and sub-index. -/
def odRow (v i s : Nat) : Option ORow := (odArea i).find? fun r => r.has i && r.sub.ok v s
/-- Any row of an index. -/
def odIndex (i : Nat) : Option ORow := (odArea i).find? fun r => r.has i

/-- The highest power cap by variant (R2). -/
def capMax (v : Nat) : Nat := if v = 2 then 13800 else if v = 3 then 9600 else 18000
/-- The default power cap (R381). -/
def capDefault (v : Nat) : Nat := if v = 2 ∨ v = 3 then capMax v else 16000

/-- Bytes of a record from its field values. -/
def fldBytes : List OFld → List Nat → List Byte
  | [], _ => []
  | f :: fs, vs => leBytes f.ty.size (vs.headD 0) ++ fldBytes fs (vs.drop 1)

/-- An object's default bytes. -/
def ORow.dflt (v : Nat) (r : ORow) : List Byte :=
  if r.index = 0x3002 then leBytes 4 (capDefault v)
  else if r.index = 0xA022 then (List.range 8).flatMap fun _ => leBytes 2 512
  else if r.index = 0xB040 then 0xFF :: List.replicate 399 0
  else if r.index = 0x5021 then leBytes 16 1
  else if r.var then []
  else if r.ty = .blob then List.replicate r.len (BitVec.ofNat 8 r.fill)
  else fldBytes r.flds (r.flds.map (·.dflt))

/-- Offset of field n (from 1) in a record, and its type. -/
def fldAt : List OFld → Nat → Nat → Option (Nat × OFld)
  | [], _, _ => none
  | f :: fs, n, off => if n ≤ 1 then some (off, f) else fldAt fs (n - 1) (off + f.ty.size)

/-- The stored bytes of a setting, or its default. -/
def odBytes (p : Panel) (i s : Nat) : List Byte :=
  match Tab.find? p.od.val (256 * i + s) with
  | some b => b
  | none => match odRow p.variant i s with
    | some r => r.dflt p.variant
    | none => []

/-- The numeric value of field n of a setting (field 1 of a scalar). -/
def cfg (p : Panel) (i s n : Nat) : Nat :=
  match odRow p.variant i s with
  | none => 0
  | some r => match fldAt r.flds n 0 with
    | none => 0
    | some (off, f) => leNat ((odBytes p i s).drop off |>.take f.ty.size)

/-- As `cfg`, of given bytes. -/
def fieldOf (v i s n : Nat) (b : List Byte) : Nat :=
  match odRow v i s with
  | none => 0
  | some r => match fldAt r.flds n 0 with
    | none => 0
    | some (off, f) => leNat ((b.drop off).take f.ty.size)

/-- The value of a LIVE setting in force at a die (R231). -/
def dieCfg (p : Panel) (site i s : Nat) : Nat :=
  match Tab.find? (Tab.get dieRun0 p.die site).live (256 * i + s) with
  | some b => leNat b
  | none => match odRow p.variant i s with
    | some r => leNat (r.dflt p.variant)
    | none => 0

/-- Store the bytes of a setting. -/
def odPut (i s : Nat) (b : List Byte) (p : Panel) : Panel := { p with od := { p.od with val := Tab.set (256 * i + s) b p.od.val } }

end Sys2Proof.Machine
end

