-- ==== Sys2Proof/Machine/Ops.lean ====
section
/-! DEFINITION. The named operations over State that every family uses: reading and changing one unit's state, running a
command on a unit that exists, the timebase, and free values. -/

namespace Sys2Proof.Machine

/-- The outcome of a command. -/
abbrev Out := Host.Outcome State Fault Refusal

def State.onP (s : State) (f : Panel → Panel) : State := { s with p := f s.p }
def State.onM (s : State) (f : Mem → Mem) : State := { s with mem := f s.mem }

/-- Run a command where its units exist. A command whose site, unit, channel or field value is none of the series'
(R8, R10, R11, R25, R35) reaches no unit, and nothing changes (DESIGN CHOICE, log 47). -/
def State.run (s : State) (ok : Bool) (f : State → State) : Out := .next (if ok then f s else s)
/-- As `run`, for a command that touches no byte of memory. -/
def State.runP (s : State) (ok : Bool) (f : Panel → Panel) : Out := s.run ok fun t => t.onP f

/-- Is `k` a core number (4 * site + core)? -/
def isCore (k : Nat) : Bool := isCompute (siteOf k)
def isPort (n : Nat) : Bool := decide (n < 12)
def isBlock (n : Nat) : Bool := decide (n < 20)
def isRegion (n : Nat) : Bool := decide (n < 64)
def isPart (n : Nat) : Bool := decide (n < 16)
def isFn (n : Nat) : Bool := decide (n ≤ 16)
/-- A host port, H0 or H1 (R308). -/
def isHPort (n : Nat) : Bool := decide (n < 2)
/-- A control node (R285). -/
def isNode (s : Nat) : Bool := isCompute s || isEdge s || isHub s
/-- A die with a router in the mesh. -/
def isMesh (s : Nat) : Bool := isCompute s || isEdge s
/-- A die with a data router or a ring switch: the mesh dies and the hubs; and the edges of its that carry a data link (R13, R26):
of an edge die 0 and 1 face the array, 2 and 3 lead clockwise and counter-clockwise round the ring, as do a hub's. -/
def isRouter (s : Nat) : Bool := isMesh s || isHub s
def dataEdges (s : Nat) : List Nat := if isMesh s then [0, 1, 2, 3] else if isHub s then [2, 3] else []

namespace Panel

def now (p : Panel) : Nat := p.clk.tb
def getCore (p : Panel) (k : Nat) : Core := Tab.get (coreInit k) p.core k
def setCore (k : Nat) (c : Core) (p : Panel) : Panel := { p with core := Tab.set k c p.core }
def modCore (k : Nat) (f : Core → Core) (p : Panel) : Panel := p.setCore k (f (p.getCore k))
/-- Change a core's architectural part, other than by a slot of its open bundle: what such a slot goes back to changes
too (R43). -/
def modA (k : Nat) (f : CoreA → CoreA) (p : Panel) : Panel := p.modCore k fun c => { c with a := f c.a, snap := c.snap.map f }
def getRtr (p : Panel) (s : Nat) : Router := Tab.get router0 p.rtr s
def modRtr (s : Nat) (f : Router → Router) (p : Panel) : Panel := { p with rtr := Tab.set s (f (p.getRtr s)) p.rtr }
def getStk (p : Panel) (s : Nat) : Stack := Tab.get stack0 p.stk s
def modStk (s : Nat) (f : Stack → Stack) (p : Panel) : Panel := { p with stk := Tab.set s (f (p.getStk s)) p.stk }
def getSve (p : Panel) (s : Nat) : Sieve := Tab.get sieve0 p.sve s
def modSve (s : Nat) (f : Sieve → Sieve) (p : Panel) : Panel := { p with sve := Tab.set s (f (p.getSve s)) p.sve }
def getDie (p : Panel) (s : Nat) : DieRun := Tab.get dieRun0 p.die s
def modDie (s : Nat) (f : DieRun → DieRun) (p : Panel) : Panel := { p with die := Tab.set s (f (p.getDie s)) p.die }
def getReg (p : Panel) (r : Nat) : Region := Tab.get region0 p.reg r
def modReg (r : Nat) (f : Region → Region) (p : Panel) : Panel := { p with reg := Tab.set r (f (p.getReg r)) p.reg }
def getPart (p : Panel) (n : Nat) : Part := Tab.get part0 p.part n
def modPart (n : Nat) (f : Part → Part) (p : Panel) : Panel := { p with part := Tab.set n (f (p.getPart n)) p.part }
def getChk (p : Panel) (s : Nat) : CheckEng := Tab.get checkEng0 p.chk s
def modChk (s : Nat) (f : CheckEng → CheckEng) (p : Panel) : Panel := { p with chk := Tab.set s (f (p.getChk s)) p.chk }
def getRctr (p : Panel) (s : Nat) : ResetCtr := Tab.get default p.rctr s
def modRctr (s : Nat) (f : ResetCtr → ResetCtr) (p : Panel) : Panel := { p with rctr := Tab.set s (f (p.getRctr s)) p.rctr }
def getClk (p : Panel) (s : Nat) : DieClk := Tab.get dieClk0 p.clk.die s
def modClk (s : Nat) (f : DieClk → DieClk) (p : Panel) : Panel :=
  { p with clk := { p.clk with die := Tab.set s (f (p.getClk s)) p.clk.die } }
def getNode (p : Panel) (s : Nat) : Node := Tab.get node0 p.ctl.node s
def modNode (s : Nat) (f : Node → Node) (p : Panel) : Panel :=
  { p with ctl := { p.ctl with node := Tab.set s (f (p.getNode s)) p.ctl.node } }
def getFn (p : Panel) (n : Nat) : Fn := Tab.get fn0 p.host.fn n
def modFn (n : Nat) (f : Fn → Fn) (p : Panel) : Panel :=
  { p with host := { p.host with fn := Tab.set n (f (p.getFn n)) p.host.fn } }
def getBlk (p : Panel) (b : Nat) : Blk := Tab.get blk0 p.pwr.blk b
def modBlk (b : Nat) (f : Blk → Blk) (p : Panel) : Panel :=
  { p with pwr := { p.pwr with blk := Tab.set b (f (p.getBlk b)) p.pwr.blk } }
def getAcct (p : Panel) (n : Nat) : Acct := Tab.get default p.pwr.acct n
def modAcct (n : Nat) (f : Acct → Acct) (p : Panel) : Panel :=
  { p with pwr := { p.pwr with acct := Tab.set n (f (p.getAcct n)) p.pwr.acct } }
def getQuery (p : Panel) (q : Nat) : Query := Tab.get query0 p.ret.query q
def modQuery (q : Nat) (f : Query → Query) (p : Panel) : Panel :=
  { p with ret := { p.ret with query := Tab.set q (f (p.getQuery q)) p.ret.query } }
def getDir (p : Panel) (e : Nat) : DirEntry := Tab.get dirEntry0 p.ret.dir e
def modDir (e : Nat) (f : DirEntry → DirEntry) (p : Panel) : Panel :=
  { p with ret := { p.ret with dir := Tab.set e (f (p.getDir e)) p.ret.dir } }
def getPort (p : Panel) (n : Nat) : FPort := Tab.get fport0 p.fab.port n
def modPort (n : Nat) (f : FPort → FPort) (p : Panel) : Panel :=
  { p with fab := { p.fab with port := Tab.set n (f (p.getPort n)) p.fab.port } }
def getHPort (p : Panel) (n : Nat) : Port := Tab.get port0 p.host.port n
def modHPort (n : Nat) (f : Port → Port) (p : Panel) : Panel :=
  { p with host := { p.host with port := Tab.set n (f (p.getHPort n)) p.host.port } }
def getGuest (p : Panel) (g : Nat) : Guest := Tab.get guest0 p.sec.guest g
def modGuest (g : Nat) (f : Guest → Guest) (p : Panel) : Panel :=
  { p with sec := { p.sec with guest := Tab.set g (f (p.getGuest g)) p.sec.guest } }
def modBook (f : Book → Book) (p : Panel) : Panel := { p with book := f p.book }
def modCtl (f : Ctl → Ctl) (p : Panel) : Panel := { p with ctl := f p.ctl }
def modOd (f : Od → Od) (p : Panel) : Panel := { p with od := f p.od }
def modHost (f : HostIf → HostIf) (p : Panel) : Panel := { p with host := f p.host }
def modPwr (f : Power → Power) (p : Panel) : Panel := { p with pwr := f p.pwr }
def modBoot (f : Boot → Boot) (p : Panel) : Panel := { p with boot := f p.boot }
def modSec (f : Sec → Sec) (p : Panel) : Panel := { p with sec := f p.sec }
def modFab (f : Fabric → Fabric) (p : Panel) : Panel := { p with fab := f p.fab }
def modClocks (f : Clocks → Clocks) (p : Panel) : Panel := { p with clk := f p.clk }
def modRet (f : Retrieval → Retrieval) (p : Panel) : Panel := { p with ret := f p.ret }

/-- Take a fresh free value (log 4). -/
def freeNat (p : Panel) : Nat × Panel := (Config.freeNat p.free, { p with free := p.free + 1 })

/-- The site of the active hub, and of the other (R298, R308). -/
def activeHub (p : Panel) : Nat := if p.book.active = 0 then 0x00 else 0xDD
def standbyHub (p : Panel) : Nat := if p.book.active = 0 then 0xDD else 0x00

/-- The partition of a die: the one whose members name it (R438). -/
def partOf (p : Panel) (s : Nat) : Option Nat :=
  (List.find? (fun e : Nat × Part => e.2.members.contains s) p.part).map (·.1)
/-- The region that holds a die: the one whose members name it (R206), its hamper sites included (R225). -/
def regionOf (p : Panel) (s : Nat) : Option Nat :=
  (List.find? (fun e : Nat × Region => decide (e.2.phase ≠ .free) && e.2.members.contains s) p.reg).map (·.1)

end Panel

/-- A unit the book does not list: nothing is known of it before phase 3, and it reads ABSENT (log 9). -/
def urec0 : URec :=
  { st := .absent, prior := .absent, cause := 0, tick := 0, evid := 0, probes := [], own := true, takeover := false }

namespace Panel

def unit (p : Panel) (key : Nat) : URec := Tab.get urec0 p.book.unit key
def ust (p : Panel) (key : Nat) : USt := (p.unit key).st
def modUnit (key : Nat) (f : URec → URec) (p : Panel) : Panel :=
  p.modBook fun b => { b with unit := Tab.set key (f (Tab.get urec0 b.unit key)) b.unit }

end Panel

/-- Apply a change for each of a list, left to right. -/
def each {α β : Type} (l : List α) (f : α → β → β) (b : β) : β := l.foldl (fun b a => f a b) b

end Sys2Proof.Machine
end

