-- ==== Sys2Proof/Machine/CtlRoute.lean ====
section
/-! DEFINITION. The control network's links, message words, routes and queues (R285-R294, R300): where a message goes next. -/

namespace Sys2Proof.Machine

/-- Has a power block its supply (R285, R386)? -/
def blockPowered (p : Panel) (b : Nat) : Bool := decide ((p.getBlk b).st = .up)

/-- Does a node take part: neither ABSENT nor FAILED, its power block powered (R285)? -/
def takesPart (p : Panel) (s : Nat) : Bool :=
  isNode s && blockPowered p (blockOf s) && (match p.ust s with | .absent => false | .failed => false | _ => true)

/-- The compute dies inside of an edge die, at its first and its second position (R286). -/
def edgeInner (e i : Nat) : Nat :=
  let pos := if i = 0 then e else if rowOf e = 0 ∨ rowOf e = 13 then e + 1 else e + 16
  if rowOf e = 0 then pos + 16 else if rowOf e = 13 then pos - 16 else if colOf e = 0 then pos + 1 else pos - 1

/-- The far node of a node's port, where the port exists (R286). -/
def ctlFar (s port : Nat) : Option Nat :=
  if isCompute s then
    if port < 4 then some (neighbour s port)
    else if port = 4 ∧ s = 0x11 then some 0x00 else if port = 4 ∧ s = 0xCC then some 0xDD else none
  else if isEdge s then
    if port < 2 then some (edgeInner s port) else if port = 2 then some (ringNext s) else if port = 3 then some (ringPrev s) else none
  else if isHub s then
    if port = 0 then some (ringNext s) else if port = 1 then some (ringPrev s)
    else if port = 2 then some (if s = 0 then 0x11 else 0xCC) else none
  else none

/-- The port of `t` whose far node is `s`. -/
def portTo (t s : Nat) : Option Nat := (List.range 5).find? fun q => decide (ctlFar t q = some s)

/-- Is a port's link up: declared down at neither end, the far node taking part (R286, R288)? -/
def ctlUp (p : Panel) (s port : Nat) : Bool :=
  match ctlFar s port with
  | none => false
  | some t => takesPart p t && !(p.getNode s).linkDown.contains port
      && (match portTo t s with | some q => !(p.getNode t).linkDown.contains q | none => true)

/-- The live ports of a node. -/
def livePorts (p : Panel) (s : Nat) : List Nat := (List.range 5).filter (ctlUp p s)

/-- A route table entry: alternate port [7:4], primary port [3:0]; 0xF none (R293, R307). -/
def routeEntry (n : Node) (d : Nat) : Nat := Tab.get 0xFF n.route d

/-- The port on which a node forwards a unicast (R293). -/
def routePort (p : Panel) (s d : Nat) : Option Nat :=
  let x := routeEntry (p.getNode s) d
  if ctlUp p s (x % 16) then some (x % 16) else if ctlUp p s (x / 16) then some (x / 16) else none

/-- The number of a hub (R289), and the site of one. -/
def hubNum (s : Nat) : Nat := if s = 0 then 0 else 1
def hubSite (n : Nat) : Nat := if n = 0 then 0x00 else 0xDD

/-- Where a unicast goes, as a node resolves it: DMODE 1 to the hub its register names (R293, R298). -/
def unicastTo (n : Node) (k : Pkt) : Nat := if k.dmode = 0 then k.dst else hubSite n.hub

/-- A node's group map: what the hub wrote, and the groups of its kind (R291). -/
def groupMap (p : Panel) (s : Nat) : Nat :=
  (p.getNode s).groups ||| (if isCompute s then 2 ^ 0xF0 else if isEdge s then 2 ^ 0xF1 else if isHub s then 2 ^ 0xF2 else 0)

/-- Is a group defined (R291)? -/
def groupDefined (g : Nat) : Bool := decide (g < 0x50) || decide (0x80 ≤ g ∧ g < 0x88) || decide (0xF0 ≤ g ∧ g < 0xF3)

/-- Is a multicast for a node (R289, R291)? -/
def inGroup (p : Panel) (s : Nat) (k : Pkt) : Bool :=
  decide (k.dmode = 3) || (groupDefined k.dst && (groupMap p s).testBit k.dst)

/-- Class and kind of a message (R304). -/
def msgCode : Msg → Nat × Nat
  | .freeze .. => (0, 1) | .fence .. => (0, 2) | .faultReport .. => (0, 3) | .arrive .. => (1, 1) | .release .. => (1, 2)
  | .epochSet .. => (1, 3) | .ack .. => (1, 4) | .nack .. => (1, 5) | .liveWrite .. => (1, 6) | .liveCommit .. => (1, 7)
  | .sieveDone .. => (1, 8) | .event .. => (2, 1) | .lateNotice .. => (2, 2) | .undeliverable .. => (2, 3)
  | .cfgWrite .. => (2, 4) | .cfgRead .. => (2, 5) | .cfgData .. => (2, 6) | .hubBeat .. => (3, 1) | .nodeBeat .. => (3, 2)
  | .bulkOpen .. => (4, 1) | .bulkData .. => (4, 2) | .bulkClose .. => (4, 3) | .bulkResult .. => (4, 4)
  | .reserved c k => (c % 8, k % 32)

/-- A field of width `w` at bit `lo` of a body. -/
def bodyAt (lo w x : Nat) : Nat := x % 2 ^ w * 2 ^ lo

/-- The body of a message (R304). -/
def msgBody : Msg → Nat
  | .freeze r c => bodyAt 74 6 r + bodyAt 48 16 c
  | .fence k n e r => bodyAt 72 8 k + bodyAt 64 8 n + bodyAt 48 16 e + bodyAt 32 16 r
  | .faultReport ev c d => bodyAt 80 16 ev + bodyAt 78 2 c + d.toNat
  | .arrive r d b m => bodyAt 90 6 r + bodyAt 82 8 d + bodyAt 77 5 b + bodyAt 68 9 m
  | .release r d f t => bodyAt 74 6 r + bodyAt 66 8 d + bodyAt 65 1 f.toNat + bodyAt 0 64 t
  | .epochSet q n f i e => bodyAt 64 16 q + bodyAt 60 4 n + bodyAt 59 1 f.toNat + bodyAt 40 18 i + bodyAt 0 16 e
  | .ack q r => bodyAt 80 16 q + bodyAt 74 6 r
  | .nack q r => bodyAt 80 16 q + bodyAt 74 6 r
  | .liveWrite i s o d => bodyAt 80 16 i + bodyAt 72 8 s + bodyAt 64 8 o + d.toNat
  | .liveCommit n c => bodyAt 80 16 n + bodyAt 64 16 c
  | .sieveDone n e => bodyAt 64 32 n + e.toNat
  | .event ev c u d => bodyAt 80 16 ev + bodyAt 78 2 c + bodyAt 64 14 u + d.toNat
  | .lateNotice o s w r g c a =>
    bodyAt 94 2 o + bodyAt 92 2 s + bodyAt 86 6 w + bodyAt 84 2 r + bodyAt 68 16 g + bodyAt 52 16 c + bodyAt 0 26 a
  | .undeliverable c k d => bodyAt 93 3 c + bodyAt 88 5 k + bodyAt 80 8 d
  | .cfgWrite t i v => bodyAt 88 8 t + bodyAt 72 16 i + v.toNat
  | .cfgRead t i => bodyAt 88 8 t + bodyAt 72 16 i
  | .cfgData t i v => bodyAt 88 8 t + bodyAt 72 16 i + v.toNat
  | .hubBeat g a t => bodyAt 72 8 g + bodyAt 71 1 a.toNat + bodyAt 0 64 t
  | .nodeBeat e t => bodyAt 64 32 e + bodyAt 0 64 t
  | .bulkOpen s c m b l => bodyAt 88 8 s + bodyAt 76 4 c + bodyAt 72 4 m + bodyAt 24 40 b + bodyAt 0 24 l
  | .bulkData s i d => bodyAt 88 8 s + bodyAt 64 24 i + d.toNat
  | .bulkClose s c => bodyAt 88 8 s + c.toNat
  | .bulkResult s t m f => bodyAt 88 8 s + bodyAt 84 4 t + bodyAt 64 20 m + bodyAt 0 24 f
  | .reserved _ _ => 0

/-- The message that a class, a kind and a body spell (R304). -/
def msgOf (c k : Nat) (b : Nat) : Msg :=
  let f := nfld b
  let d := BitVec.ofNat 64 b
  match c, k with
  | 0, 1 => .freeze (f 79 74) (f 63 48)
  | 0, 2 => .fence (f 79 72) (f 71 64) (f 63 48) (f 47 32)
  | 0, 3 => .faultReport (f 95 80) (f 79 78) d
  | 1, 1 => .arrive (f 95 90) (f 89 82) (f 81 77) (f 76 68)
  | 1, 2 => .release (f 79 74) (f 73 66) (decide (f 65 65 = 1)) (f 63 0)
  | 1, 3 => .epochSet (f 79 64) (f 63 60) (decide (f 59 59 = 1)) (f 57 40) (f 15 0)
  | 1, 4 => .ack (f 95 80) (f 79 74)
  | 1, 5 => .nack (f 95 80) (f 79 74)
  | 1, 6 => .liveWrite (f 95 80) (f 79 72) (f 71 64) d
  | 1, 7 => .liveCommit (f 95 80) (f 79 64)
  | 1, 8 => .sieveDone (f 95 64) d
  | 2, 1 => .event (f 95 80) (f 79 78) (f 77 64) d
  | 2, 2 => .lateNotice (f 95 94) (f 93 92) (f 91 86) (f 85 84) (f 83 68) (f 67 52) (f 25 0)
  | 2, 3 => .undeliverable (f 95 93) (f 92 88) (f 87 80)
  | 2, 4 => .cfgWrite (f 95 88) (f 87 72) d
  | 2, 5 => .cfgRead (f 95 88) (f 87 72)
  | 2, 6 => .cfgData (f 95 88) (f 87 72) d
  | 3, 1 => .hubBeat (f 79 72) (decide (f 71 71 = 1)) (f 63 0)
  | 3, 2 => .nodeBeat (f 95 64) (f 63 0)
  | 4, 1 => .bulkOpen (f 95 88) (f 79 76) (f 75 72) (f 63 24) (f 23 0)
  | 4, 2 => .bulkData (f 95 88) (f 87 64) d
  | 4, 3 => .bulkClose (f 95 88) d
  | 4, 4 => .bulkResult (f 95 88) (f 87 84) (f 83 64) (f 23 0)
  | _, _ => .reserved c k

/-- The 16-byte word of a message (R289). -/
def pktWord (k : Pkt) : BitVec 128 :=
  let c := msgCode k.msg
  let dst := if k.dmode = 0 ∨ k.dmode = 2 then k.dst else 0
  let who := if k.dmode ≤ 1 then bodyAt 102 8 k.src + bodyAt 96 6 k.tag else bodyAt 109 1 (hubNum k.src) + bodyAt 96 13 k.mseq
  BitVec.ofNat 128 (bodyAt 125 3 c.1 + bodyAt 120 5 c.2 + bodyAt 118 2 k.dmode + bodyAt 110 8 dst + who + msgBody k.msg)

/-- The message that a word spells (R289). -/
def pktOf (w : BitVec 128) : Pkt :=
  let m := fld w 119 118
  { dmode := m, dst := fld w 117 110, src := if m ≤ 1 then fld w 109 102 else hubSite (fld w 109 109),
    tag := if m ≤ 1 then fld w 101 96 else 0, mseq := if m ≤ 1 then 0 else fld w 108 96,
    msg := msgOf (fld w 127 125) (fld w 124 120) (fld w 95 0) }

/-- Are the reserved bits of a multicast's body zero: [95:83], and in the bulk class those of its layouts (R304)? -/
def reservedZero (w : BitVec 128) : Bool :=
  if fld w 119 118 ≤ 1 then true
  else if fld w 127 125 = 4 then decide (fld w 124 120 = 2) || decide (fld w 87 80 = 0)
  else decide (fld w 95 83 = 0)

/-- Do two messages name one barrier of one block (R300)? -/
def sameArrive (x y : Pkt) : Bool :=
  match x.msg, y.msg with
  | .arrive r d b _, .arrive r' d' b' _ => decide (r = r' ∧ d = d' ∧ b = b')
  | _, _ => false

/-- The first of two such with both masks (R300). -/
def mergeArrive (x y : Pkt) : Pkt :=
  match x.msg, y.msg with
  | .arrive r d b m, .arrive _ _ _ m' => { x with msg := .arrive r d b (m ||| m') }
  | _, _ => x

/-- A message waits at a port of a node, behind those of its class; an ARRIVE merges with one that waits (R294, R300). -/
def enqueue (s port : Nat) (k : Pkt) (p : Panel) : Panel :=
  p.modNode s fun n =>
    let i := 8 * port + (msgCode k.msg).1
    let l := Tab.get [] n.out i
    let l := if l.any fun e => sameArrive e.1 k then l.map fun e => if sameArrive e.1 k then (mergeArrive e.1 k, e.2) else e
      else l ++ [(k, p.now)]
    { n with out := Tab.set i l n.out }

/-- A message is delivered to a node (R292-R294). -/
def deliverTo (s : Nat) (k : Pkt) (p : Panel) : Panel := p.modNode s fun n => { n with inbox := n.inbox ++ [k] }

/-- A unicast leaves a node by its route, or waits under port 5 to be discarded (R293). -/
def forwardUnicast (s : Nat) (k : Pkt) (p : Panel) : Panel :=
  enqueue s ((routePort p s (unicastTo (p.getNode s) k)).getD 5) k p

/-- What the record of multicast sequences makes of a copy (R292): none where it is recorded already, else the record with it.
Of the 8,192 sequences of 13 bits, 4,095 lie ahead of the newest and the others in the record, so that none is too old. -/
def seeMseq (n : Node) (h q : Nat) : Option (Nat × List Nat) :=
  match Tab.find? n.seen h with
  | none => some (q, [q])
  | some (newest, l) =>
    let ahead := (q + 8192 - newest) % 8192
    if 1 ≤ ahead ∧ ahead < 4096 then some (q, q :: l.filter fun x => decide ((q + 8192 - x) % 8192 ≤ 4096))
    else if l.contains q then none
    else some (newest, q :: l)

/-- A message stands at a node, come over a port or sent by the node itself: a unicast is delivered or goes on; an ARRIVE on its
way is held for its merging; a multicast is taken once, flooded on the other live ports, and delivered to a member (R292, R293,
R300). -/
def routeOn (s : Nat) (via : Option Nat) (k : Pkt) (p : Panel) : Panel :=
  if k.dmode ≤ 1 then
    let held : Bool := match k.msg with | .arrive .. => via.isSome | _ => false
    if unicastTo (p.getNode s) k = s ∨ held then deliverTo s k p else forwardUnicast s k p
  else
    match seeMseq (p.getNode s) (hubNum k.src) k.mseq with
    | none => p.modNode s fun n => { n with ctr := { n.ctr with dups := n.ctr.dups + 1 } }
    | some e =>
      let p := p.modNode s fun n => { n with seen := Tab.set (hubNum k.src) e n.seen }
      let p := each ((livePorts p s).filter fun q => decide (some q ≠ via)) (fun q => enqueue s q k) p
      if inGroup p s k then deliverTo s k p else p

/-- A node sends a message; a node that takes no part sends nothing (R285). -/
def sendPkt (k : Pkt) (p : Panel) : Panel :=
  if takesPart p k.src then
    routeOn k.src none k (p.modNode k.src fun n => { n with ctr := { n.ctr with sent := n.ctr.sent + 1 } })
  else p

/-- Take the oldest message delivered to a node (R294). -/
def takePkt (s : Nat) (k : Pkt) (p : Panel) : Option Panel :=
  if takesPart p s ∧ (p.getNode s).inbox.head? = some k then
    some (p.modNode s fun n => { n with inbox := n.inbox.drop 1, ctr := { n.ctr with received := n.ctr.received + 1 } })
  else none

/-- Does a hub that is not the active one, and so acts on no message to the active hub, stand at a site (R289, R298)? -/
def idleHub (p : Panel) (s : Nat) (k : Pkt) : Bool := decide (k.dmode = 1) && decide (s ≠ p.activeHub)

/-- Act on a message delivered to a node. -/
def onPkt (s : Nat) (k : Pkt) (f : Panel → Panel) (p : Panel) : Panel :=
  match takePkt s k p with
  | some q => if idleHub q s k then q else f q
  | none => p

/-- As `onPkt`, for an effect that may reach memory. -/
def onPktS (k : Pkt) (site : Nat) (f : State → State) (s : State) : State :=
  match takePkt site k s.p with
  | some q => if idleHub q site k then { s with p := q } else f { s with p := q }
  | none => s

/-- Every message of the network: waiting, on the links, delivered and not yet acted on. -/
def allPkts (p : Panel) : List Pkt :=
  p.ctl.node.flatMap fun e =>
    e.2.out.flatMap (fun q => q.2.map (·.1)) ++ e.2.wire.flatMap (fun w => w.2.map pktOf) ++ e.2.inbox

end Sys2Proof.Machine
end

