-- ==== Sys2Proof/Machine/Events.lean ====
section
/-! DEFINITION. Events: the catalogue (R511, R514), the limits on repeats (R564), what raising one does at the hub (R512:
event log, host event rings of R329, reports of R357), and how a die sends one (R303, R296). -/

namespace Sys2Proof.Machine

/-- Event codes with severity (0 INFO to 3 FATAL, R510) and the span that limits them (R564). -/
def evRows0 : List (Nat × Nat × Span) :=
  [(0x0101, 2, .always), (0x0102, 2, .always), (0x0103, 3, .always), (0x0104, 1, .always), (0x0105, 1, .always),
   (0x0106, 1, .always), (0x0107, 0, .second), (0x0108, 1, .always), (0x0109, 1, .second), (0x010A, 1, .always),
   (0x010B, 0, .always), (0x0201, 1, .always), (0x0202, 1, .always), (0x0203, 0, .always), (0x0204, 1, .always),
   (0x0205, 0, .always), (0x0206, 1, .always), (0x0207, 2, .always), (0x0208, 2, .always), (0x0209, 0, .second),
   (0x0301, 0, .second), (0x0302, 1, .always), (0x0303, 2, .always), (0x0304, 1, .always), (0x0305, 1, .always),
   (0x0306, 1, .always), (0x0307, 1, .minute), (0x0308, 0, .always), (0x0309, 1, .always), (0x0401, 0, .second),
   (0x0402, 2, .always), (0x0403, 0, .always), (0x0404, 2, .always), (0x0405, 1, .always), (0x0406, 0, .second),
   (0x0407, 0, .second), (0x0408, 2, .always), (0x0409, 2, .always), (0x040A, 1, .always), (0x040B, 1, .step),
   (0x0501, 0, .step), (0x0502, 2, .always), (0x0503, 1, .step), (0x0504, 1, .step), (0x0505, 1, .step),
   (0x0506, 0, .step), (0x0507, 0, .step), (0x0508, 2, .always), (0x0601, 1, .step), (0x0602, 1, .step),
   (0x0603, 1, .step), (0x0604, 0, .second), (0x0605, 1, .second), (0x0606, 2, .always), (0x0607, 2, .always),
   (0x0608, 0, .second), (0x0609, 1, .step), (0x060A, 0, .step), (0x060B, 1, .step), (0x060C, 0, .step),
   (0x060D, 2, .always), (0x0610, 1, .always), (0x0611, 1, .second), (0x0612, 0, .always), (0x0613, 1, .second),
   (0x0614, 1, .always), (0x0615, 0, .always), (0x0701, 2, .always), (0x0702, 2, .always), (0x0703, 0, .step),
   (0x0704, 0, .always), (0x0705, 0, .always), (0x0706, 2, .always), (0x0707, 2, .always), (0x0708, 1, .always)]


/-- The rest of the catalogue. -/
def evRows1 : List (Nat × Nat × Span) :=
  [(0x0709, 2, .always), (0x070A, 1, .always), (0x070B, 1, .always), (0x070C, 2, .always), (0x070D, 2, .always),
   (0x070E, 0, .always), (0x070F, 2, .always), (0x0801, 1, .always), (0x0802, 1, .always), (0x0803, 1, .always),
   (0x0804, 0, .second), (0x0805, 0, .second), (0x0806, 0, .second), (0x0807, 0, .second), (0x0808, 1, .always),
   (0x0809, 1, .always), (0x080A, 1, .always), (0x0901, 0, .always), (0x0902, 1, .always), (0x0903, 0, .second),
   (0x0904, 0, .second), (0x0905, 1, .always), (0x0906, 0, .always), (0x0907, 1, .always), (0x0908, 2, .always),
   (0x0909, 0, .always), (0x0A01, 0, .always), (0x0A02, 1, .always), (0x0A03, 0, .second), (0x0A04, 1, .second),
   (0x0A05, 1, .always), (0x0A06, 1, .second), (0x0A07, 1, .always), (0x0A08, 0, .always), (0x0A09, 1, .always),
   (0x0A0A, 1, .always), (0x0A0B, 0, .always), (0x0A0C, 0, .second), (0x0B01, 2, .always), (0x0B02, 1, .always),
   (0x0B03, 0, .second), (0x0B04, 1, .always), (0x0B05, 1, .always), (0x0B06, 1, .always), (0x0B07, 1, .second),
   (0x0B08, 2, .always), (0x0B09, 2, .always), (0x0B0A, 0, .always), (0x0B0B, 0, .always), (0x0C01, 1, .second),
   (0x0C02, 1, .always), (0x0C03, 0, .second), (0x0D01, 2, .always), (0x0D02, 0, .always), (0x0D03, 2, .always),
   (0x0D04, 3, .always), (0x0D05, 1, .always), (0x0D06, 3, .always), (0x0D07, 0, .always), (0x0D08, 2, .always),
   (0x0D09, 0, .always), (0x0D0A, 0, .always), (0x0D0B, 1, .always), (0x0D0C, 1, .always), (0x0D0D, 2, .always),
   (0x0D0E, 0, .always), (0x0D10, 0, .always), (0x0D11, 0, .always), (0x0D12, 1, .always), (0x0D13, 0, .always),
   (0x0D14, 2, .always), (0x0D15, 0, .always), (0x0D16, 0, .always), (0x0E01, 2, .always), (0x0E02, 1, .always),
   (0x0E03, 1, .always), (0x0E04, 0, .always), (0x0E05, 1, .always), (0x0E06, 0, .always), (0x0E07, 1, .always),
   (0x0E08, 1, .always), (0x0E09, 1, .always), (0x0E0A, 1, .always), (0x0E20, 0, .second), (0x0E21, 1, .always),
   (0x0E22, 1, .always)]

def evCatalogue : List (Nat × Nat × Span) := evRows0 ++ evRows1

def evSev (ev : Nat) : Nat := match evCatalogue.find? (fun r => decide (r.1 = ev)) with | some r => r.2.1 | none => 0
def evSpan (ev : Nat) : Span := match evCatalogue.find? (fun r => decide (r.1 = ev)) with | some r => r.2.2 | none => .always

def ticksPerSecond : Nat := 100000000
def ticksPerMinute : Nat := 6000000000

/-- Which span of its kind a tick lies in (R564). -/
def spanIdx (sp : Span) (t : Nat) : Nat :=
  match sp with
  | .second => t / ticksPerSecond
  | .minute => t / ticksPerMinute
  | _ => 0

/-- Pass an event through its limit: none where it is suppressed, else the repeats suppressed before it (R564). -/
def latch (sp : Span) (ev key : Nat) (p : Panel) : Option Nat × Panel :=
  if sp = .always then (some 0, p)
  else
    let idx := spanIdx sp p.now
    match p.book.latch.find? (fun l => decide (l.ev = ev ∧ l.key = key)) with
    | none => (some 0, p.modBook fun b => { b with latch := ⟨ev, key, idx, true, 0⟩ :: b.latch })
    | some l =>
      let rest := p.book.latch.filter fun l => !decide (l.ev = ev ∧ l.key = key)
      if l.live ∧ l.idx = idx then (none, p.modBook fun b => { b with latch := { l with supp := l.supp + 1 } :: rest })
      else (some l.supp, p.modBook fun b => { b with latch := ⟨ev, key, idx, true, 0⟩ :: rest })

/-- A release restarts the limits stated per step for the units of a die (R564). -/
def stepLatches (s : Nat) (p : Panel) : Panel :=
  p.modBook fun b =>
    { b with
      latch := b.latch.map fun l =>
        if evSpan l.ev = .step ∧ (l.key = s ∨ (coresOf s).any fun k => keyCore k = l.key) then { l with live := false }
        else l }

/-- Key of a partition as the unit of an event. -/
def keyPart (n : Nat) : Nat := 0x6000 + n
def keyRegion (r : Nat) : Nat := 0x7000 + r

/-- The partitions whose VF and sessions an event concerns (R329, R357): the partition of its unit, or VF n's own. -/
def evParts (p : Panel) (key site : Nat) : List Nat :=
  if 0x6000 ≤ key ∧ key < 0x6010 then [key - 0x6000]
  else if 0x7000 ≤ key ∧ key < 0x7040 then [(p.getReg (key - 0x7000)).part]
  else if 0x4001 ≤ key ∧ key ≤ 0x4010 then [key - 0x4001]
  else if 0x40010 ≤ key ∧ key < 0x40110 then [(key - 0x40010) / 16]
  else match p.partOf site with
    | some n => [n]
    | none => []

/-- The 32 bytes of an entry, but for its phase and sequence (R329). -/
def entryBits (e : Entry) (phase : Bool) (seq : Nat) : Nat :=
  (if phase then 2 ^ 255 else 0) + e.ev * 2 ^ 224 + e.sev * 2 ^ 222 + e.site * 2 ^ 200 + e.core * 2 ^ 198
    + e.tick % 2 ^ 64 * 2 ^ 128 + e.data.toNat * 2 ^ 64 + e.supp % 2 ^ 32 * 2 ^ 32 + seq % 2 ^ 32

/-- The address half and the control word of an MSI-X vector; its mask bit is set at reset, as PCI Express says. -/
def msixVec (p : Panel) (f port v : Nat) : BitVec 128 := Tab.get (BitVec.ofNat 128 (2 ^ 96)) (Tab.get [] (p.getFn f).msix port) v

/-- The active port: H0 while hub A is active, H1 after a takeover (R308). -/
def activePort (p : Panel) : Nat := p.book.active

/-- Raise a vector of a function on a port where MSI-X is enabled: pending while it is masked (R328, R333). -/
def raiseVector (f port v : Nat) (p : Panel) : Panel :=
  if ¬ (p.getHPort port).enumd then p
  else if bit (msixVec p f port v) 96 then
    p.modFn f fun x => { x with pend := Tab.set port (Tab.get 0 x.pend port ||| 2 ^ v) x.pend }
  else p.modHost fun h => { h with out := h.out ++ [.msix port f v] }

/-- Set a bit of ICAUSE; vector 0 is raised when it was clear (R328). -/
def setIcause (f b : Nat) (p : Panel) : Panel :=
  if (p.getFn f).icause.testBit b then p
  else raiseVector f (activePort p) 0 (p.modFn f fun x => { x with icause := x.icause ||| 2 ^ b })

def Queue.size (q : Queue) : Nat := 2 ^ q.log2n
/-- A completion queue is full when its tail would reach its head (R327). -/
def Queue.full (q : Queue) : Bool := decide ((q.tail + 1) % q.size = q.head)
/-- The queue after an entry at its tail: the phase inverts on each pass (R324). -/
def Queue.push (q : Queue) : Queue :=
  { q with
    tail := (q.tail + 1) % q.size, phase := if q.tail + 1 = q.size then !q.phase else q.phase,
    seq := (q.seq + 1) % 2 ^ 32 }

/-- Bytes the panel writes to the host, kept as unconfirmed for a takeover (R332): at most 64 per queue, the newest. -/
def hostWrite (f q addr : Nat) (b : List Byte) (p : Panel) : Panel :=
  (p.modHost fun h => { h with out := h.out ++ [.write addr b] }).modFn f fun x =>
    let mine := x.unconfirmed.filter fun u => decide (u.1 = q)
    let keep := if 64 ≤ mine.length then
        x.unconfirmed.filter fun u => !decide (u.1 = q ∧ some u.2.1 = mine.head?.map (·.2.1))
      else x.unconfirmed
    { x with unconfirmed := keep ++ [(q, addr, b)] }

/-- Write an entry at the tail of a function's event ring (R329). -/
def ringPut (f : Nat) (e : Entry) (p : Panel) : Panel :=
  let r := (p.getFn f).ring
  setIcause f 0 (((hostWrite f 16 (r.base + 32 * r.tail) (leBytes 32 (entryBits e r.phase r.seq))) p).modFn f fun x =>
    { x with ring := x.ring.push })

/-- Offer an entry to a function's event ring: a disabled ring takes none, a full ring drops and counts it (R329). -/
def ringEvent (f : Nat) (e : Entry) (p : Panel) : Panel :=
  let r := (p.getFn f).ring
  if r.st ≠ .enabled then p
  else if r.full then p.modFn f fun x =>
    { x with
      ring := { x.ring with dropped := x.ring.dropped + 1 },
      ctr := { x.ctr with events := x.ctr.events + 1 } }
  else ringPut f e p

/-- Enter an event in the event log, a ring of 8,192 entries (R512). -/
def logEvent (e : Entry) (b : Book) : Book :=
  let full := decide (8192 ≤ b.log.length)
  let unread : Bool := match b.log with | x :: _ => decide (b.readTo ≤ x.eseq) | [] => false
  { b with
    log := (if full then b.log.drop 1 else b.log) ++ [{ e with eseq := b.eseq % 2 ^ 32 }], eseq := b.eseq + 1,
    lost := b.lost + if full && unread then 1 else 0 }

/-- Add an event to what a management session is owed (R357). -/
def oweReport (parts : List Nat) (e : Entry) (x : Session) : Session :=
  if x.slot < 16 ∧ x.threshold ≤ e.sev ∧ (x.scope = 0xFF ∨ parts.contains x.scope) then
    { x with due := x.due ++ [{ e with eseq := x.eseq % 2 ^ 32 }], eseq := x.eseq + 1 }
  else x

/-- Raise an event at the active hub with the repeats already suppressed: log, PF ring, rings of the partitions it
concerns, sessions (R512). -/
def hubEnter (ev site core key : Nat) (data : BitVec 64) (supp : Nat) (p : Panel) : Panel :=
  let e : Entry := ⟨ev, evSev ev, site, core, p.now, data, supp, 0⟩
  let parts := evParts p key site
  let p := p.modBook (logEvent e)
  let p := ringEvent 0 e p
  let p := each parts (fun n => ringEvent (n + 1) e) p
  p.modOd fun o => { o with sessions := o.sessions.map (oweReport parts e) }

/-- The DATA of an event: what the spec names, or a free value where it names none (log 4). -/
abbrev Dat := Option (BitVec 64)

def takeData (d : Dat) (p : Panel) : BitVec 64 × Panel :=
  match d with
  | some x => (x, p)
  | none => (BitVec.ofNat 64 p.freeNat.1, p.freeNat.2)

/-- Raise an event of the hub itself under a limit. -/
def raiseAs (sp : Span) (ev site key : Nat) (d : Dat) (p : Panel) : Panel :=
  match latch sp ev key p with
  | (some supp, q) => hubEnter ev site 0 key (takeData d q).1 supp (takeData d q).2
  | (none, q) => q

/-- Raise an event of the hub itself: code, site (0xFF none), unit key, data. -/
def raise (ev site key : Nat) (d : Dat) (p : Panel) : Panel := raiseAs (evSpan ev) ev site key d p

/-- A message of a die to the active hub (R290). -/
def toHub (s tag : Nat) (m : Msg) (p : Panel) : Panel := sendPkt ⟨1, 0, s, tag, 0, m⟩ p

/-- A message of the active hub to one site (R289). -/
def toSite (s tag : Nat) (m : Msg) (p : Panel) : Panel := sendPkt ⟨0, s, p.activeHub, tag, 0, m⟩ p

/-- A multicast of a hub: `dmode` 2 to a group, 3 to every node, under the hub's next 13-bit sequence (R289, R290). -/
def fromHub (hub dmode g : Nat) (m : Msg) (p : Panel) : Panel :=
  if hub = 0 then
    sendPkt ⟨dmode, g, hub, 0, p.ctl.mseq, m⟩ (p.modCtl fun c => { c with mseq := (c.mseq + 1) % 2 ^ 13 })
  else
    sendPkt ⟨dmode, g, hub, 0, p.ctl.mseqB, m⟩ (p.modCtl fun c => { c with mseqB := (c.mseqB + 1) % 2 ^ 13 })

/-- A multicast of the active hub. -/
def toGroup (dmode g : Nat) (m : Msg) (p : Panel) : Panel := fromHub p.activeHub dmode g m p

/-- An event of the event class, which R296 does not limit. -/
def plainEvent (s core key ev : Nat) (d : Dat) (p : Panel) : Panel :=
  match latch (evSpan ev) ev key p with
  | (some supp, q) => toHub s 0 (.event ev core (supp % 2 ^ 14) (takeData d q).1) (takeData d q).2
  | (none, q) => q

/-- An urgent report of a node: at once when it sent none within 100 ticks, else in its 16-entry queue; a full queue
counts it and raises 0x0615 (R296). Hubs are exempt. -/
def sendUrgent (s : Nat) (m : Msg) (p : Panel) : Panel :=
  let n := p.getNode s
  let free : Bool := n.urgent.isEmpty && (match n.lastUrgent with | some t => decide (t + 100 ≤ p.now) | none => true)
  if isHub s then toHub s 0 m p
  else if free then toHub s 0 m (p.modNode s fun n => { n with lastUrgent := some p.now })
  else if n.urgent.length < 16 then p.modNode s fun n => { n with urgent := n.urgent ++ [⟨1, 0, s, 0, 0, m⟩] }
  else plainEvent s 0 s 0x0615 none (p.modNode s fun n => { n with ctr := { n.ctr with deferred := n.ctr.deferred + 1 } })

/-- Raise an event of a die or of a core of it: a FAULT travels as an urgent report, any other as an EVENT (R303). -/
def dieRaise (s core key ev : Nat) (d : Dat) (p : Panel) : Panel :=
  if 2 ≤ evSev ev then sendUrgent s (.faultReport ev core (takeData d p).1) (takeData d p).2
  else plainEvent s core key ev d p

/-- Raise an event of a core. -/
def coreRaise (k ev : Nat) (d : Dat) (p : Panel) : Panel := dieRaise (siteOf k) (coreOf k) (keyCore k) ev d p

end Sys2Proof.Machine
end

