-- ==== Sys2Proof/Machine/DirBase.lean ====
section
/-! DEFINITION. Shard Directory entries, their owners, and how an entry becomes LOST (R237-R239, R264). -/

namespace Sys2Proof.Machine

namespace DirE

/-- Fields of a directory entry (R237). -/
def gen (x : BitVec 128) : Nat := fld x 63 60
def prof (x : BitVec 128) : Nat := fld x 59 56
def repl (x : BitVec 128) : Nat := fld x 55 48
def home (x : BitVec 128) : Nat := fld x 47 40
def base (x : BitVec 128) : Nat := fld x 39 16
def len (x : BitVec 128) : Nat := fld x 15 0
def crc (x : BitVec 128) : Nat := fld x 127 64
/-- The entry with other HOME and REPL. -/
def withSites (home repl : Nat) (x : BitVec 128) : BitVec 128 :=
  BitVec.ofNat 128 (fld x 127 56 * 2 ^ 56 + repl * 2 ^ 48 + home * 2 ^ 40 + fld x 39 0)

end DirE

/-- The partition's range of directory entries (R238, R267). -/
def dirRange (p : Panel) (part : Nat) : Nat × Nat := (cfg p 0x8001 part 1, cfg p 0x8001 part 1 + cfg p 0x8001 part 2)

/-- The partition that owns a directory entry (R238). -/
def dirOwner (p : Panel) (i : Nat) : Option Nat :=
  (List.range 16).find? fun n => decide ((dirRange p n).1 ≤ i) && decide (i < (dirRange p n).2)

/-- Is an entry to be LOST: its HOME is FAILED and it names no replica site, or one that is FAILED or ABSENT too (R239)? -/
def entryLost (p : Panel) (x : BitVec 128) : Bool :=
  decide (p.ust (DirE.home x) = .failed)
    && (decide (DirE.repl x = 0xFF) || decide (p.ust (DirE.repl x) = .failed) || decide (p.ust (DirE.repl x) = .absent))

/-- An entry becomes LOST (R239, R264). -/
def loseEntry (i : Nat) (p : Panel) : Panel :=
  let d := p.getDir i
  if d.st = .empty ∨ d.st = .lost then p
  else raise 0x0803 (DirE.home d.bits) (keyPart ((dirOwner p i).getD 0)) (some (BitVec.ofNat 64 i)) (p.modDir i fun d => { d with st := .lost })

/-- Every entry that the state book makes LOST now (R239). -/
def loseEntries (p : Panel) : Panel :=
  each (p.ret.dir.filter fun e => entryLost p e.2.bits) (fun e p => loseEntry e.1 p) p

end Sys2Proof.Machine
end

