-- ==== Sys2Proof/Machine/Sha384.lean ====
section
/-! DEFINITION. SHA-384, which extends the measurement registers (R460). FIPS 180-4 takes its constants from the roots of
the first primes; they are computed here from that definition and not listed. A state is eight words, a message block a
window of sixteen: each round consumes the window's first word and appends the next. -/

namespace Sys2Proof.Machine

/-- The primes below 410: the first eighty. Twenty trial divisors suffice below 441. -/
def firstPrimes : List Nat :=
  ((List.range 410).drop 2).filter fun n => (List.range 19).all fun d => n % (d + 2) != 0 || n == d + 2

/-- The largest `r` below `acc + 2^bits` with `r^k ≤ x`, one bit a time from the top. -/
def rootFrom (k x : Nat) : Nat → Nat → Nat
  | 0, acc => acc
  | b + 1, acc => rootFrom k x b (if (acc + 2 ^ b) ^ k ≤ x then acc + 2 ^ b else acc)

/-- The first 64 bits of the fraction of the `k`-th root of `p`. -/
def rootFraction (k p : Nat) : Nat := rootFrom k (p * 2 ^ (64 * k)) 70 0 % 2 ^ 64

/-- The round constants: cube roots of the first eighty primes. -/
def roundConstants : List Nat := firstPrimes.map (rootFraction 3)

/-- SHA-384 starts from the square roots of the ninth to sixteenth primes. -/
def hashStart : List Nat := ((firstPrimes.drop 8).take 8).map (rootFraction 2)

/-- The exclusive or of a word's rotations right by the listed places. -/
def turns (x : Word) (places : List Nat) : Word := places.foldl (fun a n => a ^^^ x.rotateRight n) 0

/-- The word that follows a window of sixteen in the message schedule. -/
def nextScheduled (w : List Word) : Word :=
  let early := w.getD 1 0
  let late := w.getD 14 0
  w.getD 0 0 + (turns early [1, 8] ^^^ early >>> 7) + w.getD 9 0 + (turns late [19, 61] ^^^ late >>> 6)

/-- What a round does to a block's state: the eight working variables and the window. -/
def hashRound (s : List Word × List Word) (k : Nat) : List Word × List Word :=
  let v := s.1
  let e := v.getD 4 0
  let a := v.getD 0 0
  let choice := v.getD 6 0 ^^^ (e &&& (v.getD 5 0 ^^^ v.getD 6 0))
  let majority := (a &&& (v.getD 1 0 ||| v.getD 2 0)) ||| (v.getD 1 0 &&& v.getD 2 0)
  let sum := v.getD 7 0 + turns e [14, 18, 41] + choice + BitVec.ofNat 64 k + s.2.getD 0 0
  ((sum + turns a [28, 34, 39] + majority) :: v.take 3 ++ (v.getD 3 0 + sum) :: (v.drop 4).take 3,
   s.2.drop 1 ++ [nextScheduled s.2])

/-- The big-endian words of a stretch of bytes (R5: a published standard keeps its own order). -/
def wordsBE : Nat → List Byte → List Word
  | 0, _ => []
  | n + 1, m => BitVec.ofNat 64 (leNat (m.take 8).reverse) :: wordsBE n (m.drop 8)

/-- `n` blocks of 128 bytes folded into a hash value. -/
def hashBlocks : Nat → List Word → List Byte → List Word
  | 0, h, _ => h
  | n + 1, h, m => hashBlocks n (List.zipWith (· + ·) h (roundConstants.foldl hashRound (h, wordsBE 16 m)).1) (m.drop 128)

/-- SHA-384 of a message: 48 bytes. -/
def sha384 (m : List Byte) : List Byte :=
  let fill := (239 - m.length % 128) % 128
  let whole := m ++ 0x80 :: List.replicate fill 0 ++ (leBytes 16 (8 * m.length)).reverse
  ((hashBlocks (whole.length / 128) (hashStart.map (BitVec.ofNat 64)) whole).take 6).flatMap
    fun x => (leBytes 8 x.toNat).reverse

end Sys2Proof.Machine
end

