-- ==== Sys2Proof/Machine/Kdf.lean ====
section
/-! DEFINITION. HKDF-SHA-384 (RFC 5869 over the HMAC of RFC 2104), and the derivations of R461 and R465. -/

namespace Sys2Proof.Machine

/-- HMAC-SHA-384: a key longer than a block of 128 bytes is hashed first. -/
def hmac (key msg : List Byte) : List Byte :=
  let short := if 128 < key.length then sha384 key else key
  let k := short ++ List.replicate (128 - short.length) 0
  sha384 (k.map (· ^^^ 0x5C) ++ sha384 (k.map (· ^^^ 0x36) ++ msg))

/-- `n` further blocks of the output, each from the one before; `i` counts them. -/
def hkdfExpand (prk info : List Byte) : Nat → Nat → List Byte → List Byte
  | 0, _, _ => []
  | n + 1, i, before =>
    let t := hmac prk (before ++ info ++ [BitVec.ofNat 8 i])
    t ++ hkdfExpand prk info n (i + 1) t

/-- HKDF-SHA-384. An empty salt counts as zeros, to which the HMAC fills it. -/
def hkdf (ikm salt info : List Byte) (len : Nat) : List Byte := (hkdfExpand (hmac salt ikm) info (len / 48 + 1) 1 []).take len

/-- The ASCII bytes of a label. -/
def ascii (x : String) : List Byte := x.toList.map fun c => BitVec.ofNat 8 c.toNat

/-- The partition stack key (R465): key 1, then key 2, the first byte least significant. -/
def stackKeyFrom (secret : List Byte) (part gen : Nat) : Nat :=
  leNat (hkdf secret [] (ascii "LYRIL-XTS" ++ leBytes 1 part ++ leBytes 4 gen) 64)

/-- The keys of a management session (R465): K_req, then K_rsp. -/
def sessionKeys (secret nonces : List Byte) (id level scope : Nat) : List Byte :=
  hkdf secret nonces (ascii "LYRIL-OD" ++ leBytes 2 id ++ leBytes 1 level ++ leBytes 1 scope) 64

/-- The keys and salts of a fabric link (R465), lower to higher and higher to lower. -/
def fabricKeys (secret lowNonce highNonce lowSerial highSerial : List Byte) (port : Nat) : List Byte :=
  hkdf secret (lowNonce ++ highNonce) (ascii "LYRIL-FAB" ++ lowSerial ++ highSerial ++ leBytes 1 port) 72

/-- The transport key of a hub and a site (R465). -/
def transportKey (secret : List Byte) (site hub : Nat) : List Byte :=
  hkdf secret [] (ascii "LYRIL-KT" ++ leBytes 1 site ++ leBytes 1 hub) 32

end Sys2Proof.Machine
end

