-- ==== Sys2Proof/Machine/KeyOps.lean ====
section
/-! DEFINITION. The keys of the panel: fresh secrets, the partition stack keys and their loads, and the key ranges of replica
shards on HAMPER stacks (R144, R438, R464-R467). -/

namespace Sys2Proof.Machine

/-- Bytes of a free value. -/
def freeBytes (n : Nat) (p : Panel) : List Byte × Panel := (leBytes n p.freeNat.1, p.freeNat.2)

/-- A stack key from fresh secrets, the first whose key 1 and key 2 differ; `fuel` bounds the draws (R465; log 66). -/
def drawStackKey (part gen : Nat) : Nat → Panel → Nat × Panel
  | 0, p => (0, p)
  | fuel + 1, p =>
    let x := freeBytes 48 p
    let k := stackKeyFrom x.1 part gen
    if k % 2 ^ 256 = k / 2 ^ 256 then drawStackKey part gen fuel x.2 else (k, x.2)

/-- Generate a partition's stack key, with its generation and the counts (R438, R465). -/
def newKey (n : Nat) (p : Panel) : Panel :=
  let gen := (p.getPart n).keyGen + 1
  let k := drawStackKey n gen 64 p
  let p := k.2.modSec fun c => { c with keysMade := c.keysMade + 1 }
  p.modPart n fun x => { x with key := some k.1, keyGen := gen, stat := { x.stat with keys := x.stat.keys + 1 } }

/-- The range that covers a whole stack (R144). -/
def wholeRange (v n : Nat) : KeyRange := ⟨0, stackBytes v / 256 / rangeUnit, n⟩

/-- Send a partition's key to a base die (R467). -/
def sendKey (n s : Nat) (p : Panel) : Panel :=
  let p := p.modStk s fun k => { k with keys := Tab.set n ((p.getPart n).key.getD 0) k.keys }
  p.modPart n fun x => { x with loading := (s, p.now) :: x.loading.filter fun e => decide (e.1 ≠ s) }

/-- Load a partition's key into a member's base die under one range that covers its whole stack (R144, R438, R467). -/
def loadKey (n s : Nat) (p : Panel) : Panel :=
  sendKey n s (p.modStk s fun k => { k with ranges := [wholeRange p.variant n] })

/-- Clear a partition's key register and its ranges at a base die (R467). -/
def zeroise (n s : Nat) (p : Panel) : Panel :=
  p.modStk s fun k => { k with ranges := k.ranges.filter (fun x => decide (x.part ≠ n)), keys := Tab.del n k.keys }

/-- The range of a directory entry on a stack, in whole units of 64 MiB (R144, R237). -/
def shardRange (n : Nat) (x : BitVec 128) : KeyRange :=
  let unit := rangeUnit / 16
  ⟨DirE.base x / unit, ceilDiv (DirE.base x + DirE.len x) unit, n⟩

/-- The key ranges of a HAMPER stack: of the shards that the directory places there, of partitions that hold a key, one range for
each, as many as the table has entries (R144, R438; log 67). -/
def shardRanges (p : Panel) (s : Nat) : List KeyRange :=
  let all := p.ret.dir.filterMap fun e =>
    let x := e.2.bits
    match dirOwner p e.1 with
    | some n =>
      if e.2.st ≠ .empty ∧ (DirE.home x = s ∨ DirE.repl x = s) ∧ (p.getPart n).key.isSome = true then some (shardRange n x) else none
    | none => none
  all.eraseDups.take 16

/-- Make a HAMPER stack's ranges and keys those of the shards placed there: keys it lacks are sent, keys without a range are
withdrawn (R144, R438, R466; log 67). -/
def placeKeys (s : Nat) (p : Panel) : Panel :=
  if p.ust s ≠ .hamper ∨ ¬ isCompute s then p
  else
    let l := shardRanges p s
    let used (n : Nat) : Bool := l.any fun r => decide (r.part = n)
    let p := p.modStk s fun k => { k with ranges := l, keys := k.keys.filter fun e => used e.1 }
    let want := (List.range 16).filter fun n => used n && decide (Tab.find? (p.getStk s).keys n ≠ (p.getPart n).key)
    each want (fun n => sendKey n s) p

/-- The same of every HAMPER stack that holds shards of a partition. -/
def placePartKeys (n : Nat) (p : Panel) : Panel :=
  each (computeSites.filter fun s => (shardRanges p s).any fun r => decide (r.part = n)) placeKeys p

/-- Make the transport keys of hubs and sites, each from a secret of its own (R465, R466). -/
def makeTransport (hubs sites : List Nat) (p : Panel) : Panel :=
  each (hubs.flatMap fun h => sites.map fun s => (h, s)) (fun e p =>
    let x := freeBytes 48 p
    x.2.modSec fun c => { c with transport := Tab.set (256 * e.1 + e.2) (transportKey x.1 e.2 e.1) c.transport }) p

end Sys2Proof.Machine
end

