-- ==== Sys2Proof/Machine/P384.lean ====
section
/-! DEFINITION. The curve P-384 of FIPS 186-5 and SP 800-186, with the signature and the agreement that the security engine runs on it
(R459, R461, R465, R470). -/

namespace Sys2Proof.Machine

/-- The prime of the field, the order of the group, and the curve y² = x³ - 3x + b with its base point. -/
def ecPrime : Nat := 2 ^ 384 - 2 ^ 128 - 2 ^ 96 + 2 ^ 32 - 1
def ecOrder : Nat := 0xFFFFFFFFFFFFFFFFFFFFFFFFFFFFFFFFFFFFFFFFFFFFFFFFC7634D81F4372DDF581A0DB248B0A77AECEC196ACCC52973
def ecB : Nat := 0xB3312FA7E23EE7E4988E056BE3F82D19181D9C6EFE8141120314088F5013875AC656398D8A2ED19D2A85C8EDD3EC2AEF
def ecBase : Option (Nat × Nat) :=
  some (0xAA87CA22BE8B05378EB1C71EF320AD746E1D3B628BA79B9859F741E082542A385502F25DBF55296C3A545E3872760AB7,
    0x3617DE4A96262C6F5D9E98BF9292DC29F8F41DBD289A147CE9DA3113B5F0B8C00A60B1CE1D7E819D7A431D7C90EA0E5F)

/-- `x ^ e` modulo `m`, for `e` of at most `bits` bits. -/
def powMod (m : Nat) : Nat → Nat → Nat → Nat
  | 0, _, _ => 1
  | bits + 1, x, e => (if e % 2 = 1 then x else 1) * powMod m bits (x * x % m) (e / 2) % m

/-- The inverse modulo a prime of 384 bits, by Fermat's theorem. -/
def invMod (m x : Nat) : Nat := powMod m 384 (x % m) (m - 2)

/-- The sum of two points by the chord or the tangent; none is the point at infinity. -/
def ecAdd : Option (Nat × Nat) → Option (Nat × Nat) → Option (Nat × Nat)
  | none, b => b
  | a, none => a
  | some (u, v), some (w, z) =>
    let q := ecPrime
    if u = w ∧ (v + z) % q = 0 then none
    else
      let slope := (if u = w then (3 * u * u + (q - 3)) * invMod q (2 * v) else (z + (q - v)) * invMod q (w + (q - u))) % q
      let x := (slope * slope + (q - u) + (q - w)) % q
      some (x, (slope * (u + (q - x)) + (q - v)) % q)

/-- A point in Jacobian coordinates: (x, y, z) stands for (x / z², y / z³), and z = 0 for the point at infinity. -/
abbrev EcJac := Nat × Nat × Nat

/-- Twice a point. -/
def ecTwice : EcJac → EcJac
  | (x, y, z) =>
    let q := ecPrime
    let d := z * z % q
    let g := y * y % q
    let b := x * g % q
    let a := 3 * (x + (q - d)) * (x + d) % q
    let u := (a * a + 8 * (q - b)) % q
    (u, (a * (4 * b + (q - u)) + 8 * (q - g * g % q)) % q, 2 * y * z % q)

/-- A point plus one given by its coordinates. -/
def ecPlus (p : EcJac) : Option (Nat × Nat) → EcJac
  | none => p
  | some (u, v) =>
    let q := ecPrime
    let (x, y, z) := p
    if z = 0 then (u, v, 1)
    else
      let h := (u * (z * z) + (q - x)) % q
      let r := (v * z * (z * z) + (q - y)) % q
      if h = 0 then if r = 0 then ecTwice p else (1, 1, 0)
      else
        let h2 := h * h % q
        let h3 := h2 * h % q
        let m := x * h2 % q
        let w := (r * r + (q - h3) + 2 * (q - m)) % q
        (w, (r * (m + (q - w)) + (q - y) * h3) % q, z * h % q)

/-- A multiple of a point, by the low `bits` bits of a scalar. -/
def ecTimes (a : Option (Nat × Nat)) : Nat → Nat → EcJac
  | 0, _ => (1, 1, 0)
  | bits + 1, k =>
    let t := ecTwice (ecTimes a bits (k / 2))
    if k % 2 = 1 then ecPlus t a else t

/-- A multiple of a point, by a scalar of at most `bits` bits, as coordinates. -/
def ecMul (bits k : Nat) (a : Option (Nat × Nat)) : Option (Nat × Nat) :=
  let (x, y, z) := ecTimes a bits k
  if z = 0 then none
  else
    let i := invMod ecPrime z
    some (x * (i * i) % ecPrime, y * (i * i * i) % ecPrime)

/-- A number of `n` bytes, the most significant first; and back. -/
def bigBytes (n x : Nat) : List Byte := (leBytes n x).reverse
def bigNat (b : List Byte) : Nat := leNat b.reverse

/-- The point that 97 bytes spell, uncompressed SEC1, where it is one of the curve (R468, R470). -/
def ecPoint (b : List Byte) : Option (Nat × Nat) :=
  let x := bigNat ((b.drop 1).take 48)
  let y := bigNat ((b.drop 49).take 48)
  if b.length = 97 ∧ b.head? = some 4 ∧ x < ecPrime ∧ y < ecPrime ∧ y * y % ecPrime = (x * x * x + (ecPrime - 3) * x + ecB) % ecPrime then some (x, y) else none

/-- The private scalar that 56 bytes give (R461; FIPS 186-5, extra bits), and its public key in 97 bytes. -/
def scalarOf (c : List Byte) : Nat := bigNat c % (ecOrder - 1) + 1
def publicOf (d : Nat) : List Byte :=
  match ecMul 384 d ecBase with
  | some (x, y) => 4 :: (bigBytes 48 x ++ bigBytes 48 y)
  | none => []

/-- The shared secret of a private scalar and a public key (R465). -/
def agree (d : Nat) (key : List Byte) : List Byte :=
  match ecMul 384 d (ecPoint key) with
  | some (x, _) => bigBytes 48 x
  | none => []

/-- The signature over SHA-384 of a message, with the nonce `k`: r, then s. -/
def ecSign (d k : Nat) (msg : List Byte) : List Byte :=
  let r := match ecMul 384 k ecBase with | some (x, _) => x % ecOrder | none => 0
  bigBytes 48 r ++ bigBytes 48 (invMod ecOrder k * (bigNat (sha384 msg) + r * d) % ecOrder)

/-- Does a signature over SHA-384 of a message verify under a public key? -/
def ecVerify (key sig msg : List Byte) : Bool :=
  let r := bigNat (sig.take 48)
  let s := bigNat (sig.drop 48)
  let w := invMod ecOrder s
  let at_ := ecAdd (ecMul 384 (bigNat (sha384 msg) * w % ecOrder) ecBase) (ecMul 384 (r * w % ecOrder) (ecPoint key))
  (ecPoint key).isSome && decide (sig.length = 96 ∧ 0 < r ∧ r < ecOrder ∧ 0 < s ∧ s < ecOrder)
    && (match at_ with | some (x, _) => decide (x % ecOrder = r) | none => false)

/-- CDI of a hub, from its device secret and M0 and M1 (R461). -/
def cdiOf (uds m0 m1 : List Byte) : List Byte := hkdf uds m0 (ascii "LYRIL-CDI" ++ m1) 48
/-- The private scalars of DeviceID, from the device secret, and of Alias, from CDI (R461). -/
def deviceScalar (uds : List Byte) : Nat := scalarOf (hkdf uds [] (ascii "LYRIL-DEVICEID") 56)
def aliasScalar (cdi : List Byte) : Nat := scalarOf (hkdf cdi [] (ascii "LYRIL-ALIAS") 56)

end Sys2Proof.Machine
end

