-- ==== Sys2Proof/Machine/Crc.lean ====
section
/-! DEFINITION. The CRCs of the check engines and of host blocks (R323, R486). -/

namespace Sys2Proof.Machine

/-- One bit of the reflected CRC-32C with polynomial 0x1EDC_6F41. -/
def crc32Bit (c : BitVec 32) : BitVec 32 := if c.getLsbD 0 then (c >>> 1) ^^^ 0x82F63B78#32 else c >>> 1
/-- One byte of CRC-32C. -/
def crc32Byte (c : BitVec 32) (b : Byte) : BitVec 32 := Nat.repeat crc32Bit 8 (c ^^^ b.zeroExtend 32)
/-- CRC-32C of bytes from a seed (R486). -/
def crc32c (seed : BitVec 32) (l : List Byte) : BitVec 32 := l.foldl crc32Byte seed ^^^ 0xFFFFFFFF#32

/-- One bit of CRC-64/ECMA-182. -/
def crc64Bit (c : BitVec 64) : BitVec 64 := if c.getLsbD 63 then (c <<< 1) ^^^ 0x42F0E1EBA9EA3693#64 else c <<< 1
/-- One byte of CRC-64/ECMA-182. -/
def crc64Byte (c : BitVec 64) (b : Byte) : BitVec 64 := Nat.repeat crc64Bit 8 (c ^^^ (b.zeroExtend 64 <<< 56))
/-- CRC-64/ECMA-182 of bytes from a seed (R486). -/
def crc64 (seed : BitVec 64) (l : List Byte) : BitVec 64 := l.foldl crc64Byte seed

/-- The CRC-32C of host blocks and payloads: standard initial value (R323, R486). -/
def crcHost (l : List Byte) : BitVec 32 := crc32c 0xFFFFFFFF l

/-- One bit of CRC-16/CCITT-FALSE. -/
def crc16Bit (c : BitVec 16) : BitVec 16 := if c.getLsbD 15 then (c <<< 1) ^^^ 0x1021#16 else c <<< 1
/-- One byte of CRC-16/CCITT-FALSE. -/
def crc16Byte (c : BitVec 16) (b : Byte) : BitVec 16 := Nat.repeat crc16Bit 8 (c ^^^ (b.zeroExtend 16 <<< 8))
/-- CRC-16/CCITT-FALSE of bytes, the first sent first (R537). -/
def crc16 (l : List Byte) : BitVec 16 := l.foldl crc16Byte 0xFFFF#16

end Sys2Proof.Machine
end

