-- ==== Sys2Proof/Machine/Book.lean ====
section
/-! DEFINITION. The state book: unit states, what contains what, evidence and the freezes it triggers (R494-R499), the
floor plan map and its generation (R427, R428), and the triggering of a freeze (R220, R221). -/

namespace Sys2Proof.Machine

def USt.code : USt → Nat
  | .absent => 0 | .failed => 1 | .hamper => 2 | .ready => 3 | .assigned => 4 | .running => 5 | .fenced => 6 | .suspect => 7

/-- The order of R496. -/
def USt.rank : USt → Nat
  | .absent => 4 | .failed => 3 | .fenced => 2 | .suspect => 1 | _ => 0

/-- A service state (R496). -/
def USt.service : USt → Bool
  | .hamper => true | .ready => true | .assigned => true | .running => true | _ => false

/-- May a unit be used: in a service state (R496)? -/
def usable (p : Panel) (key : Nat) : Bool := (p.ust key).service

/-- The site a key lies at; 0xFF where none. -/
def keySite (key : Nat) : Nat :=
  if key < 0x1000 then key else if key < 0x2000 then siteOf (key - 0x1000) else if key < 0x3000 then key - 0x2000
  else if key < 0x3100 then portMaster (key - 0x3000) else 0xFF

/-- Put a state in force at one unit; the prior state is the service state it leaves, RUNNING becoming ASSIGNED (R497). -/
def putState (key : Nat) (st : USt) (cause : Nat) (own : Bool) (p : Panel) : Panel :=
  p.modUnit key fun r =>
    { r with
      st := st, prior := if r.st.service then (if r.st = .running then .assigned else r.st) else r.prior,
      cause := cause, tick := p.now, own := own }

/-- Put a state in force where it outranks the one in force; evidence for a lower one is counted (R496). -/
def takeState (st : USt) (cause : Nat) (own : Bool) (key : Nat) (p : Panel) : Panel :=
  if (p.ust key).rank < st.rank then putState key st cause own p
  else p.modUnit key fun r => { r with evid := r.evid + 1 }

/-- The cores and the stack of a site. -/
def siteParts (s : Nat) : List Nat := if isCompute s then (coresOf s).map keyCore ++ [keyStack s] else []

/-- What takes the state of a unit (R495). -/
def contained (key : Nat) (st : USt) : List Nat :=
  if key < 0x1000 then
    siteParts key ++ (if isEdge key ∧ (st = .failed ∨ st = .fenced) then [keyPort (portOfDie key)] else [])
  else if key < 0x3000 then
    keySite key :: siteParts (keySite key)
  else if 0x3100 ≤ key ∧ key < 0x3114 then
    let ss := allDies.filter fun s => blockOf s = key - 0x3100
    ss ++ ss.flatMap siteParts ++ ((List.range 12).filter fun n => blockOf (portMaster n) = key - 0x3100).map keyPort
  else []

/-- The event of a unit state (R497). -/
def stEvent (st : USt) : Nat := match st with | .failed => 0x0E01 | .suspect => 0x0E02 | .fenced => 0x0E05 | _ => 0

/-- Mark a freeze pending at a region and record its cause; a later trigger is counted (R220). A wait on conditions 4 and 5 that
it ends is admission wait (R214). -/
def triggerFreeze (r cause : Nat) (p : Panel) : Panel :=
  let g := p.getReg r
  if g.phase ≠ .active then p
  else if g.freezing then p.modReg r fun g => { g with later := g.later + 1 }
  else
    raise 0x070A 0xFF (keyRegion r) (some (BitVec.ofNat 64 cause)) (p.modReg r fun g =>
      { g with
        freezing := true, cause := cause, firstTick := p.now, stage := .arriving, lastCell := p.now,
        ctr := { g.ctr with
          freezes := g.ctr.freezes + 1,
          admission := g.ctr.admission + (if g.stage = .admission ∨ g.stage = .admitted then p.now - g.admitTick else 0) } })

/-- Freeze a region immediately: the root multicasts FREEZE to its footprint (R221). -/
def immediateFreeze (r cause : Nat) (p : Panel) : Panel :=
  let p := triggerFreeze r cause p
  if (p.getReg r).phase = .active ∧ ¬ (p.getReg r).immediate then
    toGroup 2 r (.freeze r (p.getReg r).cause) (p.modReg r fun g => { g with immediate := true, lastCell := p.now })
  else p

/-- Freeze the region that holds a site, if one does. -/
def freezeOf (cause s : Nat) (p : Panel) : Panel :=
  match p.regionOf s with
  | some r => triggerFreeze r cause p
  | none => p

/-- The map entry of a position as shipped (R427; log 2: no factory failures). -/
def mapDefault (v s : Nat) : BitVec 32 :=
  if ¬ isDie s then BitVec.ofNat 32 (5 * 2 ^ 28)
  else
    let fstate := if fusedDie v s then 1 else 0
    let role := if isHamperPos s then 2 else if isCompute s then 0 else if isEdge s then 3 else if isHub s then 4 else 5
    BitVec.ofNat 32 (fstate * 2 ^ 28 + role * 2 ^ 24 + (if isCompute s then variantLayers v else 0) * 2 ^ 16)

def mapEntry (p : Panel) (s : Nat) : BitVec 32 := Tab.get (mapDefault p.variant s) p.boot.map s
def fstate (p : Panel) (s : Nat) : Nat := fld (mapEntry p s) 31 28
def mapRole (p : Panel) (s : Nat) : Nat := fld (mapEntry p s) 27 24

/-- Set FSTATE, STK and CAUSE of a site's map entry (R427). -/
def mapSet (s fs stk cause : Nat) (p : Panel) : Panel :=
  let x := (mapEntry p s).toNat
  p.modBoot fun b =>
    { b with map := Tab.set s (BitVec.ofNat 32 (fs * 2 ^ 28 + nfld x 27 24 * 2 ^ 24 + stk * 2 ^ 20 + nfld x 19 16 * 2 ^ 16 + cause)) b.map }

/-- The floor plan generation increases: the map has to be stored again and the change is raised (R428). -/
def bumpGen (p : Panel) : Panel :=
  let g := (p.boot.generation + 1) % 2 ^ 32
  raise 0x0D0A 0xFF keyPanel (some (BitVec.ofNat 64 g)) (p.modBoot fun b => { b with generation := g, mapPending := true })

/-- Record a failure in the map: FSTATE 3 in service, FSTATE 4 at bring-up (R427). -/
def mapFailure (key cause : Nat) (p : Panel) : Panel :=
  let fs := if p.boot.phase = 11 then 3 else 4
  let one (s stk : Nat) (p : Panel) : Panel :=
    if fstate p s = 0 ∨ fstate p s = 6 ∨ fstate p s = 4 then mapSet s fs stk cause p else p
  let portBad (n : Nat) (p : Panel) : Panel := p.modBoot fun b => { b with portMap := Tab.set n 2 b.portMap }
  if key < 0x1000 then
    let p := one key 0 p
    if isEdge key then portBad (portOfDie key) p else p
  else if key < 0x2000 then one (keySite key) 0 p
  else if key < 0x3000 then one (keySite key) 1 p
  else if key < 0x3100 then portBad (key - 0x3000) p
  else if key < 0x3114 then
    let ss := allDies.filter fun s => blockOf s = key - 0x3100
    each ((List.range 12).filter fun n => blockOf (portMaster n) = key - 0x3100) portBad (each ss (fun s => one s 0) p)
  else p

/-- The sites whose state a unit's state decides. -/
def sitesUnder (key : Nat) : List Nat :=
  if key < 0x3000 then [keySite key]
  else if 0x3100 ≤ key ∧ key < 0x3114 then allDies.filter fun s => blockOf s = key - 0x3100
  else []

/-- Move a unit to FAILED, FENCED or SUSPECT: its state and that of what it contains or is contained in, the event, the
map and generation, the directory entries that it loses, and the freeze of the regions that hold it (R239, R495-R499). -/
def moveUnit (key : Nat) (st : USt) (cause : Nat) (p : Panel) : Panel :=
  if st.rank ≤ (p.ust key).rank then p.modUnit key fun r => { r with evid := r.evid + 1 }
  else
    let hampers := decide ((p.ust key) = .hamper) || (contained key st).any fun u => decide (u < 0x1000) && decide (p.ust u = .hamper)
    let p := putState key st cause true p
    let p := each (contained key st) (takeState st cause false) p
    let p := raise (stEvent st) (keySite key) key none p
    let p := if st = .failed then bumpGen (mapFailure key cause p) else if hampers ∧ st = .suspect then bumpGen p else p
    let p := if st = .failed then loseEntries p else p
    each (sitesUnder key) (freezeOf cause) p

/-- Move a site, its cores and its stack among the service states (R497). -/
def serveSite (st : USt) (s : Nat) (p : Panel) : Panel :=
  let one (key : Nat) (p : Panel) : Panel := if usable p key then p.modUnit key fun r => { r with st := st, tick := p.now } else p
  each (s :: siteParts s) one p

/-- Seconds of the probe window, in ticks (R514). -/
def probeWindow (p : Panel) : Nat := cfg p 0xE020 0 3 * ticksPerSecond
/-- Probes of a unit within the window. -/
def probesIn (p : Panel) (key : Nat) : List Nat := (p.unit key).probes.filter fun t => decide (p.now < t + probeWindow p)

/-- The disagreement of R499: counted and raised. -/
def stateConflict (key : Nat) (p : Panel) : Panel :=
  raise 0x0E03 (keySite key) key none (p.modBook fun b => { b with conflicts := b.conflicts + 1 })

/-- Evidence that has reached the active hub (R498): SUSPECT, or FAILED where the unit has been probed the limit of times
within the window; then the conflict of R499. -/
def evidence (key cause : Nat) (p : Panel) : Panel :=
  let limit := decide (cfg p 0xE020 0 2 ≤ (probesIn p key).length)
  let st := if limit then USt.failed else .suspect
  if st.rank ≤ (p.ust key).rank then p.modUnit key fun r => { r with evid := r.evid + 1 }
  else stateConflict key (moveUnit key st cause (p.modUnit key fun r => { r with evid := r.evid + 1 }))

/-- A sign of health of a unit that the book holds FAILED, FENCED or SUSPECT: discarded and counted, and 0x0E03 once per
unit per minute (R499). -/
def healthSign (key : Nat) (p : Panel) : Panel :=
  raiseAs .minute 0x0E03 (keySite key) key none (p.modUnit key fun r => { r with evid := r.evid + 1 })

/-- Is a unit FAILED, FENCED or SUSPECT? -/
def barred (p : Panel) (key : Nat) : Bool := match p.ust key with | .failed => true | .fenced => true | .suspect => true | _ => false

/-- Queue evidence for the hub to act on (STATE_EVIDENCE). -/
def pendEvidence (key cause : Nat) (p : Panel) : Panel :=
  p.modBook fun b => { b with pendingEvid := b.pendingEvid ++ [(key, cause)] }

/-- Hub B is lost while hub A is active (R509): SDD FENCED, no hub left to take over. -/
def loseStandby (p : Panel) : Panel :=
  if p.book.active ≠ 0 ∨ p.book.standbyLost then p
  else
    raise 0x0E08 0xDD 0xDD none (moveUnit 0xDD .fenced 0x0E05 (p.modBook fun b => { b with standbyLost := true, takeDue := false }))

end Sys2Proof.Machine
end

