-- ==== Sys2Proof/Machine/Ledger.lean ====
section
/-! DEFINITION. Step descriptors (R210) and the admission of steps: the energy ledger's accounts and the holds of power
blocks (R214, R389, R390, R402, R408-R410). -/

namespace Sys2Proof.Machine

/-- A refusal code (R342). -/
def abortOf (cls reason field : Nat) : Nat := cls * 2 ^ 24 + reason * 2 ^ 16 + field

namespace Step

/-- Fields of a step descriptor (R210). -/
def energy (d : BitVec 256) : Nat := fld d 223 192
def explen (d : BitVec 256) : Nat := fld d 191 160
def slack (d : BitVec 256) : Nat := fld d 159 136
def seg (d : BitVec 256) : Nat := fld d 127 122
def ckpt (d : BitVec 256) : Bool := bit d 121
def cslot (d : BitVec 256) : Nat := fld d 120 120
def v (d : BitVec 256) : Bool := bit d 119

end Step

/-- Descriptor `d` of region `r`'s step table (R210, R233). -/
def stepDesc (p : Panel) (r d : Nat) : BitVec 256 := BitVec.ofNat 256 (leNat (((odBytes p 0x5043 r).drop (32 * d)).take 32))

/-- Resume bundle of core `c` of duty `n` (R230, R233). -/
def resumeOf (p : Panel) (r n c : Nat) : Nat := leNat (((odBytes p 0x5044 r).drop (8 * n + 2 * c)).take 2)

/-- The image's duty map (R207): DUTY[15:2] of core 0 of each member. -/
def refreshDuty (r : Nat) (p : Panel) : Panel :=
  p.modReg r fun g => { g with
    duty := each g.members (fun s t => Tab.set (fld (p.getCore (4 * s)).a.duty 15 2) s t) [] }

/-- Is segment `n` committed on every one of these sites (R160)? -/
def committedOn (p : Panel) (n : Nat) (sites : List Nat) : Bool := sites.all fun s => (p.getRtr s).committed.testBit n

/-- The refill of a window in microjoules: the effective cap over 1 ms (R389, R407). -/
def refill (p : Panel) : Nat := p.pwr.effCap * 1000
/-- A partition's share in force (R389, R393). -/
def shareOf (p : Panel) (n : Nat) : Nat := Tab.get 1 p.pwr.share n
/-- The partitions with an account: those that hold at least one die (R389). -/
def accounts (p : Panel) : List Nat := (List.range 16).filter fun n => !(p.getPart n).members.isEmpty
def shareSum (p : Panel) : Nat := ((accounts p).map (shareOf p)).sum
/-- The depth of a partition's account (R389). -/
def depthOf (p : Panel) (n : Nat) : Nat := p.pwr.depthN * refill p * shareOf p n / max 1 (shareSum p)

/-- Does a balance admit a step of this energy (R390)? -/
def covers (p : Panel) (n energy : Nat) : Bool :=
  let b := (p.getAcct n).balance
  decide ((energy : Int) ≤ b) || (decide (depthOf p n < energy) && decide (b = (depthOf p n : Int)))

/-- The regions of a partition that wait at condition 4, in the order in which they came to it (R390). -/
def waiting4 (p : Panel) (n : Nat) : List Nat :=
  (p.getAcct n).queue.filter fun r => decide ((p.getReg r).stage = .admission) && decide ((p.getReg r).phase = .active)

/-- Energy of the step that region `r` waits to start. -/
def waitEnergy (p : Panel) (r : Nat) : Nat := Step.energy (stepDesc p r ((p.getReg r).bar.getD 0))

/-- Admit region `r`'s step when it is the first of its partition and the balance covers it (R390). -/
def admitStep (r : Nat) (p : Panel) : Panel :=
  let n := (p.getReg r).part
  let e := waitEnergy p r
  if (waiting4 p n).head? = some r ∧ covers p n e then
    let above := decide (depthOf p n < e)
    let p := p.modAcct n fun a => { a with
      balance := a.balance - e, debits := a.debits + e, admitted := a.admitted + 1,
      oversize := a.oversize + (if above then 1 else 0), waitTicks := a.waitTicks + (p.now - (p.getReg r).admitTick),
      queue := a.queue.filter fun x => decide (x ≠ r) }
    let p := p.modReg r fun g => { g with stage := .admitted }
    if above then raise 0x0109 0xFF (keyRegion r) none p else p
  else p

/-- Has a DRAM sensor of a block raised STACK_OVER_TEMPERATURE and not yet read 92 °C or less (R143)? -/
def dramHot (p : Panel) (b : Nat) : Bool := p.stk.any fun e => decide (blockOf e.1 = b) && e.2.hot

/-- Is a power block held (R402, R408, R410)? -/
def blockHeld (p : Panel) (b : Nat) : Bool :=
  (p.getBlk b).held || dramHot p b || p.pwr.inletHeld || p.pwr.allHeld

/-- Does a hold apply to a block that holds a member of the region (R214, condition 5)? -/
def regionHeld (p : Panel) (r : Nat) : Bool :=
  !(p.getReg r).forced && (p.getReg r).members.any fun s => blockHeld p (blockOf s)

/-- STEP_ADMISSION (R390). -/
def execStepAdmission (r : Nat) (s : State) : Out := s.runP (isRegion r) (admitStep r)

end Sys2Proof.Machine
end

