-- ==== Sys2Proof/Machine/Aes.lean ====
section
/-! DEFINITION. AES-256 and the two modes that the panel uses it in: XTS on a row word (R144) and GCM on a frame (R471,
R473). The standards are FIPS 197, IEEE 1619 and NIST SP 800-38D; the substitution is computed from its definition. A block is
sixteen bytes, in the order of the standard: down the columns. -/

namespace Sys2Proof.Machine

/-- Twice a byte in the field of 2^8 elements. -/
def gfDouble (x : Byte) : Byte := (x <<< 1) ^^^ (if bit x 7 then 0x1B else 0)
/-- A product in that field, the bits of `y` from the top. -/
def gfMul (x y : Byte) : Byte := [7, 6, 5, 4, 3, 2, 1, 0].foldl (fun a i => gfDouble a ^^^ (if bit y i then x else 0)) 0
/-- The inverse, x^254 = x^2 x^4 ... x^128; zero's is zero. -/
def gfInverse (x : Byte) : Byte :=
  ((List.range 7).foldl (fun (a : Byte × Byte) _ => (gfMul a.1 (gfMul a.2 a.2), gfMul a.2 a.2)) (1, x)).1
/-- The affine half of the substitution. -/
def affine (x : Byte) : Byte := [1, 2, 3, 4].foldl (fun a n => a ^^^ x.rotateLeft n) (x ^^^ 0x63)

/-- The substitution of every byte, in order, and its reverse. -/
def subTable : List Byte := (List.range 256).map fun n => affine (gfInverse (BitVec.ofNat 8 n))
def unsubTable : List Byte := (List.range 256).map fun n => BitVec.ofNat 8 (subTable.findIdx fun x => x == BitVec.ofNat 8 n)
def through (t : List Byte) (b : List Byte) : List Byte := b.map fun x => t.getD x.toNat 0

/-- The exclusive or of two stretches of bytes, as long as the shorter. -/
def xorBytes (a b : List Byte) : List Byte := List.zipWith (· ^^^ ·) a b

/-- Row `r` of a block turns `k * r` columns left. -/
def turnRows (k : Nat) (b : List Byte) : List Byte := (List.range 16).map fun i => b.getD ((i + 4 * k * (i % 4)) % 16) 0
/-- Each column times the circulant matrix whose first row is given. -/
def mixColumns (row b : List Byte) : List Byte :=
  (List.range 16).map fun i =>
    (List.range 4).foldl (fun a j => a ^^^ gfMul (b.getD (i / 4 * 4 + (i + j) % 4) 0) (row.getD j 0)) 0

/-- The word after those of a key schedule, which stand newest first: the `i`-th of all. -/
def nextKeyWord (i : Nat) (ws : List (List Byte)) : List Byte :=
  let last := ws.headD []
  let turned :=
    if i % 8 = 0 then
      xorBytes (through subTable (last.drop 1 ++ last.take 1)) [(List.replicate (i / 8 - 1) ()).foldl (fun x _ => gfDouble x) 1, 0, 0, 0]
    else if i % 8 = 4 then through subTable last
    else last
  xorBytes (ws.getD 7 []) turned

/-- `n` stretches of `k` bytes each. -/
def pieces (k : Nat) : Nat → List Byte → List (List Byte)
  | 0, _ => []
  | n + 1, b => b.take k :: pieces k n (b.drop k)

/-- The fifteen round keys of a 32-byte key. -/
def roundKeys (key : List Byte) : List (List Byte) :=
  let ws := (List.range 52).foldl (fun ws n => nextKeyWord (n + 8) ws :: ws) (pieces 4 8 key).reverse
  pieces 16 15 ws.reverse.flatten

/-- The rounds of a block under the round keys that are left. -/
def encryptRounds : List (List Byte) → List Byte → List Byte
  | [], b => b
  | [k], b => xorBytes (turnRows 1 (through subTable b)) k
  | k :: ks, b => encryptRounds ks (xorBytes (mixColumns [2, 3, 1, 1] (turnRows 1 (through subTable b))) k)
/-- The same the other way, the keys last first. -/
def decryptRounds : List (List Byte) → List Byte → List Byte
  | [], b => b
  | [k], b => xorBytes (through unsubTable (turnRows 3 b)) k
  | k :: ks, b => decryptRounds ks (mixColumns [14, 11, 13, 9] (xorBytes (through unsubTable (turnRows 3 b)) k))

/-- A block enciphered and deciphered under round keys. -/
def encryptBlock (ks : List (List Byte)) (b : List Byte) : List Byte := encryptRounds (ks.drop 1) (xorBytes b (ks.headD []))
def decryptBlock (ks : List (List Byte)) (b : List Byte) : List Byte :=
  decryptRounds (ks.reverse.drop 1) (xorBytes b (ks.reverse.headD []))

/-- The tweak of the next block of a data unit: times two in the field of 2^128 elements, its bytes little-endian. -/
def nextTweak (t : List Byte) : List Byte :=
  let x := 2 * leNat t
  leBytes 16 (if x < 2 ^ 128 then x else x ^^^ 0x87)

/-- The blocks of a data unit, each through `f` between two additions of its tweak. -/
def xtsBlocks (f : List Byte → List Byte) : Nat → List Byte → List Byte → List Byte
  | 0, _, _ => []
  | n + 1, t, b => xorBytes (f (xorBytes (b.take 16) t)) t ++ xtsBlocks f n (nextTweak t) (b.drop 16)

/-- AES-256-XTS on a row word of sixteen blocks (R144): the key is key 1 then key 2, the tweak a 128-bit number taken
little-endian. -/
def xtsWord (f : List (List Byte) → List Byte → List Byte) (key tweak x : Nat) : Nat :=
  let k := leBytes 64 key
  leNat (xtsBlocks (f (roundKeys (k.take 32))) 16 (encryptBlock (roundKeys (k.drop 32)) (leBytes 16 tweak)) (leBytes 256 x))
def xtsEncrypt (key tweak x : Nat) : Nat := xtsWord encryptBlock key tweak x
def xtsDecrypt (key tweak x : Nat) : Nat := xtsWord decryptBlock key tweak x

/-- A block as the number whose first bit is its most significant, and back. -/
def blockNat (b : List Byte) : Nat := leNat b.reverse
def natBlock (x : Nat) : List Byte := (leBytes 16 x).reverse

/-- A product of blocks in the field of GCM, whose first bit is the constant term. -/
def gcmMul (x y : Nat) : Nat :=
  ((List.range 128).foldl (fun (a : Nat × Nat) i =>
    (if x.testBit (127 - i) then a.1 ^^^ a.2 else a.1, if a.2 % 2 = 1 then a.2 / 2 ^^^ 0xE1 * 2 ^ 120 else a.2 / 2)) (0, y)).1

/-- Bytes filled up with zeros to whole blocks. -/
def gcmFill (b : List Byte) : List Byte := b ++ List.replicate ((16 - b.length % 16) % 16) 0

/-- The hash of GCM over authenticated data and ciphertext. -/
def gcmHash (h : Nat) (aad text : List Byte) : Nat :=
  let all := gcmFill aad ++ gcmFill text ++ natBlock (8 * aad.length * 2 ^ 64 + 8 * text.length)
  (pieces 16 (all.length / 16) all).foldl (fun a b => gcmMul (a ^^^ blockNat b) h) 0

/-- The key stream of a 12-byte nonce over a text, from counter 2 on; it enciphers and deciphers. -/
def gcmStream (ks : List (List Byte)) (nonce text : List Byte) : List Byte :=
  xorBytes text ((List.range (ceilDiv text.length 16)).flatMap fun i => encryptBlock ks (nonce ++ (leBytes 4 (i + 2)).reverse))

/-- The 16-byte tag over authenticated data and ciphertext. -/
def gcmTag (ks : List (List Byte)) (nonce aad text : List Byte) : List Byte :=
  xorBytes (natBlock (gcmHash (blockNat (encryptBlock ks (List.replicate 16 0))) aad text)) (encryptBlock ks (nonce ++ [0, 0, 0, 1]))

/-- AES-256-GCM: the ciphertext and the tag of a text under a 32-byte key, a 12-byte nonce and authenticated data. -/
def gcmSeal (key nonce aad text : List Byte) : List Byte × List Byte :=
  let ks := roundKeys key
  let c := gcmStream ks nonce text
  (c, gcmTag ks nonce aad c)

/-- The text of a ciphertext whose tag holds. -/
def gcmOpen (key nonce aad text tag : List Byte) : Option (List Byte) :=
  let ks := roundKeys key
  if tag = gcmTag ks nonce aad text then some (gcmStream ks nonce text) else none

end Sys2Proof.Machine
end

