-- ==== Sys2Proof/Machine/Operands.lean ====
section
/-! DEFINITION. The operand forms of a bundle slot (R37, R41, R42, R45, R57): register numbers, immediates, predicates,
element lanes, descriptor fields, and the checks on each. -/

namespace Sys2Proof.Machine

/-- Rank of a slot: its number in the order of R75. -/
def slotRank : Slot → Nat
  | .s => 0 | .v0 => 1 | .v1 => 2 | .m => 3 | .l0 => 4 | .l1 => 5 | .n => 6 | .c => 7

def slotV (u : VUnit) : Slot := match u with | .v0 => .v0 | .v1 => .v1
def slotL (u : LUnit) : Slot := match u with | .l0 => .l0 | .l1 => .l1
def vNum (u : VUnit) : Nat := match u with | .v0 => 0 | .v1 => 1
def lNum (u : LUnit) : Nat := match u with | .l0 => 0 | .l1 => 1

namespace SlotW

def dst (w : SlotWord) : Nat := w.dst.toNat
def sa (w : SlotWord) : Nat := w.sa.toNat
def sb (w : SlotWord) : Nat := w.sb.toNat
def sc (w : SlotWord) : Nat := w.sc.toNat
/-- Bits [hi:lo] of IMM. -/
def imm (w : SlotWord) (hi lo : Nat) : Nat := fld w.imm hi lo
/-- The immediate of LI and LIH, bits [44:0] of the slot (R41). -/
def long (w : SlotWord) : Nat := ((w.sa.toNat * 64 + w.sb.toNat) * 64 + w.sc.toNat) * 2 ^ 27 + w.imm.toNat
/-- sext(IMM) as 64 bits. -/
def simm (w : SlotWord) : Word := w.imm.signExtend 64
/-- Element type (R45). -/
def et (w : SlotWord) : Nat := fld w.imm 26 24

end SlotW

/-- Scalar registers: s0 reads 0 and discards writes (R37). -/
def rdS (a : CoreA) (n : Nat) : Word := if n = 0 then 0 else Tab.get 0 a.s n
def wrS (n : Nat) (x : Word) (a : CoreA) : CoreA := if n = 0 then a else { a with s := Tab.set n x a.s }
/-- Predicates: p0 reads 1 and discards writes (R37). -/
def rdP (a : CoreA) (n : Nat) : Bool := if n = 0 then true else Tab.get false a.p n
def wrP (n : Nat) (b : Bool) (a : CoreA) : CoreA := if n = 0 then a else { a with p := Tab.set n b a.p }
def rdV (a : CoreA) (n : Nat) : Vec := Tab.get 0 a.v n
def wrV (n : Nat) (x : Vec) (a : CoreA) : CoreA := { a with v := Tab.set n x a.v }
def rdQ (a : CoreA) (n : Nat) : Wide := Tab.get 0 a.q n
def wrQ (n : Nat) (x : Wide) (a : CoreA) : CoreA := { a with q := Tab.set n x a.q }
def rdD (a : CoreA) (n : Nat) : Wide := Tab.get 0 a.d n
def wrD (n : Nat) (x : Wide) (a : CoreA) : CoreA := { a with d := Tab.set n x a.d }
def rdC (a : CoreA) (n : Nat) : BitVec 32 := Tab.get 0 a.c n
def wrC (n : Nat) (x : BitVec 32) (a : CoreA) : CoreA := { a with c := Tab.set n x a.c }

/-- A special register as MFS reads it (R38). -/
def rdSpec (a : CoreA) (n : Nat) : Word :=
  if n = 0 then BitVec.ofNat 64 a.icc else if n = 1 then a.duty else if n = 2 then a.step else if n = 3 then a.epoch
  else if n = 4 then a.gen.extractLsb' 0 64 else if n = 5 then a.gen.extractLsb' 64 64
  else if n = 6 then a.rnd else if n = 7 then a.exf else 0

/-- A write to a special register: the halves of the generator keep its all-zero rule (R93). -/
def wrSpec (n : Nat) (x : Word) (a : CoreA) : CoreA :=
  if n = 1 then { a with duty := x } else if n = 2 then { a with step := x } else if n = 3 then { a with epoch := x }
  else if n = 4 then { a with gen := genFix (a.gen.extractLsb' 64 64 ++ x) }
  else if n = 5 then { a with gen := genFix (x ++ a.gen.extractLsb' 0 64) }
  else if n = 6 then { a with rnd := x } else if n = 7 then { a with exf := x &&& 1 } else a

/-- Does the predicate of a slot let it execute (R42)? -/
def executes (a : CoreA) (w : SlotWord) : Bool := rdP a w.prd.toNat != w.pneg

/-- The base of an L slot access: s[SA] + sext(IMM) in 64-bit arithmetic (R48). -/
def lAddr (a : CoreA) (w : SlotWord) : Nat := (rdS a (SlotW.sa w) + SlotW.simm w).toNat

/-- Is an access of `n` bytes at `x` aligned to `al` and inside the scratchpad (R48)? -/
def lOk (x n al : Nat) : Bool := decide (x % al = 0) && decide (x + n ≤ scratchBytes)

/-- Element lanes by type code (R45): width and count. -/
def etWidth (et : Nat) : Nat := if et = 0 ∨ et = 3 then 32 else if et = 1 ∨ et = 2 ∨ et = 4 then 16 else 8
def etLanes (et : Nat) : Nat := 2048 / etWidth et
/-- Is the type a float? -/
def etFloat (et : Nat) : Bool := decide (et ≤ 2)
def etFmt (et : Nat) : Fmt := if et = 0 then fmtFP32 else if et = 1 then fmtBF16 else fmtFP16
def etSigned (et : Nat) : Bool := decide (et = 3 ∨ et = 4 ∨ et = 5)

/-- The elements of a vector, lane 0 first. -/
def vLanes (et : Nat) (x : Vec) : List Nat := lanes (etWidth et) (etLanes et) x.toNat
def ofLanes (et : Nat) (l : List Nat) : Vec := BitVec.ofNat 2048 (unlanes (etWidth et) l)
/-- An integer lane as a number. -/
def laneInt (et x : Nat) : Int := if etSigned et then sextN (etWidth et) x else (x : Int)

namespace Dsc

/-- Fields of a stream descriptor (R57). -/
def kind (d : Wide) : Nat := fld d 255 252
def mask (d : Wide) : Nat := fld d 251 244
def track (d : Wide) : Nat := fld d 251 248
def ctr (d : Wide) : Nat := fld d 247 244
def opr (d : Wide) : Nat := fld d 243 240
def pace (d : Wide) : Nat := fld d 239 236
def unitg (d : Wide) : Nat := fld d 235 228
def unit (d : Wide) : Nat := 64 * (fld d 235 228 + 1)
def cnt1 (d : Wide) : Nat := fld d 227 208 + 1
def cnt2 (d : Wide) : Nat := fld d 207 192 + 1
def slot (d : Wide) : Nat := fld d 207 192
def str1 (d : Wide) : Int := sextN 32 (fld d 191 160)
def str2 (d : Wide) : Int := sextN 32 (fld d 159 128)
def src (d : Wide) : Nat := fld d 127 64
def dst (d : Wide) : Nat := fld d 63 0
/-- Units of a stream. -/
def units (d : Wide) : Nat := cnt1 d * cnt2 d
def bytes (d : Wide) : Nat := units d * unit d

/-- Offset of unit `n` from the base: the inner index runs fastest (R57). -/
def off (d : Wide) (n : Nat) : Int := ((n % cnt1 d : Nat) : Int) * str1 d + ((n / cnt1 d : Nat) : Int) * str2 d

/-- Lowest and highest unit offset. -/
def lowOff (d : Wide) : Int := min 0 (((cnt1 d - 1 : Nat) : Int) * str1 d) + min 0 (((cnt2 d - 1 : Nat) : Int) * str2 d)
def highOff (d : Wide) : Int := max 0 (((cnt1 d - 1 : Nat) : Int) * str1 d) + max 0 (((cnt2 d - 1 : Nat) : Int) * str2 d)

/-- Does every byte of every unit at `base` lie in [lo, hi)? -/
def within (d : Wide) (base lo hi : Nat) : Bool :=
  decide ((lo : Int) ≤ (base : Int) + lowOff d) && decide ((base : Int) + highOff d + unit d ≤ (hi : Int))

/-- Is every unit at `base` a whole number of row words, on their boundary (R59)? -/
def rowAligned (d : Wide) (base : Nat) : Bool :=
  decide (unit d % 256 = 0) && decide (base % 256 = 0) && (decide (cnt1 d = 1) || decide (str1 d % 256 = 0))
    && (decide (cnt2 d = 1) || decide (str2 d % 256 = 0))

/-- Strides are multiples of 64 (R57). -/
def strides (d : Wide) : Bool := decide (str1 d % 64 = 0) && decide (str2 d % 64 = 0)

/-- The fields that R57 makes zero for the kind are zero. -/
def zeros (d : Wide) : Bool :=
  let k := kind d
  (decide (k = 3 ∨ k = 4 ∨ k = 6 ∨ k = 7) || decide (mask d = 0)) && (decide (k ≠ 6) || decide (ctr d = 0))
    && (decide (k = 6) || decide (opr d = 0)) && (decide (k ≠ 3) || decide (dst d = 0))
    && (decide (k < 6) || (decide (unitg d = 0) && decide (str1 d = 0) && decide (str2 d = 0)))

end Dsc

/-- Number of arrays in a mask. -/
def popMask (m : Nat) : Nat := (bitsSet 8 m).length

/-- The rows `first` through `first + n - 1`, modulo 256. -/
def accRows (first n : Nat) : List Nat := (List.range (min n 256)).map fun i => (first + i) % 256

/-- Are the accumulator rows usable under the B format (R83)? -/
def rowsOk (fmtB : Nat) (rows : List Nat) : Bool := decide (fmtB = 0) || rows.all fun r => decide (r < 128)

/-- The banks that an access of `n` bytes at `x` names (R103). -/
def banksOf (x n : Nat) : List Nat :=
  if n = 0 then [] else (List.range ((x + n - 1) / 128 - x / 128 + 1)).map fun i => (x / 128 + i) % 256

/-- Size of the staging area, and of one slot (R69). -/
def Core.stgBytes (c : Core) : Nat := c.stg * 2 ^ 18
def Core.slotBytes (c : Core) : Nat := c.stgBytes / 32
def Core.stgBase (c : Core) : Nat := scratchBytes - c.stgBytes
/-- Does [x, x + n) touch the staging area? -/
def Core.inStaging (c : Core) (x n : Nat) : Bool := decide (0 < c.stg) && decide (c.stgBase < x + n)

end Sys2Proof.Machine
end

