-- ==== Sys2Proof/Machine/Flags.lean ====
section
/-! DEFINITION. Conditions that the core's arithmetic and accesses raise: comparisons (R89), the EX80 range flag (R95,
R97), arithmetic counters (R101), the fault record (R72, R75) and the events of an open bundle (R43). -/

namespace Sys2Proof.Machine

/-- VCMPLT and VCMPEQ of one lane: IEEE for floats, -0 equal to +0, false with NaN; signed or unsigned integers (R89). -/
def laneLt (et x y : Nat) : Bool :=
  if etFloat et then Num.lt ((etFmt et).ieee x) ((etFmt et).ieee y) else decide (laneInt et x < laneInt et y)
def laneEq (et x y : Nat) : Bool :=
  if etFloat et then Num.eq ((etFmt et).ieee x) ((etFmt et).ieee y) else decide (x = y)

/-- The larger and the smaller of two lanes in the order of R89. -/
def laneMax (et x y : Nat) : Nat :=
  if etFloat et then
    (if ((etFmt et).ieee x).isNan || ((etFmt et).ieee y).isNan then (etFmt et).nanCode
     else if Num.below ((etFmt et).ieee x) ((etFmt et).ieee y) then y else x)
  else if laneInt et x < laneInt et y then y else x
def laneMin (et x y : Nat) : Nat :=
  if etFloat et then
    (if ((etFmt et).ieee x).isNan || ((etFmt et).ieee y).isNan then (etFmt et).nanCode
     else if Num.below ((etFmt et).ieee y) ((etFmt et).ieee x) then y else x)
  else if laneInt et y < laneInt et x then y else x

/-- Does the core hold a fault record since its last reset or program load (R72)? -/
def CoreA.hasFault (a : CoreA) : Bool := decide (a.run = .faulted) || decide (a.fcode ≠ 0)

/-- The first fault of a core: its record and its state; a further fault changes neither (R72). -/
def faultA (ev pc slot : Nat) (a : CoreA) : CoreA :=
  if a.hasFault then a
  else { a with
    run := .faulted, fcode := ev, frec := ⟨ev, pc % 65536, slot, fld a.step 31 0, a.icc⟩, waits := [] }

/-- Hold an event until the open bundle issues (R43). -/
def holdEv (ev : Nat) (d : Dat) (a : CoreA) : CoreA := { a with evq := a.evq ++ [⟨ev, d⟩] }

/-- A fault of an operation at its issue that lets the bundle issue (R70, R112). -/
def issueFault (ev : Nat) (slot : Slot) (a : CoreA) : CoreA := holdEv ev none (faultA ev a.pc (slotRank slot) a)

/-- A core fault outside issue: recorded, and raised to the hub (R72). -/
def coreFault (k ev slot : Nat) (pc : Nat) (p : Panel) : Panel :=
  coreRaise k ev none (p.modA k (faultA ev pc slot))

/-- As `coreFault`, with the PC of the next bundle to issue (R75). -/
def coreFaultHere (k ev slot : Nat) (p : Panel) : Panel := coreFault k ev slot (p.getCore k).a.pc p

/-- The outcomes of the words that `sel` selects, each word once; one that cannot be corrected is not a corrected one. -/
def eccOn (sel : Nat → Bool) (e : Ecc) : Ecc :=
  ⟨(e.fixed.filter fun w => sel w && !e.bad.contains w).eraseDups, (e.bad.filter sel).eraseDups⟩

/-- Does word `w` hold one of the `n` bytes at `x`? -/
def touches (x n w : Nat) : Bool := decide (x < 8 * w + 8) && decide (8 * w < x + n)

/-- Does a write of the `n` bytes at `x` cover word `w` in part, and so read it (R109)? -/
def mergesWord (x n w : Nat) : Bool := touches x n w && (decide (8 * w < x) || decide (x + n < 8 * w + 8))

/-- Counts of a scratchpad read's corrected and uncorrectable words (R109, R122). -/
def eccCount (e : Ecc) (a : CoreA) : CoreA :=
  { a with sctr := { a.sctr with corrected := a.sctr.corrected + e.fixed.length, uncorr := a.sctr.uncorr + e.bad.length } }

/-- A scratchpad read within a bundle: corrected words raise 0x0507, an uncorrectable one faults the core (R109). -/
def eccIssue (e : Ecc) (slot : Slot) (a : CoreA) : CoreA :=
  let a := eccCount e a
  let a := if e.fixed.isEmpty then a else holdEv 0x0507 none a
  if e.bad.isEmpty then a else issueFault 0x0508 slot a

/-- A scratchpad read outside a bundle (R109). -/
def eccRead (k : Nat) (e : Ecc) (slot pc : Nat) (p : Panel) : Panel :=
  let p := p.modA k (eccCount e)
  let p := if e.fixed.isEmpty then p else coreRaise k 0x0507 none p
  if e.bad.isEmpty then p else coreFault k 0x0508 slot pc p

/-- The bytes at `x`, with those of the words that cannot be corrected as the fault left them, taken from the free pattern
`free` (R109). -/
def asFaulted (bad : List Nat) (x n free v : Nat) : Nat :=
  bad.foldl (fun v w =>
    let lo := max x (8 * w)
    splice v (lo - x) (min (x + n) (8 * w + 8) - lo) (free / 256 ^ (lo - x))) v

/-- Set the sticky range flag (R95, R97, R190). -/
def setExf (a : CoreA) : CoreA := { a with exf := a.exf ||| 1 }

end Sys2Proof.Machine
end

