-- ==== Sys2Proof/Machine/Issue.lean ====
section
/-! DEFINITION. How a bundle issues (R36, R42, R43, R51-R55, R60, R66, R72): slots come in the order of R75, the first
opens the bundle, slot C or the end of the clock cycle closes it; an illegal slot undoes the bundle and faults the
core. -/

namespace Sys2Proof.Machine

/-- May a slot of core `k` issue now: it continues the open bundle, or the core runs, its bundle is due, its die neither
stalls nor stands frozen (R36, R65, R221)? -/
def canIssue (k : Nat) (sl : Slot) (p : Panel) : Bool :=
  let c := p.getCore k
  match c.last with
  | some j => decide (j < slotRank sl)
  | none => decide (c.a.run = .running) && decide (c.a.issued ≤ c.a.rc) && decide ((p.getClk (siteOf k)).stall = 0)
      && !(p.getDie (siteOf k)).frozen

/-- The bundle opened: what an illegal slot goes back to is kept (R43). -/
def openBundle (sl : Slot) (c : Core) : Core :=
  match c.last with
  | some _ => { c with last := some (slotRank sl) }
  | none => { c with snap := some c.a, last := some (slotRank sl) }

/-- Ranks of R66 and R105. -/
def rankL (u : LUnit) : Rank := ⟨lNum u, 0⟩
def rankStream (eng sid : Nat) : Rank := ⟨eng, sid + 1⟩
def rankRecv (track : Nat) : Rank := ⟨2, track⟩
def rankSend (track : Nat) : Rank := ⟨3, track⟩
/-- Is a rank served no later than another? -/
def Rank.le (x y : Rank) : Bool := decide (x.cls < y.cls) || (decide (x.cls = y.cls) && decide (x.sub ≤ y.sub))
/-- Is it the rank of a bundle's own operation? -/
def Rank.ofBundle (x : Rank) : Bool := decide (x.cls ≤ 1) && decide (x.sub = 0)

/-- Put a write among others in the order they are served: by rank, equal ranks as they came. -/
def insertW (w : CycW) : List CycW → List CycW
  | [] => [w]
  | x :: t => if x.rk.le w.rk then x :: insertW w t else w :: x :: t

/-- Memory without the writes of a run cycle, newest first. -/
def undoCyc (ws : List CycW) (m : Mem) : Mem := ws.foldl (fun m w => m.setNum w.ga w.n w.old) m

/-- Memory after the writes of a run cycle that `f` selects, in their order (R105). -/
def memWith (f : CycW → Bool) (ws : List CycW) (m : Mem) : Mem :=
  ((ws.filter f).foldr insertW []).foldl (fun m w => m.setNum w.ga w.n w.v) (undoCyc ws m)

/-- Memory as an access of rank `rk` sees it in this cycle (R60, R105). -/
def memBefore (rk : Rank) (c : Core) (m : Mem) : Mem := memWith (fun w => w.rk.le rk) c.stores m

/-- A scheduled write of rank `rk`: the core that keeps it, and memory, where a write that is served later stays (R105). -/
def schedWrite (rk : Rank) (ga n v : Nat) (c : Core) (m : Mem) : Core × Mem :=
  let c := { c with stores := ⟨rk, ga, n, v, m.num ga n⟩ :: c.stores }
  (c, memWith (fun _ => true) c.stores m)

/-- Memory and the core's writes without those of the open bundle (R43). -/
def undoBundle (c : Core) (m : Mem) : Core × Mem :=
  ({ c with stores := c.stores.filter fun w => !w.rk.ofBundle }, memWith (fun w => !w.rk.ofBundle) c.stores m)

/-- An illegal slot: the bundle does not issue, and the core faults on it (R43, R72). -/
def illegalCore (sl : Slot) (c : Core) : Core :=
  let a := c.snap.getD c.a
  { c with a := faultA 0x0701 a.pc (slotRank sl) a, snap := none, last := none }

def illegal (k : Nat) (sl : Slot) (p : Panel) : Panel := coreRaise k 0x0701 none (p.modCore k (illegalCore sl))

/-- Issue an operation of slots S, V0, V1 and M: `static` are the checks on the bundle alone, `dyn` those made only when
it executes (R42), `eff` what it does. -/
def issueP (k : Nat) (sl : Slot) (w : SlotWord) (static dyn : Bool) (eff : Core → Core) (p : Panel) : Panel :=
  if canIssue k sl p then
    let c := openBundle sl (p.getCore k)
    if executes c.a w then
      if static && dyn then p.setCore k (eff c) else illegal k sl (p.setCore k c)
    else if static then p.setCore k c else illegal k sl (p.setCore k c)
  else p

/-- An illegal slot that may follow stores of its bundle (R43). -/
def illegalS (k : Nat) (sl : Slot) (c : Core) (s : State) : State :=
  let u := undoBundle c s.mem
  { s with mem := u.2, p := illegal k sl (s.p.setCore k u.1) }

/-- Issue an operation of slots L0, L1 and N, which may follow stores of the same bundle: `eff` is what it does to the core
and to memory. -/
def issueS (k : Nat) (sl : Slot) (w : SlotWord) (static dyn : Bool) (eff : Core → Mem → Core × Mem) (s : State) : State :=
  if canIssue k sl s.p then
    let c := openBundle sl (s.p.getCore k)
    if executes c.a w then
      if static && dyn then
        let r := eff c s.mem
        { s with mem := r.2, p := s.p.setCore k r.1 }
      else illegalS k sl c s
    else if static then { s with p := s.p.setCore k c }
    else illegalS k sl c s
  else s

/-- Loop ends at the bundle just issued, innermost first: the loops still active, the registers, and the start that
issues next where a count is not yet zero (R55). -/
def loopEnds (pc : Nat) : List Nat → Tab LoopReg → List Nat × Tab LoopReg × Option Nat
  | [], t => ([], t, none)
  | i :: rest, t =>
    let l := Tab.get default t i
    if l.stop = pc then
      if l.count ≤ 1 then loopEnds pc rest (Tab.set i { l with count := 0 } t)
      else (i :: rest, Tab.set i { l with count := l.count - 1 } t, some l.start)
    else
      let r := loopEnds pc rest t
      (i :: r.1, r.2.1, r.2.2)

/-- Where issue goes on after the bundle: a skipped loop body, a branch after its two delay bundles, a loop start, or the
next bundle (R54, R55). -/
def nextPc (a : CoreA) : CoreA :=
  match a.skip with
  | some t => { a with skip := none, icc := a.icc + 2, issued := a.issued + 2, pc := t }
  | none =>
    match a.branch with
    | some (t, n) =>
      if n ≤ 1 then { a with branch := none, pc := t } else { a with branch := some (t, n - 1), pc := a.pc + 1 }
    | none =>
      let r := loopEnds a.pc a.loops a.lc
      { a with loops := r.1, lc := r.2.1, pc := r.2.2.getD (a.pc + 1) }

/-- The bundle has issued: ICC, the next PC; a PC past bundle 65,535 faults a core that would go on (R36, R55; log 10). -/
def closeA (a : CoreA) : CoreA :=
  let b := nextPc { a with icc := a.icc + 1, issued := a.rc + 1 }
  if b.pc < 65536 then b
  else if b.run = .halting then { b with pc := b.pc % 65536 }
  else holdEv 0x0701 none (faultA 0x0701 0 0xFF { b with pc := b.pc % 65536 })

/-- Raise the events a bundle held. -/
def raiseHeld (k : Nat) : List HeldEv → Panel → Panel
  | [], p => p
  | e :: es, p => raiseHeld k es (coreRaise k e.ev e.data p)

/-- Close the open bundle of a core, if there is one; its remaining slots are NOP. -/
def closeBundle (k : Nat) (p : Panel) : Panel :=
  let c := p.getCore k
  match c.last with
  | none => p
  | some _ =>
    let a := closeA c.a
    raiseHeld k a.evq (p.setCore k { c with a := { a with evq := [] }, snap := none, last := none })

/-- Issue an operation of slot C, which closes the bundle. -/
def issueC (k : Nat) (w : SlotWord) (static dyn : Bool) (eff : Core → Core) (s : State) : State :=
  if canIssue k .c s.p then
    let c := openBundle .c (s.p.getCore k)
    if executes c.a w then
      if static && dyn then { s with p := closeBundle k (s.p.setCore k (eff c)) } else illegalS k .c c s
    else if static then { s with p := closeBundle k (s.p.setCore k c) }
    else illegalS k .c c s
  else s

/-- Put a register write in flight: issued now with latency `lat`, it lands at the end of cycle rc + lat - 1 (R51). -/
def launch (lat : Nat) (x : RegWrite) (a : CoreA) : CoreA := { a with inflight := a.inflight ++ [⟨a.rc + lat - 1, x⟩] }

/-- Change a core's architectural part; with `keepMem`, of an operation that may touch memory and does not. -/
def onA (f : CoreA → CoreA) (c : Core) : Core := { c with a := f c.a }
def keepMem (f : Core → Core) (c : Core) (m : Mem) : Core × Mem := (f c, m)

/-- A scheduled access names banks in this run cycle: the longest line at one of them before it, and the stall that it adds
(R66). -/
def bankNeed (a : CoreA) (bs : List Nat) : Nat :=
  bs.foldl (fun n b => max n (a.banks.filter fun e => e.contains b).length) 0
def addBanks (bs : List Nat) (a : CoreA) : CoreA :=
  let n := bankNeed a bs - a.stallReq
  { a with banks := a.banks ++ [bs], stallReq := a.stallReq + n, wctr := { a.wctr with bank := a.wctr.bank + n } }
/-- As `addBanks`, within a bundle: a conflict raises 0x0501 (R66). -/
def bundleBanks (bs : List Nat) (a : CoreA) : CoreA :=
  if bankNeed a bs ≤ a.stallReq then addBanks bs a else holdEv 0x0501 none (addBanks bs a)
/-- As `addBanks`, outside a bundle. -/
def schedBanks (k : Nat) (bs : List Nat) (p : Panel) : Panel :=
  let a := (p.getCore k).a
  if bankNeed a bs ≤ a.stallReq then p.modA k (addBanks bs) else coreRaise k 0x0501 none (p.modA k (addBanks bs))

end Sys2Proof.Machine
end

