-- ==== Sys2Proof/Machine/RouterBase.lean ====
section
/-! DEFINITION. Reading the hop table and the segment in execution (R153-R158). -/

namespace Sys2Proof.Machine

namespace Hop

/-- Fields of a hop entry (R154). -/
def cyc (e : BitVec 64) : Nat := fld e 63 48
def inp (e : BitVec 64) : Nat := fld e 47 40
def ivc (e : BitVec 64) : Nat := fld e 39 37
def out (e : BitVec 64) : Nat := fld e 36 29
def ovc (e : BitVec 64) : Nat := fld e 28 26
def mode (e : BitVec 64) : Nat := fld e 25 24
def rsv (e : BitVec 64) : Nat := fld e 23 0

end Hop

namespace Seg

/-- Fields of a segment descriptor (R155). -/
def reps (d : BitVec 128) : Nat := fld d 95 64
def period (d : BitVec 128) : Nat := fld d 49 33
def count (d : BitVec 128) : Nat := fld d 32 16
def base (d : BitVec 128) : Nat := fld d 15 0

end Seg

namespace CellF

/-- Fields of a cell header (R151). -/
def typ (c : Cell) : Nat := fld c.hdr 63 61
def vc (c : Cell) : Nat := fld c.hdr 60 58
def part (c : Cell) : Nat := fld c.hdr 57 54
def srcSite (c : Cell) : Nat := fld c.hdr 53 46
def srcCore (c : Cell) : Nat := fld c.hdr 45 44
def dstSite (c : Cell) : Nat := fld c.hdr 43 36
def dstCore (c : Cell) : Nat := fld c.hdr 35 34
def dtrk (c : Cell) : Nat := fld c.hdr 33 30
def opr (c : Cell) : Nat := fld c.hdr 29 26
def epoch (c : Cell) : Nat := fld c.hdr 25 10
def opf (c : Cell) : Nat := fld c.hdr 9 0
def range (c : Cell) : Bool := bit c.hdr 9
def etype (c : Cell) : Nat := fld c.hdr 2 0

/-- A header from its fields. -/
def mk (typ vc part ss sc ds dc dt opr ep opf : Nat) : BitVec 64 :=
  BitVec.ofNat 64 (typ * 2 ^ 61 + vc * 2 ^ 58 + part * 2 ^ 54 + ss * 2 ^ 46 + sc * 2 ^ 44 + ds * 2 ^ 36 + dc * 2 ^ 34
    + dt * 2 ^ 30 + opr * 2 ^ 26 + ep * 2 ^ 10 + opf)

/-- The cell on another VC. -/
def withVc (v : Nat) (c : Cell) : Cell :=
  { c with hdr := BitVec.ofNat 64 (c.hdr.toNat - vc c * 2 ^ 58 + v * 2 ^ 58) }

end CellF

def Router.entry (r : Router) (e : Nat) : BitVec 64 := Tab.get 0 r.hop e
def Router.segDesc (r : Router) (n : Nat) : BitVec 128 := Tab.get 0 r.seg n
/-- The descriptor of the segment in execution. -/
def Router.desc (r : Router) : BitVec 128 := match r.exec with | some n => r.segDesc n | none => 0
/-- Does a segment run: one is in execution and has not drained? -/
def Router.running (r : Router) : Bool := r.exec.isSome && !r.drained
/-- Is entry `e` one of the segment's? -/
def Router.has (r : Router) (e : Nat) : Bool :=
  decide (Seg.base r.desc ≤ e) && decide (e < Seg.base r.desc + Seg.count r.desc)
/-- The entries of the segment in execution, ascending. -/
def Router.entries (r : Router) : List Nat := (List.range (Seg.count r.desc)).map (Seg.base r.desc + ·)
/-- Repetitions of an entry that have fired. -/
def Router.firedOf (r : Router) (e : Nat) : Nat := Tab.get 0 r.fired e

/-- The entries that give a core track's cells (its MOVEs: a COPY group gives one cell, R157), or that take cells to it. -/
def Router.trackEntries (r : Router) (send : Bool) (code : Nat) : List Nat :=
  r.entries.filter fun e =>
    if send then decide (Hop.inp (r.entry e) = code) && decide (Hop.mode (r.entry e) = 0)
    else decide (Hop.out (r.entry e) = code)

/-- Ordinal of the cell that repetition `rep` of entry `e` carries, among the track's cells. -/
def Router.ordinal (r : Router) (send : Bool) (code e rep : Nat) : Nat :=
  let l := r.trackEntries send code
  rep * l.length + l.findIdx (· = e)

/-- Scheduled cycle of the track's cell `n` (R155). -/
def Router.ordCycle (r : Router) (send : Bool) (code n : Nat) : Nat :=
  let l := r.trackEntries send code
  n / l.length * Seg.period r.desc + Hop.cyc (r.entry (l.getD (n % l.length) 0))

/-- The port code of a core track (R153). -/
def trackCode (core track : Nat) : Nat := 0x80 + 16 * core + track

/-- A COPY group takes its cell at its MOVE: the MOVE that ends the group of entry `e`. -/
def Router.groupMove (r : Router) : Nat → Nat → Nat
  | 0, e => e
  | n + 1, e => if Hop.mode (r.entry e) = 1 then r.groupMove n (e + 1) else e

/-- The emission buffer whose cells leave next: the older of those that hold cells (R249, R250). -/
def emitBuf (v : Sieve) : Option Nat :=
  if ¬ (Tab.get [] v.emit v.buffer).isEmpty then some v.buffer
  else if ¬ (Tab.get [] v.emit (1 - v.buffer)).isEmpty then some (1 - v.buffer) else none

/-- The buffer that emits at a router input code, if one does (R250). -/
def emitAt (v : Sieve) (code : Nat) : Option Nat :=
  match emitBuf v with
  | some b => if Tab.get 0 v.emitCode b = code then some b else none
  | none => none

/-- The next cell of the emission at a code (R250). -/
def emission (v : Sieve) (code : Nat) : Option Cell :=
  match emitAt v code with
  | some b => (Tab.get [] v.emit b).head?
  | none => none

/-- Is an emission bound at a code: the lists are ready and the segment in execution has an entry with that IN (R250)? -/
def emitBound (p : Panel) (s code : Nat) : Bool :=
  (emission (p.getSve s) code).isSome && (p.getRtr s).running
    && (p.getRtr s).entries.any fun e => decide (Hop.inp ((p.getRtr s).entry e) = code)

/-- The posted send that an ordinal of a track is bound to (R158). -/
def sendPost (a : CoreA) (track o : Nat) : Option Post :=
  a.posts.find? fun q => q.send && decide (Dsc.track q.desc = track) && decide (q.ord0 ≤ o) && decide (o < q.ord0 + Dsc.cnt1 q.desc)

/-- A member whose cores have all halted and whose segment has drained (R208, R212). -/
def dieDone (p : Panel) (s : Nat) : Bool :=
  (p.getRtr s).drained && (coresOf s).all fun k => decide ((p.getCore k).a.run = .halted)

/-- The arrival count of a die whose conditions come to hold now (R213, R218): CK_CORE cycles since the edge of its step's start
tick. -/
def countArrival (s : Nat) (p : Panel) : Panel :=
  p.modDie s fun x => { x with clocked := some (x.clocked.getD ((p.getClk s).clk - x.clkT)) }

/-- Judge a step that has ended: its slip, an overrun where that exceeds the reserve (R218, R219). -/
def judgeStep (r : Nat) (p : Panel) : Panel :=
  let g := p.getReg r
  let x := stepDesc p r g.cur
  let slip := g.members.foldl (fun n s => max n ((p.getDie s).clocked.getD 0 - Step.explen x)) 0
  let above := decide (Step.slack x < slip)
  let p := p.modReg r fun g => { g with
    slip := slip,
    ctr := { g.ctr with
      maxSlip := max g.ctr.maxSlip slip,
      overruns := g.ctr.overruns + (if above then 1 else 0),
      ovStep := if above then g.step else g.ctr.ovStep, ovSlip := if above then slip else g.ctr.ovSlip,
      ovSlack := if above then Step.slack x else g.ctr.ovSlack } }
  if above then raise 0x0704 0xFF (keyRegion r) none p else p

/-- A step is complete (R214, R219, R233). -/
def endStep (r : Nat) (p : Panel) : Panel :=
  judgeStep r (p.modReg r fun g => { g with ctr := { g.ctr with completed := g.ctr.completed + 1 } })

/-- An ACTIVE region whose members are all done is ENDED, and with it its last step (R208, R219). -/
def checkEnded (r : Nat) (p : Panel) : Panel :=
  let g := p.getReg r
  if g.phase = .active ∧ ¬ g.freezing ∧ g.members.all (dieDone p) = true then
    let p := endStep r (p.modReg r fun g => { g with phase := .ended, bar := none, stage := .arriving })
    each g.members (fun s p => serveSite .assigned s (p.modDie s fun x => { x with running := false })) p
  else p

/-- As `checkEnded`, of the region that holds a site; a die whose cores have all halted and whose segment has drained has its
arrival count (R212, R218). -/
def checkEndedAt (s : Nat) (p : Panel) : Panel :=
  match p.regionOf s with
  | some r => checkEnded r (if dieDone p s && (p.getDie s).running then countArrival s p else p)
  | none => p

end Sys2Proof.Machine
end

