-- ==== Sys2Proof/Machine/NetSlot.lean ====
section
/-! DEFINITION. The network slot (R49, R61, R111-R116, R152, R158). -/

namespace Sys2Proof.Machine

/-- Is a send's template one that a core may use (R152)? -/
def templateOk (d : Wide) : Bool :=
  decide (nfld (Dsc.dst d) 63 61 ≤ 2) && decide (nfld (Dsc.dst d) 60 58 ≠ 7)
    && (decide (Dsc.opr d = 0) || decide (nfld (Dsc.dst d) 63 61 = 2))

/-- The header of the cells of a send: sender, partition, and for TYPE 2 the operator code and the epoch, which are zero in the
others (R151, R152). -/
def sendHdr (p : Panel) (k : Nat) (d : Wide) : BitVec 64 :=
  let t := Dsc.dst d
  let ty := nfld t 63 61
  CellF.mk ty (nfld t 60 58) ((p.partOf (siteOf k)).getD 0) (siteOf k) (coreOf k) (nfld t 43 36) (nfld t 35 34)
    (nfld t 33 30) (if ty = 2 then Dsc.opr d else 0) (if ty = 2 then fld (p.getCore k).a.epoch 15 0 else 0) (nfld t 9 0)

/-- Payload base of a post: SRC of a send, DST of a receive, plus s[SA] (R49). -/
def postBase (send : Bool) (d : Wide) (add : Word) : Nat :=
  ((if send then Dsc.src d else Dsc.dst d) + add.toNat) % 2 ^ 64

/-- The ordinal that cell 0 of a post binds to: entry CNT2 in its earliest repetition not yet fired (R158). -/
def postOrd (r : Router) (send : Bool) (code slot : Nat) : Nat :=
  let e := if send then r.groupMove (Seg.count r.desc) slot else slot
  r.ordinal send code e (r.firedOf e)

/-- Is a post legal (R57, R69, R109, R152, R158)? -/
def postOk (p : Panel) (k : Nat) (send : Bool) (d : Wide) (add : Word) : Bool :=
  let c := p.getCore k
  let r := p.getRtr (siteOf k)
  let code := trackCode (coreOf k) (Dsc.track d)
  let base := postBase send d add
  let n := Dsc.cnt1 d
  let o := postOrd r send code (Dsc.slot d)
  decide (Dsc.kind d = if send then 6 else 7) && Dsc.zeros d && (!send || templateOk d)
    && decide (base + 40 * n ≤ scratchBytes) && !c.inStaging base (40 * n) && (send || decide (base % 8 = 0))
    && r.running && r.has (Dsc.slot d) && !emitBound p (siteOf k) code
    && decide ((if send then Hop.inp else Hop.out) (r.entry (Dsc.slot d)) = code)
    && decide (o + n ≤ (r.trackEntries send code).length * Seg.reps r.desc)
    && c.a.posts.all fun q => !(decide (q.send = send) && decide (Dsc.track q.desc = Dsc.track d)
        && decide (q.ord0 < o + n) && decide (o < q.ord0 + Dsc.cnt1 q.desc))

/-- The post itself, copied into the N engine (R61). -/
def newPost (p : Panel) (k : Nat) (send : Bool) (d : Wide) (add : Word) (pc : Nat) : Post :=
  { send := send, desc := d, base := postBase send d add,
    ord0 := postOrd (p.getRtr (siteOf k)) send (trackCode (coreOf k) (Dsc.track d)) (Dsc.slot d), read := 0, fired := 0,
    done := 0, hdr := sendHdr p k d, pc := pc }

/-- Make the core wait, unless it has faulted. -/
def waitFor (w : WaitKind) (expect : Nat) (a : CoreA) : CoreA :=
  if a.hasFault then a else { a with run := .waiting, waits := a.waits ++ [⟨w, expect, a.rc⟩] }

/-- A post of slot N: it takes one of the 32 entries, or waits with an expected wait of 0 until one frees (R61). -/
def postEff (p : Panel) (k : Nat) (send : Bool) (d : Wide) (add : Word) (a : CoreA) : CoreA :=
  if a.posts.length < 32 then { a with posts := a.posts ++ [newPost p k send d add a.pc] }
  else waitFor (.post send d add a.pc) 0 a

def postOp (k : Nat) (send : Bool) (w : SlotWord) (s : State) : Out :=
  s.run (isCore k) fun s =>
    let a := (s.p.getCore k).a
    let d := rdD a (SlotW.dst w)
    let add := rdS a (SlotW.sa w)
    issueS k .n w (decide (SlotW.dst w < 32)) (postOk s.p k send d add) (keepMem (onA (postEff s.p k send d add))) s

def execNsend (k : Nat) (w : SlotWord) (s : State) : Out := postOp k true w s
def execNrecv (k : Nat) (w : SlotWord) (s : State) : Out := postOp k false w s

def execNrstc (k : Nat) (w : SlotWord) (s : State) : Out :=
  s.run (isCore k) fun s =>
    issueS k .n w (decide (SlotW.dst w < 16)) true (keepMem (onA fun a => launch 1 (.c (SlotW.dst w)) a)) s

namespace Win

/-- Fields of an open descriptor (R111). -/
def ctren (d : Wide) : Bool := bit d 100
def ctr (d : Wide) : Nat := fld d 99 96
def col1 (d : Wide) : Nat := fld d 87 84
def row1 (d : Wide) : Nat := fld d 83 80
def col0 (d : Wide) : Nat := fld d 79 76
def row0 (d : Wide) : Nat := fld d 75 72
def spart (d : Wide) : Nat := fld d 67 64
def limit (d : Wide) : Nat := fld d 51 32
def base (d : Wide) : Nat := fld d 19 0

end Win

/-- May a window be opened with this descriptor (R112)? -/
def openOk (p : Panel) (k n : Nat) (d : Wide) : Bool :=
  let c := p.getCore k
  decide ((Tab.get window0 c.a.win n).st = .closed) && decide (Win.base d ≤ Win.limit d)
    && !c.inStaging (64 * Win.base d) (64 * (Win.limit d + 1 - Win.base d))
    && decide (Win.row0 d ≤ Win.row1 d) && decide (Win.col0 d ≤ Win.col1 d)
    && decide (p.partOf (siteOf k) = some (Win.spart d))

/-- NWOPEN (R112): the window opens at the end of the cycle, or the core faults with WINDOW_REFUSED. -/
def execNwopen (k : Nat) (w : SlotWord) (s : State) : Out :=
  s.run (isCore k) fun s =>
    let d := rdD (s.p.getCore k).a (SlotW.sc w)
    issueS k .n w (decide (SlotW.sc w < 32)) true
      (keepMem (onA fun a =>
        if openOk s.p k (SlotW.dst w) d then launch 1 (.wopen (SlotW.dst w) d) a else issueFault 0x0502 .n a)) s

/-- NWCLOSE (R116): IMM[4] CEN, IMM[3:0] a counter, IMM[26:5] zero. -/
def execNwclose (k : Nat) (w : SlotWord) (s : State) : Out :=
  s.run (isCore k) fun s =>
    issueS k .n w (decide (SlotW.imm w 26 5 = 0)) true
      (keepMem (onA fun a =>
        launch 1 (.wclose (SlotW.dst w) (if SlotW.imm w 4 4 = 1 then some (SlotW.imm w 3 0) else none)) a)) s

end Sys2Proof.Machine
end

