-- ==== Sys2Proof/Machine/Control.lean ====
section
/-! DEFINITION. The control slot (R50, R54, R55, R62, R212). -/

namespace Sys2Proof.Machine

/-- Is the bundle a delay bundle of a taken branch (R54)? -/
def inDelay (a : CoreA) : Bool := a.branch.isSome

/-- Is the bundle one of the last three of an active loop's body (R54)? -/
def inLoopTail (a : CoreA) : Bool :=
  a.loops.any fun i =>
    let l := Tab.get default a.lc i
    decide (l.start ≤ a.pc) && decide (a.pc ≤ l.stop) && decide (l.stop ≤ a.pc + 2)

/-- A taken branch: its own bundle and two delay bundles, then the target (R54). -/
def takeBranch (target : Nat) (a : CoreA) : CoreA := { a with branch := some (target, 3) }

/-- A branch of slot C. Fields that an opcode's row neither uses nor marks zero are not checked (R43; DESIGN CHOICE, log 72). -/
def branchOp (k : Nat) (w : SlotWord) (eff : CoreA → CoreA) (s : State) : Out :=
  s.run (isCore k) fun s =>
    let a := (s.p.getCore k).a
    issueC k w (!inDelay a && !inLoopTail a) true (onA eff) s

def execBr (k : Nat) (w : SlotWord) (s : State) : Out := branchOp k w (takeBranch (SlotW.imm w 15 0)) s
/-- BRL: s63 takes the index of the branch bundle + 3, with latency 1. -/
def execBrl (k : Nat) (w : SlotWord) (s : State) : Out :=
  branchOp k w (fun a => launch 1 (.s 63 (BitVec.ofNat 64 (a.pc + 3))) (takeBranch (SlotW.imm w 15 0) a)) s
def execBrx (k : Nat) (w : SlotWord) (s : State) : Out :=
  branchOp k w (fun a => takeBranch (fld (rdS a (SlotW.sa w)) 15 0) a) s

/-- May a LOOP that executes start: its register is not active, and no active loop around it ends before it (R55)? -/
def loopOk (a : CoreA) (w : SlotWord) : Bool :=
  !a.loops.contains (SlotW.dst w) && a.loops.all fun i =>
    let l := Tab.get default a.lc i
    !(decide (l.start ≤ a.pc) && decide (a.pc ≤ l.stop) && decide (l.stop < SlotW.imm w 15 0))

/-- LOOP (R55): a count of 0 skips the body. -/
def loopEff (w : SlotWord) (a : CoreA) : CoreA :=
  let n := fld (rdS a (SlotW.sa w)) 31 0
  let a := { a with lc := Tab.set (SlotW.dst w) ⟨n, a.pc + 1, SlotW.imm w 15 0⟩ a.lc }
  if n = 0 then { a with skip := some (SlotW.imm w 15 0 + 1) } else { a with loops := SlotW.dst w :: a.loops }

/-- LOOP (R50, R55): its end is a matter of its form, checked whatever the predicate (DEDUCED, log 130). -/
def execLoop (k : Nat) (w : SlotWord) (s : State) : Out :=
  s.run (isCore k) fun s =>
    let a := (s.p.getCore k).a
    issueC k w (!inDelay a && decide (SlotW.dst w < 4) && decide (a.pc + 1 ≤ SlotW.imm w 15 0)) (loopOk a w)
      (onA (loopEff w)) s

def execWaitc (k : Nat) (w : SlotWord) (s : State) : Out :=
  s.run (isCore k) fun s =>
    issueC k w (decide (SlotW.dst w < 16)) true
      (onA fun a => waitFor (.counter (SlotW.dst w) (fld (rdS a (SlotW.sa w)) 31 0)) (SlotW.imm w 15 0) a) s

def execWaits (k : Nat) (w : SlotWord) (s : State) : Out :=
  s.run (isCore k) fun s => issueC k w true true (onA (waitFor .sends (SlotW.imm w 15 0))) s

/-- BAR: the barrier number is IMM[23:16]; not in a delay bundle (R50, R54). -/
def execBar (k : Nat) (w : SlotWord) (s : State) : Out :=
  s.run (isCore k) fun s =>
    issueC k w (!inDelay (s.p.getCore k).a) true (onA (waitFor (.barrier (SlotW.imm w 23 16)) (SlotW.imm w 15 0))) s

def execEvt (k : Nat) (w : SlotWord) (s : State) : Out :=
  s.run (isCore k) fun s => issueC k w true true (onA fun a => holdEv 0x0705 (some (rdS a (SlotW.sa w))) a) s

/-- HALT: issue stops; the program ends when the core's work has completed (HALT_COMPLETE). -/
def execHalt (k : Nat) (w : SlotWord) (s : State) : Out :=
  s.run (isCore k) fun s =>
    issueC k w true true (onA fun a => if a.run = .running ∨ a.run = .waiting then { a with run := .halting } else a) s

end Sys2Proof.Machine
end

