-- ==== Sys2Proof/Machine/CoreReset.lean ====
section
/-! DEFINITION. Core reset and program load (R37, R38, R73, R110, R119, R443). -/

namespace Sys2Proof.Machine

/-- Does a window stand CLOSED with nothing in flight (R119)? -/
def winIdle (x : Window) : Bool := decide (x.st = .closed) && decide (x.inflight = 0)
/-- Does every window of a core? -/
def winsIdle (a : CoreA) : Bool := a.win.all fun e => winIdle e.2

/-- The architectural part after a core reset: R37's reset values; DUTY and RUN_EPOCH stay as the image and the run gave
them (R38); counters and the fault record are kept (R443); every window closes with its generation advanced, `lost`
counting the ingress writes discarded per window (R119). -/
def resetA (lost : Nat → Nat) (a : CoreA) : CoreA :=
  { coreA0 with
    duty := a.duty, epoch := a.epoch, frec := a.frec, nextSid := a.nextSid, wctr := a.wctr, ra := a.ra, arith := a.arith,
    kv := a.kv, sctr := a.sctr,
    wnctr := { a.wnctr with late := a.wnctr.late + ((List.range 64).map lost).sum },
    win := (List.range 64).map fun n =>
      let x := Tab.get window0 a.win n
      (n, { window0 with gen := (x.gen + 1) % 65536, late := x.late + lost n }) }

/-- The window that a cell of the ingress queue names (R113). -/
def winCell (c : Cell) : Nat := fld c.pay 63 58

/-- Is a waiting part one that a core reset leaves: a general access or a check-engine read (R73, R110)? -/
def partStays (x : UPart) : Bool := match x.agent with | .general => true | .check => true | _ => false

/-- The accesses of a core's waiting parts that `f` selects, each once. -/
def waitingAccs (f : PartAct → Bool) (c : Core) : List Nat := ((c.parts.filter fun x => f x.act).map (·.acc)).eraseDups

/-- Writes to window `n` that a core's ingress holds: not yet checked, or accepted and not complete (R114, R119). -/
def ingressOf (c : Core) (n : Nat) : Nat :=
  (c.winq.filter fun w => decide (winCell w = n)).length
    + (waitingAccs (fun x => match x with | .win w _ _ => decide (w = n) | _ => false) c).length

/-- A core after a core reset, in the run state given (R73); its program store is kept, and the next write into it loads a program
(R37, R443). -/
def resetCore (run : RunState) (clear : Nat) (c : Core) : Core :=
  { c with
    a := { resetA (ingressOf c) c.a with run := run },
    snap := none, stores := [], last := none, parts := c.parts.filter partStays, granted := [], stallBanks := [],
    clearing := clear, noticed := [], winq := [], ran := c.loaded, recvs := [], halfRead := [], openSeen := false }

/-- Cycles of the scratchpad clear (R110). -/
def clearCycles : Nat := 2048

/-- Core reset of core `k`: its state, its sends' buffers and its stack requests; the clear begins (R73, R110, R443). -/
def coreReset (k : Nat) (p : Panel) : Panel :=
  let p := p.modCore k (resetCore .resetting clearCycles)
  let p := p.modRtr (siteOf k) fun r =>
    { r with sendBuf := r.sendBuf.filter fun e => decide (e.1 / 16 ≠ coreOf k) }
  let p := p.modStk (siteOf k) fun x => { x with reqs := x.reqs.filter fun q => decide (q.core ≠ coreOf k) }
  p.modRctr (siteOf k) fun c => { c with core := c.core + 1 }

/-- The core's state at a program load: R37's reset values; the counters that clear then (R75, R101, R122, R149); the
run-ahead counters and the windows stay as they are (R75, R119, R122). -/
def loadA (a : CoreA) : CoreA :=
  { coreA0 with
    duty := a.duty, epoch := a.epoch, nextSid := a.nextSid, ra := a.ra, win := a.win,
    run := if a.run = .faulted then .faulted else .stopped }

/-- Would a write to the program store load a program: the first, and the first after its program has run (R37)? -/
def loads (c : Core) : Bool := !c.loaded || c.ran

/-- The first write into a core's program store, and the first after its program has run, load a program (R37); a core that
is being loaded is left as it is. -/
def programLoad (k : Nat) (p : Panel) : Panel :=
  if ¬ loads (p.getCore k) then p
  else
    let p := p.modCore k fun c => { c with a := loadA c.a, loaded := true, ran := false, openSeen := false }
    let p := p.modStk (siteOf k) fun x => { x with rows := [], granted := (0, []) }
    p.modRtr (siteOf k) fun r => { r with ctr := default, octr := default }

end Sys2Proof.Machine
end

