-- ==== Sys2Proof/Machine/Matrix.lean ====
section
/-! DEFINITION. The matrix slot (R46, R47, R80-R85). -/

namespace Sys2Proof.Machine

/-- The swap bits as they will be when every swap in flight has landed (R47, R83). -/
def swapNow (a : CoreA) : Nat :=
  a.inflight.foldl (fun x f => match f.w with | .swap m => x ^^^ m | _ => x) a.swap

/-- Buffer 0 or 1 that is active in an array (R83). -/
def activeBuf (swap arr : Nat) : Nat := if swap.testBit arr then 1 else 0

/-- Rows r of an accumulator read as one number, 384 bytes a row (R83). -/
def accSpan (a : CoreA) (arr first n : Nat) : Nat :=
  unlanes 3072 ((List.range n).map fun i => Tab.get 0 a.acc (256 * arr + first + i))

/-- The bytes of a buffer of an array, under the B format (R83). -/
def bufBytes (a : CoreA) (fmtB arr buf : Nat) : Nat :=
  if fmtB = 0 then Tab.get 0 a.bbuf (2 * arr + buf) else accSpan a arr (128 + 64 * buf) 64

/-- The 96 elements and three scale codes of an A row (R80). -/
def aRow (fmtA x : Nat) : List Num × List (Option Nat) :=
  ((lanes (mxWidth fmtA) 96 x).map (mxElem fmtA),
    if mxScaled fmtA then (lanes 8 3 (x / 2 ^ (8 * mxData fmtA))).map some else [none, none, none])

/-- Column n of a B tile (R81). -/
def bCol (fmtB tile n : Nat) : List Num × List (Option Nat) :=
  ((lanes (mxWidth fmtB) 96 (tile / 2 ^ (8 * mxData fmtB * n))).map (mxElem fmtB),
    if mxScaled fmtB then (lanes 8 3 (tile / 2 ^ (8 * (96 * mxData fmtB + 3 * n)))).map some else [none, none, none])

/-- P0, P1 and P2 of one column (R84). -/
def colPartials (x y : List Num × List (Option Nat)) : List Num :=
  (List.range 3).map fun b =>
    blockPartial ((x.1.drop (32 * b)).take 32) ((y.1.drop (32 * b)).take 32) (x.2.getD b none) (y.2.getD b none)

/-- The partials of every column of a tile. -/
def tilePartials (fmtA fmtB row tile : Nat) : List (List Num) :=
  (List.range 96).map fun n => colPartials (aRow fmtA row) (bCol fmtB tile n)

/-- One rounding step of R85, and whether finite operands gave an infinity (R101). -/
def accStep (c : Nat) (p : Num) : Nat × Bool :=
  let r := addFP32 c p
  (r, (fmtFP32.ieee c).isFin && p.isFin && !(fmtFP32.ieee r).isFin)

/-- The three steps of R85 on one value: the result, and how many steps reached an infinity. -/
def accSteps (c : Nat) : List Num → Nat × Nat
  | [] => (c, 0)
  | p :: ps =>
    let r := accStep c p
    let t := accSteps r.1 ps
    (t.1, t.2 + if r.2 then 1 else 0)

/-- An accumulator row after an MMUL: its 96 values, the NaNs it holds, the steps that reached an infinity (R85, R101). -/
def accRow (old : Nat) (zero : Bool) (parts : List (List Num)) : Nat × Nat × Nat :=
  let out := List.zipWith (fun c ps => accSteps (if zero then 0 else c) ps) (lanes 32 96 old) parts
  (unlanes 32 (out.map (·.1)), (out.filter fun o => (fmtFP32.ieee o.1).isNan).length, (out.map (·.2)).sum)

/-- MFMT: codes 8 to 15 are illegal. -/
def execMfmt (k : Nat) (w : SlotWord) (s : State) : Out :=
  s.runP (isCore k) (issueP k .m w (decide (SlotW.imm w 7 4 ≤ 7) && decide (SlotW.imm w 3 0 ≤ 7)) true
    (onA fun a => launch 1 (.fmt (SlotW.imm w 7 4) (SlotW.imm w 3 0)) a))

/-- The accumulator row of an MMUL or the first row of an MCLR (R46). -/
def accFirst (a : CoreA) (w : SlotWord) : Nat := ((rdS a (SlotW.sa w)).toNat + SlotW.imm w 7 0) % 256

/-- Checks of an MMUL that executes: a row in the feed queue, the interval, a usable row (R46, R47, R53, R83). -/
def mmulOk (a : CoreA) (w : SlotWord) : Bool :=
  !a.feed.isEmpty && decide (a.lastM = 0 ∨ a.lastM - 1 + mmulInterval a.fmtA a.fmtB ≤ a.rc)
    && rowsOk a.fmtB [accFirst a w]

/-- The update that an MMUL puts in flight for one array: what its formats, buffer and A row give at issue (R47). -/
def mmulWrite (a : CoreA) (w : SlotWord) (arr : Nat) : RegWrite :=
  let swap := if SlotW.imm w 16 16 = 1 then a.swap ^^^ SlotW.imm w 15 8 else a.swap
  .acc arr (accFirst a w) (decide (SlotW.imm w 17 17 = 1))
    (tilePartials a.fmtA a.fmtB (a.feed.headD 0) (bufBytes a a.fmtB arr (activeBuf swap arr)))

/-- MMUL (R46, R85). SWP swaps the masked arrays in the same issue. -/
def execMmul (k : Nat) (w : SlotWord) (s : State) : Out :=
  s.runP (isCore k) fun p =>
    issueP k .m w true (mmulOk (p.getCore k).a w) (onA fun a =>
      let b := each (bitsSet 8 (SlotW.imm w 15 8)) (fun arr => launch 12 (mmulWrite a w arr)) a
      let b := if SlotW.imm w 16 16 = 1 then launch 1 (.swap (SlotW.imm w 15 8)) b else b
      { b with feed := b.feed.drop 1, lastM := b.rc + 1 }) p

def execMswap (k : Nat) (w : SlotWord) (s : State) : Out :=
  s.runP (isCore k) (issueP k .m w true true (onA fun a => launch 1 (.swap (SlotW.imm w 15 8)) a))

/-- The cycle at whose end an MCLR clears a row: its own, or that of the latest MMUL before it on the row (R46). -/
def clrDue (a : CoreA) (arr row : Nat) : Nat :=
  a.inflight.foldl (fun n f => match f.w with | .acc i r _ _ => if i = arr ∧ r = row then max n f.due else n | _ => n)
    (a.rc + 1)

/-- The rows of an MCLR. -/
def clrRows (a : CoreA) (w : SlotWord) : List Nat := accRows (accFirst a w) (SlotW.imm w 23 16 + 1)

def execMclr (k : Nat) (w : SlotWord) (s : State) : Out :=
  s.runP (isCore k) fun p =>
    issueP k .m w true (rowsOk (p.getCore k).a.fmtB (clrRows (p.getCore k).a w)) (onA fun a =>
      { a with
        inflight := a.inflight ++ (bitsSet 8 (SlotW.imm w 15 8)).flatMap fun arr =>
          (clrRows a w).map fun r => ⟨clrDue a arr r, .clr arr r⟩ }) p

end Sys2Proof.Machine
end

