-- ==== Sys2Proof/Machine/StreamOps.lean ====
section
/-! DEFINITION. The stream slots L0 and L1, and the delivery of stream units (R48, R57-R60, R69, R70, R104). -/

namespace Sys2Proof.Machine

/-- Take a free value where a physical fault decides what is read (log 4). -/
def bumpFree (b : Bool) (s : State) : State := if b then { s with p := { s.p with free := s.p.free + 1 } } else s

/-- The bank cycle of a stream's next unit (R104). -/
def bankCycle (st : Stream) : Nat :=
  st.start + (if Dsc.kind st.desc = 4 then 6 else 0) + st.captured * (Dsc.pace st.desc + 1)
/-- Does a stream of kinds 1 to 4 make its next scratchpad access in run cycle `rc`, and where (R57, R104)? -/
def capturesAt (rc : Nat) (st : Stream) : Bool :=
  !st.dead && decide (1 ≤ Dsc.kind st.desc ∧ Dsc.kind st.desc ≤ 4) && decide (st.captured < Dsc.units st.desc)
    && decide (bankCycle st = rc)
def captureAddr (st : Stream) : Nat :=
  (((if Dsc.kind st.desc = 4 then st.dst else st.src : Nat) : Int) + Dsc.off st.desc st.captured).toNat

/-- One accumulator row across the masked arrays, 384 bytes each in ascending order (R57, kind 4). -/
def drainRow (a : CoreA) (mask row : Nat) : Nat :=
  unlanes 3072 ((bitsSet 8 mask).map fun arr => Tab.get 0 a.acc (256 * arr + row))

/-- The write of a kind-4 stream's next unit, in its bank cycle (R57, R104). Its row is what the accumulators hold then, also
where the drain was issued sooner than 12 cc after an MMUL to the row (DESIGN CHOICE, log 49). -/
def drainW (k : Nat) (a : CoreA) (m : Mem) (st : Stream) : CycW :=
  let ga := gaScratch k (captureAddr st)
  let n := Dsc.unit st.desc
  ⟨rankStream st.eng st.sid, ga, n, drainRow a (Dsc.mask st.desc) ((st.src + st.captured) % 256), m.num ga n⟩

/-- A receive write in its bank cycle (R61, R105). -/
def recvW (k : Nat) (m : Mem) (x : RecvDue) : CycW :=
  let ga := gaScratch k x.addr
  ⟨rankRecv x.track, ga, x.data.length, leNat x.data, m.num ga x.data.length⟩

/-- The receive writes of the run cycle. -/
def dueRecvs (c : Core) : List RecvDue := c.recvs.filter fun x => decide (x.due ≤ c.a.rc)

/-- Writes of this run cycle that come about at its end: kind-4 units and receive writes (R104, R105). -/
def comingW (k : Nat) (c : Core) (m : Mem) : List CycW :=
  ((c.a.streams.filter fun st => decide (Dsc.kind st.desc = 4) && capturesAt c.a.rc st).map (drainW k c.a m))
    ++ (dueRecvs c).map (recvW k m)

/-- The bytes that a scheduled read of rank `rk` delivers; those of uncorrectable words are the fault's (R105, R109). -/
def readAs (bad : List Nat) (k : Nat) (rk : Rank) (x n : Nat) (s : State) : Nat :=
  let c := s.p.getCore k
  let m := memBefore rk { c with stores := comingW k c s.mem ++ c.stores } s.mem
  asFaulted bad x n (Config.freeNat s.p.free % 256 ^ n) (m.num (gaScratch k x) n)

/-- LDV, LDQ and LDESC: `n` bytes at an `n`-aligned address to a register, seven cycles later (R48, R104). -/
def loadOp (k : Nat) (u : LUnit) (w : SlotWord) (ecc : Ecc) (n : Nat) (static : Bool) (mk : Nat → RegWrite) (s : State) : Out :=
  s.run (isCore k) fun s =>
    let x := lAddr (s.p.getCore k).a w
    let e := eccOn (touches x n) ecc
    let raw := readAs e.bad k (rankL u) x n s
    bumpFree (!e.bad.isEmpty)
      (issueS k (slotL u) w static (lOk x n n)
        (keepMem (onA fun a => eccIssue e (slotL u) (bundleBanks (banksOf x n) (launch 7 (mk raw) a)))) s)

/-- STV and STQ: a register to an aligned address (R48, R60). -/
def storeOp (k : Nat) (u : LUnit) (w : SlotWord) (n : Nat) (static : Bool) (val : CoreA → Nat) (s : State) : Out :=
  s.run (isCore k) fun s =>
    let a := (s.p.getCore k).a
    let x := lAddr a w
    issueS k (slotL u) w static (lOk x n n)
      (fun c m => schedWrite (rankL u) (gaScratch k x) n (val a) (onA (bundleBanks (banksOf x n)) c) m) s

def execLdv (k : Nat) (u : LUnit) (w : SlotWord) (ecc : Ecc) (s : State) : Out :=
  loadOp k u w ecc 256 true (fun x => .v (SlotW.dst w) (BitVec.ofNat 2048 x)) s
def execStv (k : Nat) (u : LUnit) (w : SlotWord) (s : State) : Out :=
  storeOp k u w 256 true (fun a => (rdV a (SlotW.sc w)).toNat) s
def execLdq (k : Nat) (u : LUnit) (w : SlotWord) (ecc : Ecc) (s : State) : Out :=
  loadOp k u w ecc 32 (decide (SlotW.dst w < 8)) (fun x => .q (SlotW.dst w) (BitVec.ofNat 256 x)) s
def execStq (k : Nat) (u : LUnit) (w : SlotWord) (s : State) : Out :=
  storeOp k u w 32 (decide (SlotW.sc w < 8)) (fun a => (rdQ a (SlotW.sc w)).toNat) s
def execLdesc (k : Nat) (u : LUnit) (w : SlotWord) (ecc : Ecc) (s : State) : Out :=
  loadOp k u w ecc 32 (decide (SlotW.dst w < 32)) (fun x => .d (SlotW.dst w) (BitVec.ofNat 256 x)) s

/-- Is [lo, hi) of a site's stack under a key range of the die's partition (R144)? -/
def stackOwned (p : Panel) (site lo hi : Nat) : Bool :=
  let unit := 256 * rangeUnit
  (p.getStk site).ranges.any fun r => decide (r.base * unit ≤ lo) && decide (hi ≤ r.limit * unit) && decide (p.partOf site = some r.part)

/-- A stack address of every unit of a descriptor: whole row words, and either physical within the core's region, or of
KV form, whose plane and page no unit leaves (R59, R145). -/
def stackUnits (p : Panel) (k : Nat) (d : Wide) (base : Nat) : Bool :=
  let c := p.getCore k
  Dsc.rowAligned d base &&
    (if base < 2 ^ 36 then
       Dsc.within d base c.base.toNat (c.limit.toNat + 1)
         && stackOwned p (siteOf k) ((base : Int) + Dsc.lowOff d).toNat ((base : Int) + Dsc.highOff d + Dsc.unit d).toNat
     else decide (nfld base 63 56 = 0x80) && decide (nfld base 47 32 = 0)
       && Dsc.within d (base % 2 ^ 32) 0 (2 ^ 32))

/-- Streams that run on an engine (R58). -/
def onEngine (a : CoreA) (u : LUnit) : Nat := (a.streams.filter fun st => decide (st.eng = lNum u)).length

def runSrc (a : CoreA) (w : SlotWord) (d : Wide) : Nat := (Dsc.src d + (rdS a (SlotW.sa w)).toNat) % 2 ^ 64
def runDst (a : CoreA) (w : SlotWord) (d : Wide) : Nat := (Dsc.dst d + (rdS a (SlotW.sb w)).toNat) % 2 ^ 64

/-- Is a descriptor legal at SRUN (R57, R58, R82, R83)? -/
def srunOk (p : Panel) (k : Nat) (u : LUnit) (w : SlotWord) : Bool :=
  let a := (p.getCore k).a
  let d := rdD a (SlotW.dst w)
  let src := runSrc a w d
  let dst := runDst a w d
  decide (onEngine a u < 4) && Dsc.zeros d && Dsc.strides d &&
    (match Dsc.kind d with
     | 0 => stackUnits p k d src && Dsc.within d dst 0 scratchBytes
     | 1 => Dsc.within d src 0 scratchBytes && stackUnits p k d dst
     | 2 => Dsc.within d src 0 scratchBytes && decide (Dsc.unit d % mxRow a.fmtA = 0)
     | 3 => Dsc.within d src 0 scratchBytes && decide (Dsc.bytes d = mxPanel a.fmtB (popMask (Dsc.mask d)))
     | 4 => Dsc.within d dst 0 scratchBytes && decide (Dsc.unitg d + 1 = 6 * popMask (Dsc.mask d))
              && rowsOk a.fmtB (accRows (src % 256) (Dsc.units d))
     | _ => false)

/-- The stream that an SRUN or SRA starts. -/
def newStream (a : CoreA) (u : LUnit) (d : Wide) (src dst slot : Nat) : Stream :=
  { sid := a.nextSid, eng := lNum u, desc := d, src := src, dst := dst, start := a.rc,
    bfmt := if Dsc.kind d = 2 then a.fmtA else a.fmtB, slot := slot, captured := 0, delivered := 0, granted := 0, ahead := [],
    base := [], landed := 0, bufs := [], pc := a.pc, dead := false }

/-- SRUN (R58). -/
def execSrun (k : Nat) (u : LUnit) (w : SlotWord) (s : State) : Out :=
  s.run (isCore k) fun s =>
    issueS k (slotL u) w (decide (SlotW.dst w < 32)) (srunOk s.p k u w)
      (keepMem (onA fun a =>
        let d := rdD a (SlotW.dst w)
        { a with streams := a.streams ++ [newStream a u d (runSrc a w d) (runDst a w d) 0], nextSid := a.nextSid + 1 })) s

/-- Checks of an SRA that executes: there are slots, KIND and the zero fields are right, the engine has room (R58, R69,
R70). -/
def sraOk (c : Core) (u : LUnit) (w : SlotWord) : Bool :=
  let d := rdD c.a (SlotW.sc w)
  decide (0 < c.stg) && decide (Dsc.kind d = 5) && Dsc.zeros d && decide (onEngine c.a u < 4)

/-- Does an SRA's read fit its region, alignment and slot (R70)? -/
def sraFits (p : Panel) (k : Nat) (d : Wide) (src : Nat) : Bool :=
  decide (Dsc.bytes d ≤ (p.getCore k).slotBytes) && Dsc.strides d && stackUnits p k d src

/-- A slot's earlier contents are discarded; data never read is counted (R70, R75). -/
def dropSlot (i : Nat) (a : CoreA) : CoreA :=
  let g := Tab.get stage0 a.stage i
  let lost := (decide (g.st = .pending) || decide (g.st = .full)) && !g.read
  { a with
    stage := Tab.set i stage0 a.stage,
    streams := a.streams.filter fun st => !(decide (Dsc.kind st.desc = 5) && decide (st.sid = g.sid) && decide (g.st = .pending)),
    ra := { a.ra with dropped := a.ra.dropped + if lost then 1 else 0 } }

/-- SRA (R70): the slot is PENDING, or POISON where the read breaks its limits. Its units stand one after another in the
slot. -/
def sraEff (p : Panel) (k : Nat) (u : LUnit) (w : SlotWord) (c : Core) : Core :=
  let d := rdD c.a (SlotW.sc w)
  let src := runSrc c.a w d
  let i := SlotW.dst w
  let a := dropSlot i c.a
  let a := { a with ra := { a.ra with issued := a.ra.issued + 1 }, nextSid := a.nextSid + 1 }
  if sraFits p k d src then
    { c with
      a := { a with
        stage := Tab.set i ⟨.pending, c.a.nextSid, false, 0⟩ a.stage,
        streams := a.streams ++ [newStream c.a u d src (c.stgBase + i * c.slotBytes) i] } }
  else
    { c with
      a := { a with
        stage := Tab.set i ⟨.poison, c.a.nextSid, false, 0⟩ a.stage,
        ra := { a.ra with poisoned := a.ra.poisoned + 1 } } }

def execSra (k : Nat) (u : LUnit) (w : SlotWord) (s : State) : Out :=
  s.run (isCore k) fun s =>
    issueS k (slotL u) w (decide (SlotW.dst w < 32) && decide (SlotW.sc w < 32)) (sraOk (s.p.getCore k) u w)
      (keepMem (sraEff s.p k u w)) s

/-- SDROP: the slots named leave one cycle later (R48, R70). -/
def execSdrop (k : Nat) (u : LUnit) (w : SlotWord) (s : State) : Out :=
  s.run (isCore k) fun s =>
    issueS k (slotL u) w true true
      (keepMem (onA fun a => launch 1 (.drop ((rdS a (SlotW.sa w)).toNat % 2 ^ 32)) a)) s

/-- Where an LDS reads: offset 256 * IMM[15:0] in slot SC[4:0] (R48). -/
def ldsAddr (c : Core) (w : SlotWord) : Nat := c.stgBase + SlotW.sc w * c.slotBytes + 256 * SlotW.imm w 15 0

/-- Has the delivery cycle of a PENDING slot come: every row word of its read has been granted, and the last is due (R58,
R67, R70)? -/
def slotDue (p : Panel) (k : Nat) (g : Stage) : Bool :=
  let a := (p.getCore k).a
  let stk := p.getStk (siteOf k)
  a.streams.any (fun st => decide (st.sid = g.sid) && decide (Dsc.units st.desc * (Dsc.unit st.desc / 256) ≤ st.granted))
    && stk.reqs.all fun r => !(decide (r.core = coreOf k) && decide (r.sid = g.sid))
      || decide (r.rc + (if stk.fast then 88 else 96) ≤ a.rc)

/-- What an LDS does on its slot (R70): it reads a FULL one, and faults the core on any other. -/
def ldsEff (u : LUnit) (w : SlotWord) (e : Ecc) (x raw : Nat) (a : CoreA) : CoreA :=
  let g := Tab.get stage0 a.stage (SlotW.sc w)
  if g.st = .full ∧ g.ready ≤ a.rc then
    eccIssue e (slotL u) (bundleBanks (banksOf x 256)
      (launch 7 (.v (SlotW.dst w) (BitVec.ofNat 2048 raw))
        { a with stage := Tab.set (SlotW.sc w) { g with read := true } a.stage, ra := { a.ra with served := a.ra.served + 1 } }))
  else issueFault 0x0702 (slotL u) a

/-- LDS (R70): illegal without slots or beyond the slot. On a PENDING slot whose delivery cycle has come it is handled as a
stack read: the die stalls until the data is released, so the slot does not issue yet (R67). -/
def execLds (k : Nat) (u : LUnit) (w : SlotWord) (ecc : Ecc) (s : State) : Out :=
  s.run (isCore k) fun s =>
    let c := s.p.getCore k
    let x := ldsAddr c w
    let g := Tab.get stage0 c.a.stage (SlotW.sc w)
    let e := eccOn (touches x 256) ecc
    if g.st = .pending ∧ slotDue s.p k g = true ∧ executes c.a w = true then s
    else
      bumpFree (!e.bad.isEmpty)
        (issueS k (slotL u) w (decide (SlotW.sc w < 32))
          (decide (0 < c.stg) && decide (256 * SlotW.imm w 15 0 + 256 ≤ c.slotBytes))
          (keepMem (onA (ldsEff u w e x (readAs e.bad k (rankL u) x 256 s)))) s)

/-- The swap bits at the end of the cycle before a delivery cycle (R47). -/
def swapAt (a : CoreA) (d : Nat) : Nat :=
  a.inflight.foldl (fun x f => match f.w with | .swap m => if f.due < d then x ^^^ m else x | _ => x) a.swap

/-- Put `len` bytes at byte `off` of the shadow buffer of an array (R83). -/
def putShadow (fmtB swap arr off len v : Nat) (a : CoreA) : CoreA :=
  let buf := 1 - activeBuf swap arr
  if fmtB = 0 then { a with bbuf := Tab.set (2 * arr + buf) (splice (Tab.get 0 a.bbuf (2 * arr + buf)) off len v) a.bbuf }
  else
    let first := 128 + 64 * buf
    let rows := lanes 3072 64 (splice (accSpan a arr first 64) off len v)
    { a with acc := (List.zip (List.range 64) rows).foldl (fun t r => Tab.set (256 * arr + first + r.1) r.2 t) a.acc }

/-- A unit of a panel image: the bytes that fall in each masked array's tile go to its shadow buffer (R82). -/
def placeUnit (st : Stream) (d v : Nat) (a : CoreA) : CoreA :=
  let arrs := bitsSet 8 (Dsc.mask st.desc)
  let t := mxTile st.bfmt
  let o := st.delivered * Dsc.unit st.desc
  each (List.zip (List.range arrs.length) arrs) (fun ja a =>
    let lo := max o (ja.1 * t)
    let hi := min (o + Dsc.unit st.desc) ((ja.1 + 1) * t)
    if lo < hi then putShadow st.bfmt (swapAt a d) ja.2 (lo - ja.1 * t) (hi - lo) (v / 256 ^ (lo - o)) a else a) a

/-- The rows of a kind-2 unit enter the feed queue; whether there was room is known at the end of the cycle, after the pop of
an MMUL that issues in it (R47). -/
def feedRows (row sid slot pc n v : Nat) (a : CoreA) : CoreA :=
  { a with
    feed := a.feed ++ lanes (8 * row) n v, feedLog := a.feedLog ++ List.replicate n (sid, slot, pc) }

/-- Rows that the feed queue has no room for at the end of a cycle are not entered: their streams end and the core faults
(R47, R72). -/
def trimFeed (k : Nat) (p : Panel) : Panel :=
  let a := (p.getCore k).a
  let gone := a.feedLog.drop (a.feedLog.length - (a.feed.length - 16))
  let p := p.modA k fun a => { a with feed := a.feed.take 16, feedLog := [] }
  each (gone.eraseDups) (fun e p =>
    coreFault k 0x070F e.2.1 e.2.2 (p.modA k fun a => { a with streams := a.streams.filter fun st => decide (st.sid ≠ e.1) })) p

/-- The cycle from which the next unit of a stream is delivered (R58); a kind-1 unit is presented to the stack port. -/
def unitCycle (st : Stream) : Nat :=
  st.start + (if Dsc.kind st.desc = 1 then 4 else 7) + st.delivered * (Dsc.pace st.desc + 1)

def putStream (st : Stream) (a : CoreA) : CoreA :=
  { a with streams := a.streams.map fun x => if x.sid = st.sid then st else x }
def endStream (sid : Nat) (a : CoreA) : CoreA := { a with streams := a.streams.filter fun x => !decide (x.sid = sid) }
/-- The stream after a unit has been delivered; kinds 2 to 4 end with their last unit. -/
def stepStream (st : Stream) (a : CoreA) : CoreA :=
  let t := { st with delivered := st.delivered + 1, bufs := if Dsc.kind st.desc = 1 then st.bufs else st.bufs.drop 1 }
  if Dsc.kind st.desc ≠ 1 ∧ t.delivered = Dsc.units st.desc then endStream st.sid a else putStream t a

/-- A captured unit of kinds 1 to 4 reaches its destination (R47, R58, R104). -/
def deliverUnit (k : Nat) (st : Stream) (ecc : Ecc) (s : State) : State :=
  let n := Dsc.unit st.desc
  let x := ((st.src : Int) + Dsc.off st.desc st.delivered).toNat
  let e := if Dsc.kind st.desc ≤ 3 then eccOn (touches x n) ecc else default
  let bad := !e.bad.isEmpty
  let i := if Dsc.kind st.desc = 1 then st.delivered else 0
  let v := asFaulted e.bad x n (Config.freeNat s.p.free % 256 ^ n) (st.bufs.getD i 0)
  let st := { st with bufs := st.bufs.set i v, dead := bad }
  let slot := 4 + st.eng
  let fin (p : Panel) : Panel :=
    let p := eccRead k e slot st.pc (p.modA k (stepStream st))
    if bad ∧ Dsc.kind st.desc ≠ 1 then p.modA k (endStream st.sid) else p
  match Dsc.kind st.desc with
  | 2 =>
    bumpFree bad { s with
      p := fin (s.p.modA k (feedRows (mxRow st.bfmt) st.sid slot st.pc (n / mxRow st.bfmt) v)) }
  | 3 => bumpFree bad { s with p := fin (s.p.modA k (placeUnit st (unitCycle st) v)) }
  | _ => bumpFree bad { s with p := fin s.p }

/-- STREAM_UNIT_DELIVERY (R58) of a stream's oldest captured unit, once its cycle has come. -/
def execStreamUnitDelivery (k sid : Nat) (ecc : Ecc) (s : State) : Out :=
  s.run (isCore k) fun s =>
    let a := (s.p.getCore k).a
    match a.streams.find? fun st => decide (st.sid = sid) with
    | none => s
    | some st =>
      if ¬ st.dead ∧ st.delivered < st.captured ∧ unitCycle st ≤ a.rc then deliverUnit k st ecc s else s

/-- A scheduled write at the end of a run cycle, or from a stack (R104, R105): its bytes and its banks. -/
def putSched (k : Nat) (w : CycW) (off : Nat) (s : State) : State :=
  let r := schedWrite w.rk w.ga w.n w.v (s.p.getCore k) s.mem
  { s with mem := r.2, p := schedBanks k (banksOf off w.n) (s.p.setCore k r.1) }

/-- What a stream does in the cycle that ends, where its next unit's bank cycle is this one: kinds 1 to 3 take their source
as their rank sees it, kind 4 writes its row (R104, R105). -/
def captureStream (k : Nat) (st : Stream) (s : State) : State :=
  let c := s.p.getCore k
  let n := Dsc.unit st.desc
  if ¬ capturesAt c.a.rc st then s
  else if Dsc.kind st.desc = 4 then
    let s := putSched k (drainW k c.a s.mem st) (captureAddr st) s
    s.onP fun p => p.modA k (putStream { st with captured := st.captured + 1 })
  else
    let x := captureAddr st
    let v := (memBefore (rankStream st.eng st.sid) c s.mem).num (gaScratch k x) n
    s.onP fun p => schedBanks k (banksOf x n)
      (p.modA k (putStream { st with captured := st.captured + 1, bufs := st.bufs ++ [v] }))

/-- All captures of a core at the end of a cycle: L0's streams before L1's, each slot's in SRUN order (R105). -/
def captureAll (k : Nat) (s : State) : State :=
  let ss := (s.p.getCore k).a.streams
  each ((ss.filter fun st => decide (st.eng = 0)) ++ ss.filter fun st => decide (st.eng = 1)) (captureStream k) s

end Sys2Proof.Machine
end

