-- ==== Sys2Proof/Machine/CoreEvents.lean ====
section
/-! DEFINITION. What comes about in a core after issue: results landing, waits ending, a program ending, the scratchpad
clear, and writes to its special registers and program store (R50-R52, R56, R62, R63, R110, R563). -/

namespace Sys2Proof.Machine

/-- A window opens (R112): its generation stays. -/
def openWin (n : Nat) (d : Wide) (a : CoreA) : CoreA :=
  { a with win := Tab.upd window0 n (fun x => { x with st := .opened, desc := d, done := 0 }) a.win }

/-- Count an arrival counter up (R61, R115, R116). -/
def bumpC (c : Nat) (a : CoreA) : CoreA := wrC c (rdC a c + 1) a

/-- Phase 1 of a close (R116): CLOSING, the generation advanced; on a window that is CLOSING or CLOSED only the counter
is left to do. -/
def closeWin (n : Nat) (ctr : Option Nat) (a : CoreA) : CoreA :=
  let x := Tab.get window0 a.win n
  match x.st with
  | .opened => { a with win := Tab.set n { x with st := .closing, gen := (x.gen + 1) % 65536, notify := ctr.toList } a.win }
  | .closing => { a with win := Tab.set n { x with notify := x.notify ++ ctr.toList } a.win }
  | .closed => match ctr with
    | some c => bumpC c a
    | none => a

/-- A write lands. -/
def applyWrite (x : RegWrite) (a : CoreA) : CoreA :=
  match x with
  | .s n v => wrS n v a
  | .p n b => wrP n b a
  | .v n v => wrV n v a
  | .vlanes n lo w v => wrV n (BitVec.ofNat 2048 (splice (rdV a n).toNat lo w (v.toNat / 256 ^ lo))) a
  | .q n v => wrQ n v a
  | .d n v => wrD n v a
  | .c n => wrC n 0 a
  | .spec n v => wrSpec n v a
  | .exf => setExf a
  | .fmt f g => { a with fmtA := f, fmtB := g }
  | .drop m => each (bitsSet 32 m) dropSlot a
  | .swap m => { a with swap := a.swap ^^^ m }
  | .acc arr row z parts =>
    let r := accRow (Tab.get 0 a.acc (256 * arr + row)) z parts
    { a with
      acc := Tab.set (256 * arr + row) r.1 a.acc,
      arith := { a.arith with nans := a.arith.nans + r.2.1, infs := a.arith.infs + r.2.2 } }
  | .clr arr row => { a with acc := Tab.set (256 * arr + row) 0 a.acc }
  | .wopen n d => openWin n d a
  | .wclose n c => closeWin n c a

/-- The register that a write names, for the collisions of R52; s0 and p0 discard theirs. -/
def writeKey : RegWrite → Option Nat
  | .s n _ => if n = 0 then none else some n
  | .p n _ => if n = 0 then none else some (100 + n)
  | .v n _ => some (200 + n)
  | .vlanes n _ _ _ => some (200 + n)
  | .q n _ => some (300 + n)
  | .d n _ => some (400 + n)
  | .c n => some (500 + n)
  | .spec n _ => some (600 + n)
  | .exf => some 607
  | .fmt _ _ => some 700
  | _ => none

/-- Is it a register write, which a wait waits for (R62)? -/
def isRegWrite : RegWrite → Bool
  | .s _ _ => true | .p _ _ => true | .v _ _ => true | .vlanes _ _ _ _ => true | .q _ _ => true | .d _ _ => true | .c _ => true
  | .spec _ _ => true | .exf => true | .fmt _ _ => true | _ => false

/-- Put a write among others in the order they land: by cycle, and within a cycle as they were issued (R52). -/
def insertDue (f : InFlight) : List InFlight → List InFlight
  | [] => [f]
  | g :: t => if f.due ≤ g.due then f :: g :: t else g :: insertDue f t
def sortDue : List InFlight → List InFlight
  | [] => []
  | f :: t => insertDue f (sortDue t)

/-- Collisions among writes that land: each that finds an earlier one to its register in its cycle (R52). -/
def collisions : List InFlight → Nat
  | [] => 0
  | f :: t =>
    collisions t + (if (writeKey f.w).isSome ∧ t.any fun g => decide (g.due = f.due) && decide (writeKey g.w = writeKey f.w)
      then 1 else 0)

/-- The last cycle whose writes have landed: this one, once the core's bundle of the cycle has issued or none will (R51). -/
def landed (c : Core) (f : InFlight) : Bool :=
  if c.last.isSome ∨ (c.a.run = .running ∧ c.a.issued ≤ c.a.rc) then decide (f.due < c.a.rc) else decide (f.due ≤ c.a.rc)

/-- RESULT_WRITEBACK: every write whose cycle has ended lands, in order; collisions are counted and raised (R51, R52). -/
def execResultWriteback (k : Nat) (s : State) : Out :=
  s.runP (isCore k) fun p =>
    let c := p.getCore k
    let due := sortDue (c.a.inflight.filter (landed c))
    let n := collisions due
    let a := { c.a with inflight := c.a.inflight.filter fun f => !landed c f }
    let a := due.foldl (fun a f => applyWrite f.w a) a
    let p := p.setCore k { c with a := { a with wctr := { a.wctr with collisions := a.wctr.collisions + n } } }
    if 0 < n then coreRaise k 0x0703 none p else p

/-- Does the condition of a wait hold (R62)? A barrier's release ends its wait at the step start (R215). -/
def waitMet (a : CoreA) : WaitKind → Bool
  | .counter c v => decide (v ≤ (rdC a c).toNat)
  | .sends => a.posts.all fun q => !q.send
  | .barrier _ => false
  | .post _ _ _ _ => decide (a.posts.length < 32)

/-- A wait's length, counted as wait and, beyond what was expected, as slip (R63). -/
def endWait (w : Wait) (a : CoreA) : CoreA :=
  let n := a.rc - w.start
  { a with wctr := { a.wctr with wait := a.wctr.wait + n, slip := a.wctr.slip + (n - w.expect) } }

/-- A post that has waited takes its entry; one that has become illegal faults the core (R61, R158). -/
def takePost (k : Nat) (w : Wait) (p : Panel) : Panel :=
  match w.kind with
  | .post send d add pc =>
    if postOk p k send d add then p.modA k fun a => { a with posts := a.posts ++ [newPost p k send d add pc] }
    else coreFault k 0x0701 (slotRank .n) pc p
  | _ => p

/-- WAIT_END: every condition holds and no register write is in flight; the next bundle issues in the following cycle
(R62). -/
def execWaitEnd (k : Nat) (s : State) : Out :=
  s.runP (isCore k) fun p =>
    let a := (p.getCore k).a
    if ¬ a.waits.isEmpty ∧ (a.run = .waiting ∨ a.run = .halting) ∧ a.waits.all (fun w => waitMet a w.kind) = true
        ∧ a.inflight.all (fun f => !isRegWrite f.w) = true then
      let p := p.modA k fun a =>
        let a := each a.waits endWait a
        { a with waits := [], run := if a.run = .waiting then .running else a.run, issued := a.rc + 1 }
      each a.waits (takePost k) p
    else p

/-- Has a core any row word granted and not yet landed? -/
def rowsPending (p : Panel) (k : Nat) : Bool := (p.getStk (siteOf k)).reqs.any fun q => decide (q.core = coreOf k)

/-- HALT_COMPLETE: every stream, send and write of the core has completed (R50). -/
def execHaltComplete (k : Nat) (s : State) : Out :=
  s.runP (isCore k) fun p =>
    let a := (p.getCore k).a
    if a.run = .halting ∧ a.waits.isEmpty ∧ a.streams.isEmpty ∧ a.inflight.isEmpty
        ∧ a.posts.all (fun q => !q.send) = true ∧ rowsPending p k = false then
      checkEndedAt (siteOf k) (p.modA k fun a => { a with run := .halted })
    else p

/-- Does a core count as stopped (R74)? -/
def coreStopped (a : CoreA) : Bool := decide (a.run = .stopped) || decide (a.run = .halted) || decide (a.run = .faulted)

/-- SCRATCHPAD_CLEAR_DONE: the 2,048 cycles have passed; every byte is zero and CSTAT reads stopped (R74, R110). Where the
core reset is part of a die's, CSTAT reads reset until that completes (R445). -/
def execScratchpadClearDone (k : Nat) (s : State) : Out :=
  s.run (isCore k) fun s =>
    let c := s.p.getCore k
    if c.a.run = .resetting ∧ c.clearing = 0 ∧ Tab.find? s.p.rst (siteOf k) = none then
      { s with
        mem := s.mem.clear (gaScratch k 0) (gaScratch k scratchBytes),
        p := s.p.modA k fun a => { a with run := .stopped } }
    else s

/-- Does a core count as stopped in the panel: also one that a freeze has stopped (R74, R222)? -/
def coreIdle (p : Panel) (k : Nat) : Bool :=
  coreStopped (p.getCore k).a || ((p.getDie (siteOf k)).frozen && decide ((p.getCore k).a.run ≠ .resetting))

/-- An access that R30 does not perform: counted and raised. -/
def gaRefuse (site : Nat) (p : Panel) : Panel :=
  raise 0x0D02 (if isDie site then site else 0xFF) (if isDie site then site else keyPanel) none
    { p with gaRefusals := p.gaRefusals + 1 }

/-- Is a site a die that still carries service: neither ABSENT, FAILED nor FENCED (R30, R173)? -/
def siteReachable (p : Panel) (site : Nat) : Bool :=
  isDie site && (match p.ust site with | .absent => false | .failed => false | .fenced => false | _ => true)

/-- May a site be accessed: is it reachable and not SUSPECT either (R30, R496)? -/
def siteOpen (p : Panel) (site : Nat) : Bool := siteReachable p site && decide (p.ust site ≠ .suspect)

/-- A write to a special register through control space (R563). -/
def writeSpecial (k n : Nat) (x : Word) (p : Panel) : Panel :=
  if siteOpen p (siteOf k) && coreIdle p k && decide (1 ≤ n ∧ n ≤ 7) && (decide (n ≠ 6) || decide (x.toNat ≤ 2))
      && (decide (n ≠ 7) || decide (x.toNat ≤ 1)) then p.modA k (wrSpec n x)
  else gaRefuse (siteOf k) p

def execControlSpaceSpecialWrite (k n : Nat) (x : Word) (s : State) : Out := s.runP (isCore k) (writeSpecial k n x)

/-- May a core's program store be written now: the core is stopped (R56), and a write that loads a program finds every window
CLOSED with nothing in flight (R119)? One that does not is refused as busy too (DESIGN CHOICE, log 50). -/
def programFree (p : Panel) (k : Nat) : Bool := coreIdle p k && (!loads (p.getCore k) || winsIdle (p.getCore k).a)

/-- May bytes [off, off + n) of a program store be written now (R30, R56)? -/
def programWritable (p : Panel) (k off n : Nat) : Bool :=
  siteOpen p (siteOf k) && decide (off + n ≤ programBytes) && programFree p k

/-- Write bytes of a program store that may be written: the first of a program loads it (R37, R56). -/
def putProgram (k off : Nat) (data : List Byte) (s : State) : State :=
  { s with mem := s.mem.writeL (gaProgram k off) data, p := programLoad k s.p }

/-- PROGRAM_STORE_WRITE: performed only while the core is stopped; refused as busy otherwise (R56), under R30 where the
site or the range is no place to write. -/
def execProgramStoreWrite (k off : Nat) (data : List Byte) (s : State) : Out :=
  s.run (isCore k) fun s =>
    if programWritable s.p k off data.length then putProgram k off data s
    else if siteOpen s.p (siteOf k) && decide (off + data.length ≤ programBytes) then s
    else { s with p := gaRefuse (siteOf k) s.p }

end Sys2Proof.Machine
end

