-- ==== Sys2Proof/Machine/Scratch.lean ====
section
/-! DEFINITION. Unscheduled scratchpad accesses and windows (R102, R103, R106-R109, R113-R119), and the responses of a
service agent (R174). -/

namespace Sys2Proof.Machine

/-- The lines of an access: address and length of each part (R103). -/
def lineParts : Nat → Nat → Nat → List (Nat × Nat)
  | 0, _, _ => []
  | fuel + 1, x, n =>
    if n = 0 then []
    else
      let m := min n (128 - x % 128)
      (x, m) :: lineParts fuel (x + m) (n - m)

def bankOf (x : Nat) : Nat := x / 128 % 256

/-- Queue one part of access `acc` with its core, behind those that wait (R106). -/
def askPart (k acc : Nat) (ag : Agent) (x : Nat) (act : PartAct) (p : Panel) : Panel :=
  p.modCore k fun c => { c with parts := c.parts ++ [⟨acc, ag, bankOf x, (p.getClk (siteOf k)).clk, false, act⟩] }

/-- Queue the parts of an unscheduled access to one core, one a line (R103, R106). -/
def askParts (k : Nat) (ag : Agent) (x n : Nat) (mk : Nat → Nat → Nat → PartAct) (p : Panel) : Panel :=
  each (lineParts (n / 128 + 2) x n) (fun e p => askPart k p.nextAcc ag e.1 (mk e.1 (e.1 - x) e.2) p) p
    |> fun q => { q with nextAcc := p.nextAcc + 1 }

/-- Ask for a general access of `n` bytes at offset `x` of a site's scratchpads: the bytes of a write, or none of a read
(R103, R106). -/
def askGeneral (who : Asker) (site x n : Nat) (wr : Option (List Byte)) (p : Panel) : Panel :=
  let id := p.nextAcc
  let ps := lineParts (n / 128 + 2) x n
  let p := { p with
    nextAcc := id + 1,
    gen := p.gen ++ [⟨id, who, site, if wr.isSome then [] else List.replicate n 0, ps.length, 0, 0⟩] }
  each ps (fun e p =>
    askPart (4 * site + e.1 / 2 ^ 26) id .general (e.1 % 2 ^ 26)
      (match wr with
       | some d => .write (e.1 % 2 ^ 26) ((d.drop (e.1 - x)).take e.2)
       | none => .read (e.1 % 2 ^ 26) (e.1 - x) e.2) p) p

/-- The parts that an agent puts forward: its oldest, up to `n`, passing over the banks `busy` and those that an older part of
its own kind put forward names (R106). -/
def putForward (busy : Nat → Bool) : Nat → List (Agent × Nat) → List UPart → List UPart
  | 0, _, _ => []
  | _, _, [] => []
  | n + 1, used, x :: t =>
    if busy x.bank || used.contains (x.agent, x.bank) then putForward busy (n + 1) used t
    else x :: putForward busy n ((x.agent, x.bank) :: used) t

/-- Is a bank named by a scheduled access of this CK_CORE cycle: in a bank stall, one that still serves such; else one named
already, or by a stream or a kind-4 unit at the end of the run cycle (R65, R66, R106)? -/
def bankBusy (c : Core) (bank : Nat) : Bool :=
  c.stallBanks.any (fun b => decide (b.1 = bank) && decide (0 < b.2))
    || c.a.banks.any (fun b => b.contains bank)
    || c.a.streams.any (fun st => capturesAt c.a.rc st && (banksOf (captureAddr st) (Dsc.unit st.desc)).contains bank)

/-- Parts per cycle of the agents: N engine, window ingress, general, check (R106). -/
def agentLimit (ag : Agent) : Nat := match ag with | .nLate => 16 | .nDelayed => 16 | .window => 16 | .general => 4 | .check => 1

/-- Does the agent count as the N engine? -/
def isNAgent (ag : Agent) : Bool := match ag with | .nLate => true | .nDelayed => true | _ => false

/-- Which of an agent's parts may be put forward in a cycle, after its grants of the cycle. The N engine's 16 are its oldest
late and delayed ones together, in the order it accepted them; a late and a delayed one for the same bank may both be among
them, so that step 1 of R106 decides between them (DESIGN CHOICE, log 51). -/
def forwarded (c : Core) (mine : Agent → Bool) (limit : Nat) : List UPart :=
  let got := c.granted.filter fun g => mine g.1
  putForward (fun b => bankBusy c b || got.any fun g => decide (g.2 = b)) (limit - got.length) []
    (c.parts.filter fun x => mine x.agent)

/-- What an agent offers for a bank. -/
def offers (c : Core) (ag : Agent) (bank : Nat) : Option UPart :=
  (forwarded c (if isNAgent ag then isNAgent else fun a => decide (a = ag)) (agentLimit ag)).find? fun x =>
    decide (x.agent = ag) && decide (x.bank = bank)

/-- The agents of the rotation (R106). A bank's pointer stands at the window ingress until its first grant (DESIGN CHOICE, log
52). -/
def rotAgent (i : Nat) : Agent := if i % 3 = 0 then .window else if i % 3 = 1 then .general else .check

/-- The part that wins a bank, and the rotation pointer after it (R106). -/
def winner (c : Core) (bank : Nat) : Option (UPart × Option Nat) :=
  match (offers c .nLate bank).orElse fun _ => offers c .nDelayed bank with
  | some x => some (x, none)
  | none =>
    let r := Tab.get 0 c.rot bank
    let try_ (i : Nat) : Option (UPart × Option Nat) := (offers c (rotAgent i) bank).map fun x => (x, some ((i + 1) % 3))
    match try_ r with
    | some y => some y
    | none => match try_ (r + 1) with
      | some y => some y
      | none => try_ (r + 2)

/-- A response cell (R174); its PART is 0 from a die in no partition (DESIGN CHOICE, log 75). -/
def replyCell (p : Panel) (site : Nat) (req : Cell) (status index : Nat) (data : List Byte) : Cell :=
  { hdr := CellF.mk 4 7 ((p.partOf site).getD 0) site 0 (CellF.srcSite req) 0 0 0 0 0,
    pay := BitVec.ofNat 320 (fld req.pay 79 64 + status * 2 ^ 16 + index * 2 ^ 24 + 2 ^ 32 * leNat (data.take 32)) }

/-- The response cells of a request: its data, 32 bytes a cell, or one cell (R174). -/
def replyCells (p : Panel) (site : Nat) (req : Cell) (status : Nat) (data : List Byte) : List Cell :=
  if status ≠ 0 ∨ data.isEmpty then [replyCell p site req status 0 []]
  else (List.range (ceilDiv data.length 32)).map fun i => replyCell p site req 0 i ((data.drop (32 * i)).take 32)

/-- The service agent returns its response (R173, R174). -/
def serviceReply (site : Nat) (req : Cell) (status : Nat) (data : List Byte) (p : Panel) : Panel :=
  let cs := replyCells p site req status data
  p.modRtr site fun r => { r with reply := r.reply ++ cs }

/-- A part of general access `id` has been performed: the bytes it read at `off`, `lat` cycles from now (R104, R109). -/
def stepGen (id now lat off : Nat) (data : List Byte) (bad : Bool) (p : Panel) : Panel :=
  { p with
    gen := p.gen.map fun g =>
      if g.id = id then
        { g with
          data := g.data.take off ++ data ++ g.data.drop (off + data.length), left := g.left - 1, due := max g.due (now + lat),
          status := if bad then 2 else g.status }
      else g }

/-- Ask for the next line that a check engine's scan reads (R106). -/
def askScan (s : Nat) (p : Panel) : Panel :=
  let e := p.getChk s
  match e.scan with
  | none => p
  | some x =>
    match lineParts 2 (x.at_ + x.got.length) (x.len - x.got.length) with
    | [] => p
    | l :: _ => askPart (4 * s + l.1 / 2 ^ 26) x.acc .check (l.1 % 2 ^ 26) (.scan (l.1 % 2 ^ 26) l.2) p

/-- A line of a scan has been read: its bytes, up to the first word that cannot be corrected, and the next is asked for
(R106, R488). -/
def stepScan (s acc x : Nat) (data : List Byte) (bad : List Nat) (p : Panel) : Panel :=
  match (p.getChk s).scan with
  | none => p
  | some y =>
    if y.acc ≠ acc then p
    else
      let stop := bad.foldl (fun m w => min m (8 * w - x)) data.length
      askScan s (p.modChk s fun e => { e with
        scan := some { y with got := y.got ++ data.take stop, stopped := !bad.isEmpty } })

/-- An accepted window write's last part has been performed (R115). -/
def windowDone (k w : Nat) (p : Panel) : Panel :=
  p.modA k fun a =>
    let x := Tab.get window0 a.win w
    let a := { a with
      win := Tab.set w { x with inflight := x.inflight - 1, done := x.done + 1 } a.win,
      wnctr := { a.wnctr with completed := a.wnctr.completed + 1 } }
    if Win.ctren x.desc then bumpC (Win.ctr x.desc) a else a

/-- A posted receive's cell is in the scratchpad: the counter, and the range flag of TYPE 2 (R61, R190). -/
def recvDone (k ord0 track : Nat) (range : Bool) (p : Panel) : Panel :=
  let is (q : Post) : Bool := !q.send && decide (q.ord0 = ord0) && decide (Dsc.track q.desc = track)
  match (p.getCore k).a.posts.find? is with
  | none => p
  | some q =>
    let p := p.modA k fun a =>
      let a := bumpC (Dsc.ctr q.desc) a
      let a := if range then setExf a else a
      { a with posts := (a.posts.map fun x => if is x then { x with done := x.done + 1 } else x).filter fun x =>
          !(is x && decide (Dsc.cnt1 x.desc ≤ x.done)) }
    if range then coreRaise k 0x060C none p else p

/-- Put a cell into a track's send buffer in the order of its entries (R158). -/
def bufInsert (x : SendCell) : List SendCell → List SendCell
  | [] => [x]
  | y :: t => if x.ord < y.ord then x :: y :: t else y :: bufInsert x t

/-- The header of the send that a track's ordinal is bound to. -/
def sendOf (a : CoreA) (track o : Nat) : Option Post :=
  a.posts.find? fun q => q.send && decide (Dsc.track q.desc = track) && decide (q.ord0 ≤ o)
    && decide (o < q.ord0 + Dsc.cnt1 q.desc)

/-- A payload has been read: seven cycles later its cell stands in the N engine's buffer (R104, R152, R158). -/
def sendReady (k track o : Nat) (data : List Byte) (p : Panel) : Panel :=
  match sendOf (p.getCore k).a track o with
  | none => p
  | some q =>
    p.modRtr (siteOf k) fun r =>
      { r with
        sendBuf := Tab.upd [] (16 * coreOf k + track)
          (bufInsert ⟨o, (p.getClk (siteOf k)).clk + 7, ⟨q.hdr, BitVec.ofNat 320 (leNat data)⟩⟩) r.sendBuf }

/-- Words found by an unscheduled agent: an uncorrectable one faults the owning core, slot 0xFF (R75, R109). -/
def unschedEcc (k : Nat) (e : Ecc) (p : Panel) : Panel := eccRead k e 0xFF (p.getCore k).a.pc p

/-- Was the part just taken off the list the last of its access with this core (R115)? -/
def lastPart (p : Panel) (k acc : Nat) : Bool := !((p.getCore k).parts.any fun y => decide (y.acc = acc))

/-- A part that writes: one that merges into a word which cannot be corrected is not performed (R109). -/
def writePart (k a : Nat) (d : List Byte) (ecc : Ecc) (act : Bool → Panel → Panel) (s : State) : State :=
  let e := eccOn (mergesWord a d.length) ecc
  { s with
    mem := if e.bad.isEmpty then s.mem.writeL (gaScratch k a) d else s.mem,
    p := act (!e.bad.isEmpty) (unschedEcc k e s.p) }

/-- A granted part is performed (R61, R106, R109, R115, R174). -/
def performPart (k : Nat) (x : UPart) (ecc : Ecc) (s : State) : State :=
  let now := (s.p.getClk (siteOf k)).clk
  match x.act with
  | .recv o t a d range =>
    { s with
      mem := s.mem.writeL (gaScratch k a) d, p := if lastPart s.p k x.acc then recvDone k o t range s.p else s.p }
  | .send t o a off n pc =>
    let e := eccOn (touches a n) ecc
    let d := leBytes n (asFaulted e.bad a n (Config.freeNat s.p.free) (s.mem.num (gaScratch k a) n))
    let p := eccRead k e 6 pc s.p
    let h := Tab.get (List.replicate 40 0) (p.getCore k).halfRead x.acc
    let h := h.take off ++ d ++ h.drop (off + n)
    let p := if lastPart p k x.acc then
        sendReady k t o h (p.modCore k fun c => { c with halfRead := Tab.del x.acc c.halfRead })
      else p.modCore k fun c => { c with halfRead := Tab.set x.acc h c.halfRead }
    bumpFree (!e.bad.isEmpty) { s with p := p }
  | .win w a d => writePart k a d ecc (fun _ p => if lastPart p k x.acc then windowDone k w p else p) s
  | .read a off n =>
    let e := eccOn (touches a n) ecc
    { s with p := stepGen x.acc now 7 off (s.mem.readN (gaScratch k a) n) (!e.bad.isEmpty) (unschedEcc k e s.p) }
  | .write a d => writePart k a d ecc (fun bad p => stepGen x.acc now 1 0 [] bad p) s
  | .scan a n =>
    let e := eccOn (touches a n) ecc
    { s with p := stepScan (siteOf k) x.acc a (s.mem.readN (gaScratch k a) n) e.bad (unschedEcc k e s.p) }

/-- The wait of a part, counted at its grant (R108, R122). -/
def countWait (w : Nat) (a : CoreA) : CoreA :=
  { a with
    sctr := { a.sctr with
      parts := a.sctr.parts + 1, waitCc := a.sctr.waitCc + w, longest := max a.sctr.longest w } }

/-- Take the first part equal to `x` off the list. -/
def dropPart (x : UPart) : List UPart → List UPart
  | [] => []
  | y :: t => if y = x then t else y :: dropPart x t

/-- UNSCHEDULED_PART_GRANT: the bank goes to the part that wins it; no access is performed during a clear (R106, R110). -/
def execUnscheduledPartGrant (k bank : Nat) (ecc : Ecc) (s : State) : Out :=
  s.run (isCore k && decide (bank < 256)) fun s =>
    let c := s.p.getCore k
    if c.a.run = .resetting ∨ bankBusy c bank = true
        ∨ (c.granted.any fun g => decide (g.2 = bank)) = true then s
    else
      match winner c bank with
      | none => s
      | some (x, r) =>
        let now := (s.p.getClk (siteOf k)).clk
        let c := { c with
          parts := dropPart x c.parts, granted := c.granted ++ [(x.agent, bank)],
          rot := match r with | some i => Tab.set bank i c.rot | none => c.rot }
        performPart k x ecc { s with p := s.p.setCore k (onA (countWait (now - x.asked)) c) }

/-- UNSCHEDULED_STARVED: the oldest part that waits longer than the threshold and is not yet counted (R108). -/
def execUnscheduledStarved (k : Nat) (s : State) : Out :=
  s.runP (isCore k) fun p =>
    let now := (p.getClk (siteOf k)).clk
    let late (x : UPart) : Bool := !x.starved && decide (x.asked + dieCfg p (siteOf k) 0x600C 1 < now)
    let c := p.getCore k
    match c.parts.find? late with
    | none => p
    | some x =>
      coreRaise k 0x0506 none (p.setCore k { c with
        parts := c.parts.map fun y => if y = x then { y with starved := true } else y,
        a := { c.a with sctr := { c.a.sctr with starved := c.a.sctr.starved + 1 } } })

/-- OPEN_CYCLE_MISS: a span that ended with no open cycle is counted (R108). -/
def execOpenCycleMiss (k : Nat) (s : State) : Out :=
  s.runP (isCore k) fun p =>
    p.modCore k fun c =>
      if 0 < c.missDue then
        { c with
          missDue := c.missDue - 1,
          a := { c.a with sctr := { c.a.sctr with misses := c.a.sctr.misses + 1 } } }
      else c

/-- Fields of a window write's prefix (R113). -/
structure WinPrefix where
  win : Nat
  gen : Nat
  len : Nat
  off : Nat
  deriving DecidableEq, Repr

def winPrefix (c : Cell) : WinPrefix :=
  ⟨fld c.pay 63 58, fld c.pay 57 42, fld c.pay 41 37, fld c.pay 25 0⟩

/-- The first check that a window write fails: 1 late, 2 source or partition, 3 range; none where all pass (R114). -/
def winCheck (a : CoreA) (c : Cell) : Option Nat :=
  let f := winPrefix c
  let x := Tab.get window0 a.win f.win
  let site := CellF.srcSite c
  if x.st ≠ .opened ∨ f.gen ≠ x.gen then some 1
  else if CellF.part c ≠ Win.spart x.desc ∨ rowOf site < Win.row0 x.desc ∨ Win.row1 x.desc < rowOf site
      ∨ colOf site < Win.col0 x.desc ∨ Win.col1 x.desc < colOf site then some 2
  else if (Win.limit x.desc - Win.base x.desc) * 64 + 63 < f.off + f.len then some 3
  else none

/-- Accept a window write: in flight, its parts queued (R114, R115). -/
def acceptWrite (k : Nat) (c : Cell) (p : Panel) : Panel :=
  let f := winPrefix c
  let x := Tab.get window0 (p.getCore k).a.win f.win
  let data := leBytes (f.len + 1) (c.pay.toNat / 2 ^ 64)
  let at_ := 64 * Win.base x.desc + f.off
  askParts k .window at_ (f.len + 1) (fun y i n => .win f.win y ((data.drop i).take n))
    (p.modA k fun a =>
      { a with
        win := Tab.set f.win { x with inflight := x.inflight + 1 } a.win,
        wnctr := { a.wnctr with accepted := a.wnctr.accepted + 1 } })

/-- Discard a window write: counts, event, record, and at most one notice per source core in a step (R117, R118). -/
def discardWrite (k reason : Nat) (c : Cell) (p : Panel) : Panel :=
  let f := winPrefix c
  let x := Tab.get window0 (p.getCore k).a.win f.win
  let src := 4 * CellF.srcSite c + CellF.srcCore c
  let known := (p.getCore k).noticed.contains src
  let p := p.modCore k fun o =>
    let a := o.a
    let w := a.wnctr
    { o with
      discard := ⟨reason, f.win, f.gen, x.gen, CellF.srcSite c, CellF.srcCore c, f.off, fld a.step 31 0⟩,
      noticed := if known then o.noticed else src :: o.noticed,
      a := { a with
        win := if reason = 1 then Tab.set f.win { x with late := x.late + 1 } a.win else a.win,
        wnctr := { w with
          late := w.late + (if reason = 1 then 1 else 0), violations := w.violations + (if reason = 1 then 0 else 1),
          sent := w.sent + (if known then 0 else 1), suppressed := w.suppressed + (if known then 1 else 0) } } }
  let p := coreRaise k (if reason = 1 then 0x0503 else 0x0505) none p
  if known then p
  else sendPkt ⟨0, CellF.srcSite c, siteOf k, 0, 0,
    .lateNotice (coreOf k) (CellF.srcCore c) f.win (reason - 1) f.gen x.gen f.off⟩ p

/-- WINDOW_INGRESS_CHECK of the oldest window write taken from a core track (R114). -/
def execWindowIngressCheck (k : Nat) (s : State) : Out :=
  s.runP (isCore k) fun p =>
    match (p.getCore k).winq with
    | [] => p
    | c :: t =>
      let p := p.modCore k fun o => { o with winq := t }
      match winCheck (p.getCore k).a c with
      | none => acceptWrite k c p
      | some r => discardWrite k r c p

/-- WINDOW_CLOSE_COMPLETE: a CLOSING window with nothing in flight becomes CLOSED and its counters advance (R116). -/
def execWindowCloseComplete (k w : Nat) (s : State) : Out :=
  s.runP (isCore k && decide (w < 64)) fun p =>
    p.modA k fun a =>
      let x := Tab.get window0 a.win w
      if x.st = .closing ∧ x.inflight = 0 then
        each x.notify bumpC { a with win := Tab.set w { x with st := .closed, notify := [] } a.win }
      else a

/-- Window writes accepted and not complete, or waiting for their check: what fills the ingress queue (R114). -/
def ingressLoad (c : Core) : Nat :=
  c.winq.length + (waitingAccs (fun x => match x with | .win _ _ _ => true | _ => false) c).length

/-- Late receives that wait (R158). -/
def lateLoad (c : Core) : Nat := (waitingAccs (fun x => match x with | .recv _ _ _ _ _ => true | _ => false) c).length

end Sys2Proof.Machine
end

