-- ==== Sys2Proof/Machine/Operators.lean ====
section
/-! DEFINITION. The operator units of a router (R179-R198). -/

namespace Sys2Proof.Machine

namespace UDesc

/-- Fields of a unit descriptor (R182). -/
def opr (d : BitVec 256) : Nat := fld d 255 252
def etype (d : BitVec 256) : Nat := fld d 251 249
def fan (d : BitVec 256) : Nat := fld d 247 242 + 1
def km1 (d : BitVec 256) : Nat := fld d 241 230
def sbase (d : BitVec 256) : Nat := fld d 229 221
def ssize (d : BitVec 256) : Nat := fld d 220 212 + 1
def trun (d : BitVec 256) : Bool := bit d 194
def tqid (d : BitVec 256) : Nat := fld d 193 176
def epoch0 (d : BitVec 256) : Nat := fld d 175 160
def tmpl (d : BitVec 256) : Nat := fld d 63 0
/-- Cells of a list of a merge: ceil(k / 5). -/
def cells (d : BitVec 256) : Nat := ceilDiv (km1 d + 1) 5

end UDesc

/-- The descriptor that governs a unit while the segment in execution runs. -/
def Router.unitDesc (r : Router) (u : Nat) : BitVec 256 :=
  match r.exec with
  | some n => Tab.get 0 r.udesc (16 * n + u)
  | none => 0

/-- The null pair (R192). -/
def nullPair : Nat := 0x00000FFFFFFFFFFF

/-- Does pair `x` rank above pair `y`: the higher score, at equal scores the lower id (R192)? -/
def ranksAbove (x y : Nat) : Bool :=
  decide (y / 2 ^ 44 < x / 2 ^ 44) || (decide (x / 2 ^ 44 = y / 2 ^ 44) && decide (x % 2 ^ 44 < y % 2 ^ 44))

/-- Put a pair in its place in rank order. -/
def insertPair (x : Nat) : List Nat → List Nat
  | [] => [x]
  | y :: t => if ranksAbove y x || decide (x = y) then y :: insertPair x t else x :: y :: t

/-- Is the type one of the lane types of MAX (R181)? -/
def maxType (et : Nat) : Bool := decide (et = 0) || decide (et = 1) || (decide (3 ≤ et) && decide (et ≤ 6))

/-- The lane type of MAX and LSE-MAX. -/
def maxEt (opr et : Nat) : Nat := if opr = 4 then 0 else et

/-- The identity of a code and element type, as a payload (R189). -/
def identity (opr et : Nat) : Nat :=
  if opr = 3 then unlanes 64 (List.replicate 5 nullPair)
  else if opr = 4 ∨ (opr = 2 ∧ et = 0) then unlanes 32 (List.replicate 10 0xFF800000)
  else if opr = 2 ∧ et = 1 then unlanes 16 (List.replicate 20 0xFF80)
  else if opr = 2 ∧ et = 3 then unlanes 32 (List.replicate 10 0x80000000)
  else if opr = 2 ∧ et = 4 then unlanes 16 (List.replicate 20 0x8000)
  else if opr = 2 ∧ et = 5 then unlanes 8 (List.replicate 40 0x80)
  else 0

/-- Two payloads combined: exact sums of four EX80 values modulo 2^80, or the maximum of each lane (R188, R191). -/
def combine (opr et x y : Nat) : Nat :=
  if opr = 1 ∨ opr = 5 then
    unlanes 80 (List.zipWith (fun a b => (a + b) % 2 ^ 80) (lanes 80 4 x) (lanes 80 4 y))
  else
    let e := maxEt opr et
    let n := 320 / etWidth e
    unlanes (etWidth e) (List.zipWith (laneMax e) (lanes (etWidth e) n x) (lanes (etWidth e) n y))

/-- The payload of a group: its kept contributions combined from the identity on, so that a NaN of a single one is made canonical
too (R77, R188, R189, R191). -/
def groupValue (opr et : Nat) (kept : List (Option (BitVec 320))) : Nat :=
  (kept.filterMap fun o => o.map (·.toNat)).foldl (combine opr et) (identity opr et)

/-- Cycles from the completing operand at the unit to the result in the queue (R185). -/
def resultDelay (opr : Nat) : Nat := if opr = 1 ∨ opr = 5 then 3 else if opr = 3 then 4 else 2

/-- The header of a result (R186). -/
def resultHdr (p : Panel) (site : Nat) (d : BitVec 256) (ge : Nat) (range : Bool) : BitVec 64 :=
  let t := UDesc.tmpl d
  let o := UDesc.opr d
  CellF.mk (nfld t 63 61) (nfld t 60 58) ((p.partOf site).getD 0) site 0 (nfld t 43 36) (nfld t 35 34) (nfld t 33 30)
    (nfld t 29 26) ge (if o = 1 ∨ o = 5 then (if range then 512 else 0) else if o = 2 ∨ o = 4 then UDesc.etype d else 0)

/-- Why an operand does not contribute: a stale epoch, or a mismatch (R187, R197). -/
inductive TakeRes where
  | kept | stale | mismatch
  deriving DecidableEq, Repr

def takeRes (d : BitVec 256) (x : OpUnit) (c : Cell) : TakeRes :=
  let o := UDesc.opr d
  if CellF.epoch c ≠ x.cep then .stale
  else if CellF.typ c ≠ 2 ∨ CellF.opr c ≠ o ∨ ((o = 2 ∨ o = 4) ∧ CellF.etype c ≠ UDesc.etype d) then .mismatch
  else .kept

/-- The pairs of a cell taken on an input: an out-of-order pair is replaced by the null pair (R194). Gives the pairs
taken, the last pair kept, and how many were replaced. -/
def orderPairs : List Nat → Option Nat → List Nat × Option Nat × Nat
  | [], l => ([], l, 0)
  | x :: t, l =>
    let bad : Bool := match l with | some y => ranksAbove x y | none => false
    let r := orderPairs t (if bad then l else some x)
    ((if bad then nullPair else x) :: r.1, r.2.1, r.2.2 + if bad then 1 else 0)

/-- Has an operand's take completed its group? -/
def completes (d : BitVec 256) (x : OpUnit) : Bool := decide (x.count % UDesc.fan d + 1 = UDesc.fan d)

/-- The first operand of a group, or of a merge for TOPK-MERGE, takes the group epoch (R197). -/
def startsGroup (d : BitVec 256) (x : OpUnit) : Bool :=
  decide (x.count % (if UDesc.opr d = 3 then UDesc.fan d * UDesc.cells d else UDesc.fan d) = 0)

/-- The best five pairs of the store as output cell j of a merge: ranks at or below k are null (R193). -/
def mergeCell (d : BitVec 256) (j : Nat) (sorted : List Nat) : Nat :=
  unlanes 64 ((List.range 5).map fun i => if 5 * j + i ≤ UDesc.km1 d then sorted.getD i nullPair else nullPair)

/-- Take an operand of TOPK-MERGE into the unit (R193-R195). -/
def takePairs (d : BitVec 256) (c : Cell) (res : TakeRes) (x : OpUnit) : OpUnit × Nat :=
  let i := x.count % UDesc.fan d
  let pay := if res = .kept then c.pay.toNat else identity 3 0
  let r := orderPairs (lanes 64 5 pay) (Tab.find? x.lastKept i)
  ({ x with
      pairs := r.1.foldl (fun l y => insertPair y l) x.pairs,
      lastKept := match r.2.1 with | some y => Tab.set i y x.lastKept | none => x.lastKept }, r.2.2)

/-- The result that a completed group gives, and the unit after it (R185, R186, R193). `cyc` is the cycle in which the
operand fired; `bad`: a stored pair could not be corrected. -/
def formResult (p : Panel) (site cyc : Nat) (d : BitVec 256) (bad : Bool) (x : OpUnit) : OpUnit :=
  let o := UDesc.opr d
  if o = 3 then
    let pay := if bad then Config.freeNat p.free else mergeCell d x.outj x.pairs
    let ready := max (cyc + 1 + resultDelay o) (x.lastReady + 1)
    let last := decide (x.outj + 1 = UDesc.cells d)
    { x with
      queue := x.queue ++ [⟨ready, false, ⟨resultHdr p site d x.ge false, BitVec.ofNat 320 pay⟩⟩],
      pairs := if last then [] else x.pairs.drop 5, lastKept := if last then [] else x.lastKept,
      outj := if last then 0 else x.outj + 1, lastReady := if last then 0 else ready }
  else
    { x with
      queue := x.queue ++ [⟨cyc + 1 + resultDelay o, false,
        ⟨resultHdr p site d x.ge x.range, BitVec.ofNat 320 (groupValue o (UDesc.etype d) x.kept)⟩⟩],
      kept := [], range := false }

/-- An operator unit takes an operand cell (R184, R187, R194, R197). The store's check bits matter where a merge emits
(R195). -/
def takeOperand (site u : Nat) (c : Cell) (ecc : WordChk) (p : Panel) : Panel :=
  let r := p.getRtr site
  let d := r.unitDesc u
  let x := Tab.get opUnit0 r.unit u
  let res := takeRes d x c
  let o := UDesc.opr d
  let done := completes d x
  let x := if startsGroup d x then { x with ge := x.cep } else x
  let xo : OpUnit × Nat := if o = 3 then takePairs d c res x
    else ({ x with
      kept := x.kept ++ [if res = .kept then some c.pay else none],
      range := x.range || (decide (res = .kept) && decide (o = 1 ∨ o = 5) && CellF.range c) }, 0)
  let bad := decide (o = 3) && done && decide (ecc = .uncorrectable)
  let range := xo.1.range
  let y := if done then formResult p site r.cyc d bad xo.1 else xo.1
  let y := { y with count := y.count + 1 }
  let oc := r.octr
  let oc := { oc with
    taken := oc.taken + 1, results := oc.results + (if done then 1 else 0),
    staleUnit := oc.staleUnit + (if res = .stale then 1 else 0), mismatch := oc.mismatch + (if res = .mismatch then 1 else 0),
    order := oc.order + xo.2, range := oc.range + (if done && range then 1 else 0),
    corrections := oc.corrections + (if o = 3 ∧ done ∧ ecc = .corrected then 1 else 0) }
  let p := p.modRtr site fun r => { r with unit := Tab.set u y r.unit, octr := oc }
  let p := if bad then { p with free := p.free + 1 } else p
  let p := if res = .stale then dieRaise site 0 site 0x060A none p else p
  let p := if res = .mismatch then dieRaise site 0 site 0x0609 none p else p
  let p := if 0 < xo.2 then dieRaise site 0 site 0x060B none p else p
  if bad then dieRaise site 0 site 0x060D none p else p

/-- May an operand be taken: it does not complete a group while the queue holds 4 cells (R185)? -/
def operandRoom (r : Router) (u : Nat) : Bool :=
  let x := Tab.get opUnit0 r.unit u
  !(completes (r.unitDesc u) x && decide (4 ≤ x.queue.length))

/-- OPERATOR_RESULT_READY: the oldest result still being formed enters the queue, once its cycle has come (R185). -/
def execOperatorResultReady (cs u : Nat) (s : State) : Out :=
  s.runP (isCompute cs && decide (u < 16)) fun p =>
    p.modRtr cs fun r =>
      let x := Tab.get opUnit0 r.unit u
      let go : List OpResult → List OpResult := fun q =>
        match q.findIdx? fun e => !e.formed with
        | none => q
        | some i => match q[i]? with
          | none => q
          | some e => if e.ready ≤ r.cyc then q.set i { e with formed := true } else q
      { r with unit := Tab.set u { x with queue := go x.queue } r.unit }

/-- The units of a segment as it starts: empty, their epochs from the descriptors (R197). -/
def startUnits (r : Router) (n : Nat) : Tab OpUnit :=
  (List.range 16).map fun u =>
    let d := Tab.get 0 r.udesc (16 * n + u)
    (u, { opUnit0 with opr := UDesc.opr d, trun := UDesc.trun d, tqid := UDesc.tqid d, cep := UDesc.epoch0 d })

end Sys2Proof.Machine
end

