-- ==== Sys2Proof/Machine/RouterOps.lean ====
section
/-! DEFINITION. The die router: firing entries, deliveries to cores, cells arriving, credits, links and transits
(R153-R172). -/

namespace Sys2Proof.Machine

/-- The position across edge `e` of a compute die, and the die and input code at the other end of track `t` (R13, R153). -/
def acrossPos (s e : Nat) : Nat :=
  if e = 0 then s - 16 else if e = 1 then s + 1 else if e = 2 then s + 16 else s - 1

/-- The far end of an output track of a mesh die: site and input code. An edge die's codes 0x00-0x1F lead to the compute
die at its first position, 0x20-0x3F to the one at its second (R153); 0x40-0x5F and 0x60-0x7F lead clockwise and
counter-clockwise round the ring (R526). -/
def farEnd (s code : Nat) : Nat × Nat :=
  let t := code % 32
  if isCompute s then
    let q := acrossPos s (code / 32)
    if isCompute q then (q, 32 * ((code / 32 + 2) % 4) + t)
    else (edgeOwner q, (if edgeOwner q = q then 0 else 32) + t)
  else if 0x60 ≤ code then (ringPrev s, 0x40 + t)
  else if 0x40 ≤ code then (ringNext s, 0x60 + t)
  else
    let pos := if code / 32 = 0 then s else if rowOf s = 0 ∨ rowOf s = 13 then s + 1 else s + 16
    if rowOf s = 0 then (pos + 16, t) else if rowOf s = 13 then (pos - 16, 64 + t)
    else if colOf s = 0 then (pos + 1, 96 + t) else (pos - 1, 32 + t)

/-- Is a code a track that leaves the die (R153, R526)? -/
def isEdgeCode (code : Nat) : Bool := decide (code < 0x80)
/-- Is a code a fabric queue of a port master (R526)? -/
def isFabCode (s code : Nat) : Bool := isEdge s && decide (0x90 ≤ code ∧ code ≤ 0x97)
/-- The cells of an ingress or egress VC. -/
def FPort.vcIn (x : FPort) (v : Nat) : List Cell := Tab.get [] x.inq v
def FPort.vcOut (x : FPort) (v : Nat) : List Cell := Tab.get [] x.egr v

/-- A fabric cell is discarded: counted at its port and raised (R524, R532). -/
def fabDiscard (port : Nat) (p : Panel) : Panel :=
  dieRaise (portMaster port) 0 (keyPort port) 0x0A06 none
    (p.modPort port fun x => { x with ctr := { x.ctr with discards := x.ctr.discards + 1 } })

namespace FabF

/-- Fields of a fabric header (R523). -/
def dpid (c : Cell) : Nat := fld c.hdr 57 46
def spid (c : Cell) : Nat := fld c.hdr 45 34
def dsite (c : Cell) : Nat := fld c.hdr 33 26
def dcore (c : Cell) : Nat := fld c.hdr 25 24
def dtrk (c : Cell) : Nat := fld c.hdr 23 20
def ftag (c : Cell) : Nat := fld c.hdr 19 12
/-- A fabric header from its fields. -/
def mk (typ vc dp sp ds dc dt ft ss sc : Nat) : BitVec 64 :=
  BitVec.ofNat 64 (typ * 2 ^ 61 + vc * 2 ^ 58 + dp * 2 ^ 46 + sp * 2 ^ 34 + ds * 2 ^ 26 + dc * 2 ^ 24 + dt * 2 ^ 20
    + ft * 2 ^ 12 + ss * 2 ^ 4 + sc * 2 ^ 2)

end FabF

/-- This panel's ID as hellos carry it: 0xFFF when unassigned (R523, R527). -/
def panelId (p : Panel) : Nat := let x := cfg p 0xA000 0 1; if x = 0xFFFF then 0xFFF else x % 4096

/-- A cell enters egress queue `v` of a port in its fabric form, or is discarded (R524, R525). -/
def egressPut (port v : Nat) (c : Cell) (p : Panel) : Panel :=
  let x := p.getPort port
  let tag := Tab.get 0xFF x.egTag (CellF.part c)
  if 2 ≤ CellF.typ c ∨ tag = 0xFF ∨ x.cut then fabDiscard port p
  else
    let h := FabF.mk (CellF.typ c) v (Tab.get 0 x.egDst v % 4096) (panelId p) (CellF.dstSite c) (CellF.dstCore c) (CellF.dtrk c) tag
      (CellF.srcSite c) (CellF.srcCore c)
    p.modPort port fun x => { x with egr := Tab.upd [] v (· ++ [{ c with hdr := h }]) x.egr }

/-- A cell leaves an ingress buffer, and its credit goes back (R522). -/
def ingressTake (port v : Nat) (p : Panel) : Panel :=
  p.modPort port fun x => { x with inq := Tab.upd [] v (·.drop 1) x.inq, ret := Tab.upd 0 v (· + 1) x.ret }

/-- Cells of an output track and VC whose credits are out (R168). -/
def sentOf (r : Router) (out vc : Nat) : Nat := Tab.get 0 r.sent (8 * out + vc)
def sentTrack (r : Router) (out : Nat) : Nat := ((List.range 8).map fun v => sentOf r out v).sum
/-- Does a die carry nothing: it is ABSENT or FAILED (R14, R15)? -/
def deadDie (p : Panel) (s : Nat) : Bool := match p.ust s with | .absent => true | .failed => true | _ => false

/-- Is the link under an edge code disabled (R14, R169)? -/
def linkDisabled (p : Panel) (s code : Nat) : Bool :=
  let f := farEnd s code
  deadDie p s || deadDie p f.1 || (Tab.get link0 (p.getRtr s).link (code / 32)).failed
    || (Tab.get link0 (p.getRtr f.1).link (f.2 / 32)).failed

/-- Is there credit for a cell (R168)? -/
def hasCredit (r : Router) (out vc : Nat) : Bool :=
  decide (sentTrack r out < 64) && decide (sentOf r out vc < Tab.get 64 r.vcLim (8 * out + vc))

/-- Put a cell on an edge output: a credit goes out with it, and the link takes it with its next flits (R157, R168, R169). -/
def sendCell (s out : Nat) (c : Cell) (p : Panel) : Panel :=
  p.modRtr s fun r => { r with
    sent := Tab.upd 0 (8 * out + CellF.vc c) (· + 1) r.sent, tx := Tab.upd [] (out / 32) (· ++ [(out % 32, c)]) r.tx }

/-- May a cell be put on an edge output: it has credit, and the link is not disabled (R14, R168)? -/
def canSend (p : Panel) (s out vc : Nat) : Bool := hasCredit (p.getRtr s) out vc && !linkDisabled p s out

/-- The scheduled cycle of an entry's next repetition (R155). -/
def entryCycle (r : Router) (e : Nat) : Nat := r.firedOf e * Seg.period r.desc + Hop.cyc (r.entry e)

/-- Has every earlier entry that `same` selects fired, up to repetition `k` of entry `e` (R155, R156)? -/
def earlierFired (r : Router) (e k : Nat) (same : BitVec 64 → Bool) : Bool :=
  r.entries.all fun f => !same (r.entry f) || decide (f = e) || decide ((if f < e then k + 1 else k) ≤ r.firedOf f)

/-- The input of an entry; that of a SERVICE entry is the service queue of its output (R153). -/
def inKey (x : BitVec 64) : Nat := if Hop.mode x = 2 then 0x100 + Hop.out x / 32 else Hop.inp x

/-- Do two entries name one input (R156, condition 2)? -/
def sameIn (x y : BitVec 64) : Bool :=
  decide (inKey x = inKey y) && (decide (0x80 ≤ inKey x) || decide (Hop.ivc x = Hop.ivc y))

/-- The cell present at an entry's input (R156, condition 3). A core track's cell is the one bound to the entry. -/
def cellAt (p : Panel) (s e : Nat) : Option Cell :=
  let r := p.getRtr s
  let x := r.entry e
  let i := Hop.inp x
  if Hop.mode x = 2 then (Tab.get [] r.svcq (Hop.out x / 32)).head?
  else if i < 0x80 then (Tab.get [] r.inq (8 * i + Hop.ivc x)).head?
  else if isFabCode s i then ((p.getPort (portOfDie s)).vcIn (i - 0x90)).head?
  else if i < 0xC0 then
    let m := r.groupMove (Seg.count r.desc) e
    match sendPost (p.getCore (4 * s + (i - 0x80) / 16)).a ((i - 0x80) % 16) (r.ordinal true i m (r.firedOf m)) with
    | none => emission (p.getSve s) i
    | some _ => match Tab.get [] r.sendBuf (i - 0x80) with
      | c :: _ => if c.ord = r.ordinal true i m (r.firedOf m) ∧ c.ready ≤ (p.getClk s).clk then some c.cell else none
      | [] => none
  else match (Tab.get opUnit0 r.unit (i - 0xC0)).queue with
    | x :: _ => if x.formed then some x.cell else none
    | [] => none

/-- Can the output take the cell (R156, condition 4; R158, R185)? -/
def outputReady (p : Panel) (s e : Nat) (c : Cell) : Bool :=
  let r := p.getRtr s
  let x := r.entry e
  let o := Hop.out x
  if o < 0x80 then canSend p s o (if Hop.mode x = 2 then 7 else Hop.ovc x)
  else if isFabCode s o then decide (((p.getPort (portOfDie s)).vcOut (o - 0x90)).length < 256)
  else if o < 0xC0 then
    let k := 4 * s + (o - 0x80) / 16
    if CellF.typ c = 1 then decide (ingressLoad (p.getCore k) < 32)
    else decide (r.cyc = entryCycle r e) || decide (lateLoad (p.getCore k) < 32)
  else operandRoom r (o - 0xC0)

/-- Is a transit entry valid? -/
def transitV (x : BitVec 32) : Bool := bit x 31
/-- The valid transit entry that an input track is named by. -/
def transitOf (r : Router) (code : Nat) : Option Nat :=
  (List.range 32).find? fun i =>
    let x := Tab.get 0 r.transit i
    transitV x && decide (fld x 23 16 = code)

/-- A SERVICE entry whose queue is empty: it waits for nothing but its cycle (R156). -/
def emptyService (p : Panel) (s e : Nat) : Bool :=
  decide (Hop.mode ((p.getRtr s).entry e) = 2) && (cellAt p s e).isNone

/-- Conditions 1 and 2, the schedule, and one cell per input and output in a cycle (R156). A dead die's router carries nothing
(R15). -/
def entryDue (p : Panel) (s e : Nat) : Bool :=
  let r := p.getRtr s
  let x := r.entry e
  let k := r.firedOf e
  !deadDie p s && r.running && r.has e && decide (k < Seg.reps r.desc) && decide (entryCycle r e ≤ r.cyc) && decide ((p.getClk s).stall = 0)
    && (emptyService p s e || (earlierFired r e k (fun y => decide (Hop.out y = Hop.out x)) && earlierFired r e k (sameIn x)
    && !r.busyOut.contains (Hop.out x) && !r.busyIn.contains (inKey x)))

/-- May an entry fire in this cycle (R156)? -/
def eligible (p : Panel) (s e : Nat) : Bool :=
  entryDue p s e && match cellAt p s e with
    | none => emptyService p s e
    | some c => outputReady p s e c

/-- Is every entry before the next repetition of `e`, in the order of repetitions and then of the table, one that may not fire in
this cycle (R155, R156)? -/
def firstEligible (p : Panel) (s e : Nat) : Bool :=
  let r := p.getRtr s
  let before (f : Nat) : Bool := decide (r.firedOf f < r.firedOf e) || (decide (r.firedOf f = r.firedOf e) && decide (f < e))
  r.entries.all fun f => !(before f && eligible p s f)

/-- Take the cell from the input: a MOVE pops it, a COPY leaves it (R154, R157). -/
def takeCell (s e : Nat) (p : Panel) : Panel :=
  let r := p.getRtr s
  let x := r.entry e
  let i := Hop.inp x
  if Hop.mode x = 1 then p
  else if Hop.mode x = 2 then
    p.modRtr s fun r =>
      { r with
        svcq := Tab.upd [] (Hop.out x / 32) (·.drop 1) r.svcq, busyIn := inKey x :: r.busyIn,
        ctr := { r.ctr with service := r.ctr.service + 1 } }
  else if i < 0x80 then
    p.modRtr s fun r => { r with inq := Tab.upd [] (8 * i + Hop.ivc x) (·.drop 1) r.inq, busyIn := i :: r.busyIn }
  else if isFabCode s i then ingressTake (portOfDie s) (i - 0x90) (p.modRtr s fun r => { r with busyIn := i :: r.busyIn })
  else if i < 0xC0 then
    let k := 4 * s + (i - 0x80) / 16
    let o := r.ordinal true i e (r.firedOf e)
    if (sendPost (p.getCore k).a ((i - 0x80) % 16) o).isNone then
      (p.modRtr s fun r => { r with busyIn := i :: r.busyIn }).modSve s fun v => { v with
        emit := match emitAt v i with | some b => Tab.upd [] b (·.drop 1) v.emit | none => v.emit }
    else
    let p := p.modRtr s fun r => { r with sendBuf := Tab.upd [] (i - 0x80) (·.drop 1) r.sendBuf, busyIn := i :: r.busyIn }
    let is (q : Post) : Bool := q.send && decide (Dsc.track q.desc = (i - 0x80) % 16) && decide (q.ord0 ≤ o)
      && decide (o < q.ord0 + Dsc.cnt1 q.desc)
    p.modA k fun a =>
      { a with
        posts := (a.posts.map fun q => if is q then { q with done := q.done + 1 } else q).filter fun q =>
          !(is q && decide (Dsc.cnt1 q.desc ≤ q.done)) }
  else
    p.modRtr s fun r =>
      let y := Tab.get opUnit0 r.unit (i - 0xC0)
      { r with unit := Tab.set (i - 0xC0) { y with queue := y.queue.drop 1 } r.unit, busyIn := i :: r.busyIn }

/-- The posted receive that an entry's cell is bound to (R158). -/
def boundRecv (p : Panel) (s e : Nat) : Option Post :=
  let r := p.getRtr s
  let code := Hop.out (r.entry e)
  let o := r.ordinal false code e (r.firedOf e)
  ((p.getCore (4 * s + (code - 0x80) / 16)).a.posts).find? fun q =>
    !q.send && decide (Dsc.track q.desc = (code - 0x80) % 16) && decide (q.ord0 ≤ o) && decide (o < q.ord0 + Dsc.cnt1 q.desc)

/-- A bound position that stays empty: neither written nor counted at the arrival counter (R158, R159). -/
def skipRecv (k : Nat) (q : Post) (p : Panel) : Panel :=
  p.modA k fun a =>
    { a with
      posts := (a.posts.map fun x => if x = q then { x with done := x.done + 1 } else x).filter fun x =>
        !(decide ({ x with done := q.done } = q) && decide (Dsc.cnt1 x.desc ≤ x.done)) }

/-- Does a cell belong at a core output (R159)? -/
def belongs (s core track : Nat) (c : Cell) : Bool :=
  decide (CellF.dstSite c = s) && decide (CellF.dstCore c = core)
    && ((decide (CellF.typ c = 0 ∨ CellF.typ c = 2) && decide (CellF.dtrk c = track)) || decide (CellF.typ c = 1))

/-- The TAG of a service cell (R174). -/
def svcTag (c : Cell) : Nat := if CellF.typ c = 3 then fld c.pay 79 64 else fld c.pay 15 0

/-- Is a partition packing up (R447)? -/
def packing (p : Panel) (site : Nat) : Bool :=
  match p.partOf site with
  | some n => decide ((p.getPart n).phase = .packing)
  | none => false

/-- A request whose cell is cut, or absorbed, is answered with status 1 (R448). -/
def answerCut (c : Cell) (p : Panel) : Panel :=
  match p.host.svc.find? fun x => decide (x.tag = svcTag c) with
  | none => p
  | some x =>
    let p := p.modHost fun h => { h with svc := h.svc.filter fun y => decide (y ≠ x) }
    p.modGuest x.guest fun g => { g with
      outstanding := g.outstanding.erase x.gtag, answers := g.answers ++ [⟨CellF.mk 4 7 0 0 0 0 0 0 0 0 0, BitVec.ofNat 320 (2 ^ 16 + x.gtag)⟩] }

/-- A cell absorbed in a pack-up (R448). -/
def absorb (site : Nat) (p : Panel) : Panel :=
  match p.partOf site with
  | some n => p.modPart n fun x => { x with stat := { x.stat with absorbed := x.stat.absorbed + 1 } }
  | none => p

/-- A cell at a core output of the router: discarded where it does not belong, to the window ingress, or to its posted
receive, on time at scheduled rank or late at unscheduled rank (R61, R158, R159, R190, R198). -/
def toCore (s e : Nat) (c : Cell) (p : Panel) : Panel :=
  let r := p.getRtr s
  let out := Hop.out (r.entry e)
  let core := (out - 0x80) / 16
  let track := (out - 0x80) % 16
  let k := 4 * s + core
  let q := boundRecv p s e
  if packing p s then
    absorb s (match q with | some q => skipRecv k q p | none => p)
  else if !belongs s core track c then
    let p := match q with | some q => skipRecv k q p | none => p
    dieRaise s 0 s 0x0602 none (p.modRtr s fun r => { r with ctr := { r.ctr with misdelivered := r.ctr.misdelivered + 1 } })
  else if CellF.typ c = 1 then
    let p := match q with | some q => skipRecv k q p | none => p
    p.modCore k fun o => { o with winq := o.winq ++ [c] }
  else
    let d := Tab.get default r.dest (16 * core + track)
    let stale := decide (CellF.typ c = 2) && decide (CellF.epoch c ≠ d.epoch)
    let p := if stale then
        dieRaise s 0 s 0x060A none (p.modRtr s fun r => { r with octr := { r.octr with staleDest := r.octr.staleDest + 1 } })
      else p
    let pay := if stale then identity (CellF.opr c) (CellF.etype c) else c.pay.toNat
    let range := decide (CellF.typ c = 2) && CellF.range c && !stale
    match q with
    | none =>
      coreRaise k 0x0601 none (p.modA k fun a => { a with wctr := { a.wctr with unposted := a.wctr.unposted + 1 } })
    | some q =>
      let o := r.ordinal false out e (r.firedOf e)
      let x := q.base + 40 * (o - q.ord0)
      let data := leBytes 40 pay
      if r.cyc = entryCycle r e then
        p.modCore k fun u => { u with recvs := u.recvs ++ [⟨u.a.rc + 1, q.ord0, track, x, data, range⟩] }
      else
        askParts k .nLate x 40 (fun y i n => .recv q.ord0 track y ((data.drop i).take n) range)
          (p.modRtr s fun r => { r with ctr := { r.ctr with lateRecvs := r.ctr.lateRecvs + 1 } })

/-- The entry's firing is counted (R155, R156, R171); the segment is drained with its last, which may end its region
(R208). -/
def countFire (s e : Nat) (p : Panel) : Panel :=
  checkEndedAt s <| p.modRtr s fun r =>
    let late := r.cyc - entryCycle r e
    let fired := Tab.upd 0 e (· + 1) r.fired
    let c := r.ctr
    { r with
      fired := fired, busyOut := Hop.out (r.entry e) :: r.busyOut, late := max r.late late,
      drained := r.entries.all fun f => decide (Seg.reps r.desc ≤ Tab.get 0 fired f),
      ctr := { c with
        lateFirings := c.lateFirings + (if 0 < late then 1 else 0), lateSum := c.lateSum + late,
        maxLate := max c.maxLate late } }

/-- The cell leaves on the entry's output (R154, R157). -/
def putCell (s e : Nat) (c : Cell) (ecc : WordChk) (p : Panel) : Panel :=
  let x := (p.getRtr s).entry e
  let o := Hop.out x
  let p := p.modRtr s fun r => { r with ctr := { r.ctr with forwarded := r.ctr.forwarded + 1 } }
  if o < 0x80 then sendCell s o (if Hop.mode x = 2 then c else CellF.withVc (Hop.ovc x) c) p
  else if isFabCode s o then egressPut (portOfDie s) (o - 0x90) c p
  else if o < 0xC0 then toCore s e c p
  else takeOperand s (o - 0xC0) c ecc p

/-- HOP_ENTRY_FIRE: the entry's next repetition fires when R156 holds and no entry before it may fire. A SERVICE entry with an empty queue fires with no
cell. `ecc` is what a merge store's check bits find where the entry completes a merge group (R195). -/
def execHopEntryFire (mesh e : Nat) (ecc : WordChk) (s : State) : Out :=
  s.runP (isMesh mesh) fun p =>
    if eligible p mesh e && firstEligible p mesh e then
      match cellAt p mesh e with
      | none => countFire mesh e p
      | some c => countFire mesh e (putCell mesh e c ecc (takeCell mesh e p))
    else p

/-- The next unread cell of a core track: its post and ordinal. -/
def nextRead (a : CoreA) (track : Nat) : Option (Post × Nat) :=
  a.posts.foldl (fun best q =>
    if q.send ∧ Dsc.track q.desc = track ∧ q.read < Dsc.cnt1 q.desc then
      match best with
      | some b => if q.ord0 + q.read < b.2 then some (q, q.ord0 + q.read) else best
      | none => some (q, q.ord0 + q.read)
    else best) none

/-- Cells that fill a track's 16-cell buffer: read, or being read (R61). -/
def bufLoad (p : Panel) (k track : Nat) : Nat :=
  (Tab.get [] (p.getRtr (siteOf k)).sendBuf (16 * coreOf k + track)).length
    + (waitingAccs (fun x => match x with | .send t _ _ _ _ _ => decide (t = track) | _ => false) (p.getCore k)).length

/-- SEND_PAYLOAD_READ of a track's next cell: on time at its bank cycle s - 8, later at unscheduled rank (R61, R158). -/
def execSendPayloadRead (k track : Nat) (ecc : Ecc) (s : State) : Out :=
  s.run (isCore k && decide (track < 16)) fun s =>
    let p := s.p
    let r := p.getRtr (siteOf k)
    match nextRead (p.getCore k).a track with
    | none => s
    | some (q, o) =>
      let at_ := r.ordCycle true (trackCode (coreOf k) track) o
      let x := q.base + 40 * q.read
      let took (p : Panel) : Panel := p.modA k fun a =>
        { a with posts := a.posts.map fun y => if y = q then { y with read := y.read + 1 } else y }
      if 16 ≤ bufLoad p k track ∨ r.cyc + 8 < at_ ∨ r.running = false then s
      else if r.cyc + 8 = at_ then
        let e := eccOn (touches x 40) ecc
        let d := leBytes 40 (readAs e.bad k (rankSend track) x 40 s)
        bumpFree (!e.bad.isEmpty) { s with
          p := eccRead k e 6 q.pc (sendReady k track o d (schedBanks k (banksOf x 40) (took p))) }
      else
        { s with
          p := askParts k .nDelayed x 40 (fun y i n => .send track o y i n q.pc)
            ((took p).modRtr (siteOf k) fun r => { r with ctr := { r.ctr with lateSends := r.ctr.lateSends + 1 } }) }

/-- Count a boundary discard (R163). -/
def boundaryBlocked (s : Nat) (p : Panel) : Panel :=
  dieRaise s 0 s 0x0603 none (p.modRtr s fun r => { r with ctr := { r.ctr with boundary := r.ctr.boundary + 1 } })

/-- A cell that reached a die whose region is frozen (R222). -/
def freezeDiscard (s : Nat) (p : Panel) : Panel :=
  match p.regionOf s with
  | some r => p.modReg r fun g => { g with lastCell := p.now, ctr := { g.ctr with discards := g.ctr.discards + 1 } }
  | none => p

/-- A cell of the region's has arrived while its freeze completes (R222). -/
def noteCell (s : Nat) (p : Panel) : Panel :=
  match p.regionOf s with
  | some r => p.modReg r fun g => if g.freezing then { g with lastCell := p.now } else g
  | none => p

/-- What becomes of a cell at an edge input. An edge die, which belongs to no partition, takes the cells of any (R153:
of this file's rules it shares the cell, the crossing and the credit rules; log 11) (R151, R163, R164, R167, R222, R448). A member that
packs up absorbs, but for service cells on their way to another die, which its transit domain goes on passing (R444, R445; DEDUCED, log
81). -/
def arrive (s code : Nat) (c : Cell) (p : Panel) : Panel :=
  let r := p.getRtr s
  let ty := CellF.typ c
  if 5 ≤ ty then
    dieRaise s 0 s 0x0602 none (p.modRtr s fun r => { r with ctr := { r.ctr with misdelivered := r.ctr.misdelivered + 1 } })
  else match transitOf r code with
    | some i =>
      if packing p s && decide (p.partOf s = some (fld (Tab.get 0 r.transit i) 27 24)) then absorb s p
      else if CellF.part c ≠ fld (Tab.get 0 r.transit i) 27 24 then boundaryBlocked s p
      else p.modRtr s fun r => { r with held := r.held ++ [(i, c)] }
    | none =>
      if packing p s ∧ ty ≤ 2 then absorb s p
      else if packing p s ∧ CellF.dstSite c = s then absorb s (answerCut c p)
      else if isCompute s ∧ ty ≤ 2 ∧ p.partOf s ≠ some (CellF.part c) then boundaryBlocked s p
      else if ty ≤ 2 ∧ (p.getDie s).frozen = true then freezeDiscard s p
      else
        let p := if ty ≤ 2 then noteCell s p else p
        p.modRtr s fun r => { r with
          inq := Tab.upd [] (8 * code + CellF.vc c) (· ++ [c]) r.inq,
          svcSince := if CellF.vc c = 7 then Tab.set (svcTag c) (p.getClk s).clk r.svcSince else r.svcSince }

/-- CELL_ARRIVAL of the oldest cell on its way from a link to its VC queue. -/
def execCellArrival (mesh code : Nat) (c : Cell) (s : State) : Out :=
  s.runP (isRouter mesh && isEdgeCode code && (dataEdges mesh).contains (code / 32)) fun p =>
    match Tab.get [] (p.getRtr mesh).wire code with
    | x :: t =>
      if x = c ∧ deadDie p mesh = false then arrive mesh code c (p.modRtr mesh fun r => { r with wire := Tab.set code t r.wire }) else p
    | [] => p

/-- The edge across which a die's edge leads, with the die (R13, R26). -/
def farEdge (s e : Nat) : Nat × Nat := ((farEnd s (32 * e)).1, (farEnd s (32 * e)).2 / 32)

/-- Has a receiver that expects flit `next` accepted flit `seq` (R169)? -/
def seqBefore (seq next : Nat) : Bool := decide ((next + 65535 - seq % 65536) % 65536 < 32768)

/-- The flits in a sender's replay buffer that the far end has not accepted. -/
def pendingFlits (p : Panel) (s e : Nat) : List Flit :=
  let f := farEdge s e
  (Tab.get link0 (p.getRtr s).link e).buf.filter fun x => !seqBefore x.seq (Tab.get link0 (p.getRtr f.1).link f.2).next

/-- Cells of a track and VC that the far end has not yet given up. -/
def outstanding (p : Panel) (s out vc : Nat) : Nat :=
  let f := farEnd s out
  let r := p.getRtr f.1
  let of (l : List (Nat × Cell)) : Nat := (l.filter fun c => decide (c.1 = out % 32) && decide (CellF.vc c.2 = vc)).length
  of (Tab.get [] (p.getRtr s).tx (out / 32)) + ((pendingFlits p s (out / 32)).map fun x => of x.cells).sum
    + ((Tab.get [] r.wire f.2).filter fun c => decide (CellF.vc c = vc)).length + (Tab.get [] r.inq (8 * f.2 + vc)).length
    + (r.held.filter fun h => decide (fld (Tab.get 0 r.transit h.1) 23 16 = f.2) && decide (CellF.vc h.2 = vc)).length

/-- Credits of a sender's track and VC that its far end owes: for cells given up, and not on their way yet (R168). -/
def owed (p : Panel) (s out vc : Nat) : Nat :=
  let f := farEnd s out
  let back := ((pendingFlits p f.1 (f.2 / 32)).flatMap (·.credits)) ++ (p.getRtr s).creditIn.map fun c => (c.1 % 256, if c.1 / 256 = out / 32 then c.2 else 0)
  sentOf (p.getRtr s) out vc - outstanding p s out vc - ((back.filter fun c => decide (c.1 = 8 * (out % 32) + vc)).map (·.2)).sum

/-- The credit returns of a die's next flit on an edge: up to 60 of up to 255 credits (R169). -/
def flitCredits (p : Panel) (s e : Nat) : List (Nat × Nat) :=
  let f := farEdge s e
  (((List.range 256).map fun i => (i, min 255 (owed p f.1 (32 * f.2 + i / 8) (i % 8)))).filter fun c => decide (0 < c.2)).take 60

/-- A die's next new flit on an edge: up to 40 cells, in the order in which they left the router, with its credits and the number
it acknowledges (R169; log 59). -/
def nextFlit (p : Panel) (s e : Nat) : Flit :=
  let l := Tab.get link0 (p.getRtr s).link e
  ⟨l.txSeq, (l.next + 65535) % 65536, (Tab.get [] (p.getRtr s).tx e).take 40, flitCredits p s e⟩

/-- It leaves, and stays in the replay buffer. -/
def sendFlit (s e : Nat) (x : Flit) (p : Panel) : Panel :=
  p.modRtr s fun r => { r with
    tx := Tab.upd [] e (·.drop x.cells.length) r.tx,
    link := Tab.upd link0 e (fun l => { l with txSeq := (l.txSeq + 1) % 65536, buf := l.buf ++ [x] }) r.link }

/-- The flit of a number that a die sends on an edge: a new one where the number is next and the replay buffer has room, else one
of the buffer (R169). -/
def flitOf (s e seq : Nat) (p : Panel) : Option Flit × Panel :=
  let l := Tab.get link0 (p.getRtr s).link e
  if seq = l.txSeq ∧ l.buf.length < 64 then (some (nextFlit p s e), sendFlit s e (nextFlit p s e) p)
  else (l.buf.find? fun x => decide (x.seq = seq), p)

/-- A flit is accepted: its cells go on to their VC queues, its credits to be counted, and what it acknowledges leaves the replay
buffer (R169). -/
def acceptFlit (s e : Nat) (x : Flit) (p : Panel) : Panel :=
  p.modRtr s fun r => { r with
    wire := each x.cells (fun c t => Tab.upd [] (32 * e + c.1) (· ++ [c.2]) t) r.wire,
    creditIn := r.creditIn ++ x.credits.map fun c => (256 * e + c.1, c.2),
    link := Tab.upd link0 e (fun l => { l with buf := l.buf.filter fun y => !seqBefore y.seq ((x.ack + 1) % 65536) }) r.link }

/-- CREDIT_RETURN: `n` credits of a track and VC, which an accepted flit has brought, are counted at the sender (R168). -/
def execCreditReturn (mesh out vc n : Nat) (s : State) : Out :=
  s.runP (isRouter mesh && isEdgeCode out && decide (vc < 8)) fun p =>
    if (8 * out + vc, n) ∈ (p.getRtr mesh).creditIn then
      p.modRtr mesh fun r => { r with
        creditIn := r.creditIn.erase (8 * out + vc, n), sent := Tab.upd 0 (8 * out + vc) (· - n) r.sent }
    else p

/-- The latch key of a link direction: its limits run by themselves (R176). -/
def keyLink (s e : Nat) : Nat := 0x8000 + 4 * s + e

/-- A replay of a link direction begins: counted, and raised within its limits (R169). -/
def linkReplay (mesh edge : Nat) (p : Panel) : Panel :=
  let sec := spanIdx .second p.now
  let p := p.modRtr mesh fun r =>
    { r with
      link := Tab.upd link0 edge (fun l =>
        { l with
          replays := l.replays + 1, waiting := true, perSec := if l.sec = sec then l.perSec + 1 else 1, sec := sec }) r.link }
  let p := dieRaise mesh 0 (keyLink mesh edge) 0x0604 none p
  if cfg p 0x7008 2 1 < (Tab.get link0 (p.getRtr mesh).link edge).perSec then dieRaise mesh 0 (keyLink mesh edge) 0x0605 none p else p

/-- A flit at its receiver: `ok` is what its CRC finds; `ns` is how long a replay that it ends has taken (R169). One that fails is
dropped, with every one after it until the replay of its number. -/
def receiveFlit (mesh edge : Nat) (x : Flit) (ok : Bool) (ns : Nat) (p : Panel) : Panel :=
  let l := Tab.get link0 (p.getRtr mesh).link edge
  let put (f : Link → Link) (p : Panel) : Panel := p.modRtr mesh fun r => { r with link := Tab.upd link0 edge f r.link }
  if ok then
    if x.seq = l.next then
      acceptFlit mesh edge x (put (fun l =>
        { l with
          flits := l.flits + 1, next := (l.next + 1) % 65536, waiting := false, fails := 0,
          longest := if l.waiting then max l.longest ns else l.longest }) p)
    else put (fun l => { l with flits := l.flits + 1 }) p
  else
    let p := put (fun l => { l with flits := l.flits + 1, crc := l.crc + 1 }) p
    if l.waiting then
      if x.seq = l.next then
        if 16 ≤ l.fails + 1 then
          dieRaise mesh 0 mesh 0x0606 none (put (fun l => { l with fails := l.fails + 1, failed := true }) p)
        else linkReplay mesh edge (put (fun l => { l with fails := l.fails + 1 }) p)
      else p
    else linkReplay mesh edge p

/-- LINK_FLIT_RECEIVE (R169): the flit of the far die with the number `seq` that acknowledges `ack` comes in, new or out of its replay
buffer, one a nanosecond. -/
def execLinkFlitReceive (mesh edge seq ack : Nat) (ok : Bool) (ns : Nat) (s : State) : Out :=
  s.runP (isRouter mesh && (dataEdges mesh).contains edge) fun p =>
    let f := farEdge mesh edge
    if linkDisabled p mesh (32 * edge) ∨ p.clk.vco < (Tab.get link0 (p.getRtr f.1).link f.2).txAt then p
    else
      let q := flitOf f.1 f.2 seq p
      match q.1 with
      | none => p
      | some x =>
        if x.ack ≠ ack then p
        else receiveFlit mesh edge x ok ns
          (q.2.modRtr f.1 fun r => { r with link := Tab.upd link0 f.2 (fun l => { l with txAt := p.clk.vco + 10 }) r.link })

/-- TRANSIT_FORWARD of the oldest cell an entry holds, where its output has credit; counted while its die is reset (R164, R455). -/
def execTransitForward (cs i : Nat) (s : State) : Out :=
  s.runP (isCompute cs && decide (i < 32)) fun p =>
    let r := p.getRtr cs
    match r.held.find? fun h => decide (h.1 = i) with
    | none => p
    | some h =>
      let out := fld (Tab.get 0 r.transit i) 15 8
      if canSend p cs out (CellF.vc h.2) then
        let p := if (Tab.find? p.rst cs).isSome then p.modRctr cs fun c => { c with transit := c.transit + 1 } else p
        sendCell cs out h.2 (p.modRtr cs fun r => { r with held := r.held.erase h, ctr := { r.ctr with forwarded := r.ctr.forwarded + 1 } })
      else p

/-- NET_STALLED: an entry whose lateness has reached the network wait limit is recorded; its region freezes on the
report (R172, R220). -/
def execNetStalled (mesh e : Nat) (s : State) : Out :=
  s.runP (isMesh mesh) fun p =>
    let r := p.getRtr mesh
    if r.running ∧ r.has e ∧ r.firedOf e < Seg.reps r.desc ∧ r.stalled = none
        ∧ entryCycle r e + dieCfg p mesh 0x7008 0 ≤ r.cyc then
      dieRaise mesh 0 mesh 0x0607 none (p.modRtr mesh fun r => { r with stalled := some (e, r.firedOf e) })
    else p

end Sys2Proof.Machine
end

