-- ==== Sys2Proof/Machine/StackBase.lean ====
section
/-! DEFINITION. Shared operations on a stack: the layers of a row word (R124, R125), its classification and correction
(R126-R128), retirement (R138-R140), the cipher (R144), and the hold-up-checked store in MRAM (R394, R395). -/

namespace Sys2Proof.Machine

namespace Row

/-- Fields of a row word index W = A[35:8] (R124). -/
def row (w : Nat) : Nat := w / 4096 % 65536
def bank (w : Nat) : Nat := w / 128 % 32
def col (w : Nat) : Nat := w / 16 % 8
def ch (w : Nat) : Nat := w % 16

end Row

/-- The layers that hold the parity lane's class, and the parity lane's layer, of a row (R125). -/
def parityLayer (layers row : Nat) : Nat := if layers = 9 then row % 9 else 4 * (row % 3) + row / 3 % 4
/-- The layers of the eight data lanes, lane 0 first (R125). -/
def dataLayers (layers row : Nat) : List Nat :=
  if layers = 9 then (List.range 9).filter fun l => decide (l ≠ row % 9)
  else (List.range 12).filter fun l => decide (l / 4 ≠ row % 3)
/-- The layer of a lane, parity being lane 8. -/
def laneLayer (layers row lane : Nat) : Nat :=
  if lane = 8 then parityLayer layers row else (dataLayers layers row).getD lane 0

namespace Spare

/-- Fields of a spare-map entry (R140). -/
def v (e : BitVec 64) : Bool := bit e 63
def pmask (e : BitVec 64) : Nat := fld e 62 55
def spare (e : BitVec 64) : Nat := fld e 47 46
def layer (e : BitVec 64) : Nat := fld e 43 40
def row (e : BitVec 64) : Nat := fld e 31 16
def bank (e : BitVec 64) : Nat := fld e 12 8
def ch (e : BitVec 64) : Nat := fld e 3 0
/-- An entry that is not yet in force. -/
def mk (pmask origin spare layer row bank ch : Nat) : BitVec 64 :=
  BitVec.ofNat 64 (pmask * 2 ^ 55 + origin * 2 ^ 48 + spare * 2 ^ 46 + layer * 2 ^ 40 + row * 2 ^ 16 + bank * 2 ^ 8 + ch)
def withPmask (m : Nat) (e : BitVec 64) : BitVec 64 := BitVec.ofNat 64 (e.toNat - pmask e * 2 ^ 55 + m * 2 ^ 55)
def force (b : Bool) (e : BitVec 64) : BitVec 64 :=
  BitVec.ofNat 64 (e.toNat % 2 ^ 63 + (if b then 2 ^ 63 else 0))
/-- Does an entry stand for the row of a row word in some layer? -/
def covers (w : Nat) (e : BitVec 64) : Bool :=
  decide (row e = Row.row w) && decide (bank e = Row.bank w) && decide (ch e = Row.ch w)

end Spare

/-- Is a row word poisoned: does an entry in force carry its poison bit (R128)? -/
def poisoned (k : Stack) (w : Nat) : Bool :=
  k.spare.any fun e => Spare.v e.2 && Spare.covers w e.2 && (Spare.pmask e.2).testBit (Row.col w)

/-- Clear the poison bits of a row word in the map and in the entries being prepared (R128). -/
def unpoison (w : Nat) (k : Stack) : Stack :=
  let off (e : BitVec 64) : BitVec 64 :=
    if Spare.covers w e && (Spare.pmask e).testBit (Row.col w) then Spare.withPmask (Spare.pmask e - 2 ^ Row.col w) e else e
  { k with
    spare := k.spare.map fun e => (e.1, off e.2), retiring := k.retiring.map fun r => { r with entry := off r.entry } }

/-- Entries in force. -/
def inForce (k : Stack) : List (Nat × BitVec 64) := k.spare.filter fun e => Spare.v e.2

/-- Raise a stack's event from its die. -/
def stackRaise (s ev : Nat) (d : Dat) (p : Panel) : Panel := dieRaise s 0 (keyStack s) ev d p

/-- The decision to retire a layer's row (R139, step 1): a free spare row and a free entry, or SPARE_EXHAUSTED. A row
whose retirement is under way is left to it. `pois` is the mask of poison bits to add. -/
def retire (s layer w origin pois : Nat) (p : Panel) : Panel :=
  let k := p.getStk s
  let same (e : BitVec 64) : Bool := decide (Spare.layer e = layer) && Spare.covers w e
  let key := (layer * 16 + Row.ch w) * 32 + Row.bank w
  let n := Tab.get 0 k.used key
  let old := List.find? (fun e : Nat × BitVec 64 => Spare.v e.2 && same e.2) k.spare
  let slot := (List.range 4096).find? fun i =>
    !Spare.v (Tab.get 0 k.spare i) && !(k.retiring.any fun r => decide (r.slot = i))
  if k.retiring.any fun r => same r.entry then
    p.modStk s fun k => { k with
      retiring := k.retiring.map fun r => if same r.entry then { r with entry := Spare.withPmask (Spare.pmask r.entry ||| pois) r.entry } else r }
  else match slot with
    | none => stackRaise s 0x0405 none (p.modStk s fun k => { k with ctr := { k.ctr with exhausted := k.ctr.exhausted + 1 } })
    | some i =>
      if 4 ≤ n then
        stackRaise s 0x0405 none (p.modStk s fun k => { k with ctr := { k.ctr with exhausted := k.ctr.exhausted + 1 } })
      else
        let m := pois ||| (match old with | some e => Spare.pmask e.2 | none => 0)
        p.modStk s fun k => { k with
          used := Tab.set key (n + 1) k.used,
          retiring := k.retiring ++ [⟨i, Spare.mk m origin n layer (Row.row w) (Row.bank w) (Row.ch w), old.map (·.1)⟩] }

/-- Is a tracker entry that of a layer's row? -/
def Track.is (t : Track) (layer w : Nat) : Bool :=
  decide (t.ch = Row.ch w) && decide (t.bank = Row.bank w) && decide (t.row = Row.row w) && decide (t.layer = layer)

/-- The tracker entry with the oldest first tick. -/
def oldestTrack : List Track → Option Track
  | [] => none
  | t :: ts => match oldestTrack ts with
    | none => some t
    | some u => if u.first < t.first then some u else some t

/-- Count a correction against a layer's row; at the threshold within the window the row retires (R138). -/
def track (s layer w : Nat) (p : Panel) : Panel :=
  let k := p.getStk s
  let thr := cfg p 0x6025 0 1
  let win := cfg p 0x6025 0 2
  match k.tracker.find? (·.is layer w) with
  | some t =>
    let n := if p.now < t.first + win then t.count + 1 else 1
    let t' : Track := { t with count := n, first := if n = 1 then p.now else t.first }
    let p := p.modStk s fun k => { k with tracker := k.tracker.map fun x => if x.is layer w then t' else x }
    if thr ≤ n then retire s layer w 1 0 p else p
  | none =>
    let t : Track := ⟨Row.ch w, Row.bank w, Row.row w, layer, 1, p.now⟩
    let full := decide (1024 ≤ k.tracker.length)
    let rest := match oldestTrack k.tracker with
      | some o => if full then k.tracker.erase o else k.tracker
      | none => k.tracker
    let p := p.modStk s fun k => { k with
      tracker := rest ++ [t], ctr := { k.ctr with replaced := k.ctr.replaced + if full then 1 else 0 } }
    let p := if full then stackRaise s 0x0406 none p else p
    if thr ≤ 1 then retire s layer w 1 0 p else p

/-- The requester code of R149. -/
def Requester.code : Requester → Nat
  | .core => 0 | .sra => 1 | .sieve => 2 | .ga => 3 | .scrub => 4

/-- How a row word's lane checks come out (R127): a poisoned row word is uncorrectable (R128). -/
def classify (pois : Bool) (c : RowChk) : RowOutcome :=
  let n := (bitsSet 9 c.fails.toNat).length
  if pois then .uncorr
  else if n = 0 then .clean
  else if n = 1 then (if bit c.fails 8 then .parity else if c.rebuilt then .rebuilt else .uncorr)
  else .uncorr

/-- Take the outcome of a read's lane checks: counts, the tracker, write-back and retirement (R127, R128, R137, R138). A
run-ahead read counts for nothing (R71); a core's own uncorrectable read is raised where it is delivered (R128). -/
def rowCheck (s w : Nat) (rq : Requester) (core : Nat) (c : RowChk) (p : Panel) : RowOutcome × Panel :=
  let pois := poisoned (p.getStk s) w
  let o := classify pois c
  let layers := variantLayers p.variant
  let err (kind : Nat) (p : Panel) : Panel :=
    p.modStk s fun k => { k with err := ⟨kind, 256 * w, c.fails.toNat, rq.code, core, p.now⟩ }
  match o with
  | .clean => (o, p)
  | .unchecked => (o, p)
  | .uncorr =>
    if rq = .sra then (o, p)
    else
      let p := err 2 (p.modStk s fun k => { k with ctr := { k.ctr with uncorr := k.ctr.uncorr + 1 } })
      let p := if rq = .core then p else stackRaise s 0x0402 none p
      let lanes := bitsSet 9 c.fails.toNat
      (o, if pois then p else each lanes (fun l => retire s (laneLayer layers (Row.row w) l) w 2 (2 ^ Row.col w)) p)
  | _ =>
    let p := p.modStk s fun k => { k with writeback := if k.writeback.contains w then k.writeback else k.writeback ++ [w] }
    if rq = .sra then (o, p)
    else
      let p := err 1 (p.modStk s fun k => { k with ctr := { k.ctr with corrected := k.ctr.corrected + 1 } })
      let p := stackRaise s 0x0401 none p
      let lane := (bitsSet 9 c.fails.toNat).headD 0
      (o, track s (laneLayer layers (Row.row w) lane) w p)

/-- The range that holds a row word: its owner (R144). -/
def rangeOf (k : Stack) (w : Nat) : Option Nat :=
  (k.ranges.find? fun r => decide (r.base * rangeUnit ≤ w) && decide (w < r.limit * rangeUnit)).map (·.part)
/-- The key in use for a row word; a cleared register reads 0. -/
def keyOf (k : Stack) (w : Nat) : Nat := match rangeOf k w with | some n => Tab.get 0 k.keys n | none => 0
/-- The tweak of a row word (R144). -/
def tweakOf (s w : Nat) : Nat := s * 2 ^ 32 + w

/-- What a read of a row word returns (R123, R144). Memory holds the plaintext last written, and `tags` the key it was enciphered
under: under that key the cipher gives it back, under another it deciphers what was stored. A row word not written since
bring-up's fill holds zero bytes. -/
def stackWord (p : Panel) (m : Mem) (s w : Nat) : Nat :=
  let k := p.getStk s
  let x := m.num (gaStack s (256 * w)) 256
  match Tab.find? k.tags w with
  | some t => if t = keyOf k w then x else xtsDecrypt (keyOf k w) (tweakOf s w) (xtsEncrypt t (tweakOf s w) x)
  | none => xtsDecrypt (keyOf k w) (tweakOf s w) 0

/-- Lane `i` of a stored row word; lane 8 is the parity lane, the exclusive or of the others (R125). -/
def laneOf (x i : Nat) : Nat := if i < 8 then x / 2 ^ (256 * i) % 2 ^ 256 else (lanes 256 8 x).foldl (· ^^^ ·) 0
/-- The lane check over the row word's index, the lane's number and its bytes as stored (R126). -/
def laneCheck (w i lane : Nat) : Nat := (crcHost (leBytes 4 w ++ leBytes 1 i ++ leBytes 32 lane)).toNat

/-- The check logic on a row word whose plaintext is `x` under the key in use (R126, R127): the nine lanes and their checks as
they come back, the lanes whose check fails, and where that is one data lane the lane rebuilt from the others. A fault that no
check shows is delivered. -/
def checkRow (k : Stack) (s w x : Nat) (e : RowErr) : RowChk :=
  if e = [] then ⟨0, true, x⟩
  else
    let stored := xtsEncrypt (keyOf k w) (tweakOf s w) x
    let err (i : Nat) : LaneErr := (e.find? fun l => decide (l.lane = i)).getD ⟨i, 0, 0⟩
    let read (i : Nat) : Nat := laneOf stored i ^^^ (err i).data.toNat
    let check (i : Nat) : Nat := laneCheck w i (laneOf stored i) ^^^ (err i).check.toNat
    let bad := (List.range 9).filter fun i => decide (laneCheck w i (read i) ≠ check i)
    let rebuilt (i : Nat) : Nat := (((List.range 9).filter fun j => decide (j ≠ i)).map read).foldl (· ^^^ ·) 0
    let good : Bool := match bad with | [i] => decide (laneCheck w i (rebuilt i) = check i) | _ => false
    let lane (i : Nat) : Nat := if good && bad.contains i then rebuilt i else read i
    let y := unlanes 256 ((List.range 8).map lane)
    ⟨BitVec.ofNat 9 (ofBits bad), good, if y = stored then x else xtsDecrypt (keyOf k w) (tweakOf s w) y⟩

/-- The faults of an access as its check logic takes them. -/
def checkRows (p : Panel) (m : Mem) (s : Nat) (l : RowErrs) : RowChks :=
  l.map fun e => (e.1, checkRow (p.getStk s) s e.1 (stackWord p m s e.1) e.2)

/-- What a read delivers of a row word. -/
def rowData (rows : RowChks) (p : Panel) (m : Mem) (s w : Nat) : Nat :=
  match List.find? (fun e : Nat × RowChk => decide (e.1 = w)) rows with
  | some e => e.2.data
  | none => stackWord p m s w

/-- The row words that [a, a + n) touches. -/
def rowWords (a n : Nat) : List Nat :=
  if n = 0 then [] else (List.range ((a + n - 1) / 256 - a / 256 + 1)).map (a / 256 + ·)

/-- `n` bytes of a stack from byte `a`; `rows` are the row words whose lanes a fault reaches. -/
def stackRead (rows : RowChks) (p : Panel) (m : Mem) (s a n : Nat) : List Byte :=
  (((rowWords a n).flatMap fun w => leBytes 256 (rowData rows p m s w)).drop (a % 256)).take n

/-- A row word has been written: its key, its poison and its write-back (R128, R137, R144). -/
def noteWrite (s : Nat) (whole : Bool) (w : Nat) (p : Panel) : Panel :=
  p.modStk s fun k =>
    let k := { k with tags := Tab.set w (keyOf k w) k.tags, writeback := k.writeback.filter fun x => decide (x ≠ w) }
    if whole then unpoison w k else k

/-- Write one row word whole. -/
def stackPutWord (s w x : Nat) (t : State) : State :=
  { t with mem := t.mem.setNum (gaStack s (256 * w)) 256 x, p := noteWrite s true w t.p }

/-- Write bytes of a stack; a part of a row word is read, changed and written (R126). -/
def stackWrite (rows : RowChks) (s a : Nat) (data : List Byte) (t : State) : State :=
  each (rowWords a data.length) (fun w t =>
    let lo := max a (256 * w)
    let hi := min (a + data.length) (256 * w + 256)
    let old := leBytes 256 (rowData rows t.p t.mem s w)
    let new := old.take (lo - 256 * w) ++ (data.drop (lo - a)).take (hi - lo) ++ old.drop (hi - 256 * w)
    { t with
      mem := t.mem.writeL (gaStack s (256 * w)) new, p := noteWrite s (decide (hi - lo = 256)) w t.p }) t

/-- Estimates of R394, in microjoules. -/
def estMram (bytes : Nat) : Nat := 50000 * max 1 (ceilDiv bytes 65536)
def estNor : Nat := 350000

/-- The hold-up check of R394: ½ C (V² − 6.0²) at least 1.5 times the estimate, C in µF and V in mV. -/
def holdupOk (p : Panel) (est : Nat) : Bool :=
  decide (3 * est * 10 ^ 6 ≤ min 12000 p.pwr.bankC * (p.pwr.bank * p.pwr.bank - 6000 * 6000))

/-- A refused commit is counted and raised (R394). -/
def holdupRefuse (est : Nat) (p : Panel) : Panel :=
  raise 0x0107 p.activeHub keyPanel none (p.modPwr fun w => { w with checked := w.checked + 1, refused := w.refused + 1, lastEst := est })

/-- The bytes of a record's body. -/
def nvBytes (body : List (Nat × List Byte)) : List Byte := body.flatMap (·.2)
def nvSlots (p : Panel) (id : Nat) : NvSlot × NvSlot := Tab.get default p.pwr.nv id

/-- A slot's header: MARK, ID, SEQ, LEN, zeros, and the CRC-32C over these 16 bytes and the body (R395). -/
def nvHeader (id seq : Nat) (body : List (Nat × List Byte)) : List Byte :=
  let b := nvBytes body
  let h := leBytes 2 0x5244 ++ leBytes 2 id ++ leBytes 4 seq ++ leBytes 4 b.length ++ leBytes 4 0
  h ++ leBytes 4 (crcHost (h ++ b)).toNat ++ leBytes 12 0

/-- SEQ of a slot's header. -/
def NvSlot.seq (x : NvSlot) : Nat := leNat ((x.hdr.drop 4).take 4)
/-- Is a slot of record `id` valid: MARK, ID and CRC match (R395)? -/
def NvSlot.valid (id : Nat) (x : NvSlot) : Bool := decide (x.hdr = nvHeader id x.seq x.body)

/-- Is slot `x` the newer of two of record `id` (R395)? -/
def newer (id : Nat) (x y : NvSlot) : Bool :=
  let d := (x.seq + 2 ^ 32 - y.seq) % 2 ^ 32
  x.valid id && (!y.valid id || (decide (1 ≤ d) && decide (d < 2 ^ 31)))
/-- The newest valid copy of a record (R395). -/
def nvNewest (p : Panel) (id : Nat) : Option NvSlot :=
  let x := nvSlots p id
  if newer id x.1 x.2 then some x.1 else if x.2.valid id then some x.2 else none

/-- Record identifiers: one per persistent index area, the calibration set, the floor plan, a die's training, a stack's
spare map (R430; the numbers are the model's, log 12). -/
def recArea (i : Nat) : Nat := i / 0x1000
def recCalib : Nat := 0x20
def recMap : Nat := 0x30
def recTrain (s band : Nat) : Nat := 0x1000 + 8 * s + band
def recSpare (s : Nat) : Nat := 0x2000 + s

/-- The record that a persistent object is stored in: the calibration set, or its area's (R395, R430, R434). -/
def recOf (key : Nat) : Nat :=
  let i := key / 256
  if i = 0xC001 ∨ i = 0xC002 ∨ i = 0xC003 then recCalib else recArea i

/-- The body of a record of persistent objects: the values in force with those to come over them; the calibration set's
begins with its origin, write count and tick (R348, R434). -/
def objectBody (p : Panel) (id : Nat) (puts : List (Nat × List Byte)) : List (Nat × List Byte) :=
  let pers (k : Nat) : Bool := match odRow p.variant (k / 256) (k % 256) with | some r => r.pers | none => false
  let kept : Tab (List Byte) := p.od.val.filter fun e => decide (recOf e.1 = id) && pers e.1
  let t := (puts.filter fun e => pers e.1).foldl (fun t e => Tab.set e.1 e.2 t) kept
  if id = recCalib then
    (0, leBytes 1 1 ++ leBytes 4 (p.boot.calib.writes + 1) ++ leBytes 8 p.now) :: t
  else t

/-- Begin the oldest write: its body, its SEQ, the hold-up check. The flag says whether it could (R394, R395). -/
def nvBegin (w : NvWrite) (p : Panel) : Bool × NvWrite × Panel :=
  let body := if w.id ≤ recCalib then objectBody p w.id w.job.puts else w.body
  let est := estMram (nvBytes body).length
  if holdupOk p est then
    let seq := match nvNewest p w.id with | some x => (x.seq + 1) % 2 ^ 32 | none => 1
    (true, { w with body := body, seq := seq, begun := true }, p.modPwr fun x => { x with checked := x.checked + 1 })
  else (false, w, holdupRefuse est p)

/-- Ask for a record's write: it begins at once where none is under way, and is refused where the hold-up check fails; else it
waits its turn and is checked then (R394). -/
def nvEnter (w : NvWrite) (p : Panel) : Bool × Panel :=
  if p.pwr.writes.isEmpty then
    let r := nvBegin w p
    if r.1 then (true, r.2.2.modPwr fun x => { x with writes := [r.2.1] }) else (false, r.2.2)
  else (true, p.modPwr fun x => { x with writes := x.writes ++ [w] })

/-- A store of the hub's own. -/
def nvStart (id : Nat) (body : List (Nat × List Byte)) (p : Panel) : Bool × Panel := nvEnter ⟨id, 0, body, false, job0⟩ p
/-- A store of persistent objects, with what waits for it. -/
def nvAsk (id : Nat) (job : NvJob) (p : Panel) : Bool × Panel := nvEnter ⟨id, 0, [], false, job⟩ p


/-- Entries in force on all stacks. -/
def allSpares (p : Panel) : Nat := (p.stk.map fun e => (inForce e.2).length).sum

/-- Store a stack's spare map (R139, step 5; R430). -/
def storeSpares (s : Nat) (p : Panel) : Panel :=
  let body := [(0, (inForce (p.getStk s)).flatMap fun e => leBytes 8 e.2.toNat)]
  let no (p : Panel) : Panel := raise 0x040A s (keyStack s) none (p.modStk s fun k => { k with mapPending := true })
  if 453568 < allSpares p then no p
  else
    let r := nvStart (recSpare s) body p
    if r.1 then r.2.modStk s fun k => { k with mapPending := false } else no r.2

end Sys2Proof.Machine
end

