-- ==== Sys2Proof/Machine/StackOps.lean ====
section
/-! DEFINITION. The stack port, checks, refresh, retirement, thermal coupling and the KV page map (R123-R149). -/

namespace Sys2Proof.Machine

/-- A row word that a core presents and that has not been granted (R130): its order among the die's requests, and what
it is. -/
structure Cand where
  age : Nat
  core : Nat
  eng : Nat
  sid : Nat
  unit : Nat
  idx : Nat
  deriving DecidableEq, Repr

/-- Row words of a unit. -/
def wordsOf (st : Stream) : Nat := Dsc.unit st.desc / 256

/-- The run cycle in which a unit is presented (R130). -/
def presentAt (st : Stream) (u : Nat) : Nat :=
  st.start + (if Dsc.kind st.desc = 1 then 4 else 0) + u * (Dsc.pace st.desc + 1)

/-- Units presented by now: kind 1 as its units leave the scratchpad (R130). -/
def presented (st : Stream) (rc : Nat) : Nat :=
  if Dsc.kind st.desc = 1 then st.delivered
  else if st.dead ∨ rc < st.start then 0
  else min (Dsc.units st.desc) ((rc - st.start) / (Dsc.pace st.desc + 1) + 1)

/-- The row words that a core's stream has presented and not been granted. -/
def streamCands (c rc : Nat) (st : Stream) : List Cand :=
  let kd := Dsc.kind st.desc
  if kd = 0 ∨ kd = 1 ∨ kd = 5 then
    ((List.range (presented st rc * wordsOf st - st.granted)).map (st.granted + ·)).filterMap fun i =>
      if st.ahead.contains i then none
      else some ⟨presentAt st (i / wordsOf st), c, st.eng, st.sid, i / wordsOf st, i % wordsOf st⟩
  else []

/-- The order of R130 and R131: age, core, L0 before L1, issue order, then ascending address order. -/
def Cand.before (x y : Cand) : Bool :=
  let kx := (((((x.age * 4 + x.core) * 2 + x.eng) * 2 ^ 40 + x.sid) * 2 ^ 40 + x.unit) * 64 + x.idx)
  let ky := (((((y.age * 4 + y.core) * 2 + y.eng) * 2 ^ 40 + y.sid) * 2 ^ 40 + y.unit) * 64 + y.idx)
  decide (kx ≤ ky)
def insertCand (x : Cand) : List Cand → List Cand
  | [] => [x]
  | y :: t => if x.before y then x :: y :: t else y :: insertCand x t
def sortCands : List Cand → List Cand
  | [] => []
  | x :: t => insertCand x (sortCands t)

/-- Candidates of a die's cores, in order. -/
def dieCands (p : Panel) (s : Nat) : List Cand :=
  sortCands ((List.range 4).flatMap fun c =>
    let a := (p.getCore (4 * s + c)).a
    a.streams.flatMap (streamCands c a.rc))

def streamOf (p : Panel) (k sid : Nat) : Option Stream := (p.getCore k).a.streams.find? fun st => decide (st.sid = sid)

/-- The stack address field of a unit: the form of R145, unit address formed first. -/
def unitField (st : Stream) (u : Nat) : Nat :=
  ((((if Dsc.kind st.desc = 1 then st.dst else st.src) : Nat) : Int) + Dsc.off st.desc u).toNat

/-- Translate a unit (R146): its physical base, or none where it faults; a unit of physical form needs no translation. -/
def translate (p : Panel) (k : Nat) (st : Stream) (u : Nat) : Option Nat :=
  let f := unitField st u
  let c := p.getCore k
  if f < 2 ^ 36 then some f
  else
    let e := Tab.get 0 c.kvmap (nfld f 31 16)
    let a := (fld e 19 0 + nfld f 55 48 * c.pstride) * 65536 + nfld f 15 0
    if bit e 31 ∧ (Dsc.kind st.desc ≠ 1 ∨ bit e 30) ∧ nfld f 15 0 + Dsc.unit st.desc ≤ 65536
        ∧ c.base.toNat ≤ a ∧ a + Dsc.unit st.desc ≤ c.limit.toNat + 1 then some a
    else none

/-- The physical base of a candidate's unit: fixed at its first grant. -/
def candBase (p : Panel) (k : Nat) (st : Stream) (u : Nat) : Option Nat :=
  match Tab.find? st.base u with
  | some a => some a
  | none => translate p k st u

/-- A unit that fails translation: the core faults and the stream presents no further unit; a run-ahead read's slot becomes
POISON, and the page faults of R149 do not count it (R70, R72, R146; DESIGN CHOICE, log 53). -/
def kvFault (k : Nat) (st : Stream) (p : Panel) : Panel :=
  if Dsc.kind st.desc = 5 then
    p.modA k fun a =>
      { a with
        stage := Tab.upd stage0 st.slot (fun g => if g.sid = st.sid then { g with st := .poison } else g) a.stage,
        streams := a.streams.filter fun x => !decide (x.sid = st.sid),
        ra := { a.ra with poisoned := a.ra.poisoned + 1 } }
  else
    let p := p.modA k fun a => { a with
      streams := a.streams.filter fun x => !decide (x.sid = st.sid), kv := { a.kv with faults := a.kv.faults + 1 } }
    coreFault k 0x0404 (4 + st.eng) st.pc p

/-- Mark a stream's row word granted; its unit's base is kept. -/
def markGranted (st : Stream) (u i base : Nat) : Stream :=
  let n := u * wordsOf st + i
  let ahead := n :: st.ahead
  let g := (List.range (st.ahead.length + 1)).foldl (fun g _ => if ahead.contains g then g + 1 else g) st.granted
  { st with granted := g, ahead := ahead.filter fun x => decide (g ≤ x), base := Tab.set u base st.base }

/-- One pass's running totals: grants per core, deferred row words, and the writes and reads to perform. -/
structure Pass where
  p : Panel
  count : Tab Nat
  deferred : List (Nat × Nat)
  writes : List (Nat × Nat)
  reads : List RowReq
  deriving DecidableEq, Repr

/-- Does the bank rule of R131 let a request in, and the pair's record after it. -/
def bankRule (k : Stack) (w rc : Nat) : Option (Nat × Nat × Nat) :=
  let x := Tab.get (0, 0, 0) k.rows (32 * Row.ch w + Row.bank w)
  let n := if x.2.1 = rc / 64 then x.2.2 else 0
  if x.1 = Row.row w + 1 then some (x.1, rc / 64, n)
  else if n = 0 then some (Row.row w + 1, rc / 64, 1)
  else none

/-- Channels granted in the span of a run cycle. -/
def spanChannels (k : Stack) (rc : Nat) : List Nat := if k.granted.1 = rc / 8 then k.granted.2 else []

/-- A word waits for its core's share, its channel's or its bank's: one of the three counters takes it (R130, R131, R149;
log 46). -/
def bumpDefer (s : Nat) (ch bank : Nat) (p : Panel) : Panel :=
  p.modStk s fun k => { k with
    ctr := { k.ctr with deferred := k.ctr.deferred + (1 - ch - bank), chan := k.ctr.chan + ch, bank := k.ctr.bank + bank } }

/-- Consider one candidate (R129-R131). -/
def grantOne (s : Nat) (x : Pass) (c : Cand) : Pass :=
  let k := 4 * s + c.core
  let p := x.p
  match streamOf p k c.sid with
  | none => x
  | some st =>
    let rc := (p.getCore k).a.rc
    let n := Tab.get 0 x.count c.core
    if (if rc % 2 = 0 then 3 else 2) ≤ n then { x with p := bumpDefer s 0 0 p }
    else match candBase p k st c.unit with
      | none => { x with p := kvFault k st p }
      | some base =>
        let w := base / 256 + c.idx
        let stk := p.getStk s
        if x.deferred.contains (c.core, w) then { x with p := bumpDefer s 0 0 p }
        else if 5 ≤ ((spanChannels stk rc).filter fun h => decide (h = Row.ch w)).length then
          { x with p := bumpDefer s 1 0 p, deferred := (c.core, w) :: x.deferred }
        else match bankRule stk w rc with
          | none => { x with p := bumpDefer s 0 1 p, deferred := (c.core, w) :: x.deferred }
          | some row =>
            let fresh := decide (Tab.find? st.base c.unit = none) && decide (2 ^ 36 ≤ unitField st c.unit)
            let st' := markGranted st c.unit c.idx base
            let kd := Dsc.kind st.desc
            let p := p.modStk s fun y => { y with
              granted := (rc / 8, Row.ch w :: spanChannels y rc), rows := Tab.set (32 * Row.ch w + Row.bank w) row y.rows }
            let p := p.modA k fun a =>
              let a := { a with kv := { a.kv with units := a.kv.units + if fresh then 1 else 0 } }
              if kd = 1 ∧ Dsc.units st.desc * wordsOf st ≤ st'.granted then endStream st.sid a else putStream st' a
            let x := { x with p := p, count := Tab.set c.core (n + 1) x.count }
            if kd = 1 then
              { x with writes := x.writes ++ [(w, st.bufs.getD c.unit 0 / 2 ^ (2048 * c.idx) % 2 ^ 2048)] }
            else
              let dest := if kd = 5 then st.dst + c.unit * Dsc.unit st.desc
                else ((st.dst : Int) + Dsc.off st.desc c.unit).toNat
              { x with reads := x.reads ++ [{
                  core := c.core, sid := c.sid, slot := st.slot, unit := c.unit, idx := c.idx, addr := 256 * w,
                  dest := dest + 256 * c.idx, rc := rc, clk := (p.getClk s).clk, data := 0, sra := decide (kd = 5),
                  dropped := false, out := .unchecked }] }

/-- STACK_REQUEST_GRANT: the die's one grant pass of a run cycle; then the granted writes, then the reads (R129-R132). -/
def execStackRequestGrant (cs : Nat) (s : State) : Out :=
  s.run (isCompute cs) fun s =>
    let clk := s.p.getClk cs
    if clk.stall ≠ 0 ∨ (s.p.getStk cs).passAt = some clk.clk then s
    else
      let x := (dieCands s.p cs).foldl (grantOne cs) ⟨s.p, [], [], [], []⟩
      let s := { s with p := x.p.modStk cs fun k => { k with passAt := some clk.clk } }
      let s := each x.writes (fun w s => stackPutWord cs w.1 w.2 s) s
      let rs := x.reads.map fun r => { r with data := stackWord s.p s.mem cs (r.addr / 256) }
      { s with p := s.p.modStk cs fun k => { k with reqs := k.reqs ++ rs } }

/-- Is a request the one named? -/
def RowReq.is (r : RowReq) (core sid unit idx : Nat) : Bool :=
  decide (r.core = core) && decide (r.sid = sid) && decide (r.unit = unit) && decide (r.idx = idx)

/-- Has a run-ahead request been dropped: its slot holds another read (R70)? -/
def isDropped (a : CoreA) (r : RowReq) : Bool :=
  r.dropped || (r.sra && !decide ((Tab.get stage0 a.stage r.slot).sid = r.sid ∧ (Tab.get stage0 a.stage r.slot).st = .pending))

/-- STACK_READ_CHECK of a requested row word (R127, R128): its lanes as they come, rebuilt, or as the fault left them. What a
poisoned row word delivers is a free value. -/
def execStackReadCheck (k sid unit idx : Nat) (err : RowErr) (s : State) : Out :=
  s.runP (isCore k) fun p =>
    let site := siteOf k
    match (p.getStk site).reqs.find? fun r => r.is (coreOf k) sid unit idx with
    | none => p
    | some r =>
      if r.out ≠ .unchecked then p
      else
        let w := r.addr / 256
        let chk := checkRow (p.getStk site) site w r.data err
        let o := rowCheck site w (if r.sra then .sra else .core) (coreOf k) chk p
        let bad := poisoned (p.getStk site) w
        let q := o.2
        let v := if bad then Config.freeNat q.free % 2 ^ 2048 else chk.data
        let q := if bad then { q with free := q.free + 1 } else q
        q.modStk site fun y => { y with
          reqs := y.reqs.map fun x => if x = r then { r with out := o.1, data := v } else x }

/-- Has a row word's release point come? It is the cycle before its delivery, when its banks are written (R67, R104, R135). -/
def releaseDue (p : Panel) (k : Nat) (r : RowReq) : Bool :=
  let a := (p.getCore k).a
  let late := decide (r.clk + 95 ≤ (p.getClk (siteOf k)).clk)
  if (p.getStk (siteOf k)).fast then
    (match r.out with
     | .rebuilt => late
     | .uncorr => late
     | _ => decide (r.rc + 87 ≤ a.rc) || (coreIdle p k && late))
  else decide (r.rc + 95 ≤ a.rc) || (coreIdle p k && late)

/-- One row word of a stream has landed, to be read from cycle `t`: with its last the stream is done, and a run-ahead slot is
FULL (R58, R70). -/
def landOne (t : Nat) (r : RowReq) (a : CoreA) : CoreA :=
  match a.streams.find? fun st => decide (st.sid = r.sid) with
  | none => a
  | some st =>
    let st' := { st with landed := st.landed + 1 }
    if Dsc.units st.desc * wordsOf st ≤ st'.landed then
      let a := endStream st.sid a
      if r.sra then { a with stage := Tab.upd stage0 r.slot (fun g => { g with st := .full, ready := t }) a.stage } else a
    else putStream st' a

/-- STACK_ROW_WORD_RELEASE: at its fixed point the row word is written to the scratchpad, at its stream's rank; one that
has not arrived faults the core and makes the stack SUSPECT (R104, R128, R135, R136). -/
def execStackRowWordRelease (k sid unit idx : Nat) (s : State) : Out :=
  s.run (isCore k) fun s =>
    let site := siteOf k
    let p := s.p
    match (p.getStk site).reqs.find? fun r => r.is (coreOf k) sid unit idx with
    | none => s
    | some r =>
      if ¬ releaseDue p k r then s
      else
        let a := (p.getCore k).a
        let st := streamOf p k sid
        let eng := match st with | some x => x.eng | none => 0
        let pc := match st with | some x => x.pc | none => a.pc
        let p := p.modStk site fun y => { y with reqs := y.reqs.filter fun x => decide (x ≠ r) }
        if isDropped a r then { s with p := p }
        else if r.out = .unchecked then
          let p := p.modStk site fun y => { y with
            ctr := { y.ctr with late := y.ctr.late + 1 },
            err := ⟨3, r.addr, 0, if r.sra then 1 else 0, coreOf k, p.now⟩ }
          { s with p := pendEvidence (keyStack site) 0x0409 (coreFault k 0x0409 (4 + eng) pc p) }
        else if r.out = .uncorr ∧ r.sra then
          { s with
            p := p.modA k fun a => { a with
              stage := Tab.upd stage0 r.slot (fun g => { g with st := .poison }) a.stage,
              streams := a.streams.filter fun x => !decide (x.sid = r.sid),
              ra := { a.ra with poisoned := a.ra.poisoned + 1 } } }
        else
          let ga := gaScratch k r.dest
          let runs := decide ((p.getClk site).stall = 0)
          let s := { s with p := p }
          let s := if runs then putSched k ⟨rankStream eng sid, ga, 256, r.data, 0⟩ r.dest s
            else { s with mem := s.mem.setNum ga 256 r.data }
          let p := s.p.modA k (landOne (if runs then a.rc + 1 else a.rc) r)
          let p := if r.out = .uncorr then
              coreFault k 0x0402 (4 + eng) pc (p.modA k fun a =>
                { a with streams := a.streams.map fun x => if x.sid = r.sid then { x with dead := true } else x })
            else p
          { s with p := p }

/-- CORRECTION_WRITEBACK: the oldest row word that waits is rewritten; its bytes are as they were (R137). -/
def execCorrectionWriteback (cs : Nat) (s : State) : Out :=
  s.runP (isCompute cs) fun p => p.modStk cs fun k => { k with writeback := k.writeback.drop 1 }

/-- DRAM rows of a bank on the variant (R124). -/
def bankRows (v : Nat) : Nat := if v = 3 then 36864 else 49152

/-- REFRESH of the next row of every layer, in turn (R137). -/
def execRefresh (cs : Nat) (s : State) : Out :=
  s.runP (isCompute cs) fun p =>
    p.modStk cs fun k => { k with refreshPos := (k.refreshPos + 1) % (bankRows p.variant * 512) }

/-- SCRUB of the next row word through the check path (R137). -/
def execScrub (cs : Nat) (err : RowErr) (s : State) : Out :=
  s.run (isCompute cs) fun s => s.onP fun p =>
    let w := (p.getStk cs).scrubPos
    let n := stackBytes p.variant / 256
    let p := (rowCheck cs w .scrub 0 (checkRow (p.getStk cs) cs w (stackWord p s.mem cs w) err) p).2
    p.modStk cs fun k => { k with
      scrubPos := (w + 1) % n, ctr := { k.ctr with scrubs := k.ctr.scrubs + if w + 1 = n then 1 else 0 } }

/-- ROW_RETIRED: a copy has completed; its entry takes force, an earlier one leaves it, the tracker entry is freed and
the map is stored (R139). -/
def execRowRetired (cs slot : Nat) (s : State) : Out :=
  s.runP (isCompute cs) fun p =>
    match (p.getStk cs).retiring.find? fun r => decide (r.slot = slot) with
    | none => p
    | some r =>
      let e := Spare.force true r.entry
      let gone (t : Track) : Bool :=
        decide (t.ch = Spare.ch e) && decide (t.bank = Spare.bank e) && decide (t.row = Spare.row e) && decide (t.layer = Spare.layer e)
      let p := p.modStk cs fun k =>
        let sp := match r.old with | some i => Tab.upd 0 i (Spare.force false) k.spare | none => k.spare
        { k with
          spare := Tab.set slot e sp, retiring := k.retiring.filter fun x => decide (x ≠ r),
          tracker := k.tracker.filter fun t => !gone t, ctr := { k.ctr with retired := k.ctr.retired + 1 } }
      storeSpares cs (stackRaise cs 0x0403 none p)

/-- SPARE_MAP_STORE_RETRY of a refused store (R139). -/
def execSpareMapStoreRetry (cs : Nat) (s : State) : Out :=
  s.runP (isCompute cs) fun p => if (p.getStk cs).mapPending then storeSpares cs p else p

/-- The coupling level of a junction in tenths of a degree (R141), rising at once and falling one level at a time. -/
def levelOf (t : Int) : Nat := if 1000 ≤ t then 3 else if 950 ≤ t then 2 else if 850 ≤ t then 1 else 0
def levelEdge (l : Nat) : Int := if l = 3 then 1000 else if l = 2 then 950 else 850
def nextLevel (l : Nat) (t : Int) : Nat :=
  if l < levelOf t then levelOf t else if 0 < l ∧ t ≤ levelEdge l - 30 then l - 1 else l

/-- Take new readings: the coupling level, and level 3 while a DRAM sensor is hot (R141, R143). A sensor without a valid reading
counts as cool (DESIGN CHOICE, log 74). -/
def couple (s : Nat) (t : Int) (dram : List (Option Int)) (p : Panel) : Panel :=
  let k := p.getStk s
  let hotNow := dram.any fun x => match x with | some y => decide (950 ≤ y) | none => false
  let cool := dram.all fun x => match x with | some y => decide (y ≤ 920) | none => true
  let hot := hotNow || (k.hot && !cool)
  let l := if hot then 3 else nextLevel k.level t
  let p := p.modStk s fun k => { k with level := l, dram := dram, hot := hot }
  let p := if l ≠ k.level then stackRaise s 0x0407 none p else p
  if hotNow && !k.hot then stackRaise s 0x0408 none p else p

/-- COUPLING_SAMPLE on the T128: the hottest junction sensor and the DRAM sensors (R141, R143). -/
def execCouplingSample (cs : Nat) (t : Int) (dram : List (Option Int)) (s : State) : Out :=
  s.runP (isCompute cs) fun p => if p.variant = 1 then couple cs t dram p else p

/-- COUPLING_LEVEL_SET on the T96 and T64: the junction temperature is the hub's model of it (R143). -/
def execCouplingLevelSet (cs : Nat) (t : Int) (dram : List (Option Int)) (s : State) : Out :=
  s.runP (isCompute cs) fun p => if p.variant = 1 then p else couple cs t dram p

/-- Pages of a stack (R147). -/
def stackPages (v : Nat) : Nat := stackBytes v / 65536

/-- May a map entry be written now (R147)? -/
def kvWritable (p : Panel) (k page : Nat) (x : BitVec 32) : Bool :=
  siteOpen p (siteOf k) && decide (fld x 19 0 < stackPages p.variant)
    && (!bit (Tab.get 0 (p.getCore k).kvmap page) 31 || coreIdle p k)

/-- Write a map entry, or refuse it as under R30 (R147). -/
def writeKv (k page : Nat) (x : BitVec 32) (p : Panel) : Panel :=
  if kvWritable p k page x then p.modCore k fun c => { c with kvmap := Tab.set page x c.kvmap }
  else gaRefuse (siteOf k) (p.modA k fun a => { a with kv := { a.kv with refused := a.kv.refused + 1 } })

/-- KV_MAP_ENTRY_WRITE (R147). -/
def execKvMapEntryWrite (k page : Nat) (x : BitVec 32) (s : State) : Out :=
  s.runP (isCore k && decide (page < 65536)) (writeKv k page x)

end Sys2Proof.Machine
end

