-- ==== Sys2Proof/Machine/LongSeq.lean ====
section
/-! DEFINITION. Long sequences: the record and the ring order, the placement of pages, and the application of a length
(R268-R282). -/

namespace Sys2Proof.Machine

namespace Sq

/-- Fields of the sequence record (R268). -/
def layout (p : Panel) (r : Nat) : Nat := cfg p 0x5060 r 1
def tpp (p : Panel) (r : Nat) : Nat := cfg p 0x5060 r 2
def blk (p : Panel) (r : Nat) : Nat := cfg p 0x5060 r 3
def planes (p : Panel) (r : Nat) : Nat := cfg p 0x5060 r 4
def kvoff (p : Panel) (r : Nat) : Nat := cfg p 0x5060 r 5
def limit (p : Panel) (r : Nat) : Nat := cfg p 0x5060 r 6

/-- The ring order, to the first 0xFF or to byte 128 (R269). -/
def ring (p : Panel) (r : Nat) : List Nat :=
  (((odBytes p 0x5061 r).take 128).takeWhile fun b => decide (b ≠ 0xFF)).map (·.toNat)

/-- LIMIT (R272). -/
def limitOf (layout tpp blk n : Nat) : Nat :=
  if layout = 0 then min 2097152 (n * blk) else min 2097152 (65536 * tpp * n)

/-- Pages per core that position `j` of `n` holds below length `len` (R270, R273). -/
def pagesAt (layout tpp blk n j len : Nat) : Nat :=
  if tpp = 0 then 0
  else if layout = 0 then ceilDiv (min (len - j * blk) blk) tpp
  else
    let g := ceilDiv len tpp
    if j < g then (g - j - 1) / n + 1 else 0

/-- Pages that position `j` of region `r` holds below a length. -/
def pages (p : Panel) (r j len : Nat) : Nat :=
  pagesAt (layout p r) (tpp p r) (blk p r) (ring p r).length j len

/-- The page number that the map of core `k` gives for page `pg`, and the entry: V, WR, PPN (R271). -/
def ppn (p : Panel) (r k pg : Nat) : Nat := (p.getCore k).base.toNat / 65536 + kvoff p r + pg
def entry (p : Panel) (r k pg : Nat) : BitVec 32 := BitVec.ofNat 32 (2 ^ 31 + 2 ^ 30 + ppn p r k pg)

/-- The ring positions of a region with the sites that hold their duties now. -/
def places (p : Panel) (r : Nat) : List (Nat × Nat) :=
  let g := p.getReg r
  ((List.range (ring p r).length).zip (ring p r)).filterMap fun e => (Tab.find? g.duty e.2).map fun s => (e.1, s)

end Sq

/-- The ring position of the duty that core `k`'s die holds, if it has one. -/
def Sq.placeOf (p : Panel) (r k : Nat) : Option Nat := ((Sq.places p r).find? fun e => decide (e.2 = siteOf k)).map (·.1)

/-- Make page `pg` of core `k` valid: an entry that holds another valid value stays and is a conflict (R273, R277); a page number
beyond the capacity is refused (R147). The flags count conflicts and entries written. -/
def applyPage (r k pg : Nat) (acc : Panel × Nat × Nat) : Panel × Nat × Nat :=
  let p := acc.1
  let old := Tab.get 0 (p.getCore k).kvmap pg
  let new := Sq.entry p r k pg
  if old = new then acc
  else if bit old 31 then (p, acc.2.1 + 1, acc.2.2)
  else if stackPages p.variant ≤ Sq.ppn p r k pg then
    (gaRefuse (siteOf k) (p.modA k fun a => { a with kv := { a.kv with refused := a.kv.refused + 1 } }), acc.2)
  else
    let p := p.modCore k fun c => { c with kvmap := Tab.set pg new c.kvmap }
    (p.modReg r fun g => { g with seq := { g.seq with written := (k, pg, new) :: g.seq.written } }, acc.2.1, acc.2.2 + 1)

/-- Apply one core's pages: the panel, the conflicts so far, and the largest number of entries written on one core. -/
def applyCore (r k n : Nat) (acc : Panel × Nat × Nat) : Panel × Nat × Nat :=
  let x := each (List.range n) (applyPage r k) (acc.1, acc.2.1, 0)
  (x.1, x.2.1, max acc.2.2 x.2.2)

/-- Apply a length to region `r` (R273, R274, R277): every page of every token below it becomes valid. How long it took is within
R274's bound; a conflict is raised once between releases. -/
def applyLength (r len : Nat) (p : Panel) : Panel :=
  let x := each (Sq.places p r) (fun e acc => each (coresOf e.2) (fun k acc => applyCore r k (Sq.pages p r e.1 len) acc) acc) (p, 0, 0)
  let largest := ((Sq.places p r).map fun e => Sq.pages p r e.1 len).foldl max 0
  let p := x.1
  let bound := 2000 + 4 * x.2.2
  let took := p.freeNat.1 % (bound + 1)
  let fresh := decide (0 < x.2.1) && !(p.getReg r).seq.raised
  let p := p.freeNat.2.modReg r fun g => { g with
    seq := { g.seq with
      length := len, pages := largest, applied := g.seq.applied + 1, longest := max g.seq.longest took,
      conflicts := g.seq.conflicts + x.2.1, raised := g.seq.raised || fresh } }
  if fresh then raiseAs .always 0x040B 0xFF (keyRegion r) none p else p

/-- Does a page of a core hold a token below a length, as the record, the ring and the duties now place tokens (R270, R276)? -/
def pageHolds (p : Panel) (r len k pg : Nat) : Bool :=
  match Sq.placeOf p r k with
  | some j => decide (pg < Sq.pages p r j len)
  | none => false

/-- Set V = 0 in an entry that the hub wrote, where it still holds what the hub wrote (R276). -/
def dropPage (w : Nat × Nat × BitVec 32) (p : Panel) : Panel :=
  if Tab.get 0 (p.getCore w.1).kvmap w.2.1 = w.2.2 then
    p.modCore w.1 fun c => { c with kvmap := Tab.set w.2.1 (BitVec.ofNat 32 (w.2.2.toNat % 2 ^ 31)) c.kvmap }
  else p

/-- Shrink a region's length: every entry that the hub has written and whose page holds no token any more becomes invalid (R276). -/
def shrinkLength (r len : Nat) (p : Panel) : Panel :=
  let seq := (p.getReg r).seq
  let stays (w : Nat × Nat × BitVec 32) : Bool := pageHolds p r len w.1 w.2.1
  let largest := ((Sq.places p r).map fun e => Sq.pages p r e.1 len).foldl max 0
  (each (seq.written.filter fun w => !stays w) dropPage p).modReg r fun g => { g with
    seq := { g.seq with length := len, pages := largest, written := seq.written.filter stays } }

/-- Set invalid every valid entry of a substitute core's map that R271 does not give: of a page that no token of its ring position
can have, or of a duty that the ring does not name, any (R280). -/
def cleanMap (r k : Nat) (p : Panel) : Panel :=
  let gives (pg : Nat) (x : BitVec 32) : Bool := pageHolds p r (Sq.limit p r) k pg && decide (x = Sq.entry p r k pg)
  p.modCore k fun c => { c with
    kvmap := c.kvmap.map fun e => if bit e.2 31 && !gives e.1 e.2 then (e.1, BitVec.ofNat 32 (e.2.toNat % 2 ^ 31)) else e }

/-- The map of a die is cleared: what the hub wrote there is gone (R147, R276). -/
def forgetPages (s : Nat) (p : Panel) : Panel :=
  each p.reg (fun e p => p.modReg e.1 fun g => { g with
    seq := { g.seq with written := g.seq.written.filter fun w => decide (siteOf w.1 ≠ s) } }) p

/-- The length written to region `r`: refused above LIMIT, or below the length in force while ARMED or ACTIVE; staged
while ACTIVE; else applied (R273, R276). Gives the abort code. -/
def writeLength (r x : Nat) (p : Panel) : Nat × Panel :=
  let g := p.getReg r
  let p := if g.phase = .defined then refreshDuty r p else p
  let busy := decide (g.phase = .active) || decide (g.phase = .armed)
  if Sq.limit p r < x then (abortOf 0x04 1 0, p)
  else if busy && decide (x < g.seq.length) then (abortOf 0x09 1 0, p)
  else if g.phase = .active then (0, p.modReg r fun g => { g with seq := { g.seq with staged := g.seq.staged ++ [x] } })
  else if x < g.seq.length then (0, shrinkLength r x p)
  else (0, applyLength r x p)

/-- SEQUENCE_LENGTH_WRITE (R273). -/
def execSequenceLengthWrite (r : Nat) (x : BitVec 32) (s : State) : Out :=
  s.runP (isRegion r) fun p => (writeLength r x.toNat p).2

/-- Is a number a power of two up to 4,096? -/
def isTpp (n : Nat) : Bool := (List.range 13).any fun i => decide (n = 2 ^ i)

/-- The ranges of R268; the first field outside its range. -/
def seqRange (layout tpp blk planes kvoff : Nat) : Option Nat :=
  if 1 < layout then some 1
  else if ¬ isTpp tpp then some 2
  else if (layout = 0 ∧ ¬ (blk % tpp = 0 ∧ 1 ≤ blk ∧ blk ≤ 2097152 ∧ blk ≤ 65536 * tpp)) ∨ (layout = 1 ∧ blk ≠ 0) then some 3
  else if planes = 0 ∨ 256 < planes then some 4
  else if 786431 < kvoff then some 5
  else none

/-- Does a ring order obey R269? -/
def ringOk (p : Panel) (r : Nat) (l : List Nat) : Bool :=
  decide (1 ≤ l.length) && decide (l.eraseDups = l) && l.all fun n => decide (n < (p.getReg r).count)

/-- Do the pages fit every core of every ring duty (R272)? A record never written (TPP 0) bounds nothing. -/
def seqFits (p : Panel) (r layout tpp blk planes kvoff : Nat) (l : List Nat) : Bool :=
  let lim := Sq.limitOf layout tpp blk l.length
  let g := if layout = 0 then ceilDiv (min lim blk) tpp else ceilDiv lim (tpp * l.length)
  decide (tpp = 0) || l.all fun n =>
    match Tab.find? (p.getReg r).duty n with
    | none => true
    | some s => (coresOf s).all fun k =>
        let c := p.getCore k
        decide ((kvoff + g + (planes - 1) * c.pstride) * 65536 ≤ c.limit.toNat + 1 - c.base.toNat)

/-- Commit a sequence record (`ring` false; its bytes, LIMIT among them ignored) or a ring order (R268, R269, R272).
Gives the abort code. -/
def commitSequence (r : Nat) (ring : Bool) (data : List Byte) (p : Panel) : Nat × Panel :=
  let p := if (p.getReg r).phase = .defined then refreshDuty r p else p
  let f (n : Nat) : Nat := fieldOf p.variant 0x5060 r n (if ring then odBytes p 0x5060 r else data)
  let l := if ring then ((data.take 128).takeWhile fun b => decide (b ≠ 0xFF)).map (·.toNat) else Sq.ring p r
  let lim := Sq.limitOf (f 1) (f 2) (f 3) l.length
  let body (b : List Byte) : List Byte := b.take 13 ++ leBytes 4 lim
  let bad := if ring then none else seqRange (f 1) (f 2) (f 3) (f 4) (f 5)
  match bad with
  | some n => (abortOf 0x04 1 n, p)
  | none =>
    if (p.getReg r).phase ≠ .defined then (abortOf 0x09 1 0, p)
    else if ringOk p r l && seqFits p r (f 1) (f 2) (f 3) (f 4) (f 5) l then
      if ring then (0, odPut 0x5060 r (body (odBytes p 0x5060 r)) (odPut 0x5061 r data p)) else (0, odPut 0x5060 r (body data) p)
    else (abortOf 0x06 1 0, p)

/-- SEQUENCE_RECORD_COMMIT of the record or of the ring order (R272). -/
def execSequenceRecordCommit (r : Nat) (ring : Bool) (data : List Byte) (s : State) : Out :=
  s.runP (isRegion r) fun p =>
    if data.length = (if ring then 128 else 17) then (commitSequence r ring data p).2 else p

end Sys2Proof.Machine
end

