-- ==== Sys2Proof/Machine/HostBase.lean ====
section
/-! DEFINITION. Posting completions (R324-R328) and the queries of the ledger: completing them, advancing their epochs
(R252-R260, R301). -/

namespace Sys2Proof.Machine

def Fn.sqOf (f : Fn) (n : Nat) : Queue := Tab.get queue0 f.sq n
def Fn.cqOf (f : Fn) (n : Nat) : Queue := Tab.get queue0 f.cq n

/-- Change a submission or completion queue of a function. -/
def modSq (f n : Nat) (g : Queue → Queue) (p : Panel) : Panel := p.modFn f fun x => { x with sq := Tab.upd queue0 n g x.sq }
def modCq (f n : Nat) (g : Queue → Queue) (p : Panel) : Panel := p.modFn f fun x => { x with cq := Tab.upd queue0 n g x.cq }

/-- A completion entry (R324). -/
def completionBits (c : Completion) (phase : Bool) (seq sqhd : Nat) : Nat :=
  (if phase then 2 ^ 255 else 0) + c.sq * 2 ^ 248 + c.opc * 2 ^ 240 + c.status * 2 ^ 232 + seq % 2 ^ 32 * 2 ^ 192
    + sqhd * 2 ^ 176 + c.cid * 2 ^ 160 + c.info1 * 2 ^ 128 + c.info2 * 2 ^ 64 + c.htag * 2 ^ 16

/-- Allot the query its FREE state, once its completion record is written and its batch has ended (R255). -/
def settleQuery (q : Nat) (p : Panel) : Panel :=
  let x := p.getQuery q
  let bound := (p.getReg x.region).batches.any fun b => b.lanes.any fun e => decide (e.qid = q)
  if x.written && !bound then
    { p with ret := { p.ret with
        query := Tab.set q { query0 with epoch := x.epoch } p.ret.query, order := p.ret.order.filter fun y => decide (y ≠ q) } }
  else p

/-- Signal a completion queue's vector: every entry posted is signalled (R328). -/
def signalCq (f n : Nat) (p : Panel) : Panel :=
  raiseVector f (activePort p) ((p.getFn f).cqOf n).vec (modCq f n (fun q => { q with unsig := 0 }) p)

/-- Write a completion at the tail of its queue, and signal when CNT entries wait (R324, R326, R328). -/
def writeCompletion (f : Nat) (c : Completion) (p : Panel) : Panel :=
  let q := (p.getFn f).cqOf c.cq
  let p := hostWrite f c.cq (q.base + 32 * q.tail) (leBytes 32 (completionBits c q.phase q.seq ((p.getFn f).sqOf c.sq).head)) p
  let p := modCq f c.cq (fun q =>
    { q.push with unsig := q.unsig + 1, oldest := if q.unsig = 0 then p.now else q.oldest }) p
  let p := p.modFn f fun x => { x with ctr := { x.ctr with posted := x.ctr.posted + 1 } }
  let p := if max 1 q.cnt ≤ q.unsig + 1 then signalCq f c.cq p else p
  match c.qid with
  | some i => settleQuery i (p.modQuery i fun y => { y with written := true })
  | none => p

/-- Does a host serve completions on the active port? After a takeover H1 must be up and enumerated (R334). -/
def hostServed (p : Panel) : Bool := !p.host.taken || ((p.getHPort 1).up && (p.getHPort 1).enumd)

/-- Post a completion: dropped for a disabled queue, held for a full one (R327), or for want of a host (R334). -/
def postCompletion (f : Nat) (c : Completion) (p : Panel) : Panel :=
  let q := (p.getFn f).cqOf c.cq
  let waits := (p.getFn f).held.any fun h => decide (h.cq = c.cq)
  if q.st = .disabled then
    let p := p.modFn f fun x => { x with ctr := { x.ctr with dropped := x.ctr.dropped + 1 } }
    match c.qid with
    | some i => settleQuery i (p.modQuery i fun y => { y with written := true })
    | none => p
  else if q.full || waits || decide (q.st = .error) then
    raise 0x0903 0xFF (keyFn f * 16 + c.cq) none
      (p.modFn f fun x => { x with held := x.held ++ [c], ctr := { x.ctr with holds := x.ctr.holds + 1 } })
  else if ¬ hostServed p then
    p.modFn f fun x => { x with held := x.held ++ [c], ctr := { x.ctr with holds := x.ctr.holds + 1 } }
  else writeCompletion f c p

/-- Post the held entries of a queue for which there is room, in order (R327). -/
def postHeld (f n : Nat) : Nat → Panel → Panel
  | 0, p => p
  | fuel + 1, p =>
    match (p.getFn f).held.find? fun h => decide (h.cq = n) with
    | none => p
    | some c =>
      if !hostServed p || ((p.getFn f).cqOf n).full || decide (((p.getFn f).cqOf n).st = .disabled) || decide (((p.getFn f).cqOf n).st = .error) then p
      else postHeld f n fuel (writeCompletion f c (p.modFn f fun x => { x with held := x.held.erase c }))

/-- A query's result payload (R259): QID, epoch, status, stage, n, shards scanned and skipped, host tag, pairs. -/
def payloadOf (q : Nat) (x : Query) (status stage : Nat) (pairs : List Nat) : List Byte :=
  leBytes 4 q ++ leBytes 2 x.epoch ++ leBytes 1 status ++ leBytes 1 stage ++ leBytes 2 pairs.length ++ leBytes 2 0
    ++ leBytes 4 x.scanned ++ leBytes 4 x.skipped ++ leBytes 6 x.htag ++ leBytes 6 0 ++ pairs.flatMap (leBytes 8)

def modLedger (n : Nat) (f : LedgerCtr → LedgerCtr) (p : Panel) : Panel :=
  p.modRet fun r => { r with ctr := Tab.upd default n f r.ctr }

/-- Complete a query: the result payload, then the completion entry (R258, R326); a query cancelled by a function reset
writes neither (R331). -/
def completeQuery (q status stage : Nat) (pairs : List Nat) (p : Panel) : Panel :=
  let x := p.getQuery q
  let p := modLedger x.part (fun c => { c with completed := Tab.upd 0 status (· + 1) c.completed }) (p.modQuery q fun y => { y with posted := true })
  if x.silent then settleQuery q (p.modQuery q fun y => { y with written := true })
  else
    let p := hostWrite x.fn x.rcq x.raddr (payloadOf q x status stage pairs) p
    postCompletion x.fn ⟨x.rcq, x.sq, 0x10, status, x.cid, q, stage * 2 ^ 16 + pairs.length, x.htag, some q⟩ p

/-- Send an epoch set to a partition's routers; the hub waits for every acknowledgement (R199, R301). -/
def sendEpoch (part : Nat) (trun : Bool) (tqid ep : Nat) (p : Panel) : Panel :=
  let n := p.ctl.setSeq
  let p := toGroup 2 (0x40 + part) (.epochSet n part trun tqid ep) p
  p.modCtl fun c => { c with
    setSeq := (n + 1) % 2 ^ 16, epochs := c.epochs ++ [⟨n, part, trun, tqid, ep, (p.getPart part).members, p.now, 1⟩] }

/-- The epoch of a query after the advances the hub has sent and not yet entered in the ledger (R260). -/
def queryEpoch (p : Panel) (q : Nat) : Nat :=
  (p.ctl.epochs.filter fun e => !e.trun && decide (e.tqid = q)).foldl (fun _ e => e.epoch) (p.getQuery q).epoch

/-- Advance a query's epoch (R260). -/
def advanceEpoch (q : Nat) (p : Panel) : Panel :=
  sendEpoch (p.getQuery q).part false q ((queryEpoch p q + 1) % 2 ^ 16) p

/-- Entries held for a queue that is disabled are dropped and counted (R327). -/
def dropHeld (f n : Nat) (p : Panel) : Panel :=
  let gone := (p.getFn f).held.filter fun h => decide (h.cq = n)
  let p := p.modFn f fun x => { x with
    held := x.held.filter (fun h => decide (h.cq ≠ n)), ctr := { x.ctr with dropped := x.ctr.dropped + gone.length } }
  each gone (fun c p => match c.qid with
    | some i => settleQuery i (p.modQuery i fun y => { y with written := true })
    | none => p) p

def setQuery (q : Nat) (st : QuerySt) (status : Nat) (p : Panel) : Panel :=
  p.modQuery q fun x => { x with st := st, status := status }

/-- A query leaves its batch's work with a status, its completion written at once without results; the batch keeps its
lane to the end (R260, R262). -/
def failBound (q status : Nat) (p : Panel) : Panel :=
  completeQuery q status 0 [] (setQuery q .ending status (advanceEpoch q p))

/-- CANCEL, early exit and expiry (R260): the effect on a query by its state; `status` is 1, 2 or 3. -/
def endQuery (q status : Nat) (p : Panel) : Panel :=
  match (p.getQuery q).st with
  | .queued => completeQuery q status 0 [] (setQuery q .ending status p)
  | .scanning => failBound q status p
  | .merging => failBound q status p
  | .reranking => if status = 1 then failBound q status p else setQuery q .ending status (advanceEpoch q p)
  | _ => p

/-- Queries that are not FREE. -/
def liveQueries (p : Panel) : List (Nat × Query) := p.ret.query.filter fun e => decide (e.2.st ≠ .free)

end Sys2Proof.Machine
end

