-- ==== Sys2Proof/Machine/Registers.lean ====
section
/-! DEFINITION. Accesses by global address (R28-R31, R69, R144, R441) and the registers of spaces 3 and 4 (R74, R120, R146,
R177, R202, R241, R526, R563). -/

namespace Sys2Proof.Machine

/-- A register of control space, with the unit it belongs to. -/
inductive Reg where
  | cstat (k : Nat) | rc (k : Nat) | icc (k : Nat)
  | spec (k n : Nat) | sreg (k n : Nat) | preg (k : Nat) | qreg (k n : Nat) | dreg (k n : Nat)
  | stage (k n : Nat)
  | winDesc (k n : Nat) | winState (k n : Nat) | winDone (k n : Nat) | winLate (k n : Nat)
  | vreg (k n : Nat) | bbuf (k a b : Nat) | acc (k a r : Nat)
  | kv (k page : Nat)
  | hop (site e : Nat) | seg (site n : Nat) | transit (site i : Nat) | vcLim (site i : Nat) | permit (site e : Nat)
  | rstat (site : Nat) | stepCyc (site : Nat)
  | udesc (site i : Nat) | destEp (site i : Nat) | ustate (site u : Nat)
  | qmem (site i : Nat) | lane (site n : Nat) | pass (site : Nat) | shard (site j : Nat) | sstat (site : Nat) | errMask (site : Nat)
  | route (port n : Nat) | slot (port bank n : Nat) | inTag (port f : Nat) | egTag (port n : Nat) | egDst (port v : Nat)
  | inLim (port v : Nat) | pstat (port : Nat)
  deriving DecidableEq, Repr

/-- A register found at an offset: itself, its first byte, its size. -/
abbrev Found := Option (Reg × Nat × Nat)

/-- Element `off` of an array of registers of `size` bytes, every `stride` bytes from `base`, `n` of them. -/
def inArr (off base stride size n : Nat) (mk : Nat → Reg) : Found :=
  if base ≤ off ∧ off < base + stride * n ∧ (off - base) % stride < size then
    some (mk ((off - base) / stride), off - (off - base) % stride, size)
  else none

/-- The first that is found. -/
def firstOf : List Found → Found
  | [] => none
  | some x :: _ => some x
  | none :: t => firstOf t

/-- The registers of a core's control space (R74, R120). -/
def coreReg (k off : Nat) : Found :=
  firstOf [
    inArr off 0x0 8 8 1 (fun _ => .cstat k), inArr off 0x8 8 8 1 (fun _ => .rc k), inArr off 0x10 8 8 1 (fun _ => .icc k),
    inArr off 0x100 8 8 8 (.spec k), inArr off 0x200 8 8 64 (.sreg k), inArr off 0x400 8 8 1 (fun _ => .preg k),
    inArr off 0x500 32 32 8 (.qreg k), inArr off 0x800 32 32 32 (.dreg k), inArr off 0xC00 8 8 32 (.stage k),
    inArr off 0x1000 64 32 64 (.winDesc k), inArr off 0x1020 64 8 64 (.winState k), inArr off 0x1028 64 8 64 (.winDone k),
    inArr off 0x1030 64 8 64 (.winLate k), inArr off 0x4000 256 256 64 (.vreg k),
    inArr off 0x10000 0x2000 4896 16 (fun i => .bbuf k (i / 2) (i % 2)),
    inArr off 0x40000 384 384 2048 (fun i => .acc k (i / 256) (i % 256))]

/-- The registers of a router (R177). -/
def routerReg (s off : Nat) : Found :=
  firstOf [
    inArr off 0x200000 8 8 65536 (.hop s), inArr off 0x280000 16 16 64 (.seg s), inArr off 0x281000 4 4 32 (.transit s),
    inArr off 0x282000 1 1 1024 (.vcLim s), inArr off 0x283000 8 8 4 (.permit s), inArr off 0x284000 8 8 1 (fun _ => .rstat s),
    inArr off 0x284008 8 8 1 (fun _ => .stepCyc s)]

/-- The registers that only compute dies have: page maps, operator units, the Sieve (R146, R202, R241). -/
def computeReg (s off : Nat) : Found :=
  firstOf [
    inArr off 0x100000 4 4 262144 (fun i => .kv (4 * s + i / 65536) (i % 65536)),
    inArr off 0x300000 32 32 1024 (.udesc s), inArr off 0x308000 8 8 64 (.destEp s), inArr off 0x308200 8 8 16 (.ustate s),
    inArr off 0x400000 1 1 262144 (.qmem s), inArr off 0x440000 32 32 64 (.lane s), inArr off 0x441000 64 64 1 (fun _ => .pass s),
    inArr off 0x442000 8 8 64 (.shard s), inArr off 0x443000 8 8 1 (fun _ => .sstat s),
    inArr off 0x443008 8 8 1 (fun _ => .errMask s)]

/-- The registers of a port master (R526). -/
def portReg (pt off : Nat) : Found :=
  firstOf [
    inArr off 0x500000 4 4 4096 (.route pt), inArr off 0x510000 1 1 65536 (.slot pt 0), inArr off 0x520000 1 1 65536 (.slot pt 1),
    inArr off 0x530000 1 1 256 (.inTag pt), inArr off 0x530100 1 1 16 (.egTag pt), inArr off 0x530200 2 2 8 (.egDst pt),
    inArr off 0x530300 1 1 8 (.inLim pt), inArr off 0x531000 8 8 1 (fun _ => .pstat pt)]

/-- The registers of a die (R29). -/
def dieReg (s off : Nat) : Found :=
  firstOf [if isMesh s then routerReg s off else none, if isCompute s then computeReg s off else none,
    if isEdge s ∧ portMaster (portOfDie s) = s then portReg (portOfDie s) off else none]

/-- CSTAT's run state (R74). -/
def RunState.code : RunState → Nat
  | .stopped => 0 | .running => 1 | .halting => 1 | .waiting => 2 | .halted => 3 | .faulted => 4 | .resetting => 5

def StageSt.code : StageSt → Nat
  | .empty => 0 | .pending => 1 | .full => 2 | .poison => 3
def WinSt.code : WinSt → Nat
  | .closed => 0 | .opened => 1 | .closing => 2
def SieveSt.code : SieveSt → Nat
  | .idle => 0 | .scanning => 1 | .ready => 2 | .aborted => 3

/-- CSTAT (R74). -/
def cstatWord (a : CoreA) : Nat := a.fcode * 2 ^ 48 + a.pc % 65536 * 2 ^ 16 + RunState.code a.run

/-- Epoch words of R202: TRUN, TQID, epoch. -/
def epochWord (trun : Bool) (tqid ep : Nat) : Nat := (if trun then 2 ^ 36 else 0) + tqid * 2 ^ 18 + ep

/-- The current repetition of the segment in execution (R177; log 13). -/
def currentRep (r : Router) : Nat :=
  if r.exec.isSome then min (Seg.reps r.desc - 1) (r.cyc / max 1 (Seg.period r.desc)) else 0

/-- Number of frames since UP and the other fields of PSTAT (R526). -/
def pstatWord (p : Panel) (x : FPort) : Nat := x.phase * 2 ^ 60 + x.width * 2 ^ 58 + p.fab.bank % 2 * 2 ^ 57 + x.framesUp % 65536

/-- May a core's registers be read and written: those that need it stopped (R74)? -/
def Reg.stopped (p : Panel) : Reg → Bool
  | .spec k _ => coreIdle p k | .sreg k _ => coreIdle p k | .preg k => coreIdle p k | .qreg k _ => coreIdle p k | .dreg k _ => coreIdle p k
  | .vreg k _ => coreIdle p k | .bbuf k _ _ => coreIdle p k | .acc k _ _ => coreIdle p k
  | _ => true

/-- The bits of the fields given, hi and lo; the others zero. -/
def fieldsOf (l : List (Nat × Nat)) (x : Nat) : Nat := l.foldl (fun y f => y ||| nfld x f.1 f.2 * 2 ^ f.2) 0

/-- A register's value without its reserved bits, which read as zero (R6, R111, R146, R154, R155, R162, R182, R242, R243, R526). -/
def Reg.mask (x : Nat) : Reg → Nat
  | .winDesc _ _ => fieldsOf [(100, 96), (87, 72), (67, 64), (51, 32), (19, 0)] x
  | .kv _ _ => fieldsOf [(31, 30), (19, 0)] x
  | .hop _ _ => fieldsOf [(63, 24)] x
  | .seg _ _ => fieldsOf [(95, 64), (49, 0)] x
  | .udesc _ _ => fieldsOf [(255, 249), (247, 212), (194, 160), (63, 0)] x
  | .transit _ _ => fieldsOf [(31, 31), (27, 8)] x
  | .lane _ _ => fieldsOf [(255, 255), (253, 220), (127, 0)] x
  | .pass _ => fieldsOf [(511, 511), (495, 434), (63, 0)] x
  | .shard _ _ => fieldsOf [(63, 25), (23, 0)] x
  | .route _ _ => fieldsOf [(31, 30), (23, 8)] x
  | _ => x

/-- What a register holds. -/
def Reg.raw (p : Panel) : Reg → Nat
  | .cstat k => cstatWord (p.getCore k).a
  | .rc k => (p.getCore k).a.rc
  | .icc k => (p.getCore k).a.icc
  | .spec k n => (rdSpec (p.getCore k).a n).toNat
  | .sreg k n => (rdS (p.getCore k).a n).toNat
  | .preg k => ofBits ((List.range 16).filter fun n => rdP (p.getCore k).a n)
  | .qreg k n => (rdQ (p.getCore k).a n).toNat
  | .dreg k n => (rdD (p.getCore k).a n).toNat
  | .stage k n => StageSt.code (Tab.get stage0 (p.getCore k).a.stage n).st
  | .winDesc k n => (Tab.get window0 (p.getCore k).a.win n).desc.toNat
  | .winState k n =>
    let x := Tab.get window0 (p.getCore k).a.win n
    x.inflight * 2 ^ 32 + x.gen * 2 ^ 16 + WinSt.code x.st
  | .winDone k n => (Tab.get window0 (p.getCore k).a.win n).done
  | .winLate k n => (Tab.get window0 (p.getCore k).a.win n).late
  | .vreg k n => (rdV (p.getCore k).a n).toNat
  | .bbuf k a b =>
    let c := (p.getCore k).a
    Tab.get 0 c.bbuf (2 * a + (if b = 0 then activeBuf c.swap a else 1 - activeBuf c.swap a))
  | .acc k a r => Tab.get 0 (p.getCore k).a.acc (256 * a + r)
  | .kv k page => (Tab.get 0 (p.getCore k).kvmap page).toNat
  | .hop s e => ((p.getRtr s).entry e).toNat
  | .seg s n => ((p.getRtr s).segDesc n).toNat
  | .transit s i => (Tab.get 0 (p.getRtr s).transit i).toNat
  | .vcLim s i => Tab.get 64 (p.getRtr s).vcLim i
  | .permit s e => Tab.get 0 (p.getRtr s).permit e
  | .rstat s =>
    let r := p.getRtr s
    (if r.running then 0 else 2 ^ 57) + (match r.exec with | some n => n * 2 ^ 58 + currentRep r | none => 0)
  | .stepCyc s => (p.getRtr s).cyc
  | .udesc s i => (Tab.get 0 (p.getRtr s).udesc i).toNat
  | .destEp s i => let d := Tab.get default (p.getRtr s).dest i; epochWord d.trun d.tqid d.epoch
  | .ustate s u => let x := Tab.get opUnit0 (p.getRtr s).unit u; x.opr * 2 ^ 60 + epochWord x.trun x.tqid x.cep
  | .qmem s i => (Tab.get 0 (p.getSve s).qmem i).toNat
  | .lane s n => ((p.getSve s).laneAt n).toNat
  | .pass s => (p.getSve s).pass.toNat
  | .shard s j => (Tab.get 0 (p.getSve s).shard j).toNat
  | .sstat s =>
    let v := p.getSve s
    SieveSt.code v.st * 2 ^ 60 + v.buffer % 2 * 2 ^ 59 + v.passes % 2 ^ 32
  | .errMask s => (p.getSve s).errMask
  | .route n i => (Tab.get 0 (p.getPort n).route i).toNat
  | .slot n b i => Tab.get 0 (Tab.get [] (p.getPort n).slot b) i
  | .inTag n f => Tab.get 0xFF (p.getPort n).inTag f
  | .egTag n i => Tab.get 0xFF (p.getPort n).egTag i
  | .egDst n v => Tab.get 0 (p.getPort n).egDst v
  | .inLim n v => Tab.get 31 (p.getPort n).limit v
  | .pstat n => pstatWord p (p.getPort n)

/-- The value that a register reads as. -/
def Reg.value (p : Panel) (r : Reg) : Nat := r.mask (r.raw p)

/-- Does the segment in execution, drained or not, hold an entry, or is it this one (R158, R161)? -/
def segBusy (r : Router) (n : Nat) : Bool := decide (r.exec = some n)
def entryBusy (r : Router) (e : Nat) : Bool := r.exec.isSome && r.has e

/-- Return every committed segment that `f` selects to uncommitted (R161). -/
def uncommit (f : Nat → Bool) (r : Router) : Router :=
  { r with committed := ofBits ((bitsSet 64 r.committed).filter fun n => !f n) }
/-- Is entry `e` one of segment `n`'s? -/
def segHas (r : Router) (n e : Nat) : Bool :=
  decide (Seg.base (r.segDesc n) ≤ e) && decide (e < Seg.base (r.segDesc n) + Seg.count (r.segDesc n))

/-- Write a hop entry, a segment descriptor or a unit descriptor, where R161 lets it (R161, R177, R182). -/
def writeHop (s e : Nat) (x : BitVec 64) (p : Panel) : Option Panel :=
  if entryBusy (p.getRtr s) e then none
  else some (p.modRtr s fun r => let r := uncommit (fun n => segHas r n e) r; { r with hop := Tab.set e x r.hop })
def writeSeg (s n : Nat) (x : BitVec 128) (p : Panel) : Option Panel :=
  if segBusy (p.getRtr s) n then none
  else some (p.modRtr s fun r => let r := uncommit (fun m => decide (m = n)) r; { r with seg := Tab.set n x r.seg })
def writeUdesc (s i : Nat) (x : BitVec 256) (p : Panel) : Option Panel :=
  if segBusy (p.getRtr s) (i / 16) then none
  else some (p.modRtr s fun r => let r := uncommit (fun m => decide (m = i / 16)) r; { r with udesc := Tab.set i x r.udesc })

/-- Does no core of a die run or wait, and no segment run (R177)? -/
def dieIdle (p : Panel) (s : Nat) : Bool :=
  !(p.getRtr s).running && (coresOf s).all fun k => coreIdle p k || decide ((p.getCore k).a.run = .resetting)

/-- Arm a pass: GO is written 1 (R243). SSTAT keeps its state until the pass starts (R241, R245). -/
def armPass (x : BitVec 512) (v : Sieve) : Sieve := { v with pass := x, armed := v.armed || bit x 511 }

/-- Write a register; none where the write is not performed (R30). A route, segment or unit descriptor keeps its reserved bits,
which its commit checks (R160, R182). -/
def Reg.put (hub : Bool) (x : Nat) (p : Panel) : Reg → Option Panel
  | .spec k n =>
    if (decide (1 ≤ n ∧ n ≤ 7) && (decide (n ≠ 6) || decide (x ≤ 2)) && (decide (n ≠ 7) || decide (x ≤ 1))) then
      some (p.modA k (wrSpec n (BitVec.ofNat 64 x)))
    else none
  | .sreg k n => some (p.modA k (wrS n (BitVec.ofNat 64 x)))
  | .preg k => some (p.modA k fun a => each (List.range 16) (fun n a => wrP n (x.testBit n) a) a)
  | .qreg k n => some (p.modA k (wrQ n (BitVec.ofNat 256 x)))
  | .dreg k n => some (p.modA k (wrD n (BitVec.ofNat 256 x)))
  | .vreg k n => some (p.modA k (wrV n (BitVec.ofNat 2048 x)))
  | .bbuf k i b => some (p.modA k fun a =>
      { a with bbuf := Tab.set (2 * i + (if b = 0 then activeBuf a.swap i else 1 - activeBuf a.swap i)) x a.bbuf })
  | .acc k i r => some (p.modA k fun a => { a with acc := Tab.set (256 * i + r) x a.acc })
  | .kv k page =>
    if kvWritable p k page (BitVec.ofNat 32 x) then
      some (p.modCore k fun c => { c with kvmap := Tab.set page (BitVec.ofNat 32 (Reg.mask x (.kv k page))) c.kvmap })
    else none
  | .hop s e => writeHop s e (BitVec.ofNat 64 x) p
  | .seg s n => writeSeg s n (BitVec.ofNat 128 x) p
  | .udesc s i => writeUdesc s i (BitVec.ofNat 256 x) p
  | .transit s i => if hub then some (p.modRtr s fun r => { r with transit := Tab.set i (BitVec.ofNat 32 (Reg.mask x (.transit s i))) r.transit }) else none
  | .vcLim s i =>
    if 1 ≤ x ∧ x ≤ 64 ∧ dieIdle p s then some (p.modRtr s fun r => { r with vcLim := Tab.set i x r.vcLim }) else none
  | .permit s e => if hub then some (p.modRtr s fun r => { r with permit := Tab.set e x r.permit }) else none
  | .destEp s i =>
    if hub then some (p.modRtr s fun r => { r with dest := Tab.set i ⟨x.testBit 36, nfld x 35 18, nfld x 15 0⟩ r.dest }) else none
  | .qmem s i => if hub then some (p.modSve s fun v => { v with qmem := Tab.set i (BitVec.ofNat 8 x) v.qmem }) else none
  | .lane s n => if hub then some (p.modSve s fun v => { v with lane := Tab.set n (BitVec.ofNat 256 (Reg.mask x (.lane s n))) v.lane }) else none
  | .pass s => if hub then some (p.modSve s (armPass (BitVec.ofNat 512 (Reg.mask x (.pass s))))) else none
  | .shard s j => if hub then some (p.modSve s fun v => { v with shard := Tab.set j (BitVec.ofNat 64 (Reg.mask x (.shard s j))) v.shard }) else none
  | .route n i => if hub then some (p.modPort n fun y => { y with route := Tab.set i (BitVec.ofNat 32 (Reg.mask x (.route n i))) y.route }) else none
  | .slot n b i =>
    if hub ∧ p.fab.bank % 2 ≠ b then some (p.modPort n fun y => { y with slot := Tab.upd [] b (Tab.set i x) y.slot }) else none
  | .inTag n f => if hub then some (p.modPort n fun y => { y with inTag := Tab.set f x y.inTag }) else none
  | .egTag n i => if hub then some (p.modPort n fun y => { y with egTag := Tab.set i x y.egTag }) else none
  | .egDst n v => if hub then some (p.modPort n fun y => { y with egDst := Tab.set v x y.egDst }) else none
  | .inLim n v => if hub then some (p.modPort n fun y => { y with limit := Tab.set v x y.limit }) else none
  | _ => none

/-- Read `n` bytes of registers from an offset: none where one of them is not performed. -/
def readRegs (p : Panel) (find : Nat → Found) : Nat → Nat → Nat → Option (List Byte)
  | 0, _, _ => none
  | fuel + 1, off, n =>
    if n = 0 then some []
    else match find off with
      | none => none
      | some (r, base, size) =>
        if ¬ r.stopped p then none
        else
          let m := min n (base + size - off)
          match readRegs p find fuel (off + m) (n - m) with
          | none => none
          | some t => some (((leBytes size (r.value p)).drop (off - base)).take m ++ t)

/-- Write bytes to registers from an offset: the whole access or none of it. -/
def writeRegs (hub : Bool) (find : Nat → Found) : Nat → Nat → List Byte → Panel → Option Panel
  | 0, _, _, _ => none
  | fuel + 1, off, data, p =>
    if data.isEmpty then some p
    else match find off with
      | none => none
      | some (r, base, size) =>
        if ¬ r.stopped p then none
        else
          let m := min data.length (base + size - off)
          let x := splice (r.raw p) (off - base) m (leNat (data.take m))
          match r.put hub x p with
          | none => none
          | some q => writeRegs hub find fuel (off + m) (data.drop m) q

namespace Ga

/-- Fields of a global address (R28). -/
def site (a : Nat) : Nat := a / 2 ^ 44 % 256
def space (a : Nat) : Nat := a / 2 ^ 40 % 16
def off (a : Nat) : Nat := a % 2 ^ 40
def core (a : Nat) : Nat := 4 * site a + off a / 2 ^ 26 % 4

end Ga

/-- Does no byte of a scratchpad access at offset `o` of a site lie in a core's staging area (R69)? -/
def stagingFree (p : Panel) (s o n : Nat) : Bool :=
  (List.range 4).all fun c =>
    let lo := max o (c * 2 ^ 26)
    let hi := min (o + n) ((c + 1) * 2 ^ 26)
    decide (hi ≤ lo) || !(p.getCore (4 * s + c)).inStaging (lo - c * 2 ^ 26) (hi - lo)

/-- The checks of R30 on an access of `n` bytes, but for the registers' own, and the staging rule of R69. -/
def gaOk (p : Panel) (a n : Nat) : Bool :=
  let s := Ga.site a
  let o := Ga.off a
  decide (a < 2 ^ 52) && decide (0 < n) && siteOpen p s
    && (match Ga.space a with
        | 0 => isCompute s && decide (o < 2 ^ 36) && decide (o + n ≤ stackBytes p.variant)
        | 1 => isCompute s && decide (o < 2 ^ 28) && decide (o + n ≤ 2 ^ 28) && stagingFree p s o n
        | 2 => isCompute s && decide (o < 2 ^ 28) && decide (o % 2 ^ 26 + n ≤ 2 ^ 22)
        | 3 => isCompute s && decide (o < 2 ^ 28) && decide (o % 2 ^ 26 + n ≤ 2 ^ 20)
        | 4 => decide (o < 2 ^ 24) && decide (o + n ≤ 2 ^ 24)
        | _ => false)

/-- Does every row word of a stack access lie in a range, owned by the requester's partition where it carries one (R144)? -/
def rangeOk (p : Panel) (part : Option Nat) (s a n : Nat) : Bool :=
  (rowWords a n).all fun w =>
    match rangeOf (p.getStk s) w with
    | none => false
    | some o => match part with | some q => decide (o = q) | none => true

/-- The partition checks of R441: a request's own partition, a replica range it owns, a seal, a pack-up. -/
def partOkGa (p : Panel) (part : Option Nat) (a n : Nat) : Bool :=
  let s := Ga.site a
  let packed (q : Nat) : Bool := decide ((p.getPart q).phase = .packing)
  let owner := if Ga.space a = 0 then rangeOf (p.getStk s) (Ga.off a / 256) else none
  let target := p.partOf s
  !(match target with | some q => packed q | none => false) && !(match owner with | some q => packed q | none => false)
    && (match part with
        | some q => decide (target = some q)
            || (decide (Ga.space a = 0) && decide (p.ust s = .hamper) && rangeOk p (some q) s (Ga.off a) n)
        | none => decide (4 ≤ Ga.space a) || !(match target with | some q => (p.getPart q).sealed | none => false))

/-- All the checks of an access. -/
def gaAllowed (p : Panel) (by_ : By) (a n : Nat) : Bool :=
  gaOk p a n && partOkGa p by_.part a n && (decide (Ga.space a ≠ 0) || rangeOk p by_.part (Ga.site a) (Ga.off a) n)

/-- The registers that an address of spaces 3 and 4 names. -/
def gaRegs (a : Nat) : Nat → Found :=
  if Ga.space a = 3 then coreReg (Ga.core a) else dieReg (Ga.site a)
def gaRegOff (a : Nat) : Nat := if Ga.space a = 3 then Ga.off a % 2 ^ 26 else Ga.off a

/-- The bytes of an access that its checks allow; none where a register refuses it. A scratchpad is read in parts instead
(R106). -/
def gaBytes (rows : RowChks) (s : State) (a n : Nat) : Option (List Byte) :=
  match Ga.space a with
  | 0 => some (stackRead rows s.p s.mem (Ga.site a) (Ga.off a) n)
  | 1 => none
  | 2 => some (s.mem.readN (gaProgram (Ga.core a) (Ga.off a % 2 ^ 26)) n)
  | _ => readRegs s.p (gaRegs a) (n + 1) (gaRegOff a) n

/-- What becomes of a write by global address: performed; asked for in parts of a scratchpad (R106); turned away as busy by a
running core's program store (R56); refused (R30); not performed for a row word that cannot be corrected (R128). -/
inductive GaOut where
  | done | asked | busy | refused | bad
  deriving DecidableEq, Repr

/-- Write the bytes of an access that its checks allow. -/
def gaPut (hub : Bool) (who : Asker) (rows : RowChks) (a : Nat) (data : List Byte) (s : State) : GaOut × State :=
  match Ga.space a with
  | 0 => (.done, stackWrite rows (Ga.site a) (Ga.off a) data s)
  | 1 => (.asked, s.onP (askGeneral who (Ga.site a) (Ga.off a) data.length (some data)))
  | 2 =>
    if programFree s.p (Ga.core a) then (.done, putProgram (Ga.core a) (Ga.off a % 2 ^ 26) data s) else (.busy, s)
  | _ =>
    match writeRegs hub (gaRegs a) (data.length + 1) (gaRegOff a) data s.p with
    | some q => (.done, { s with p := q })
    | none => (.refused, s)

/-- A write by global address that is refused: counted and raised (R30); one to a page map counts with its core too (R149). -/
def gaRefuseWrite (a : Nat) (p : Panel) : Panel :=
  let p := match if Ga.space a = 4 then gaRegs a (gaRegOff a) else none with
    | some (.kv k _, _) => p.modA k fun x => { x with kv := { x.kv with refused := x.kv.refused + 1 } }
    | _ => p
  gaRefuse (Ga.site a) p

/-- Read row words that a check found bad, in order, until one cannot be corrected (R128, R488). Gives the bytes read where one
stops it. -/
def scanWords (rq : Requester) (s a : Nat) : List (Nat × RowChk) → Panel → Option Nat × Panel
  | [], p => (none, p)
  | (w, c) :: t, p =>
    let o := rowCheck s w rq 0 c p
    if o.1 = .uncorr then (some (256 * w - a), o.2) else scanWords rq s a t o.2

/-- Of the row words given, ascending, those that a check finds bad: whose lane checks found something, and the poisoned. -/
def badRows (p : Panel) (s : Nat) (ws : List Nat) (rows : List (Nat × RowChk)) : List (Nat × RowChk) :=
  ws.filterMap fun w =>
    match List.find? (fun e : Nat × RowChk => decide (e.1 = w)) rows with
    | some e => some e
    | none => if poisoned (p.getStk s) w then some (w, ⟨0, true, 0⟩) else none

/-- Row words that a write does not cover whole, and so reads (R126). -/
def partRows (a n : Nat) : List Nat := (rowWords a n).filter fun w => decide (256 * w < a) || decide (a + n < 256 * w + 256)

/-- A write by global address (R30). `rows` are the faults of row words that it covers in part (R126, R128). -/
def gaWrite (by_ : By) (who : Asker) (a : Nat) (data : List Byte) (rows : RowErrs) (s : State) : GaOut × State :=
  if gaAllowed s.p by_ a data.length then
    let rows := checkRows s.p s.mem (Ga.site a) rows
    let w := if Ga.space a = 0 then
        scanWords .ga (Ga.site a) (Ga.off a) (badRows s.p (Ga.site a) (partRows (Ga.off a) data.length) rows) s.p
      else (none, s.p)
    if w.1.isSome then (.bad, { s with p := w.2 })
    else
      let r := gaPut by_.hub who rows a data { s with p := w.2 }
      if r.1 = .refused then (.refused, r.2.onP (gaRefuseWrite a)) else r
  else (.refused, s.onP (gaRefuseWrite a))

/-- HOP_TABLE_WRITE of an entry (`e` below 65,536) or of segment descriptor `e - 65536` (R161). -/
def execHopTableWrite (mesh e : Nat) (x : BitVec 128) (s : State) : Out :=
  s.runP (isMesh mesh && decide (e < 65600)) fun p =>
    if siteOpen p mesh then
      (if e < 65536 then writeHop mesh e (BitVec.ofNat 64 x.toNat) p else writeSeg mesh (e - 65536) x p).getD (gaRefuse mesh p)
    else gaRefuse mesh p

/-- UNIT_DESCRIPTOR_WRITE of unit `u` of segment `n` (R182). -/
def execUnitDescriptorWrite (cs n u : Nat) (x : BitVec 256) (s : State) : Out :=
  s.runP (isCompute cs && decide (n < 64) && decide (u < 16)) fun p =>
    if siteOpen p cs then (writeUdesc cs (16 * n + u) x p).getD (gaRefuse cs p) else gaRefuse cs p

end Sys2Proof.Machine
end

