-- ==== Sys2Proof/Machine/QueryBase.lean ====
section
/-! DEFINITION. Retrieval at the hub: shard sets, the binding of a batch (R239, R253-R256), and its abandonment
(R263). -/

namespace Sys2Proof.Machine

/-- The retrieval record's fields (R267). -/
def rvProf (p : Panel) (r : Nat) : Nat := cfg p 0x8020 r 1
def rvKimg (p : Panel) (r : Nat) : Nat := cfg p 0x8020 r 2
def rvScan (p : Panel) (r : Nat) : Nat := cfg p 0x8020 r 3
def rvRerank (p : Panel) (r : Nat) : Nat := cfg p 0x8020 r 4
def rvDone (p : Panel) (r : Nat) : Nat := cfg p 0x8020 r 5
/-- A retrieval region: a region whose retrieval record has been written. -/
def isRetrieval (p : Panel) (r : Nat) : Bool := decide (0 < rvKimg p r) && decide ((p.getReg r).phase ≠ .free)

/-- The profile word of a partition (R234). -/
def profWord (p : Panel) (part prof : Nat) : Nat := leNat (((odBytes p 0x8002 part).drop (4 * prof)).take 4)
/-- Payload bytes of a query under a profile word; none for F8 and reserved formats (R234, R246). -/
def payloadLen (w : Nat) : Option Nat :=
  let g := nfld w 15 0
  let f := nfld w 31 28
  if f = 0 then some (g / 8) else if f = 1 then some (16 * g) else if f = 2 then some g else none

/-- Entries of a query's shard set that are not EMPTY and have its profile, ascending (R239, R252). -/
def setOf (p : Panel) (x : Query) : List (Nat × DirEntry) :=
  p.ret.dir.filter fun e =>
    decide (x.sfirst ≤ e.1) && decide (e.1 ≤ x.sfirst + x.scm1) && decide (e.2.st ≠ .empty) && decide (DirE.prof e.2.bits = x.prof)

/-- USABLE entries homed on a site, of several queries. -/
def usableOn (p : Panel) (site : Nat) (qs : List Nat) : List Nat :=
  ((p.ret.dir.filter fun e => decide (e.2.st = .usable) && decide (DirE.home e.2.bits = site)).map (·.1)).filter fun i =>
    qs.any fun q => (setOf p (p.getQuery q)).any fun e => decide (e.1 = i)

/-- Do the queries' USABLE entries fit every member's shard list (R256)? -/
def fitsLists (p : Panel) (r : Nat) (qs : List Nat) : Bool :=
  (p.getReg r).members.all fun s => decide ((usableOn p s qs).length ≤ 64)

/-- Form a batch from the queued queries in submission order: those taken, and those that alone are too large (R256). -/
def formBatch (p : Panel) (r : Nat) : List Nat → List Nat → List Nat × List Nat
  | [], taken => (taken, [])
  | q :: rest, taken =>
    if 64 ≤ taken.length then (taken, [])
    else if (setOf p (p.getQuery q)).any fun e => decide (e.2.st = .verifying) then formBatch p r rest taken
    else if ¬ fitsLists p r [q] then
      let x := formBatch p r rest taken
      (x.1, q :: x.2)
    else if ¬ fitsLists p r (taken ++ [q]) then (taken, [])
    else formBatch p r rest (taken ++ [q])

/-- The region's queued queries in submission order. -/
def queued (p : Panel) (r : Nat) : List Nat :=
  p.ret.order.filter fun q => decide ((p.getQuery q).st = .queued) && decide ((p.getQuery q).region = r)

/-- Is a query's set unservable: an entry BAD or LOST, or homed outside the region (R256, step 5)? -/
def setBroken (p : Panel) (r q : Nat) : Bool :=
  (setOf p (p.getQuery q)).any fun e =>
    decide (e.2.st = .bad) || decide (e.2.st = .lost) || !(p.getReg r).members.contains (DirE.home e.2.bits)

/-- The run epoch of a region: RUN_EPOCH of its first member's core 0 (R199). -/
def runEpoch (p : Panel) (r : Nat) : Nat :=
  match (p.getReg r).members with
  | s :: _ => (p.getCore (4 * s)).a.epoch.toNat % 2 ^ 16
  | [] => 0

/-- Set the tag and epoch of a lane-map binding without uncommitting its segment: a taken lane's query and epoch, a lane's left
over the run tag and the run epoch (R199, R256, step 3). -/
def bindLane (r : Nat) (lanes : List Lane) (b : List Byte) (p : Panel) : Panel :=
  let duty := (b.getD 0 0).toNat
  let seg := (b.getD 1 0).toNat % 64
  let isTrack := decide ((b.getD 1 0).toNat / 64 = 1)
  let i := (b.getD 2 0).toNat
  let lane := (b.getD 3 0).toNat
  let q := lanes.find? fun l => decide (l.lane = lane)
  let trun := q.isNone
  let tqid := match q with | some l => l.qid | none => 0
  let ep := match q with | some l => l.epoch | none => runEpoch p r
  match Tab.find? (p.getReg r).duty duty with
  | none => p
  | some s =>
    p.modRtr s fun x =>
      if isTrack then { x with dest := Tab.set (i % 64) ⟨trun, tqid, ep⟩ x.dest }
      else
        let d := Tab.get 0 x.udesc (16 * seg + i % 16)
        { x with
          udesc := Tab.set (16 * seg + i % 16)
            (BitVec.ofNat 256 (fld d 255 195 * 2 ^ 195 + (if trun then 2 ^ 194 else 0) + tqid * 2 ^ 176 + ep * 2 ^ 160
              + fld d 159 0)) x.udesc }

/-- The lists of four bytes of a BLOB. -/
def quads : Nat → List Byte → List (List Byte)
  | 0, _ => []
  | n + 1, b => if b.length < 4 then [] else b.take 4 :: quads n (b.drop 4)

/-- A shard list entry (R244). -/
def shardWord (i : Nat) (x : BitVec 128) : BitVec 64 :=
  BitVec.ofNat 64 (i * 2 ^ 45 + DirE.gen x * 2 ^ 41 + DirE.len x * 2 ^ 25 + DirE.base x)

/-- Write a member's Sieve for a batch: lane entries with their masks, query memory, shard list (R242, R244, R256). DTMPL
stays what the hub wrote at program load. -/
def loadSieve (lanes : List Lane) (ep s : Nat) (p : Panel) : Panel :=
  let list := usableOn p s (lanes.map (·.qid))
  let mask (q : Nat) : Nat :=
    ofBits ((List.range list.length).filter fun j => (setOf p (p.getQuery q)).any fun e => decide (some e.1 = list[j]?))
  let laneWord (v : Sieve) (n : Nat) : BitVec 256 :=
    let t := fld (v.laneAt n) 63 0
    match lanes.find? fun l => decide (l.lane = n) && !l.empty with
    | some l => BitVec.ofNat 256 (l.qid * 2 ^ 236 + l.epoch * 2 ^ 220 + mask l.qid * 2 ^ 64 + t)
    | none => BitVec.ofNat 256 (2 ^ 255 + ep * 2 ^ 220 + t)
  p.modSve s fun v => { v with
    lane := each (List.range 64) (fun n t => Tab.set n (laneWord v n) t) v.lane,
    shard := each (List.range list.length) (fun j t =>
      Tab.set j (shardWord (list.getD j 0) (p.getDir (list.getD j 0)).bits) t) v.shard,
    qmem := each lanes (fun l t =>
      let b := (p.getQuery l.qid).pay1
      each (List.range b.length) (fun i t => Tab.set (0x1000 * l.lane + i) (b.getD i 0) t) t) v.qmem }

/-- The pass descriptor of a member at a scan release: GO with the release's start tick (R243, R256). -/
def passWord (p : Panel) (r s nsh t : Nat) : BitVec 512 :=
  let n := (List.find? (fun e : Nat × Nat => decide (e.2 = s)) (p.getReg r).duty).map (·.1)
  let b := ((odBytes p 0x8021 r).drop (16 * n.getD 0)).take 3
  BitVec.ofNat 512 (2 ^ 511 + profWord p (p.getReg r).part (rvProf p r) * 2 ^ 464 + (rvKimg p r - 1) * 2 ^ 452
    + nsh * 2 ^ 444 + (b.getD 0 0).toNat % 4 * 2 ^ 442 + (b.getD 1 0).toNat % 16 * 2 ^ 438 + (b.getD 2 0).toNat % 16 * 2 ^ 434
    + t % 2 ^ 64)

/-- Write the lane record of a bound query to the lane area (R256, step 2). -/
def laneRecord (r : Nat) (l : Lane) (s : State) : State :=
  let x := s.p.getQuery l.qid
  let head := leBytes 4 l.qid ++ leBytes 2 l.epoch ++ leBytes 2 (x.km1 + 1) ++ leBytes 1 x.prof ++ leBytes 55 0
  match Tab.find? (s.p.getReg r).duty (cfg s.p 0x8020 r 6) with
  | some site =>
    stackWrite [] site (cfg s.p 0x8020 r 7 % 2 ^ 36 + 8192 * l.lane) ((head ++ x.pay2 ++ List.replicate (8192 - 64 - x.pay2.length) 0).take 8192) s
  | none => s

/-- Bind a batch at the scan barrier (R256). A query whose set is broken has its lane, written EMPTY, and completes at once
(log 62). -/
def bindBatch (r : Nat) (s : State) : State :=
  let p := s.p
  let f := formBatch p r (queued p r) []
  let p := each f.2 (fun q p => completeQuery q 5 0 [] (setQuery q .ending 5 p)) p
  let lanes := ((List.range f.1.length).zip f.1).map fun e => (⟨e.1, e.2, queryEpoch p e.2, setBroken p r e.2⟩ : Lane)
  let part := (p.getReg r).part
  let p := p.modReg r fun g => { g with
    batches := g.batches ++ [⟨lanes, [], 0⟩], nsh := g.members.map fun m => (m, (usableOn p m (lanes.map (·.qid))).length) }
  let p := modLedger part (fun c => { c with
    batches := c.batches + (if lanes.isEmpty then 0 else 1), lanes := c.lanes + (lanes.filter fun l => !l.empty).length }) p
  let p := each lanes (fun l p =>
    let n := (setOf p (p.getQuery l.qid)).length
    let p := p.modQuery l.qid fun x =>
      { x with st := .scanning, lane := l.lane, skipped := x.scm1 + 1 - n, scanned := if l.empty then 0 else n }
    if l.empty then completeQuery l.qid 5 0 [] (setQuery l.qid .ending 5 p) else p) p
  let p := each (quads 8192 (odBytes p 0x8022 r)) (bindLane r lanes) p
  let p := each (p.getReg r).members (loadSieve lanes (runEpoch p r)) p
  each lanes (laneRecord r) { s with p := p }

/-- Arm every member's pass for the release's start tick, over the shard list bound (R240, R243, R256). -/
def armBatch (r t : Nat) (p : Panel) : Panel :=
  each (p.getReg r).members (fun s p => p.modSve s (armPass (passWord p r s (Tab.get 0 (p.getReg r).nsh s) t))) p

/-- Has a Sieve a pass armed or in progress, or cells to emit? -/
def Sieve.busy (v : Sieve) : Bool := v.armed || decide (v.st = .scanning) || v.emit.any fun e => !e.2.isEmpty

/-- A Sieve stops: its pass and its emission buffers are abandoned, and SSTAT reads aborted (R263, R443). -/
def abortSieve (s : Nat) (p : Panel) : Panel :=
  p.modSve s fun v => { v with
    st := .aborted, armed := false, emit := [], heldFrom := none, ctr := { v.ctr with aborted := v.ctr.aborted + (if v.busy then 1 else 0) } }

/-- One of an abandoned batch's queries returns to QUEUED under a new epoch; one that was ENDING becomes FREE (R263). -/
def abandonLane (l : Lane) (p : Panel) : Panel :=
  let x := p.getQuery l.qid
  if x.st = .ending then (if x.posted then settleQuery l.qid p else completeQuery l.qid x.status 0 [] p)
  else if x.st = .free then p
  else setQuery l.qid .queued 0 (advanceEpoch l.qid p)

/-- A freeze of a retrieval region stops its Sieves and abandons its batches (R263). -/
def abandonBatch (r : Nat) (p : Panel) : Panel :=
  if ¬ isRetrieval p r then p
  else
    let bs := (p.getReg r).batches
    let p := (each (p.getReg r).members abortSieve p).modReg r fun g => { g with batches := [] }
    if bs.isEmpty then p else raise 0x0808 0xFF (keyRegion r) none (each (bs.flatMap (·.lanes)) abandonLane p)

end Sys2Proof.Machine
end

