-- ==== Sys2Proof/Machine/Integrity.lean ====
section
/-! DEFINITION. The check engines: descriptors, the alive rule, scans and their results (R485-R491). -/

namespace Sys2Proof.Machine

namespace Chk

/-- Fields of a check descriptor (R486). -/
def ga (x : BitVec 256) : Nat := fld x 255 192
def len (x : BitVec 256) : Nat := fld x 191 160
def seed (x : BitVec 256) : Nat := fld x 159 96
def poly (x : BitVec 256) : Nat := fld x 95 92
def alive (x : BitVec 256) : Nat := fld x 87 80
def chan (x : BitVec 256) : Nat := fld x 79 76
/-- Reserved fields that are not zero: refused when an OD write sets them (R6, R487). -/
def reserved (x : BitVec 256) : Bool := decide (fld x 91 88 ≠ 0) || decide (fld x 75 0 ≠ 0)
/-- Reserved fields that are not zero, or a reserved polynomial (R486, R488, reason 5). -/
def bad (x : BitVec 256) : Bool :=
  decide (2 ≤ poly x) || reserved x || decide (len x = 0)
    || (decide (poly x = 0) && decide (fld x 159 128 ≠ 0))
/-- A descriptor from its fields. -/
def mk (ga len seed poly alive chan : Nat) : BitVec 256 :=
  BitVec.ofNat 256 (ga * 2 ^ 192 + len * 2 ^ 160 + seed * 2 ^ 96 + poly * 2 ^ 92 + alive * 2 ^ 80 + chan * 2 ^ 76)
/-- The CRC that a descriptor asks for, of bytes (R486). -/
def crc (x : BitVec 256) (l : List Byte) : BitVec 64 :=
  if poly x = 0 then (crc32c (BitVec.ofNat 32 (seed x)) l).zeroExtend 64 else crc64 (BitVec.ofNat 64 (seed x)) l

end Chk

/-- Is a peripheral of the active hub enabled (R376)? -/
def periphOn (p : Panel) (b : Nat) : Bool := bit (Tab.get 0 p.clk.periph p.book.active) b

def CheckEng.result (e : CheckEng) (c : Nat) : CheckRes := Tab.get checkRes0 e.res c

/-- The channel an engine serves next: 0 first, then 1 to 15 in rotation (R485). -/
def CheckEng.next (e : CheckEng) : Option Nat :=
  if ¬ e.queue0.isEmpty then some 0
  else ((List.range 15).map fun i => (e.turn + i) % 15 + 1).find? fun c => (Tab.find? e.chan c).isSome

/-- Serve the next descriptor where none is being served (R485). -/
def startScan (e : CheckEng) : CheckEng :=
  match e.running, e.next with
  | none, some c => { e with
      running := some c, turn := if c = 0 then e.turn else c,
      res := Tab.set c { e.result c with state := 2 } e.res }
  | _, _ => e

/-- The descriptor an engine serves. -/
def CheckEng.serving (e : CheckEng) : Option CheckDesc :=
  match e.running with
  | none => none
  | some 0 => e.queue0.head?
  | some c => Tab.find? e.chan c

/-- Key under which a channel's events are limited (R487, R488). -/
def keyChan (s c : Nat) : Nat := 0x9000 + 16 * s + c

/-- Whose range a scan reads: its partition where it carries one (R441, R488); a copy carries its function's, a shard the
one that owns its entry's range. -/
def ScanFor.part (p : Panel) (ga : Nat) : ScanFor → Option Nat
  | .user n => n
  | .ingress c _ => ((p.host.copies.find? fun x => decide (x.id = c)).map (·.fn)).bind fun f => if f = 0 then none else some (f - 1)
  | .egress c _ => ((p.host.copies.find? fun x => decide (x.id = c)).map (·.fn)).bind fun f => if f = 0 then none else some (f - 1)
  | .shard _ _ => rangeOf (p.getStk (Ga.site ga)) (Ga.off ga / 256)

/-- Why an engine refuses a descriptor's range, if it does: 5 malformed, 3 not accessible (R30, R441, R486, R488). -/
def scanRefused (p : Panel) (s : Nat) (d : CheckDesc) : Option Nat :=
  let a := Chk.ga d.desc
  if Chk.bad d.desc then some 5
  else if gaAllowed p ⟨false, d.why.part p a⟩ a (Chk.len d.desc) && decide (Ga.site a = s) && decide (Ga.space a ≤ 1) then none
  else some 3

/-- A scan in service that reads a scratchpad asks for its first line (R106). -/
def beginScan (s : Nat) (p : Panel) : Panel :=
  match (p.getChk s).serving with
  | none => p
  | some d =>
    if (p.getChk s).scan.isNone ∧ scanRefused p s d = none ∧ Ga.space (Chk.ga d.desc) = 1 then
      askScan s ({ p with nextAcc := p.nextAcc + 1 }.modChk s fun e => { e with
        scan := some ⟨p.nextAcc, Ga.off (Chk.ga d.desc), Chk.len d.desc, [], false⟩ })
    else p

/-- Queue an accepted descriptor (R487, R491). -/
def acceptDesc (s c : Nat) (d : CheckDesc) (p : Panel) : Panel :=
  beginScan s (p.modChk s fun e => startScan { e with
    accepted := e.accepted + 1,
    queue0 := if c = 0 then e.queue0 ++ [d] else e.queue0,
    chan := if c = 0 then e.chan else Tab.set c d e.chan,
    res := Tab.set c { checkRes0 with state := 1, last := Chk.alive d.desc, alive := Chk.alive d.desc } e.res })

/-- Reject a descriptor by the alive rule (R487, R491). -/
def rejectDesc (s c : Nat) (x : BitVec 256) (p : Panel) : Panel :=
  let last := ((p.getChk s).result c).last
  let rep := decide (Chk.alive x = last)
  let p := p.modChk s fun e => { e with
    repeats := e.repeats + (if rep then 1 else 0), skips := e.skips + (if rep then 0 else 1),
    res := Tab.set c ⟨4, if rep then 1 else 2, last, Chk.alive x, 0, 0, p.now⟩ e.res }
  plainEvent s 0 (keyChan s c) 0x0C01 none p

/-- An OD request that would reach a gated peripheral is refused, once per hub per second with an event (R376). -/
def gated (p : Panel) : Nat × Panel :=
  (abortOf 0x0B 1 0, raiseAs .second 0x0209 p.activeHub p.activeHub none p)

/-- Write a check descriptor through the dictionary (R487): the abort code. -/
def writeDesc (s : Nat) (part : Option Nat) (x : BitVec 256) (p : Panel) : Nat × Panel :=
  let c := Chk.chan x
  let r := (p.getChk s).result c
  if ¬ periphOn p 8 then gated p
  else if deadDie p s then (abortOf 0x0A 1 0, p)
  else if c = 0 then (abortOf 0x04 1 0, p)
  else if r.state = 1 ∨ r.state = 2 then (abortOf 0x09 5 0, p)
  else if Chk.alive x = (r.last + 1) % 256 then (0, acceptDesc s c ⟨x, .user part⟩ p)
  else (0, rejectDesc s c x p)

/-- CHECK_DESCRIPTOR_WRITE by a session of partition `part`, if any (R487). -/
def execCheckDescriptorWrite (cs : Nat) (part : Option Nat) (x : BitVec 256) (s : State) : Out :=
  s.runP (isCompute cs) fun p => (writeDesc cs part x p).2

/-- The hub asks for a CRC-64 on channel 0, up to 64 descriptors (R482, R485). -/
def askCheck (s ga len : Nat) (why : ScanFor) (p : Panel) : Panel :=
  let e := p.getChk s
  if e.queue0.length < 64 then
    acceptDesc s 0 ⟨Chk.mk ga len 0 1 (((e.result 0).last + 1) % 256) 0, why⟩ p
  else p

/-- How a scan ends: its reason (0 good), the bytes read, and the state. -/
structure ScanEnd where
  reason : Nat
  data : List Byte
  t : State

/-- The end of a scan, none while a scratchpad range is not all read. A stack range is read whole at the command that ends its
scan (DESIGN CHOICE, log 54): `rows` are the faults of its row words. One that cannot be corrected stops it (R128, R488). -/
def scanEnd (s : Nat) (d : CheckDesc) (rows : RowErrs) (t : State) : Option ScanEnd :=
  let rows := checkRows t.p t.mem s rows
  let a := Chk.ga d.desc
  let n := Chk.len d.desc
  match scanRefused t.p s d with
  | some r => some ⟨r, [], if r = 3 then t.onP (gaRefuse (Ga.site a)) else t⟩
  | none =>
    if Ga.space a = 0 then
      let w := scanWords .ga s (Ga.off a) (badRows t.p s (rowWords (Ga.off a) n) rows) t.p
      let t := { t with p := w.2 }
      some (match w.1 with
        | some k => ⟨4, stackRead rows t.p t.mem s (Ga.off a) k, t⟩
        | none => ⟨0, stackRead rows t.p t.mem s (Ga.off a) n, t⟩)
    else match (t.p.getChk s).scan with
      | none => none
      | some x => if x.stopped then some ⟨4, x.got, t⟩ else if x.got.length = n then some ⟨0, x.got, t⟩ else none

/-- Ask for the verifications that wait at a site, as far as its queue has room and the engine is enabled (R239, R376,
R485). -/
def pumpShards (site : Nat) (p : Panel) : Panel :=
  each (p.ret.verify.filter fun e => decide (DirE.home (p.getDir e).bits = site)) (fun e p =>
    let x := (p.getDir e).bits
    if periphOn p 8 ∧ (p.getChk site).queue0.length < 64 then
      askCheck site (gaStack site (DirE.base x * 4096)) (DirE.len x * 4096) (.shard e x)
        (p.modRet fun r => { r with verify := r.verify.filter fun y => decide (y ≠ e) })
    else p) p

/-- Have an entry verified (R239, R264). -/
def verifyShard (e : Nat) (p : Panel) : Panel :=
  pumpShards (DirE.home (p.getDir e).bits) (p.modRet fun r => { r with verify := (r.verify.filter fun y => decide (y ≠ e)) ++ [e] })

/-- Bytes of block `j` of a copy (R323). -/
def blockLen (c : Copy) (j : Nat) : Nat := min 4096 (c.len - 4096 * j)

/-- Ask for the check of a copy's current block, where its engine has room (R482, R483). -/
def askCopy (id : Nat) (p : Panel) : Panel :=
  match p.host.copies.find? fun x => decide (x.id = id) with
  | none => p
  | some c =>
    let s := Ga.site c.ga
    if c.asked ∨ c.writing ∨ 64 ≤ (p.getChk s).queue0.length then p
    else
      let p := p.modHost fun h => { h with copies := h.copies.map fun x => if x.id = id then { x with asked := true } else x }
      askCheck s (c.ga + 4096 * c.block) (blockLen c c.block) (if c.copyIn then .ingress id c.block else .egress id c.block) p

/-- Ask for everything that waits at a site (R485). -/
def pumpSite (site : Nat) (p : Panel) : Panel :=
  pumpShards site (each (p.host.copies.filter fun c => decide (Ga.site c.ga = site)) (fun c p => askCopy c.id p) p)

/-- The bytes that a result carries to the hub: an egress block's (R483). -/
def ScanFor.carried (l : List Byte) : ScanFor → List Byte
  | .egress _ _ => l
  | _ => []

/-- CHECK_SCAN_DONE of channel `chan`: the scan in service ends, its channel's result is written, the next begins (R486-R491). -/
def execCheckScanDone (cs chan : Nat) (rows : RowErrs) (s : State) : Out :=
  s.run (isCompute cs && decide (chan < 16)) fun s =>
    match (s.p.getChk cs).serving, (s.p.getChk cs).running with
    | some d, some c =>
      if c ≠ chan then s
      else match scanEnd cs d rows s with
      | none => s
      | some r =>
        let crc := if r.reason = 0 then Chk.crc d.desc r.data else 0
        let n := r.data.length
        r.t.onP fun p =>
          let p := p.modChk cs fun e => startScan { e with
            running := none, scan := none, queue0 := if c = 0 then e.queue0.drop 1 else e.queue0,
            chan := if c = 0 then e.chan else Tab.del c e.chan,
            ready := if c = 0 then e.ready ++ [⟨d.why, r.reason, crc, d.why.carried r.data⟩] else e.ready,
            errors := e.errors + (if r.reason = 0 then 0 else 1), bytes := e.bytes + n,
            res := if c = 0 ∧ 1 < e.queue0.length then e.res
              else Tab.set c { e.result c with
                state := if r.reason = 0 then 3 else 5, reason := r.reason, crc := crc.toNat, bytes := n, tick := p.now } e.res }
          let p := pumpSite cs (beginScan cs p)
          if r.reason = 0 then p else plainEvent cs 0 (keyChan cs c) 0x0C03 none p
    | _, _ => s

/-- Take the first result the hub has not acted on that `f` selects. -/
def takeReady (s : Nat) (f : ScanFor → Bool) (p : Panel) : Option ScanRes × Panel :=
  match (p.getChk s).ready.find? fun e => f e.why with
  | some e => (some e, p.modChk s fun x => { x with ready := x.ready.erase e })
  | none => (none, p)

/-- Discard a die's descriptors: the outstanding channels become DISCARDED, the alive rule starts again (R490). -/
def discardScans (e : CheckEng) : CheckEng :=
  let out := (List.range 16).filter fun c => decide ((e.result c).state = 1) || decide ((e.result c).state = 2)
  { e with
    discarded := e.discarded + e.queue0.length + e.chan.length, queue0 := [], chan := [], running := none, scan := none, turn := 15,
    res := (List.range 16).map fun c =>
      (c, { e.result c with last := 0xFF, state := if out.contains c then 6 else (e.result c).state }) }

/-- The copy that a scan is for. -/
def ScanFor.copy : ScanFor → Option Nat
  | .ingress id _ => some id
  | .egress id _ => some id
  | _ => none

/-- The directory entry that a scan verifies, where it still stands. -/
def ScanFor.entry (p : Panel) : ScanFor → Option Nat
  | .shard i x => if (p.getDir i).bits = x then some i else none
  | _ => none

/-- A die reset discards its engine's descriptors; the hub asks again for what channel 0 still owed it (R239, R482, R490; DESIGN CHOICE,
log 83). -/
def resetChecks (s : Nat) (p : Panel) : Panel :=
  let lost := (p.getChk s).queue0.map (·.why)
  let ids := lost.filterMap ScanFor.copy
  let p := (p.modChk s discardScans).modHost fun h => { h with
    copies := h.copies.map fun c => if ids.contains c.id then { c with asked := false } else c }
  p.modRet fun r => { r with verify := r.verify ++ lost.filterMap (ScanFor.entry p) }

end Sys2Proof.Machine
end

