-- ==== Sys2Proof/Machine/RegionBase.lean ====
section
/-! DEFINITION. Regions: how a die starts a step, freezes and leaves; how the root releases a barrier (R206-R233). -/

namespace Sys2Proof.Machine

/-- N of a frequency step: VCO periods of a CK_CORE cycle (R370). -/
def stepN (f : Nat) : Nat := [20, 16, 13, 11, 10, 9, 8, 7].getD f 20

/-- The duty index of a site in a region. -/
def dutyOf (p : Panel) (r s : Nat) : Option Nat :=
  (List.find? (fun e : Nat × Nat => decide (e.2 = s)) (p.getReg r).duty).map (·.1)

/-- Position of a die in its block, row-major (R300), and the site at a position. -/
def blockBit (s : Nat) : Nat := 3 * ((rowOf s - 1) % 3) + (colOf s - 1) % 3
def blockSite (b i : Nat) : Nat := siteAt (3 * (b / 4) + 1 + i / 3) (3 * (b % 4) + 1 + i % 3)

/-- Every core that a region's members have (R207). -/
def regionCores (p : Panel) (r : Nat) : List Nat := (p.getReg r).members.flatMap coresOf

/-- Set the run epoch in a router: every run-tagged unit, descriptor and register; a destination register that nothing has
declared since reset is run-tagged (R199, R230; log 45). -/
def setRouterEpoch (s ep : Nat) (p : Panel) : Panel :=
  p.modRtr s fun r => { r with
    unit := r.unit.map fun e => if e.2.trun then (e.1, { e.2 with cep := ep }) else e,
    udesc := r.udesc.map fun e =>
      if UDesc.trun e.2 then (e.1, BitVec.ofNat 256 (fld e.2 255 176 * 2 ^ 176 + ep % 2 ^ 16 * 2 ^ 160 + fld e.2 159 0)) else e,
    dest := each ((List.range 64).filter fun i => (Tab.find? r.dest i).isNone) (fun i t => Tab.set i ⟨true, 0, ep⟩ t)
      (r.dest.map fun e => if e.2.trun then (e.1, { e.2 with epoch := ep }) else e) }

/-- Set the run epoch of a die: RUN_EPOCH of its cores and its router (R199). -/
def setRunEpoch (s ep : Nat) (p : Panel) : Panel :=
  setRouterEpoch s ep (each (coresOf s) (fun k p => p.modA k fun a => { a with epoch := BitVec.ofNat 64 ep }) p)

/-- Does a core wait at barrier `d`? -/
def waitsAt (d : Nat) (a : CoreA) : Bool := a.waits.any fun w => decide (w.kind = .barrier d)

/-- A core at run cycle 0 of a new step: a fresh core starts its program; one that waits at the barrier goes on; STEP counts
every release but that of a program start and of a restore step; the bundle after a BAR issues in run cycle 0 itself, so that its
wait is a cycle shorter than one that WAIT_END ends (R36, R62, R63, R215, R230). -/
def startCore (d : Nat) (restore fresh : Bool) (pc : Nat) (a : CoreA) : CoreA :=
  let a := if restore || fresh then a else { a with step := a.step + 1 }
  if a.run = .stopped then { a with run := .running, pc := pc, rc := 0, icc := 0, issued := 0 }
  else if waitsAt d a then
    let a := each (a.waits.filter fun w => decide (w.kind = .barrier d)) (fun w => endWait { w with start := w.start + 1 }) a
    let rest := a.waits.filter fun w => decide (w.kind ≠ .barrier d)
    { a with waits := rest, run := if a.run = .waiting ∧ rest.isEmpty then .running else a.run, issued := a.rc }
  else a

/-- The router at cycle 0 of a step (R155, R197). -/
def startRouter (n : Nat) (r : Router) : Router :=
  let r := { r with exec := some n, drained := false, cyc := 0, fired := [], late := 0, stalled := none, unit := startUnits r n }
  { r with drained := r.entries.isEmpty }

/-- Run cycle 0 of the step that a release of barrier `d` with start tick `t` began (R213, R215, R218). -/
def startDie (s d : Nat) (restore : Bool) (t : Nat) (p : Panel) : Panel :=
  match (p.getDie s).region with
  | none => p
  | some r =>
    let fresh := (p.getDie s).fresh
    let n := (dutyOf p r s).getD 0
    let p := p.modDie s fun x => { x with
      rel := none, sent := none, tick := t, clocked := none, fresh := false, running := true, stopAsked := none }
    let p := stepLatches s (p.modRtr s (startRouter (Step.seg (stepDesc p r d))))
    each (coresOf s) (fun k p => p.modCore k fun c =>
      { c with
        a := startCore d restore fresh (if restore then resumeOf p r n (coreOf k) else 0) c.a, noticed := [],
        ran := c.ran || decide (c.a.run = .stopped), openSeen := c.openSeen && decide (c.a.run ≠ .stopped) }) p

/-- Discard the cells of a die's VC queues but those of the transit domain: the number discarded. Their credits are owed at once
(R164, R222). -/
def flushTracks (s : Nat) (p : Panel) : Nat × Panel :=
  let r := p.getRtr s
  let mine (e : Nat × List Cell) : Bool := decide (e.1 % 8 ≠ 7) && (transitOf r (e.1 / 8)).isNone
  ((((r.inq.filter mine).map fun e => e.2.length).sum), p.modRtr s fun r => { r with inq := r.inq.filter fun e => !mine e })

/-- A waiting part of the N engine (R222). -/
def isNPart (x : UPart) : Bool := match x.agent with | .nLate => true | .nDelayed => true | _ => false

/-- A die freezes: issue has stopped; posts, N engine buffers, the late-receive queue and the region's cells are discarded
and counted; the segment is abandoned, the units emptied (R221, R222). A stalled router keeps its cells and credits (R172). A
core's run state stays as the freeze finds it, and CSTAT reads so (R74; DESIGN CHOICE, log 73). -/
def freezeDie (s : Nat) (p : Panel) : Panel :=
  if (p.getDie s).frozen then p
  else
    let r := p.getRtr s
    let keep := r.stalled.isSome
    let held := if keep then 0 else (r.sendBuf.map fun e => e.2.length).sum
    let p := each (coresOf s) closeBundle p
    let posts := ((coresOf s).map fun k => (p.getCore k).a.posts.length + (((p.getCore k).parts.filter isNPart).map (·.acc)).eraseDups.length + (p.getCore k).recvs.length).sum
    let p := each (coresOf s) (fun k p => p.modCore k fun c =>
      { c with a := { c.a with posts := [] }, parts := c.parts.filter (fun x => !isNPart x), recvs := [], halfRead := [] }) p
    let f := if keep then (0, p) else flushTracks s p
    let p := f.2.modRtr s fun r => { r with
      exec := none, drained := false, fired := [], sendBuf := if keep then r.sendBuf else [], unit := r.unit.map fun e => (e.1, { opUnit0 with opr := e.2.opr, trun := e.2.trun, tqid := e.2.tqid, cep := e.2.cep }) }
    let p := p.modDie s fun x => { x with frozen := true, rel := none, sent := none, running := false }
    match p.regionOf s with
    | some g => p.modReg g fun y => { y with ctr := { y.ctr with discards := y.ctr.discards + held + posts + f.1 } }
    | none => p

/-- Members that a barrier waits for: while a freeze is pending, not those with a faulted core and not those the book
bars, nor a substitute that has taken a duty since and runs nothing yet (R220, R225). -/
def awaited (p : Panel) (r : Nat) : List Nat :=
  let g := p.getReg r
  g.members.filter fun s =>
    !(g.freezing && (barred p s || decide ((p.getDie s).region ≠ some r) || (coresOf s).any fun k => decide ((p.getCore k).a.run = .faulted)))

/-- Has a die every core waiting at barrier `d`, or halted where `d` is none, and every other condition of R213? -/
def dieReady (p : Panel) (s : Nat) (d : Option Nat) : Bool :=
  let x := p.getDie s
  let waits (a : CoreA) : Bool := match d with | some d => waitsAt d a | none => false
  x.running && !x.frozen && (p.getRtr s).drained
    && (coresOf s).all (fun k => waits (p.getCore k).a || decide ((p.getCore k).a.run = .halted))
    && (coresOf s).all (fun k => (p.getCore k).parts.all fun y => decide (y.agent ≠ .nLate))
    && (match x.region with
        | none => false
        | some g => !Step.ckpt (stepDesc p g (p.getReg g).cur) || (coresOf s).all fun k =>
            (p.getCore k).a.streams.isEmpty && (p.getCore k).a.posts.isEmpty && (p.getCore k).recvs.isEmpty && !rowsPending p k)

/-- Condition 1 of R214 but for a pending freeze: every member awaited has arrived. A die whose cores have all halted arrives at
whatever barrier the others name, and counts as arrived while none is named (R212, R213; log 55). -/
def allArrived (p : Panel) (r : Nat) : Bool :=
  let g := p.getReg r
  (awaited p r).all fun s => g.arrived.contains s || (g.bar.isNone && dieReady p s none)

/-- The keys of the LIVE objects of dies (R122, R178). -/
def dieLiveKeys : List Nat := [256 * 0x600C, 256 * 0x600C + 1, 256 * 0x7008, 256 * 0x7008 + 1]

/-- Messages of a LIVE value: 8-byte writes of its bytes (R302). -/
def liveWrites (key : Nat) (b : List Byte) : List (Nat × Nat × Nat × BitVec 64) :=
  (List.range (ceilDiv b.length 8)).map fun i => (key / 256, key % 256, i, BitVec.ofNat 64 (leNat ((b.drop (8 * i)).take 8)))

/-- Send one die a set of LIVE writes under a new commit number (R302); TAG carries the number's low bits. -/
def sendLiveSet (r s : Nat) (ws : List (Nat × Nat × Nat × BitVec 64)) (p : Panel) : Panel :=
  let n := (p.ctl.liveNum + 1) % 2 ^ 16
  let p := p.modCtl fun c => { c with liveNum := n, lives := c.lives ++ [⟨n, s, r, ws⟩] }
  let p := each ws (fun w p => toSite s (n % 64) (.liveWrite w.1 w.2.1 w.2.2.1 w.2.2.2) p) p
  toSite s (n % 64) (.liveCommit n ws.length) p

/-- Limits that a region takes at a release: barrier timeout, release lead, step watchdog (R231, R233). -/
def newLimits (p : Panel) : Nat × Nat × Nat := (cfg p 0x5050 0 1, cfg p 0x5050 1 1, cfg p 0x5050 2 1)

/-- Is a committed LIVE object still staged for a region, or on its way to a die (R231, R302, R339)? -/
def liveWaits (p : Panel) (k : Nat) : Bool :=
  (p.reg.any fun e => decide (e.2.phase ≠ .free) && (e.2.pendKeys.contains k || e.2.sending.any fun x => decide (x.1 = k)))
    || p.ctl.lives.any fun l => takesPart p l.site && l.writes.any fun w => decide (256 * w.1 + w.2.1 = k)

/-- The LIVE objects that wait no more are in force everywhere (R339). -/
def settleLive (p : Panel) : Panel :=
  p.modOd fun o => { o with pendingLive := o.pendingLive.filter fun e => liveWaits p e.1 }

/-- The region number with which the hub notes a LIVE set to a die in no ACTIVE region. -/
def freeRegion : Nat := 0xFE

/-- LIVE values for a die in no ACTIVE region, which take effect there as the die applies them (R231, R302); a die that takes no part
has them when it comes up. -/
def freeLive (vals : List (Nat × List Byte)) (s : Nat) (p : Panel) : Panel :=
  if vals.isEmpty then p
  else if takesPart p s then sendLiveSet freeRegion s (vals.flatMap fun e => liveWrites e.1 e.2) p
  else p.modDie s fun x => { x with live := each vals (fun e t => Tab.set e.1 e.2 t) x.live }

/-- Begin the application of staged LIVE values to a region's dies (R231). -/
def beginLive (r : Nat) (p : Panel) : Panel :=
  let g := p.getReg r
  let vals := (dieLiveKeys.filter g.pendKeys.contains).map fun k => (k, odBytes p (k / 256) (k % 256))
  let p := p.modReg r fun g => { g with
    stage := .live, sending := vals, lim := newLimits p, pendKeys := [],
    seq := { g.seq with staged := [], sending := g.seq.sending ++ g.seq.staged }, liveAcks := if vals.isEmpty then [] else g.members }
  if vals.isEmpty then p
  else each g.members (fun s => sendLiveSet r s (vals.flatMap fun e => liveWrites e.1 e.2)) p

/-- Condition 3 of R214: the LIVE values are in force on every member; then the length and the batch are applied and the
step asks for its energy (R231, R256, R274). -/
def endLive (r : Nat) (s : State) : State :=
  let g := s.p.getReg r
  let s := s.onP fun p =>
    let p := settleLive (p.modReg r fun g => { g with sending := [], seq := { g.seq with sending := [] } })
    each g.seq.sending (applyLength r) p
  let s := if isRetrieval s.p r && decide (g.bar = some (rvScan s.p r)) then bindBatch r s else s
  s.onP fun p =>
    let p := p.modReg r fun g => { g with stage := .admission, admitTick := p.now }
    p.modAcct g.part fun a => { a with queue := (a.queue.filter fun x => decide (x ≠ r)) ++ [r] }

/-- The checkpoint that a release commits (R227). -/
def commitSlot (d : Nat) (p : Panel) (g : Region) (r : Nat) : Tab CkSlot :=
  let x := stepDesc p r g.cur
  if Step.ckpt x then Tab.set (Step.cslot x) ⟨g.step, d, true⟩ g.slots else g.slots

/-- The root releases a barrier: RELEASE names the start tick (R215, R300). -/
def release (r d : Nat) (restore : Bool) (p : Panel) : Panel :=
  let t := p.now + (p.getReg r).lim.2.1
  let p := p.modReg r fun g => { g with
    bar := none, arrived := [], cur := d, restoring := restore, relTick := t, stage := .arriving, starting := false, forced := false,
    seq := { g.seq with raised := false }, ctr := { g.ctr with admission := g.ctr.admission + (if g.stage = .admitted then p.now - g.admitTick else 0) } }
  toGroup 2 r (.release r d restore t) p

/-- The oldest batch that has not reached its completion barrier does (R258). -/
def endFirst (t : Nat) : List Batch → List Batch
  | [] => []
  | b :: l => if b.endAt = 0 then { b with endAt := t } :: l else b :: endFirst t l

/-- What follows a release at the hub for a retrieval region: passes armed, RERANKING entered, results due (R255, R256,
R258). -/
def retrievalRelease (r d : Nat) (p : Panel) : Panel :=
  if ¬ isRetrieval p r then p
  else
    let t := (p.getReg r).relTick
    let lanes := (p.getReg r).batches.flatMap (·.lanes)
    let p := if d = rvScan p r then armBatch r t p else p
    let p := if d = rvRerank p r then
        each lanes (fun l p => if (p.getQuery l.qid).st = .merging then setQuery l.qid .reranking 0 p else p) p
      else p
    if d = rvDone p r then p.modReg r fun g => { g with batches := endFirst (p.now + 100) g.batches } else p

/-- A barrier released under R214: the step that it ends, the step that it begins. The releases of START and of a restart end
none; the restore step's keeps STEP (R209, R230). -/
def releaseBarrier (r d : Nat) (p : Panel) : Panel :=
  let g := p.getReg r
  if g.starting then retrievalRelease r d (release r d false p)
  else if g.restart.isSome then
    raise 0x070E 0xFF (keyRegion r) none (release r d true (p.modReg r fun g => { g with
      restart := none, ctr := { g.ctr with restarts := g.ctr.restarts + 1 } }))
  else
    let slots := commitSlot d p g r
    let p := endStep r p
    let p := p.modReg r fun g => { g with slots := slots, step := (g.step + 1) % 2 ^ 32 }
    retrievalRelease r d (release r d false p)

/-- Condition 2 of R214 (R211). -/
def descReady (p : Panel) (r d : Nat) : Bool :=
  let x := stepDesc p r d
  Step.v x && committedOn p (Step.seg x) (p.getReg r).members

/-- Is an arrival of a region on its way to the root? It waits for all of them before it releases, so that it sees every
mismatch (R213, R300; log 44). -/
def arriveOut (p : Panel) (r : Nat) : Bool :=
  (allPkts p).any fun k => match k.msg with
    | .arrive r' _ _ _ => decide (r' = r)
    | _ => false

/-- The root's work on region `r`, as far as the conditions of R214 let it go now. -/
def progress (r : Nat) (s : State) : State :=
  let g := s.p.getReg r
  match g.bar with
  | none => s
  | some d =>
    if g.phase ≠ .active ∨ g.freezing then s
    else
      let s := if g.stage = .arriving ∧ allArrived s.p r = true ∧ arriveOut s.p r = false ∧ descReady s.p r d = true then s.onP (beginLive r) else s
      let s := if (s.p.getReg r).stage = .live ∧ (s.p.getReg r).liveAcks.isEmpty then endLive r s else s
      let s := if (s.p.getReg r).stage = .admission then s.onP (admitStep r) else s
      if (s.p.getReg r).stage = .admitted ∧ regionHeld s.p r = false then s.onP (releaseBarrier r d) else s

end Sys2Proof.Machine
end

