-- ==== Sys2Proof/Machine/CtlBase.lean ====
section
/-! DEFINITION. The group maps (R291), and the LIVE sets (R302). -/

namespace Sys2Proof.Machine

/-- Set or clear a group at nodes (R291). -/
def setGroup (g : Nat) (on : Bool) (sites : List Nat) (p : Panel) : Panel :=
  each sites (fun s p => p.modNode s fun n => { n with
    groups := if on then n.groups ||| 2 ^ g else if n.groups.testBit g then n.groups - 2 ^ g else n.groups }) p

end Sys2Proof.Machine
end

