-- ==== Sys2Proof/Machine/PlanBase.lean ====
section
/-! DEFINITION. Step plans: their form on the control network, how a die arms one, how the hub issues one and settles it
(R371-R375). -/

namespace Sys2Proof.Machine

/-- The region number that a LIVE set of no region carries: a step plan (R371). -/
def planRegion : Nat := 0xFF

/-- The index of a die's step-plan register (R371; log 23). -/
def planIndex : Nat := 0

/-- The plan that a set of writes spells, where it is one. -/
def planOf (ws : List (Nat × Nat × Nat × BitVec 64)) : Option Plan :=
  let at_ (i : Nat) : Option (BitVec 64) := (ws.find? fun w => decide (w.1 = planIndex) && decide (w.2.2.1 = i)).map (·.2.2.2)
  match at_ 0, at_ 1, at_ 2 with
  | some a, some t, some z => some ⟨fld a 63 32, fld a 2 0, t.toNat, (fld z 7 0, fld z 23 8)⟩
  | _, _, _ => none

/-- The writes that carry a plan. -/
def planWrites (x : Plan) : List (Nat × Nat × Nat × BitVec 64) :=
  [(planIndex, 0, 0, BitVec.ofNat 64 (x.num * 2 ^ 32 + x.step)), (planIndex, 0, 1, BitVec.ofNat 64 x.t),
   (planIndex, 0, 2, BitVec.ofNat 64 (x.spread.2 * 256 + x.spread.1))]

/-- A die takes a plan: discarded at or after T - 1,000 ticks; a higher number replaces an armed one (R371, R372). Is it
acknowledged? -/
def armPlan (s : Nat) (x : Plan) (p : Panel) : Bool × Panel :=
  if x.t ≤ p.now + 1000 then (false, p)
  else
    let ok : Bool := match (p.getClk s).armed with | some y => decide (y.num < x.num) | none => true
    (true, if ok then p.modClk s fun c => { c with armed := some x, raised := false } else p)

/-- Is a die powered and running: its bring-up has started it, and the book does not bar the hub from it (R371)? -/
def dieOn (p : Panel) (s : Nat) : Bool :=
  decide (Tab.get .off p.boot.dieUp s = .running) && takesPart p s && decide (p.ust s ≠ .fenced)

/-- The dies that a panel plan goes to (R371). -/
def planDies (p : Panel) : List Nat := allDies.filter fun s => isNode s && dieOn p s

/-- A step within the step limits, and at most F2 in holdover (R365, R370, R372). -/
def boundStep (p : Panel) (f : Nat) : Nat :=
  let x := min (max f (cfg p 0x2011 0 1)) (cfg p 0x2011 0 3)
  if p.clk.use = 2 then min x 2 else x

/-- The hub decides a plan now and sends it (R371); a committed spread change goes with it (R375). -/
def issuePlan (dies : List Nat) (f : Nat) (p : Panel) : Panel :=
  let x : Plan := ⟨p.clk.planNum + 1, boundStep p f, p.now + cfg p 0x2011 0 4, (cfg p 0x2020 0 1, cfg p 0x2020 0 2)⟩
  let p := p.modClocks fun c => { c with
    planNum := x.num, issued := c.issued + 1, spreadDue := false, plans := c.plans ++ [⟨x, dies, [], [], [], false⟩] }
  each dies (fun s => sendLiveSet planRegion s (planWrites x)) p

/-- A plan for the whole panel. -/
def panelPlan (f : Nat) (p : Panel) : Panel := issuePlan (planDies p) f p

/-- The step the panel is at or on its way to: that of the newest plan, before the first F0. -/
def panelStep (p : Panel) : Nat :=
  match p.clk.plans.getLast? with
  | some x => x.plan.step
  | none => p.clk.stepNow

/-- A die that missed a plan's deadline has answered the readback: at the old step it gets the same step under a new plan
(R371). -/
def settleReadback (s f : Nat) (p : Panel) : Panel :=
  match p.clk.plans.find? fun x => x.missed.contains s && decide (x.plan.t + 100 ≤ p.now) with
  | none => p
  | some x =>
    let p := p.modClocks fun c => { c with
      plans := (c.plans.map fun y => if y.plan.num = x.plan.num then { y with missed := y.missed.filter fun m => decide (m ≠ s) } else y) }
    if f = x.plan.step then p else issuePlan [s] x.plan.step p

/-- Plans that every target in service has applied or that a later one has replaced are settled; one that all have
applied is raised as STEP_CHANGED (R372). -/
def settlePlans (p : Panel) : Panel :=
  let left (x : PlanOut) : List Nat := x.targets.filter fun s => dieOn p s && !x.applied.contains s
  let out (x : PlanOut) : Bool := (x.missed.filter (dieOn p)).isEmpty
  let done (x : PlanOut) : Bool := (left x).isEmpty && out x
  let dead (x : PlanOut) : Bool := out x && (left x).all fun s => decide (x.plan.num < (p.getClk s).lastPlan)
  let won := p.clk.plans.filter done
  let p := p.modClocks fun c => { c with
    plans := c.plans.filter fun x => !done x && !dead x, stepNow := match won.getLast? with | some x => x.plan.step | none => c.stepNow }
  each won (fun x => raise 0x0205 0xFF keyPanel (some (BitVec.ofNat 64 x.plan.step))) p

end Sys2Proof.Machine
end

