-- ==== Sys2Proof/Machine/ClockOps.lean ====
section
/-! DEFINITION. References, timebase markers, die PLLs, step plans at the dies, stretching, clock modes and peripheral
gating (R362-R376). -/

namespace Sys2Proof.Machine

/-- The reference that the inputs' state selects (R364, R365). -/
def refChoice (p : Panel) : Nat :=
  let c := p.clk
  if c.refA.valid then (if c.refB.valid ∧ c.use = 1 ∧ cfg p 0x2002 0 1 = 0 then 1 else 0) else if c.refB.valid then 1 else 2

/-- The hub selects the reference: failover, holdover with the plan to F2, or restoration (R364, R365). -/
def selectRef (p : Panel) : Panel :=
  let old := p.clk.use
  let new := refChoice p
  if ¬ p.clk.settled ∨ new = old then p
  else if new = 2 then
    panelPlan (min 2 (panelStep p)) (raise 0x0202 p.activeHub keyPanel none (p.modClocks fun c => { c with use := 2, holdFrom := some p.now }))
  else if old = 2 then
    raise 0x0203 p.activeHub keyPanel none (p.modClocks fun c => { c with
      use := new, holdover := c.holdover + (match c.holdFrom with | some t => p.now - t | none => 0), holdFrom := none })
  else if new = 1 then
    raise 0x0201 p.activeHub keyPanel none (p.modClocks fun c => { c with use := 1, failovers := c.failovers + 1 })
  else p.modClocks fun c => { c with use := new }

/-- Change a reference input: 0 REFA, 1 REFB. -/
def modRef (i : Nat) (f : RefIn → RefIn) (p : Panel) : Panel :=
  p.modClocks fun c => if i = 0 then { c with refA := f c.refA } else { c with refB := f c.refB }

/-- A whole 100 µs in which an input met neither condition of R364: valid at once the first time, after 1,000 of them when
it had been lost. -/
def goodRef (r : RefIn) : RefIn :=
  if r.valid then r
  else if ¬ r.ever ∨ 1000 ≤ r.good + 1 then { r with valid := true, ever := true, good := 0 }
  else { r with good := r.good + 1 }

/-- An input is declared lost (R364). -/
def loseRef (r : RefIn) : RefIn := { r with valid := false, good := 0 }

/-- The first check of the references, and its repeats: `a` and `b` say of REFA and REFB that a full measurement met
neither condition (R363, R364). -/
def checkRefs (a b : Bool) (p : Panel) : Panel :=
  let p := if a then modRef 0 goodRef p else p
  let p := if b then modRef 1 goodRef p else p
  let c := refChoice p
  if c = 2 then p.modBoot fun x => { x with refWait := x.refWait + 1, refFrom := some (x.refFrom.getD p.now) }
  else (p.modClocks fun y => { y with use := c }).modBoot fun x => { x with refFrom := none }

/-- OSC_SETTLE_EXPIRY: the settle delay ends and the references are checked (R363). -/
def execOscSettleExpiry (a b : Bool) (s : State) : Out :=
  s.runP true fun p =>
    if p.clk.settled ∨ ¬ p.boot.porDone then p else checkRefs a b (p.modClocks fun c => { c with settled := true })

/-- REF_RECHECK, 1 ms after a check that found no valid reference (R363). -/
def execRefRecheck (a b : Bool) (s : State) : Out :=
  s.runP true fun p =>
    if p.clk.settled ∧ ¬ p.clk.refA.valid ∧ ¬ p.clk.refB.valid ∧ p.boot.refFrom.isSome then checkRefs a b p else p

/-- REF_EDGE_LOSS of REFA (0) or REFB (1): no rising edge for 40 ns (R364). -/
def execRefEdgeLoss (i : Nat) (s : State) : Out :=
  s.runP (decide (i < 2)) fun p => selectRef (modRef i loseRef p)

/-- REF_MEASUREMENT of REFA (0) or REFB (1): the frequency measured over 100 µs, in Hz (R364). An input is not used before
the settle delay has elapsed. -/
def execRefMeasurement (i hz : Nat) (s : State) : Out :=
  s.runP (decide (i < 2)) fun p =>
    if hz < 99900000 ∨ 100100000 < hz then selectRef (modRef i loseRef p)
    else if p.clk.settled then selectRef (modRef i goodRef p)
    else p

/-- TB_ALIGNMENT_MARKER at a die: the active hub's marker, sent every 65,536 ticks, carries bits [63:16] of the count;
`drift` is what has upset the die's copy since the last marker, 0 where nothing has (R367). -/
def execTbAlignmentMarker (node : Nat) (drift : BitVec 64) (s : State) : Out :=
  s.runP (isNode node) fun p =>
    let off := (p.getClk node).tbOff + drift
    if p.now % 65536 ≠ 0 then p
    else if fld (BitVec.ofNat 64 p.now + off) 63 16 = p.now % 2 ^ 64 / 2 ^ 16 then p.modClk node fun c => { c with tbOff := off }
    else dieRaise node 0 node 0x0208 none (p.modClk node fun c => { c with tbOff := 0, mism := c.mism + 1 })

/-- PLL_UNLOCK: the die's CK_CORE stops at the end of its cycle (R369). -/
def execPllUnlock (node : Nat) (s : State) : Out :=
  s.runP (isNode node) fun p =>
    if (p.getClk node).locked then dieRaise node 0 node 0x0207 none (p.modClk node fun c => { c with locked := false }) else p

/-- Has a die missed two plans within 10 s (R498)? -/
def twoMisses (l : List Nat) (now : Nat) : Bool :=
  decide (2 ≤ (l.filter fun t => decide (now < t + 10 * ticksPerSecond)).length)

/-- A die's acknowledgement missed the deadline (R371, R498). -/
def missPlan (s : Nat) (p : Panel) : Panel :=
  let l := p.now :: (Tab.get [] p.book.planMiss s).take 7
  let p := (p.modBook fun b => { b with planMiss := Tab.set s l b.planMiss }).modClocks fun c => { c with missedPlans := c.missedPlans + 1 }
  let p := raise 0x0206 s s none p
  if twoMisses l p.now then pendEvidence s 0x0206 p else p

/-- STEP_PLAN_DEADLINE of plan `num` (R371): the dies of a collapsed block are excluded (R388). -/
def execStepPlanDeadline (num : Nat) (s : State) : Out :=
  s.runP true fun p =>
    match p.clk.plans.find? fun x => decide (x.plan.num = num) with
    | none => p
    | some x =>
      if x.judged ∨ p.now + 1000 < x.plan.t then p
      else
        let late := x.targets.filter fun m => !x.acked.contains m && dieOn p m && !barred p m
        let p := p.modClocks fun c => { c with
          plans := c.plans.map fun y => if y.plan.num = num then { y with judged := true, missed := late } else y }
        each late missPlan p

/-- STEP_PLAN_READBACK: the hub reads with CFG_READ of table 3 the step of each die that missed plan `num`; the answer
settles it (R371). -/
def execStepPlanReadback (num : Nat) (s : State) : Out :=
  s.runP true fun p =>
    match p.clk.plans.find? fun x => decide (x.plan.num = num) with
    | none => p
    | some x => if x.plan.t + 100 ≤ p.now then each x.missed (fun m => toSite m (num % 64) (.cfgRead 3 0)) p else p

/-- REGULATOR_RAISE: from T - 1,000 ticks the rail of a die that steps up is raised (R372). -/
def execRegulatorRaise (node : Nat) (s : State) : Out :=
  s.runP (isNode node) fun p =>
    match (p.getClk node).armed with
    | some x => if x.t ≤ p.now + 1000 ∧ (p.getClk node).step < x.step then p.modClk node fun c => { c with raised := true } else p
    | none => p

/-- The step at which a die applies a plan: for 1 ms after an emergency step-down, no higher than that one (R373, R404). -/
def appliedStep (c : DieClk) (f now : Nat) : Nat :=
  match c.emergAt with
  | some (t, e) => if now ≤ t + 100000 then min f e else f
  | none => f

/-- STEP_PLAN_APPLY at tick T: the cycle in progress ends as it is and the next runs at the new step; the die is in SYNC
(R372, R374, R375). -/
def execStepPlanApply (node : Nat) (s : State) : Out :=
  s.runP (isNode node) fun p =>
    match (p.getClk node).armed with
    | none => p
    | some x =>
      if p.now < x.t then p
      else
        let p := p.modClk node fun c => { c with
          step := appliedStep c x.step p.now, armed := none, raised := false, lastPlan := x.num, localMode := false, plans := c.plans + 1 }
        settlePlans (p.modClocks fun c => { c with
          spread := x.spread,
          plans := c.plans.map fun y => if y.plan.num = x.num then { y with applied := node :: y.applied } else y })

/-- An emergency step-down, counted, raised and followed by a request to the hub (R373, R404). At F0 there is no lower
step. -/
def emergency (s ev : Nat) (p : Panel) : Panel :=
  let f := (p.getClk s).step
  let p := p.modClk s fun c => { c with
    step := f - 1, emerg := c.emerg + (if f = 0 then 0 else 1), emergAt := some (p.now, f - 1), asked := some (f - 1) }
  dieRaise s 0 s ev none p

/-- DROOP_STRETCH: the cycle in progress is stretched, within 32 of any 1,024 cycles but for stall cycles; beyond them the
die steps down (R370, R373). -/
def execDroopStretch (cs : Nat) (s : State) : Out :=
  s.runP (isCompute cs) fun p =>
    let c := p.getClk cs
    let recent := c.budget.filter fun n => decide (c.clk < n + 1024)
    let longer (draw : Bool) (p : Panel) : Panel := p.modClk cs fun c => { c with
      stretch := true, left := c.left + ceilDiv (stepN c.step) 2, stretched := c.stretched + 1,
      budget := if draw then c.clk :: recent else recent }
    if ¬ c.locked ∨ c.stretch then p
    else if 0 < c.stall then longer false p
    else if recent.length < 32 then longer true p
    else if c.step = 0 then longer true (emergency cs 0x0204 p)
    else emergency cs 0x0204 p

/-- STEP_REQUEST of a die reaches the hub, which plans the panel at its step or lower (R373, R404). -/
def execStepRequest (die : Nat) (s : State) : Out :=
  s.runP (isDie die) fun p =>
    match (p.getClk die).asked with
    | some f => panelPlan (min (panelStep p) f) (p.modClk die fun c => { c with asked := none })
    | none => p

/-- Write a die's clock mode: LOCAL at once, at a step up to the local ceiling that the die's monitors choose; SYNC by a
plan for the die (R374). Gives the abort code. -/
def writeClockMode (s x : Nat) (p : Panel) : Nat × Panel :=
  if 1 < x then (abortOf 0x04 1 0, p)
  else if x = 1 then
    if (p.regionOf s).isSome then (abortOf 0x09 1 0, p)
    else
      let f := p.freeNat.1 % (cfg p 0x2015 0 1 + 1)
      (0, p.freeNat.2.modClk s fun c => { c with localMode := true, step := if c.localMode then c.step else f })
  else if (p.getClk s).localMode then (0, issuePlan [s] (panelStep p) p)
  else (0, p)

/-- DIE_CLOCK_MODE_WRITE (R374). -/
def execDieClockModeWrite (node x : Nat) (s : State) : Out :=
  s.runP (isNode node) fun p => (writeClockMode node x p).2

/-- The site of guest `g`, and whether it is bound to a partition: the first byte of its binding object (R476). -/
def guestBound (p : Panel) (g : Nat) : Bool := decide ((odBytes p 0xB040 g).headD 0xFF ≠ 0xFF)

/-- May a peripheral's bit be cleared (R376)? -/
def mayClear (p : Panel) (i : Nat) : Bool :=
  match i with
  | 0 => true
  | 5 => decide (cfg p 0x1010 0 1 = 0)
  | 6 => decide (cfg p 0x1010 0 2 = 0)
  | 8 => true
  | 9 => !guestBound p 0
  | 10 => !guestBound p 1
  | 11 => p.book.expelled
  | _ => false

/-- Write hub `h`'s peripheral enable word (R376). Setting bit 8 lets the waiting checks go on (R490). Gives the abort
code. -/
def writePeriph (h : Nat) (x : BitVec 32) (p : Panel) : Nat × Panel :=
  let old := Tab.get 0 p.clk.periph h
  if fld x 31 12 ≠ 0 then (abortOf 0x04 2 0, p)
  else if (List.range 12).any fun i => bit old i && !bit x i && !mayClear p i then (abortOf 0x09 1 0, p)
  else
    let p := p.modClocks fun c => { c with periph := Tab.set h x c.periph }
    let p := if ¬ bit x 11 ∧ h = p.book.active then p.modFab fun f => { f with mer := { f.mer with openLatch := false } } else p
    (0, if bit x 8 ∧ h = p.book.active then each computeSites pumpSite p else p)

/-- PERIPHERAL_ENABLE_WRITE (R376). -/
def execPeripheralEnableWrite (hub : Nat) (x : BitVec 32) (s : State) : Out :=
  s.runP (isHub hub) fun p => (writePeriph (if hub = 0 then 0 else 1) x p).2

end Sys2Proof.Machine
end

