-- ==== Sys2Proof/Machine/SegmentOps.lean ====
section
/-! DEFINITION. Committing a segment: the nine checks of R160 and the operator rules of R183. -/

namespace Sys2Proof.Machine

/-- Is a port code defined on the die, as an input and as an output (R153, R526)? -/
def portIn (s c : Nat) : Bool :=
  if isCompute s then decide (c < 0xD0)
  else decide (c < 0x5C) || decide (0x60 ≤ c ∧ c < 0x7C) || (decide (portMaster (portOfDie s) = s) && decide (0x90 ≤ c ∧ c ≤ 0x97))
def portOut (s c : Nat) : Bool := portIn s c

/-- The permit of an edge output track (R162). -/
def permitOf (r : Router) (code : Nat) : Nat := Tab.get 0 r.permit (code / 32) / 4 ^ (code % 32) % 4
/-- Does a valid transit entry name a track (R160, check 6)? -/
def transitNames (r : Router) (code : Nat) : Bool :=
  (List.range 32).any fun i =>
    let x := Tab.get 0 r.transit i
    transitV x && (decide (fld x 23 16 = code) || decide (fld x 15 8 = code))

/-- The permit of a die's edge output track: transit where a valid entry sends on it, scheduled where the neighbour is a
member of the region too or holds a valid entry that takes the track, else closed (R162). -/
def permitFor (inside : Nat → Bool) (p : Panel) (s code : Nat) : Nat :=
  let f := farEnd s code
  if (p.getRtr s).transit.any fun e => transitV e.2 && decide (fld e.2 15 8 = code) then 2
  else if (inside s && isCompute f.1 && inside f.1)
      || (p.getRtr f.1).transit.any (fun e => transitV e.2 && decide (fld e.2 23 16 = f.2)) then 1
  else 0

/-- The hub writes the permits of a die (R162, R445; log 41). -/
def setPermits (inside : Nat → Bool) (s : Nat) (p : Panel) : Panel :=
  let word (e : Nat) : Nat := ((List.range 32).map fun t => permitFor inside p s (32 * e + t) * 4 ^ t).sum
  let ws := (List.range 4).map fun e => (e, word e)
  p.modRtr s fun r => { r with permit := each ws (fun w t => Tab.set w.1 w.2 t) r.permit }

/-- Check 1: the descriptor (R155). -/
def segDescOk (d : BitVec 128) : Bool :=
  decide (1 ≤ Seg.reps d) && decide (1 ≤ Seg.period d ∧ Seg.period d ≤ 65536)
    && decide (Seg.base d + Seg.count d ≤ 65536) && decide (fld d 127 96 = 0) && decide (fld d 63 50 = 0)

/-- Check 2 for an entry and the one before it. -/
def cycOk (d : BitVec 128) (prev : Option (BitVec 64)) (x : BitVec 64) : Bool :=
  decide (Hop.cyc x < Seg.period d) && (match prev with | some y => decide (Hop.cyc y ≤ Hop.cyc x) | none => true)

/-- Check 3 for an entry. -/
def codesOk (s : Nat) (x : BitVec 64) : Bool :=
  decide (Hop.rsv x = 0) && portOut s (Hop.out x)
    && (match Hop.mode x with
        | 2 => decide (Hop.inp x = 0xF0) && decide (Hop.out x < 0x80)
        | 3 => false
        | _ => portIn s (Hop.inp x))

/-- Check 4 for an entry: the entries before it, nearest first, and the one after it. -/
def sharing (before : List (BitVec 64)) (next : Option (BitVec 64)) (x : BitVec 64) : Bool :=
  let same := before.filter fun y => decide (Hop.cyc y = Hop.cyc x)
  let group := same.takeWhile fun y => decide (Hop.mode y = 1) && decide (Hop.inp y = Hop.inp x) && decide (Hop.ivc y = Hop.ivc x)
  (same.all fun y => decide (Hop.out y ≠ Hop.out x))
    && ((same.drop group.length).all fun y => decide (inKey y ≠ inKey x))
    && (decide (Hop.mode x ≠ 1) || match next with
        | some y => decide (Hop.cyc y = Hop.cyc x) && decide (Hop.inp y = Hop.inp x) && decide (Hop.ivc y = Hop.ivc x)
            && decide (Hop.mode y ≤ 1)
        | none => false)

/-- Check 5 for an entry. -/
def linksOk (p : Panel) (s : Nat) (x : BitVec 64) : Bool :=
  !(decide (Hop.inp x < 0x80) && linkDisabled p s (Hop.inp x)) && !(decide (Hop.out x < 0x80) && linkDisabled p s (Hop.out x))

/-- Check 6 for an entry. -/
def permitsOk (r : Router) (x : BitVec 64) : Bool :=
  (decide (0x80 ≤ Hop.out x) || (decide (permitOf r (Hop.out x) = 1) && !transitNames r (Hop.out x)))
    && (decide (0x80 ≤ Hop.inp x) || !transitNames r (Hop.inp x))

/-- Check 7 for an entry. -/
def vcsOk (x : BitVec 64) : Bool := decide (Hop.ovc x ≠ 7) && (decide (0x80 ≤ Hop.inp x) || decide (Hop.ivc x ≠ 7))

/-- Check 8: service slots of every edge output with a permit-1 track. -/
def serviceOk (r : Router) (d : BitVec 128) (es : List (BitVec 64)) : Bool :=
  (List.range 4).all fun g =>
    !((List.range 32).any fun t => decide (permitOf r (32 * g + t) = 1))
      || (List.range (ceilDiv (Seg.period d) 1024)).all fun b =>
        es.any fun x => decide (Hop.mode x = 2) && decide (Hop.out x / 32 = g) && decide (Hop.cyc x / 1024 = b)

/-- Rules 9a to 9f of a unit (R183): its descriptor, and its operand and result entries per period. -/
def unitOk (d : BitVec 256) (reps operands results : Nat) : Bool :=
  let o := UDesc.opr d
  let et := UDesc.etype d
  let t := UDesc.tmpl d
  let n := results * reps
  decide (1 ≤ o ∧ o ≤ 5) && decide (fld d 248 248 = 0) && decide (fld d 211 195 = 0) && decide (fld d 159 64 = 0)
    && (decide (o = 3) || decide (UDesc.km1 d = 0)) && (!UDesc.trun d || decide (UDesc.tqid d = 0))
    && (if o = 2 then maxType et else decide (et = 0))
    && decide (nfld t 63 61 = 2) && decide (nfld t 29 26 = o) && decide (nfld t 60 44 = 0) && decide (nfld t 25 0 = 0)
    && decide (operands = UDesc.fan d * results)
    && (decide (o ≠ 3) || (decide (n % UDesc.cells d = 0) && decide ((UDesc.fan d - 1) * 5 * UDesc.cells d ≤ 64 * UDesc.ssize d)
          && decide (UDesc.sbase d + UDesc.ssize d ≤ 512)))

/-- Do two merge store ranges overlap (rule 9f)? -/
def storesMeet (x y : BitVec 256) : Bool :=
  decide (UDesc.opr x = 3) && decide (UDesc.opr y = 3) && decide (UDesc.sbase x < UDesc.sbase y + UDesc.ssize y)
    && decide (UDesc.sbase y < UDesc.sbase x + UDesc.ssize x)

/-- Check 9 for an entry: the unit it names, if it names one. -/
def operatorOk (r : Router) (n : Nat) (es : List (BitVec 64)) (x : BitVec 64) : Bool :=
  let ops (u : Nat) : Nat := (es.filter fun y => decide (Hop.out y = 0xC0 + u)).length
  let res (u : Nat) : Nat := (es.filter fun y => decide (Hop.inp y = 0xC0 + u) && decide (Hop.mode y ≠ 1)).length
  let used (u : Nat) : Bool := es.any fun y => decide (Hop.out y = 0xC0 + u) || decide (Hop.inp y = 0xC0 + u)
  let dsc (u : Nat) : BitVec 256 := Tab.get 0 r.udesc (16 * n + u)
  let ok (u : Nat) : Bool :=
    unitOk (dsc u) (Seg.reps (r.segDesc n)) (ops u) (res u)
      && (List.range 16).all fun w => decide (w = u) || !used w || !storesMeet (dsc u) (dsc w)
  (decide (Hop.out x < 0xC0) || (decide (Hop.mode x ≠ 2) && ok (Hop.out x - 0xC0)))
    && (decide (Hop.inp x < 0xC0) || decide (Hop.inp x = 0xF0) || ok (Hop.inp x - 0xC0))

/-- The first entry for which a check fails, given each entry with those before it, nearest first. -/
def firstBad (f : List (BitVec 64) → Option (BitVec 64) → BitVec 64 → Bool) :
    Nat → List (BitVec 64) → List (BitVec 64) → Option Nat
  | _, _, [] => none
  | i, before, x :: t => if f before t.head? x then firstBad f (i + 1) (x :: before) t else some i

/-- The first check of R160 that fails, and its entry. -/
def segFail (p : Panel) (s n : Nat) : Option (Nat × Nat) :=
  let r := p.getRtr s
  let d := r.segDesc n
  let es := (List.range (Seg.count d)).map fun i => r.entry (Seg.base d + i)
  let at_ (c : Nat) (o : Option Nat) : Option (Nat × Nat) := o.map fun i => (Seg.base d + i, c)
  let run (f : List (BitVec 64) → Option (BitVec 64) → BitVec 64 → Bool) : Option Nat := firstBad f 0 [] es
  if ¬ segDescOk d then some (Seg.base d, 1)
  else
    (at_ 2 (run fun b _ x => cycOk d b.head? x)).orElse fun _ =>
    (at_ 3 (run fun _ _ x => codesOk s x)).orElse fun _ =>
    (at_ 4 (run sharing)).orElse fun _ =>
    (at_ 5 (run fun _ _ x => linksOk p s x)).orElse fun _ =>
    (at_ 6 (run fun _ _ x => permitsOk r x)).orElse fun _ =>
    (at_ 7 (run fun _ _ x => vcsOk x)).orElse fun _ =>
    (if serviceOk r d es then none else some (Seg.base d, 8)).orElse fun _ =>
    at_ 9 (run fun _ _ x => operatorOk r n es x)

/-- Commit segment `n`, or record the first failure (R160, R178). -/
def commitSegment (s n : Nat) (p : Panel) : Panel :=
  match segFail p s n with
  | none => p.modRtr s fun r => { r with committed := r.committed ||| 2 ^ n }
  | some (e, c) => p.modRtr s fun r => { r with refusal := (n, e, c, p.now) }

/-- SEGMENT_COMMIT (R160). -/
def execSegmentCommit (mesh n : Nat) (s : State) : Out :=
  s.runP (isMesh mesh && decide (n < 64)) (commitSegment mesh n)

end Sys2Proof.Machine
end

