-- ==== Sys2Proof/Machine/RegionOps.lean ====
section
/-! DEFINITION. The commands and events of regions: definition, control, barriers, freezes, substitution, variants
(R206-R231, R300). -/

namespace Sys2Proof.Machine

/-- A refused request with class 0x09, reason 1 (R342). -/
def conflict9 : Nat := abortOf 0x09 1 0

/-- Does a site lie in a region's rectangle? -/
def inRect (row0 col0 row1 col1 s : Nat) : Bool :=
  decide (row0 ≤ rowOf s) && decide (rowOf s ≤ row1) && decide (col0 ≤ colOf s) && decide (colOf s ≤ col1)

/-- The members that a definition takes (R206). -/
def rectMembers (p : Panel) (row0 col0 row1 col1 : Nat) : List Nat :=
  computeSites.filter fun s =>
    inRect row0 col0 row1 col1 s && (match p.ust s with | .absent => false | .failed => false | .hamper => false | _ => true)

/-- May a region be defined (R206, R374)? -/
def regionDefinable (p : Panel) (r part row0 col0 row1 col1 : Nat) : Bool :=
  let ms := rectMembers p row0 col0 row1 col1
  decide ((p.getReg r).phase = .free) && decide (1 ≤ row0 ∧ row0 ≤ row1 ∧ row1 ≤ 12 ∧ 1 ≤ col0 ∧ col0 ≤ col1 ∧ col1 ≤ 12)
    && !ms.isEmpty && (ms.all fun s => decide (p.partOf s = some part) && (p.regionOf s).isNone && !(p.getClk s).localMode)
    && p.reg.all fun e => decide (e.2.phase = .free) || !(computeSites.any fun s =>
        inRect row0 col0 row1 col1 s && inRect e.2.row0 e.2.col0 e.2.row1 e.2.col1 s)

/-- Commit a region record: define the region (R206, R208, R223). Gives the abort code. -/
def defineRegion (r part row0 col0 row1 col1 image restore : Nat) (p : Panel) : Nat × Panel :=
  if ¬ regionDefinable p r part row0 col0 row1 col1 then (conflict9, p)
  else
    let ms := rectMembers p row0 col0 row1 col1
    let subs := ms.filterMap fun s => let h := hamperOf (blockOf s); if p.ust h = .hamper then some (s, h) else none
    let p := p.modReg r fun g => { region0 with
      phase := .defined, part := part, row0 := row0, col0 := col0, row1 := row1, col1 := col1, image := image,
      restore := restore, count := ms.length, members := ms, subst := subs, variant := [], staging := g.staging }
    let p := each ms (setPermits ms.contains) p
    (0, refreshDuty r (setGroup r true ms (each ms (serveSite .assigned) p)))

/-- REGION_RECORD_COMMIT: partition, rectangle, image identifier, restore descriptor (R206). -/
def execRegionRecordCommit (r part row0 col0 row1 col1 image restore : Nat) (s : State) : Out :=
  s.runP (isRegion r) fun p =>
    if part < 256 ∧ row0 < 256 ∧ col0 < 256 ∧ row1 < 256 ∧ col1 < 256 ∧ image < 2 ^ 64 ∧ restore < 256 then
      (defineRegion r part row0 col0 row1 col1 image restore p).2
    else p

/-- Is every window of a core CLOSED with nothing in flight? -/
def windowsQuiet (c : Core) : Bool := c.a.win.all fun e => decide (e.2.st = .closed) && decide (e.2.inflight = 0)

/-- ARM (R209). -/
def armRegion (r : Nat) (p : Panel) : Nat × Panel :=
  if (p.getReg r).phase = .defined ∧ descReady p r 0 = true ∧ (regionCores p r).all (fun k => windowsQuiet (p.getCore k)) = true then
    (0, refreshDuty r (p.modReg r fun g => { g with phase := .armed }))
  else (conflict9, p)

def execArm (r : Nat) (s : State) : Out := s.runP (isRegion r) fun p => (armRegion r p).2

/-- The dies of a region take part in its run: RUNNING, none frozen, waiting for the first release, that of `d` (R208, R209,
R230). -/
def enterRun (r d : Nat) (p : Panel) : Panel :=
  each (p.getReg r).members (fun s p =>
    serveSite .running s (p.modDie s fun x => { x with
      region := some r, frozen := false, sent := some d, rel := none, running := false, stopAsked := none, fresh := true })) p

/-- START (R209): the release of barrier 0, under the conditions of R214. -/
def startRegion (r : Nat) (s : State) : Nat × State :=
  if (s.p.getReg r).phase ≠ .armed then (conflict9, s)
  else
    let s := s.onP fun p =>
      let p := p.modReg r fun g => { g with
        phase := .active, step := 0, cur := 0, bar := some 0, arrived := g.members, starting := true, stage := .arriving,
        firstTick := p.now, freezing := false, immediate := false, cause := 0 }
      let p := each (p.getReg r).members (fun m p =>
        let ep := (p.getCore (4 * m)).a.epoch.toNat % 2 ^ 16
        setRunEpoch m ep (each (coresOf m) (fun k p => p.modA k fun a => { a with step := 0 }) p)) p
      enterRun r 0 p
    (0, progress r s)

def execStart (r : Nat) (s : State) : Out := s.run (isRegion r) fun s => (startRegion r s).2

/-- FREEZE (R209, R220): the cause of a command has no EV of its own; 0x070A stands for it. -/
def freezeRegion (r : Nat) (p : Panel) : Nat × Panel :=
  if (p.getReg r).phase = .active then (0, triggerFreeze r 0x070A p) else (conflict9, p)

def execFreezeCommand (r : Nat) (s : State) : Out := s.runP (isRegion r) fun p => (freezeRegion r p).2

/-- A region's staged LIVE values go to its dies, which are in no ACTIVE region any more (R231, R339). -/
def liveNow (r : Nat) (p : Panel) : Panel :=
  let g := p.getReg r
  let vals := (dieLiveKeys.filter fun k => g.pendKeys.contains k || g.sending.any fun e => decide (e.1 = k)).map
    fun k => (k, odBytes p (k / 256) (k % 256))
  settleLive (each g.members (freeLive vals) (p.modReg r fun g => { g with pendKeys := [], sending := [], liveAcks := [] }))

/-- DISSOLVE (R209, R276): length 0, core resets, members READY and held hamper sites HAMPER, phase FREE. -/
def dissolveRegion (r : Nat) (p : Panel) : Nat × Panel :=
  let g := p.getReg r
  if ¬ (g.phase = .defined ∨ g.phase = .armed ∨ g.phase = .frozen ∨ g.phase = .ended) then (conflict9, p)
  else
    let p := shrinkLength r 0 p
    let p := if g.batches.isEmpty then p else abandonBatch r p
    let p := liveNow r p
    let p := each g.members (fun s p =>
      let p := each (coresOf s) coreReset p
      let p := p.modRtr s fun x => { x with exec := none, drained := false }
      let p := p.modDie s fun x => { dieRun0 with live := x.live, ignored := x.ignored }
      serveSite (if isHamperPos s then .hamper else .ready) s p) p
    let p := p.modAcct g.part fun a => { a with queue := a.queue.filter fun x => decide (x ≠ r) }
    let p := each g.members (setPermits fun _ => false) p
    (0, setGroup r false g.members (p.modReg r fun x => { region0 with staging := x.staging, ctr := x.ctr }))

def execRegionDissolve (r : Nat) (s : State) : Out := s.runP (isRegion r) fun p => (dissolveRegion r p).2

/-- Does a die that has sent no arrival of the step meet the conditions of R213 for barrier `d`? -/
def dieArrives (p : Panel) (s d : Nat) : Bool := (p.getDie s).sent.isNone && dieReady p s (some d)

/-- The barriers at which a die arrives: those its cores wait at; of a die whose cores have all halted, the one the region's
other dies have named (R212, R213; log 55). -/
def dieBarriers (p : Panel) (s : Nat) : List Nat :=
  if (coresOf s).all fun k => decide ((p.getCore k).a.run = .halted) then
    match (p.getDie s).region with | some r => (p.getReg r).bar.toList | none => []
  else
    ((coresOf s).flatMap fun k => (p.getCore k).a.waits.filterMap fun w => match w.kind with | .barrier d => some d | _ => none).eraseDups

/-- DIE_BARRIER_ARRIVAL: the die sends its arrival; where its cores wait at different barriers it sends one for each, so
that the root sees the mismatch (R213, R300). -/
def execDieBarrierArrival (cs : Nat) (s : State) : Out :=
  s.runP (isCompute cs) fun p =>
    let ds := dieBarriers p cs
    let go : Bool := match ds with
      | [] => false
      | [d] => dieArrives p cs d
      | _ => (p.getDie cs).running && (p.getDie cs).sent.isNone && !(p.getDie cs).frozen
          && (coresOf cs).all fun k => (decide ((p.getCore k).a.run = .waiting) || decide ((p.getCore k).a.run = .halted))
    match (p.getDie cs).region with
    | none => p
    | some r =>
      if go then
        let p := countArrival cs (p.modDie cs fun x => { x with sent := ds.head?, sentAt := p.now })
        each ds (fun d => toHub cs 0 (.arrive r d (blockOf cs) (2 ^ blockBit cs))) p
      else p

/-- A die that names another hub active sends an arrival that no release has answered again (R217); a release sent before the
takeover stands, though it may still be on its way. -/
def resendArrival (s : Nat) (p : Panel) : Panel :=
  let x := p.getDie s
  match x.region, x.sent with
  | some r, some d =>
    if x.rel.isNone ∧ ¬ x.fresh ∧ (p.getReg r).relTick ≤ x.sentAt then toHub s 0 (.arrive r d (blockOf s) (2 ^ blockBit s)) p else p
  | _, _ => p

/-- An arrival at the barrier root; that of a barred die is a sign of health and no more (R213, R214, R216, R300, R499). -/
def rootArrive (r d block mask : Nat) (s : State) : State :=
  let g := s.p.getReg r
  let all := (bitsSet 9 mask).map (blockSite block)
  let ss := all.filter fun x => !barred s.p x
  let s := s.onP (each (all.filter (barred s.p)) healthSign)
  if g.phase ≠ .active ∨ ss.isEmpty then s
  else if g.bar.isSome ∧ g.bar ≠ some d then
    s.onP fun p => immediateFreeze r 0x0707 (raise 0x0707 0xFF (keyRegion r) none p)
  else
    let s := s.onP fun p => p.modReg r fun g => { g with
      bar := some d, firstTick := if g.bar.isSome || g.freezing then g.firstTick else p.now,
      arrived := g.arrived ++ ss.filter fun x => !g.arrived.contains x }
    progress r s

/-- ARRIVE at a node: the root takes it; another node sends it on, merged with one that still waits there (R300). -/
def execArrive (node : Nat) (k : Pkt) (s : State) : Out :=
  s.run (isNode node) fun s =>
    match k.msg with
    | .arrive r d block mask =>
      if unicastTo (s.p.getNode node) k = node then onPktS k node (rootArrive r d block mask) s
      else s.onP fun p => match takePkt node k p with | some q => forwardUnicast node k q | none => p
    | _ => s

/-- RELEASE at a die: it arms the start tick where the die waits at the barrier; late, the die starts at once (R215, R300). -/
def execRelease (node : Nat) (k : Pkt) (s : State) : Out :=
  s.runP (isNode node) (onPkt node k fun p =>
    match k.msg with
    | .release r d restore t =>
      let x := p.getDie node
      if x.region = some r ∧ x.sent = some d ∧ x.rel.isNone ∧ x.stopAsked.isNone ∧ ¬ x.frozen then
        if t < p.now then startDie node d restore t (dieRaise node 0 node 0x0708 none p)
        else p.modDie node fun x => { x with rel := some (d, restore, t) }
      else if isCompute node then
        (p.modDie node fun x => { x with ignored := x.ignored + 1 }).modNode node fun n => { n with
          ctr := { n.ctr with ignored := n.ctr.ignored + 1 } }
      else p
    | _ => p)

/-- STEP_START at the die's first CK_CORE edge at or after the start tick, the edge counted as `clkT` (R215, R218). -/
def execStepStart (cs : Nat) (s : State) : Out :=
  s.runP (isCompute cs) fun p =>
    match (p.getDie cs).rel with
    | some (d, restore, t) => if t ≤ p.now ∧ (p.getDie cs).clkT ≤ (p.getClk cs).clk ∧ ¬ (p.getDie cs).frozen then startDie cs d restore t p else p
    | none => p

/-- Does the barrier that a region arrives at wait for nothing that the barrier timeout measures: conditions 1 and 2 of R214, or
the arrivals of a freeze barrier (R216, R220)? -/
def barrierMet (p : Panel) (r : Nat) : Bool :=
  let g := p.getReg r
  allArrived p r && (g.freezing || match g.bar with | some d => descReady p r d | none => false)

/-- BARRIER_TIMEOUT (R216). -/
def execBarrierTimeout (r : Nat) (s : State) : Out :=
  s.runP (isRegion r) fun p =>
    let g := p.getReg r
    if g.phase = .active ∧ (g.bar.isSome ∨ g.freezing) ∧ ¬ g.immediate ∧ g.stage = .arriving ∧ barrierMet p r = false ∧ g.firstTick + g.lim.1 ≤ p.now then
      let late := g.members.filter fun m =>
        !g.arrived.contains m && !dieReady p m none && !((coresOf m).any fun k => decide ((p.getCore k).a.run = .faulted))
      let p := each late (fun m => pendEvidence m 0x0706) p
      immediateFreeze r 0x0706 (raise 0x0706 0xFF (keyRegion r) none p)
    else p

/-- STEP_WATCHDOG (R216), from the root's decision to release, which is the release lead before the start tick (R215). -/
def execStepWatchdog (r : Nat) (s : State) : Out :=
  s.runP (isRegion r) fun p =>
    let g := p.getReg r
    if g.phase = .active ∧ g.bar = none ∧ ¬ g.immediate ∧ g.relTick + g.lim.2.2 ≤ p.now + g.lim.2.1 then
      immediateFreeze r 0x0709 (raise 0x0709 0xFF (keyRegion r) none p)
    else p

/-- FREEZE at a die: it stops, drops its work and reports that it has stopped (R221, R222, R304). -/
def execFreeze (node : Nat) (k : Pkt) (s : State) : Out :=
  s.runP (isNode node) (onPkt node k fun p =>
    match k.msg with
    | .freeze r cause =>
      if isCompute node ∧ (p.getReg r).members.contains node = true then
        toHub node 3 (.ack 0 r) (freezeDie node (p.modDie node fun x => { x with stopAsked := some (r, cause) }))
      else p
    | _ => p)

/-- Has every die of the footprint stopped: each has reported it, or the freeze barrier has completed (R220, R222)? A die
that is FAILED, FENCED, SUSPECT or ABSENT is not waited for (DEDUCED, log 112). -/
def footprintStopped (p : Panel) (r : Nat) : Bool :=
  let g := p.getReg r
  let ss := g.members.filter fun s => !barred p s && decide (p.ust s ≠ .absent)
  (ss.all g.stopped.contains) || (!g.immediate && allArrived p r)

/-- FREEZE_COMPLETE (R222, R263). -/
def execFreezeComplete (r : Nat) (s : State) : Out :=
  s.runP (isRegion r) fun p =>
    let g := p.getReg r
    if g.phase = .active ∧ g.freezing ∧ footprintStopped p r = true ∧ g.lastCell + 100 ≤ p.now then
      let p := if g.immediate then p else judgeStep r p
      let p := each g.members freezeDie p
      let p := p.modReg r fun g => { g with
        phase := .frozen, freezing := false, immediate := false, bar := none, arrived := [], stopped := [], stage := .arriving,
        starting := false, restart := none, liveAcks := [] }
      let p := each g.members (fun s p => if usable p s then serveSite .assigned s p else p) p
      let p := p.modAcct g.part fun a => { a with queue := a.queue.filter fun x => decide (x ≠ r) }
      abandonBatch r p
    else p

namespace Ck

/-- Fields of a checkpoint header (R228). -/
def mark (h : BitVec 512) : Nat := fld h 511 496
def image (h : BitVec 512) : Nat := fld h 479 416
def step (h : BitVec 512) : Nat := fld h 415 384
def desc (h : BitVec 512) : Nat := fld h 383 376
def slot (h : BitVec 512) : Nat := fld h 375 368
def duty (h : BitVec 512) : Nat := fld h 367 352

end Ck

/-- Where duty `n`'s header of a slot lies: the primary site, or the copy where the primary is FAILED or has left (R229). -/
def headerAt (p : Panel) (r n slot : Nat) : Nat × Nat :=
  let b := ((odBytes p 0x5045 r).drop (64 * n + 32 * slot)).take 32
  let prim := (b.getD 0 0).toNat
  if p.ust prim = .failed ∨ ¬ (p.getReg r).members.contains prim then ((b.getD 1 0).toNat, leNat ((b.drop 16).take 8))
  else (prim, leNat ((b.drop 8).take 8))

/-- Duty `n`'s header and generation block in a slot, where the header is valid (R228, R229). -/
def readHeader (s : State) (r n slot : Nat) (c : CkSlot) : Option (List Byte) :=
  let at_ := headerAt s.p r n slot
  let h := BitVec.ofNat 512 (leNat (stackRead [] s.p s.mem at_.1 at_.2 64))
  if isCompute at_.1 ∧ at_.2 + 576 ≤ stackBytes s.p.variant ∧ Ck.mark h = 0x4B43 ∧ Ck.image h = (s.p.getReg r).image ∧ Ck.step h = c.step
      ∧ Ck.desc h = c.barrier ∧ Ck.slot h = slot ∧ Ck.duty h = 4 * n then
    some (stackRead [] s.p s.mem at_.1 (at_.2 + 64) 512)
  else none

/-- Every duty's generation block of a slot, where the slot validates (R229). -/
def readSlot (s : State) (r slot : Nat) : Option (List (Nat × List Byte)) :=
  let c := Tab.get default (s.p.getReg r).slots slot
  if ¬ c.valid then none
  else
    let l := (s.p.getReg r).duty.map fun e => (e.1, readHeader s r e.1 slot c)
    if l.all fun e => e.2.isSome then some (l.map fun e => (e.1, e.2.getD [])) else none

/-- The slot that a restart uses: the later one first, then the other (R229). -/
def pickSlot (s : State) (r : Nat) : Option (Nat × List (Nat × List Byte)) :=
  let c (n : Nat) : CkSlot := Tab.get default (s.p.getReg r).slots n
  let first := if (c 0).valid && (!(c 1).valid || decide ((c 1).step ≤ (c 0).step)) then 0 else 1
  match readSlot s r first with
  | some g => some (first, g)
  | none => (readSlot s r (1 - first)).map fun g => (1 - first, g)

/-- Set a core's window generations from its part of a generation block (R228, R230, step 2). -/
def setGens (b : List Byte) (k : Nat) (p : Panel) : Panel :=
  p.modA k fun a => { a with
    win := (List.range 64).map fun n =>
      (n, { Tab.get window0 a.win n with gen := leNat ((b.drop (128 * coreOf k + 2 * n)).take 2) }) }

/-- May region `r` restart: FROZEN, every FAILED member's duty covered by the variant in force (R230)? -/
def restartable (p : Panel) (r : Nat) : Bool :=
  let g := p.getReg r
  decide (g.phase = .frozen) && (g.members.all fun m => decide (p.ust m ≠ .failed)) && g.moved.all g.variant.contains

/-- RESTART accepted: step 1, the core resets of the placement (R229, R230). One that is under way takes no second (log 56). -/
def restartRegion (r : Nat) (s : State) : Nat × State :=
  if restartable s.p r = false ∨ (s.p.getReg r).restart.isSome = true then (conflict9, s)
  else
    match pickSlot s r with
    | none => (conflict9, s.onP (raise 0x070D 0xFF (keyRegion r) none))
    | some (slot, gens) =>
      (0, s.onP fun p => each (regionCores p r) coreReset (p.modReg r fun g => { g with restart := some ⟨.resets, slot, gens⟩ }))

/-- Steps 2 and 3: the window generations, and the epoch set to every router of the partition (R199, R230, R301). -/
def restartEpoch (r : Nat) (x : Restart) (p : Panel) : Panel :=
  let g := p.getReg r
  let p := each x.gens (fun e p => match Tab.find? g.duty e.1 with
    | some m => each (coresOf m) (setGens e.2) p
    | none => p) p
  sendEpoch g.part true 0 ((runEpoch p r + 1) % 2 ^ 16)
    (p.modReg r fun g => { g with restart := some { x with stage := .epochs p.ctl.setSeq } })

/-- Steps 3 to 5 once the routers have acknowledged: RUN_EPOCH and the destination epochs, STEP, the map of R280, and the release
of the restore step falls due under the conditions that R214 sets a release (R230, R231; log 56). -/
def restartRun (r : Nat) (x : Restart) (p : Panel) : Panel :=
  let g := p.getReg r
  let c := Tab.get default g.slots x.slot
  let ep := (runEpoch p r + 1) % 2 ^ 16
  let p := each g.members (setRunEpoch · ep) p
  let p := each (regionCores p r) (fun k p => p.modA k fun a => { a with step := BitVec.ofNat 64 c.step }) p
  let p := if (Sq.ring p r).isEmpty then p
    else each (g.seq.length :: g.seq.sending ++ g.seq.staged) (applyLength r) (each g.moved (fun e p => each (coresOf e.2) (cleanMap r) p) p)
  let p := p.modReg r fun g => { g with seq := { g.seq with staged := [], sending := [] } }
  enterRun r g.restore (p.modReg r fun g => { g with
    phase := .active, step := c.step, cause := 0, starting := false, freezing := false, immediate := false, stopped := [],
    bar := some g.restore, arrived := g.members, stage := .arriving, firstTick := p.now,
    restart := some { x with stage := .releasing } })

/-- The hub's work on a RESTART under way, as far as it can go now (R230): core resets end with CSTAT stopped; a member FAILED
since ends it (log 56). -/
def progressRestart (r : Nat) (s : State) : State :=
  match (s.p.getReg r).restart with
  | none => s
  | some x =>
    match x.stage with
    | .releasing => s
    | .resets =>
      if (regionCores s.p r).all fun k => decide ((s.p.getCore k).a.run = .stopped) then s.onP (restartEpoch r x) else s
    | .epochs n =>
      if s.p.ctl.epochs.any fun e => decide (e.seq = n) then s
      else if restartable s.p r then progress r (s.onP (restartRun r x))
      else s.onP fun p => p.modReg r fun g => { g with restart := none }

/-- Every RESTART under way. -/
def progressRestarts (s : State) : State := each (s.p.reg.map (·.1)) progressRestart s

/-- BARRIER_RELEASE: the root decides region `r`'s release as far as the conditions of R214 now hold; a RESTART under way goes on
(R230). -/
def execBarrierRelease (r : Nat) (s : State) : Out := s.run (isRegion r) fun s => progress r (progressRestart r s)

def execRestart (r : Nat) (s : State) : Out := s.run (isRegion r) fun s => (restartRegion r s).2

/-- Update the directory when a duty moves (R264): entries homed on the failed site are promoted or LOST; other
partitions' replicas on the substitute are given up. -/
def moveShards (part failed sub : Nat) (p : Panel) : Panel :=
  each p.ret.dir (fun e p =>
    let owner := dirOwner p e.1
    let key := keyPart (owner.getD 0)
    let x := e.2.bits
    if e.2.st = .empty then p
    else if DirE.home x = failed then
      if DirE.repl x = sub then
        verifyShard e.1 (raise 0x0809 sub key (some (BitVec.ofNat 64 e.1)) (p.modDir e.1 fun d => { d with bits := DirE.withSites sub 0xFF x }))
      else loseEntry e.1 p
    else if DirE.repl x = sub ∧ owner ≠ some part then
      raise 0x080A sub key (some (BitVec.ofNat 64 e.1)) (p.modDir e.1 fun d => { d with bits := DirE.withSites (DirE.home x) 0xFF x })
    else p) p

/-- The substitute of a member, where it is still HAMPER (R223, R225). -/
def substituteOf (p : Panel) (r s : Nat) : Option Nat :=
  match Tab.find? (p.getReg r).subst s with
  | some h => if p.ust h = .hamper then some h else none
  | none => none

/-- SUBSTITUTION of a FAILED member; `listed` says whether the image lists a variant for the duties moved so far with this
one (R224, R225). -/
def execSubstitution (r site : Nat) (listed : Bool) (s : State) : Out :=
  s.runP (isRegion r && isCompute site) fun p =>
    let g := p.getReg r
    match dutyOf p r site, substituteOf p r site with
    | some n, some h =>
      if ¬ (g.members.contains site && decide (p.ust site = .failed) && decide (g.phase ≠ .free)) then p
      else if ¬ listed then raise 0x070C site (keyRegion r) none p
      else
        let p := p.modReg r fun g => { g with
          members := (g.members.filter fun m => decide (m ≠ site)) ++ [h], duty := Tab.set n h g.duty,
          moved := g.moved ++ [(n, h)], subst := Tab.del site g.subst }
        let p := setGroup r true [h] p
        let p := p.modPart g.part fun x => { x with members := x.members ++ [h] }
        let p := setGroup (0x40 + g.part) true [h] (serveSite .assigned h p)
        let p := loadKey g.part h (p.modStk h fun k => { k with keys := [] })
        let p := moveShards g.part site h (bumpGen p)
        let p := each (coresOf h) (fun k p => p.modA k fun a => { a with duty := BitVec.ofNat 64 (4 * n + coreOf k) }) p
        let ms := (p.getReg r).members
        let p := each ms (setPermits ms.contains) p
        raise 0x070B site (keyRegion r) (some (BitVec.ofNat 64 (site * 2 ^ 24 + h * 2 ^ 16 + n))) p
    | some _, none =>
      if g.members.contains site && decide (p.ust site = .failed) && decide (g.phase ≠ .free) then raise 0x070C site (keyRegion r) none p else p
    | none, _ => p

/-- Entries of a variant BLOB: duty and site (R233). -/
def variantEntries (b : List Byte) : List (Nat × Nat) :=
  (quads 16 b).map fun e => (leNat (e.take 2), (e.getD 2 0).toNat)

/-- Segments that a region's step table names. -/
def tableSegs (p : Panel) (r : Nat) : List Nat :=
  ((List.range 256).filter fun d => Step.v (stepDesc p r d)).map fun d => Step.seg (stepDesc p r d)

/-- Write the variant in force (R226). Gives the abort code. -/
def putVariant (r : Nat) (l : List (Nat × Nat)) (p : Panel) : Nat × Panel :=
  let g := p.getReg r
  if g.phase = .frozen ∧ l.all (fun e => g.moved.contains e && decide (p.ust e.2 = .assigned) && (coresOf e.2).all fun k => (p.getCore k).loaded) = true
      ∧ (tableSegs p r).all (fun n => committedOn p n g.members) = true then
    (0, p.modReg r fun g => { g with variant := l })
  else (conflict9, p)

/-- VARIANT_IN_FORCE_WRITE (R226). -/
def execVariantInForceWrite (r : Nat) (l : List (Nat × Nat)) (s : State) : Out :=
  s.runP (isRegion r) fun p => if l.length ≤ 16 then (putVariant r l p).2 else p

/-- Declare staged sets: refused where a site is already staged for another region (R226). -/
def stageVariant (r : Nat) (l : List (Nat × Nat)) (p : Panel) : Nat × Panel :=
  let taken (h : Nat) : Bool := p.reg.any fun e => decide (e.1 ≠ r) && e.2.staging.any fun x => decide (x.2 = h)
  if l.any fun e => taken e.2 then (conflict9, p) else (0, p.modReg r fun g => { g with staging := l })

/-- VARIANT_STAGING_WRITE (R226). -/
def execVariantStagingWrite (r : Nat) (l : List (Nat × Nat)) (s : State) : Out :=
  s.runP (isRegion r) fun p => if l.length ≤ 16 then (stageVariant r l p).2 else p

end Sys2Proof.Machine
end

