-- ==== Sys2Proof/Machine/SieveOps.lean ====
section
/-! DEFINITION. The Sieve engine: a pass, its scores and heaps, its lists (R242-R250), and the hub's side of its end
(R255, R262). -/

namespace Sys2Proof.Machine

namespace Pass

/-- Fields of a pass descriptor (R243). -/
def profw (x : BitVec 512) : Nat := fld x 495 464
def kimg (x : BitVec 512) : Nat := fld x 463 452 + 1
def nsh (x : BitVec 512) : Nat := fld x 451 444
def ecore (x : BitVec 512) : Nat := fld x 443 442
def ectr (x : BitVec 512) : Nat := fld x 441 438
def etrk (x : BitVec 512) : Nat := fld x 437 434
def t (x : BitVec 512) : Nat := fld x 63 0

end Pass

namespace LaneE

/-- Fields of a lane table entry (R242). -/
def empty (x : BitVec 256) : Bool := bit x 255
def epoch (x : BitVec 256) : Nat := fld x 235 220
def smask (x : BitVec 256) : Nat := fld x 127 64
def tmpl (x : BitVec 256) : BitVec 64 := BitVec.ofNat 64 (fld x 63 0)

end LaneE

namespace ShardE

/-- Fields of a shard list entry (R244). -/
def id (x : BitVec 64) : Nat := fld x 63 45
def gen (x : BitVec 64) : Nat := fld x 44 41
def len (x : BitVec 64) : Nat := fld x 40 25
def base (x : BitVec 64) : Nat := fld x 23 0 * 4096

end ShardE

/-- Code bytes under a profile word (R234). -/
def codeSize (w : Nat) : Nat :=
  let g := nfld w 15 0
  match nfld w 31 28 with
  | 0 => g / 8
  | 1 => g / 2
  | _ => g

/-- Bits set in a byte. -/
def popByte (b : Nat) : Nat := (bitsSet 8 b).length

/-- The score of a code against a payload `q` (R246). -/
def scoreOf (w : Nat) (q : Nat → Nat) (code : List Nat) : Nat :=
  let g := nfld w 15 0
  match nfld w 31 28 with
  | 0 => g - ((List.range code.length).zip code |>.foldl (fun n e => n + popByte (q e.1 ^^^ e.2)) 0)
  | 1 => 0xFFFFF - ((List.range g).foldl (fun n j => n + q (16 * j + code.getD (j / 2) 0 / 16 ^ (j % 2) % 16)) 0)
  | _ =>
    let s : Int := (List.range code.length).zip code |>.foldl (fun (n : Int) e => n + sextN 8 (q e.1) * sextN 8 e.2) 0
    (max 0 (min (2 ^ 20 - 1) (s.fdiv (2 ^ nfld w 27 24) + 2 ^ 19))).toNat

/-- Payload byte `i` of a lane. -/
def Sieve.payload (v : Sieve) (lane i : Nat) : Nat := (Tab.get 0 v.qmem (0x1000 * lane + i)).toNat

/-- The lanes that a shard list entry applies to (R242, R245). -/
def Sieve.lanesOf (v : Sieve) (j : Nat) : List Nat :=
  (List.range 64).filter fun n =>
    let x := v.laneAt n
    !LaneE.empty x && (LaneE.smask x).testBit j

/-- Offer a code to the heaps of the lanes (R247). -/
def Sieve.offer (w k id : Nat) (lanes : List Nat) (code : List Nat) (v : Sieve) : Sieve :=
  { v with
    heaps := each lanes (fun n h => Tab.upd [] n (fun l => (insertPair (scoreOf w (v.payload n) code * 2 ^ 44 + id) l).take k) h) v.heaps,
    ctr := { v.ctr with codes := v.ctr.codes + 1, pairs := v.ctr.pairs + lanes.length } }

/-- Does a shard header match its list entry (R235, R245)? -/
def headerOk (w prof : Nat) (e : BitVec 64) (h : List Byte) : Bool :=
  decide (leNat (h.take 2) = 0x5348) && decide (leNat ((h.drop 2).take 3) = ShardE.id e) && decide ((h.getD 5 0).toNat = prof)
    && decide ((h.getD 6 0).toNat = ShardE.gen e)
    && decide (leNat ((h.drop 8).take 4) * codeSize w + 256 ≤ ShardE.len e * 4096)

/-- Offset in [a, a + n) at which a key refusal stops a Sieve of partition `part` (R144, R262). -/
def refusedAt (p : Panel) (part : Option Nat) (s a n : Nat) : Option Nat :=
  ((rowWords a n).find? fun w => rangeOf (p.getStk s) w = none || decide (rangeOf (p.getStk s) w ≠ part)).map fun w => 256 * w - a

/-- Read [a, a + n) as the Sieve: the bytes that it reads before a refusal or a word that cannot be corrected stops it, and
whether one did (R128, R262). -/
def sieveRead (s a n : Nat) (rows : List (Nat × RowChk)) (p : Panel) : Nat × Bool × Panel :=
  let lim := match refusedAt p (p.partOf s) s a n with | some k => min k n | none => n
  match scanWords .sieve s a (badRows p s (rowWords a lim) rows) p with
  | (some k, p) => (k, true, p)
  | (none, p) => (lim, decide (lim < n), p)

/-- Fail a shard list entry: its lanes' error bits, its event (R262). -/
def shardError (s j : Nat) (e : BitVec 64) (p : Panel) : Panel :=
  let p := p.modSve s fun v =>
    { v with
      mask := v.mask ||| ofBits ((List.range 64).filter fun n => (LaneE.smask (v.laneAt n)).testBit j),
      ctr := { v.ctr with errors := v.ctr.errors + 1 } }
  dieRaise s 0 s 0x0801 (some (BitVec.ofNat 64 (ShardE.id e))) p

/-- Scan shard list entry `j` (R245, R262). -/
def scanShard (s prof : Nat) (rows : List (Nat × RowChk)) (t : State) (j : Nat) : State :=
  let v := t.p.getSve s
  let e := Tab.get 0 v.shard j
  let w := Pass.profw v.cur
  let lanes := v.lanesOf j
  if lanes.isEmpty then t
  else
    let r := sieveRead s (ShardE.base e) 256 rows t.p
    let p := r.2.2.modSve s fun v => { v with ctr := { v.ctr with bytes := v.ctr.bytes + r.1 } }
    let h := stackRead rows p t.mem s (ShardE.base e) 256
    if r.2.1 || !headerOk w prof e h then { t with p := shardError s j e p }
    else
      let n := leNat ((h.drop 8).take 4)
      let z := codeSize w
      let a := ShardE.base e + 256
      let r := sieveRead s a (n * z) (rows.filter fun x => decide (x.1 ≠ ShardE.base e / 256)) p
      let b := (stackRead rows r.2.2 t.mem s a r.1).map (·.toNat)
      let p := r.2.2.modSve s fun v =>
        each (List.range (r.1 / z)) (fun i v => v.offer w (Pass.kimg v.cur) (ShardE.id e * 2 ^ 24 + i) lanes ((b.drop (i * z)).take z))
          { v with ctr := { v.ctr with bytes := v.ctr.bytes + r.1 } }
      { t with p := if r.2.1 then shardError s j e p else p }

/-- SIEVE_PASS_GO: the hub writes the pass descriptor; GO arms the pass (R243). -/
def execSievePassGo (cs : Nat) (x : BitVec 512) (s : State) : Out :=
  s.runP (isCompute cs) fun p => if siteOpen p cs then p.modSve cs (armPass x) else gaRefuse cs p

/-- SIEVE_PASS_START: at tick T the scan begins, or is held while its buffer emits (R245, R249). `rows` are the faults of
row words on the way. -/
def execSievePassStart (cs : Nat) (rows : RowErrs) (s : State) : Out :=
  s.run (isCompute cs) fun s =>
    let v := s.p.getSve cs
    let now := s.p.now
    if ¬ v.armed ∨ v.st = .scanning ∨ now < Pass.t v.pass then s
    else if ¬ (Tab.get [] v.emit v.buffer).isEmpty then
      s.onP fun p => p.modSve cs fun v =>
        if v.heldFrom.isSome then v else { v with heldFrom := some now, ctr := { v.ctr with waits := v.ctr.waits + 1 } }
    else
      let prof := match s.p.regionOf cs with | some r => rvProf s.p r | none => 0
      let s := s.onP fun p => p.modSve cs fun v =>
        { v with
          st := .scanning, armed := false, cur := v.pass, heaps := [], mask := 0, heldFrom := none,
          ctr := { v.ctr with waitTicks := v.ctr.waitTicks + (match v.heldFrom with | some t => now - t | none => 0) } }
      (List.range (min 64 (Pass.nsh v.pass))).foldl (scanShard cs prof (checkRows s.p s.mem cs rows)) s

/-- The cells of a lane's list (R248). -/
def laneCells (p : Panel) (s : Nat) (v : Sieve) (n : Nat) : List Cell :=
  let x := v.laneAt n
  let k := Pass.kimg v.cur
  let pairs := if LaneE.empty x then [] else (Tab.get [] v.heaps n).take k
  let t : Cell := ⟨LaneE.tmpl x, 0⟩
  let h := CellF.mk 2 (CellF.vc t) ((p.partOf s).getD 0) s (Pass.ecore v.cur) (CellF.dstSite t) (CellF.dstCore t) (CellF.dtrk t)
    3 (LaneE.epoch x) 0
  (List.range (ceilDiv k 5)).map fun i =>
    ⟨h, BitVec.ofNat 320 (unlanes 64 ((List.range 5).map fun m => pairs.getD (5 * i + m) nullPair))⟩

/-- SIEVE_PASS_DONE: the lists are in the buffer, the counter of the emit core rises, the hub is told (R245, R248). -/
def execSievePassDone (cs : Nat) (s : State) : Out :=
  s.runP (isCompute cs) fun p =>
    let v := p.getSve cs
    if v.st ≠ .scanning then p
    else
      let cells := (List.range 64).flatMap (laneCells p cs v)
      let p := p.modSve cs fun v =>
        { v with
          st := .ready, errMask := v.mask, passes := (v.passes + 1) % 2 ^ 32, buffer := 1 - v.buffer % 2,
          emit := Tab.set v.buffer cells v.emit,
          emitCode := Tab.set v.buffer (trackCode (Pass.ecore v.cur) (Pass.etrk v.cur)) v.emitCode,
          ctr := { v.ctr with passes := v.ctr.passes + 1 } }
      let p := p.modA (4 * cs + Pass.ecore v.cur) (bumpC (Pass.ectr v.cur))
      toHub cs 0 (.sieveDone ((v.passes + 1) % 2 ^ 32) (BitVec.ofNat 64 v.mask)) p

/-- A Sieve's report at the hub, of the oldest batch that it has not reported: flagged queries end with SHARD_ERROR; with the last
member's the batch merges (R255, R262). -/
def sieveReport (site : Nat) (errs : BitVec 64) (p : Panel) : Panel :=
  match p.regionOf site with
  | none => p
  | some r =>
    let g := p.getReg r
    match g.batches.find? fun b => !b.scanned.contains site with
    | none => p
    | some b =>
      let p := each b.lanes (fun l p =>
        if bit errs l.lane && !l.empty && (decide ((p.getQuery l.qid).st = .scanning) || decide ((p.getQuery l.qid).st = .merging)) then
          failBound l.qid 4 p
        else p) p
      let p := p.modReg r fun g => { g with batches := g.batches.map fun x => if x = b then { x with scanned := x.scanned ++ [site] } else x }
      if g.members.all (site :: b.scanned).contains then
        each b.lanes (fun l p => if (p.getQuery l.qid).st = .scanning then setQuery l.qid .merging 0 p else p) p
      else p

/-- SIEVE_DONE at the hub (R304). -/
def execSieveDone (node : Nat) (k : Pkt) (s : State) : Out :=
  s.runP (isNode node) fun p =>
    match k.msg with
    | .sieveDone _ errs => onPkt node k (sieveReport k.src errs) p
    | _ => p

end Sys2Proof.Machine
end

