-- ==== Sys2Proof/Machine/QueryOps.lean ====
section
/-! DEFINITION. Submission entries of the host (R319-R322), the queries of the ledger (R252-R260), and the Shard Directory
(R237-R239). -/

namespace Sys2Proof.Machine

/-- The partition that a function carries; the PF carries none (R311). -/
def fnPart (f : Nat) : Option Nat := if f = 0 then none else some (f - 1)

/-- Is a function's partition packing up? -/
def fnPacking (p : Panel) (f : Nat) : Bool :=
  match fnPart f with | some n => decide ((p.getPart n).phase = .packing) | none => false

/-- Does the function exist: the PF, or VF n below NumVFs (R311)? -/
def fnExists (p : Panel) (f : Nat) : Bool := decide (f ≤ (p.getHPort (activePort p)).vfs)

namespace Sqe

/-- Fields common to every submission entry (R320). -/
def opc (e : BitVec 512) : Nat := fld e 511 504
def cid (e : BitVec 512) : Nat := fld e 495 480
def known (e : BitVec 512) : Bool := [0x00, 0x01, 0x02, 0x10, 0x11, 0x12].contains (opc e)
/-- Reserved bits of an entry, by its opcode (R320-R323). -/
def reserved (e : BitVec 512) : Nat :=
  fld e 503 496 + fld e 479 448 +
    (match opc e with
      | 0x10 => fld e 437 432 + fld e 407 402 + fld e 363 352 + fld e 271 256 + fld e 159 128
      | 0x11 => fld e 446 426 + fld e 383 0
      | 0x12 => fld e 446 426 + fld e 383 0
      | 0x01 => fld e 447 384 + fld e 223 192 + fld e 127 0
      | 0x02 => fld e 447 384 + fld e 223 192 + fld e 127 0
      | _ => 0)
def ok (e : BitVec 512) : Bool := known e && decide (reserved e = 0)

end Sqe

/-- May the hub take the next entry of a submission queue (R317-R319, R327)? -/
def canTake (p : Panel) (f n : Nat) : Bool :=
  let q := (p.getFn f).sqOf n
  fnExists p f && p.boot.ready && decide (q.st = .enabled) && decide (q.head ≠ q.tail) && !q.busy
    && decide ((p.getFn f).held.length < 4096) && !fnPacking p f

/-- Take it (R319). -/
def takeEntry (f n : Nat) (p : Panel) : Panel :=
  (modSq f n (fun q => { q with head := (q.head + 1) % q.size }) p).modFn f fun x => { x with ctr := { x.ctr with taken := x.ctr.taken + 1 } }

/-- Complete a command to its submission queue's completion queue (R317, R324). -/
def finishCmd (f n : Nat) (e : BitVec 512) (status info1 info2 : Nat) (p : Panel) : Panel :=
  postCompletion f ⟨((p.getFn f).sqOf n).cq, n, Sqe.opc e, status, Sqe.cid e, info1, info2, 0, none⟩ p

/-- Run a submission entry as the command `opc`: taken where the hub takes it; an entry of an unknown opcode, or with
reserved bits set, completes BAD_COMMAND (R319, R320); an entry of another opcode is not this command. -/
def runEntry (opc f n : Nat) (e : BitVec 512) (act : State → State) (s : State) : State :=
  if ¬ canTake s.p f n ∨ (Sqe.known e = true ∧ Sqe.opc e ≠ opc) then s
  else
    let s := s.onP (takeEntry f n)
    if Sqe.ok e then act s else s.onP (finishCmd f n e 0x13 0 0)

/-- HOST_NOP (R320). -/
def execHostNop (fn sq : Nat) (entry : BitVec 512) (s : State) : Out :=
  s.run (isFn fn && decide (sq < 16)) (runEntry 0x00 fn sq entry (·.onP (finishCmd fn sq entry 0 0 0)))

namespace Qry

/-- Fields of QUERY (R321). -/
def region (e : BitVec 512) : Nat := fld e 447 442
def prof (e : BitVec 512) : Nat := fld e 441 438
def k (e : BitVec 512) : Nat := fld e 431 420 + 1
def alive (e : BitVec 512) : Nat := fld e 419 412
def rcq (e : BitVec 512) : Nat := fld e 411 408
def sfirst (e : BitVec 512) : Nat := fld e 401 383
def scm1 (e : BitVec 512) : Nat := fld e 382 364
def deadline (e : BitVec 512) : Nat := fld e 351 320
def htag (e : BitVec 512) : Nat := fld e 319 272
def plen1 (e : BitVec 512) : Nat := fld e 191 176
def plen2 (e : BitVec 512) : Nat := fld e 175 160
def raddr (e : BitVec 512) : Nat := fld e 127 64
def rlen (e : BitVec 512) : Nat := fld e 63 32
def pcrc (e : BitVec 512) : Nat := fld e 31 0

end Qry

/-- Must a submission be refused, its payload apart (R254, R321)? -/
def queryRefused (p : Panel) (f n : Nat) (e : BitVec 512) : Bool :=
  match fnPart f with
  | none => true
  | some part =>
    let r := Qry.region e
    let w := profWord p part (Qry.prof e)
    let d := dirRange p part
    let all := (p.ret.dir.filter fun x => decide (Qry.sfirst e ≤ x.1) && decide (x.1 ≤ Qry.sfirst e + Qry.scm1 e) && decide (x.2.st ≠ .empty)).map
      fun x => DirE.home x.2.bits
    !(isRetrieval p r && decide ((p.getReg r).part = part)) || decide (Qry.prof e ≠ rvProf p r) || decide (rvKimg p r < Qry.k e)
      || decide (payloadLen w ≠ some (Qry.plen1 e)) || decide ((Config.rerankPayload (p.getReg r).image).val ≠ Qry.plen2 e)
      || decide (8128 < Qry.plen2 e)
      || decide (Qry.sfirst e < d.1) || decide (d.2 < Qry.sfirst e + Qry.scm1 e + 1)
      || (p.getReg r).members.any (fun s => decide (64 < (all.filter fun h => decide (h = s)).length))
      || decide (Qry.rlen e < 32 + 8 * Qry.k e)
      || (liveQueries p).any (fun q => decide (q.2.fn = f) && decide (q.2.sq = n) && decide (q.2.cid = Sqe.cid e))

/-- Complete a QUERY that holds no entry: REFUSED or LEDGER_FULL (R253, R254). -/
def turnAway (f n : Nat) (e : BitVec 512) (status ev : Nat) (p : Panel) : Panel :=
  let key := match fnPart f with | some m => keyPart m | none => keyFn 0
  let p := match fnPart f with
    | some m => modLedger m (fun c => { c with
        refused := c.refused + (if status = 6 then 1 else 0), completed := Tab.upd 0 status (· + 1) c.completed }) p
    | none => p
  postCompletion f ⟨Qry.rcq e, n, 0x10, status, Sqe.cid e, 0, 0, Qry.htag e, none⟩ (raise ev 0xFF key none p)

/-- The lowest FREE entry of the ledger (R253). -/
def freeQuery (p : Panel) : Nat :=
  ((List.range ((liveQueries p).length + 1)).find? fun q => decide ((p.getQuery q).st = .free)).getD 0

/-- Accept a QUERY (R252-R254). -/
def acceptQuery (f n : Nat) (e : BitVec 512) (data : List Byte) (p : Panel) : Panel :=
  let q := freeQuery p
  let part := (fnPart f).getD 0
  let p := p.modQuery q fun _ =>
    { query0 with
      st := .queued, epoch := (queryEpoch p q + 1) % 2 ^ 16, part := part, km1 := Qry.k e - 1, sfirst := Qry.sfirst e,
      scm1 := Qry.scm1 e, alive := Qry.alive e, region := Qry.region e, prof := Qry.prof e,
      deadline := if Qry.deadline e = 0 then 0 else p.now + Qry.deadline e, rcq := Qry.rcq e, htag := Qry.htag e, fn := f, sq := n,
      cid := Sqe.cid e, raddr := Qry.raddr e, rlen := Qry.rlen e, pay1 := data.take (Qry.plen1 e), pay2 := data.drop (Qry.plen1 e) }
  p.modRet fun r => { r with order := r.order ++ [q] }

/-- A read of host memory failed (R325). -/
def dmaError (f : Nat) (p : Panel) : Panel :=
  raise 0x0905 0xFF (keyFn f) none (p.modFn f fun x => { x with ctr := { x.ctr with dma := x.ctr.dma + 1 } })

/-- QUERY: `data` is what the hub reads at PADDR, none where the read fails (R254, R321, R325). -/
def execQuery (fn sq : Nat) (entry : BitVec 512) (data : Option (List Byte)) (s : State) : Out :=
  s.run (isFn fn && decide (sq < 16)) (runEntry 0x10 fn sq entry fun s => s.onP fun p =>
    let part := (fnPart fn).getD 0
    let p := if (fnPart fn).isSome then modLedger part (fun c => { c with submitted := c.submitted + 1 }) p else p
    if queryRefused p fn sq entry then turnAway fn sq entry 6 0x0804 p
    else match data with
      | none => finishCmd fn sq entry 0x14 0 0 (dmaError fn p)
      | some b =>
        if b.length ≠ Qry.plen1 entry + Qry.plen2 entry ∨ (crcHost b).toNat ≠ Qry.pcrc entry then
          turnAway fn sq entry 6 0x0804 p
        else if cfg p 0x8001 part 3 ≤ ((liveQueries p).filter fun q => decide (q.2.part = part)).length then
          turnAway fn sq entry 7 0x0807 p
        else acceptQuery fn sq entry b p)

/-- The query that CANCEL or EARLY_EXIT names, where it is one that the command may end (R260, R322). -/
def targetQuery (p : Panel) (f n : Nat) (e : BitVec 512) : Option Nat :=
  if bit e 447 then
    ((liveQueries p).find? fun q => decide (q.2.fn = f) && decide (q.2.sq = n) && decide (q.2.cid = fld e 407 392)).map (·.1)
  else
    let q := fld e 425 408
    let x := p.getQuery q
    if x.st ≠ .free ∧ (match fnPart f with | some m => decide (x.part = m) | none => true) = true then some q else none

/-- CANCEL and EARLY_EXIT (R260, R322). -/
def endCmd (f n : Nat) (e : BitVec 512) (status : Nat) (p : Panel) : Panel :=
  match targetQuery p f n e with
  | none => finishCmd f n e 9 0 0 p
  | some q =>
    let x := p.getQuery q
    if x.st = .ending then finishCmd f n e 9 0 0 p
    else if fld e 391 384 ≠ (x.alive + 1) % 256 then finishCmd f n e 8 0 0 (raise 0x0805 0xFF (keyPart x.part) none p)
    else finishCmd f n e 0 0 0 (endQuery q status (p.modQuery q fun y => { y with alive := fld e 391 384 }))

def execCancel (fn sq : Nat) (entry : BitVec 512) (s : State) : Out :=
  s.run (isFn fn && decide (sq < 16)) (runEntry 0x11 fn sq entry (·.onP (endCmd fn sq entry 1)))
def execEarlyExit (fn sq : Nat) (entry : BitVec 512) (s : State) : Out :=
  s.run (isFn fn && decide (sq < 16)) (runEntry 0x12 fn sq entry (·.onP (endCmd fn sq entry 2)))

/-- DEADLINE_CHECK: expired queries end as early exits with status DEADLINE (R260). -/
def execDeadlineCheck (s : State) : Out :=
  s.runP true fun p =>
    each (liveQueries p) (fun e p =>
      let x := p.getQuery e.1
      if x.deadline ≠ 0 ∧ x.deadline ≤ p.now ∧ x.st ≠ .ending ∧ x.st ≠ .free then
        raise 0x0806 0xFF (keyPart x.part) none (endQuery e.1 3 p)
      else p) p

/-- The pairs of a list without its trailing null pairs. -/
def dropNulls : List Nat → List Nat
  | [] => []
  | x :: t => match dropNulls t with
    | [] => if x = nullPair then [] else [x]
    | u => x :: u

/-- The pairs of a lane's result block: first-stage or reranked (R258). -/
def resultPairs (s : State) (r lane n : Nat) (second : Bool) : List Nat :=
  let b := ((odBytes s.p 0x8023 r).drop (16 * lane)).take 16
  let k := rvKimg s.p r
  let a := leNat ((b.drop 8).take 8) + (if second then roundUp (8 * k) 256 else 0)
  match Tab.find? (s.p.getReg r).duty (b.getD 0 0).toNat with
  | none => []
  | some site => dropNulls ((lanes 64 k (leNat (stackRead [] s.p s.mem site a (8 * k)))).take n)

/-- Complete a bound query at the completion barrier (R258). -/
def completeLane (r : Nat) (l : Lane) (s : State) : State :=
  let x := s.p.getQuery l.qid
  let late := decide (x.deadline ≠ 0) && decide (x.deadline ≤ (s.p.getReg r).relTick)
  let first := resultPairs s r l.lane (x.km1 + 1) false
  match x.st with
    | .reranking =>
      if late then s.onP fun p => completeQuery l.qid 3 1 first (setQuery l.qid .ending 3 p)
      else s.onP fun p => completeQuery l.qid 0 2 (resultPairs s r l.lane (x.km1 + 1) true) (setQuery l.qid .ending 0 p)
    | .ending => if x.posted then s else s.onP (completeQuery l.qid x.status 1 first)
    | .scanning => s.onP (setQuery l.qid .queued 0)
    | .merging => s.onP (setQuery l.qid .queued 0)
    | _ => s

/-- QUERY_COMPLETION: 1 µs after the completion barrier the hub reads the result blocks, completes the queries of the oldest batch
and unbinds its lanes (R258, R259; log 63). -/
def execQueryCompletion (r : Nat) (s : State) : Out :=
  s.run (isRegion r) fun s =>
    match (s.p.getReg r).batches with
    | [] => s
    | b :: _ =>
      if b.endAt = 0 ∨ s.p.now < b.endAt then s
      else
        (each b.lanes (completeLane r) s).onP fun p =>
          each b.lanes (fun l p => settleQuery l.qid p) (p.modReg r fun g => { g with batches := g.batches.drop 1 })

/-- May a directory entry name these sites (R238)? -/
def dirSitesOk (p : Panel) (n : Nat) (x : BitVec 128) : Bool :=
  let member (s : Nat) : Bool := isCompute s && (p.getPart n).members.contains s
  let hamper (s : Nat) : Bool := decide (p.ust s = .hamper) && decide (blockOf s = blockOf (DirE.home x))
  (member (DirE.home x) || (isCompute (DirE.home x) && hamper (DirE.home x)))
    && (decide (DirE.repl x = 0xFF) || member (DirE.repl x) || hamper (DirE.repl x))

/-- Write a directory entry for a session of partition `part`, if any: the abort code (R238, R239). The sites are checked of an
entry that is marked empty too. -/
def writeDir (part : Option Nat) (i : Nat) (x : BitVec 128) (p : Panel) : Nat × Panel :=
  match dirOwner p i with
  | none => (abortOf 0x09 1 0, p)
  | some n =>
    let old := (p.getDir i).bits
    let keys (p : Panel) : Panel := each [DirE.home old, DirE.repl old, DirE.home x, DirE.repl x] placeKeys p
    if (match part with | some q => decide (q ≠ n) | none => false) = true then (abortOf 0x09 1 0, p)
    else if ¬ dirSitesOk p n x then (abortOf 0x04 0 0, p)
    else if DirE.len x = 0 then
      (0, keys ((p.modDir i fun _ => ⟨x, .empty⟩).modRet fun r => { r with verify := r.verify.filter fun y => decide (y ≠ i) }))
    else if entryLost p x then (0, keys (loseEntry i (p.modDir i fun _ => ⟨x, .verifying⟩)))
    else (0, verifyShard i (keys (p.modDir i fun _ => ⟨x, .verifying⟩)))

/-- DIRECTORY_ENTRY_WRITE (R238). -/
def execDirectoryEntryWrite (part : Option Nat) (i : Nat) (x : BitVec 128) (s : State) : Out :=
  s.runP true fun p => if i < 524288 then (writeDir part i x p).2 else p

/-- Does a shard's stored header match its directory entry (R239)? -/
def shardHeaderOk (s : State) (i : Nat) (x : BitVec 128) : Bool :=
  let h := stackRead [] s.p s.mem (DirE.home x) (DirE.base x * 4096) 256
  let w := match dirOwner s.p i with | some n => profWord s.p n (DirE.prof x) | none => 0
  headerOk w (DirE.prof x) (shardWord i x) h

/-- SHARD_VERIFY_DONE: the engine's result for entry `i` reaches the hub (R239, R486). -/
def execShardVerifyDone (i : Nat) (s : State) : Out :=
  s.run true fun s =>
    let d := s.p.getDir i
    let home := DirE.home d.bits
    match takeReady home (fun w => match w with | .shard j _ => decide (j = i) | _ => false) s.p with
    | (none, _) => s
    | (some ⟨.shard _ b, reason, crc, _⟩, p) =>
      let s := { s with p := pumpShards home p }
      if b ≠ d.bits then s
      else if d.st = .lost then s
      else if reason = 0 ∧ crc.toNat = DirE.crc d.bits ∧ shardHeaderOk s i d.bits = true then
        s.onP fun p => p.modDir i fun y => { y with st := if y.st = .verifying then .usable else y.st }
      else
        s.onP fun p => raise 0x0802 home (match dirOwner p i with | some n => keyPart n | none => home)
          (some (BitVec.ofNat 64 i)) (p.modDir i fun y => { y with st := .bad })
    | _ => s

end Sys2Proof.Machine
end

