-- ==== Sys2Proof/Machine/ServiceOps.lean ====
section
/-! DEFINITION. Service traffic (R173-R175): the fixed route, the queues, the agents, and the hub's outstanding
requests. -/

namespace Sys2Proof.Machine

/-- The compute die adjacent to an edge die's first position (R173). -/
def entryDie (e : Nat) : Nat := (farEnd e 0).1

/-- The edge over which a service cell leaves a die on its way to `d`; none where it has arrived (R173). -/
def serviceEdge (s d : Nat) : Option Nat :=
  let t := if isCompute d then d else entryDie d
  if s = d then none
  else if ¬ isCompute s then some 0
  else if s = t then (List.range 4).find? fun e => decide ((farEnd s (32 * e)).1 = d)
  else if colOf s < colOf t then some 1
  else if colOf t < colOf s then some 3
  else if rowOf t < rowOf s then some 0 else some 2

/-- The next ring member and the code of the output that leads to it, clockwise or not (R26, R526). -/
def ringStep (cw : Bool) (s : Nat) : Nat × Nat := if cw then (ringNext s, 0x40) else (ringPrev s, 0x60)

/-- Are the `n` ring links from a member one way open, the members on the way and its end carrying service (R26, R27, R173)? -/
def ringOpen (p : Panel) (cw : Bool) : Nat → Nat → Bool
  | 0, _ => true
  | n + 1, s =>
    let t := (ringStep cw s).1
    !linkDisabled p s (ringStep cw s).2 && siteReachable p t && ringOpen p cw n t

/-- The edge by which a service cell goes round the ring from one member to another: the shorter open way, clockwise where both are
equal (R26, R173; log 14); none where neither is open. -/
def ringEdge (p : Panel) (a b : Nat) : Option Nat :=
  let n := (ringIdx b + 26 - ringIdx a) % 26
  let cw := ringOpen p true n a
  let ccw := ringOpen p false (26 - n) a
  if cw && (!ccw || decide (n ≤ 26 - n)) then some 2 else if ccw then some 3 else none

/-- The hub that a response goes to (R174). -/
def hubOf (c : Cell) : Nat := if svcTag c / 2 ^ 15 = 1 then 0xDD else 0x00

/-- Where a service cell that came in by a code goes next: an edge, or the agent (`some none`); none where no way is open now. A
ring member sends a request of a hub on to the edge die through which it enters the array and a response that has come back to
that die on to its hub; what came out of the array, or from the die itself, keeps to the fixed route (R173, R174). -/
def serviceNext (p : Panel) (s code : Nat) (c : Cell) : Option (Option Nat) :=
  if isCompute s then some (serviceEdge s (CellF.dstSite c))
  else
    let onRing := decide (0x40 ≤ code ∧ code < 0x80) || isHub s
    if CellF.typ c = 4 then
      if s = hubOf c then some none
      else if onRing || decide (CellF.dstSite c = s) then (ringEdge p s (hubOf c)).map some
      else some (some 0)
    else if CellF.srcSite c ≠ s ∧ onRing = true then (ringEdge p s (CellF.srcSite c)).map some
    else some (serviceEdge s (CellF.dstSite c))

/-- Put a service cell in the queue of its next output, or with the agent; none where that is full (R175). -/
def serviceQueue (p : Panel) (s code : Nat) (c : Cell) : Option Router :=
  let r := p.getRtr s
  match serviceNext p s code c with
  | none => none
  | some none => if r.agent.length < 16 then some { r with agent := r.agent ++ [c] } else none
  | some (some e) =>
    if (Tab.get [] r.svcq e).length < 8 then some { r with svcq := Tab.upd [] e (· ++ [c]) r.svcq } else none

/-- SERVICE_CELL_QUEUE: the cell at the head of VC 7 of an edge input, or (code 0x80) of the agent's responses and of a hub's
requests (R175). -/
def execServiceCellQueue (mesh code : Nat) (s : State) : Out :=
  s.runP (isRouter mesh && decide (code ≤ 0x80)) fun p =>
    let r := p.getRtr mesh
    match if code = 0x80 then r.reply.head? else (Tab.get [] r.inq (8 * code + 7)).head? with
    | none => p
    | some c =>
      match serviceQueue p mesh code c with
      | none => p
      | some r =>
        p.modRtr mesh fun _ =>
          if code = 0x80 then { r with reply := r.reply.drop 1 } else { r with inq := Tab.upd [] (8 * code + 7) (·.drop 1) r.inq }

/-- The service cells at a router. -/
def serviceHere (r : Router) : List Cell :=
  ((List.range 128).flatMap fun i => Tab.get [] r.inq (8 * i + 7)) ++ (List.range 4).flatMap (fun e => Tab.get [] r.svcq e)
    ++ r.agent ++ r.reply

/-- SERVICE_STARVED: a service cell that has waited at the router past the threshold and is not yet counted (R175). -/
def execServiceStarved (mesh : Nat) (s : State) : Out :=
  s.runP (isRouter mesh) fun p =>
    let r := p.getRtr mesh
    let now := (p.getClk mesh).clk
    match (serviceHere r).find? fun c =>
        !r.svcWaited.contains (svcTag c) && decide (Tab.get now r.svcSince (svcTag c) + dieCfg p mesh 0x7008 1 < now) with
    | none => p
    | some c =>
      dieRaise mesh 0 mesh 0x0608 none (p.modRtr mesh fun r => { r with
        svcWaited := svcTag c :: r.svcWaited, ctr := { r.ctr with starved := r.ctr.starved + 1 } })

namespace Svc

/-- Fields of a service request's payload (R174). -/
def ga (c : Cell) : Nat := fld c.pay 63 0
def op (c : Cell) : Nat := fld c.pay 87 80
def len (c : Cell) : Nat := fld c.pay 95 88 + 1
def data (c : Cell) : List Byte := leBytes (len c) (fld c.pay 319 96)
/-- Fields of a response. -/
def status (c : Cell) : Nat := fld c.pay 23 16

end Svc

/-- Does an access lie within one aligned 256-byte block (R174)? -/
def oneBlock (a n : Nat) : Bool := decide (a / 256 = (a + n - 1) / 256)

/-- May the agent of a die perform a request: R30, the block rule, and the ranges of R144? The hub has made the checks of
R441 before sending it. -/
def agentOk (p : Panel) (s : Nat) (c : Cell) : Bool :=
  let a := Svc.ga c
  let n := Svc.len c
  decide (Ga.site a = s) && gaOk p a n && oneBlock a n && (decide (Svc.op c = 1) || decide (n ≤ 28))
    && (decide (Ga.space a ≠ 0) || rangeOk p none s (Ga.off a) n)

/-- A stack request's lane checks in the base die: what became of the read it needs (R126, R128). -/
def agentCheck (s : Nat) (c : Cell) (whole : Bool) (chk : RowChk) (p : Panel) : Bool × Panel :=
  if whole then (true, p)
  else
    let o := rowCheck s (Ga.off (Svc.ga c) / 256) .ga 0 chk p
    (decide (o.1 ≠ .uncorr), o.2)

/-- Perform the request at the head of a die's agent, where its OP is one that the command serves; an unknown OP is
answered by either (R174). -/
def serveAgent (site op : Nat) (err : RowErr) (s : State) : State :=
  match (s.p.getRtr site).agent with
  | [] => s
  | c :: t =>
    if CellF.typ c ≠ 3 ∨ (Svc.op c ≠ op ∧ (Svc.op c = 1 ∨ Svc.op c = 2)) then s
    else
      let s := s.onP fun p => p.modRtr site fun r => { r with agent := t }
      let a := Svc.ga c
      let answer (st : Nat) (d : List Byte) (s : State) : State := s.onP (serviceReply site c st d)
      if Svc.op c ≠ op then answer 3 [] s
      else if ¬ agentOk s.p site c then
        answer 1 [] (s.onP (if op = 1 then gaRefuse site else gaRefuseWrite a))
      else if Ga.space a = 1 then
        s.onP (askGeneral (.service c) site (Ga.off a) (Svc.len c) (if op = 1 then none else some (Svc.data c)))
      else
        let w := Ga.off a / 256
        let chk := checkRow (s.p.getStk site) site w (stackWord s.p s.mem site w) err
        let k := if Ga.space a = 0 then agentCheck site c (decide (op = 2) && decide (Svc.len c = 256)) chk s.p else (true, s.p)
        let s := { s with p := k.2 }
        if ¬ k.1 then answer 2 [] s
        else if op = 1 then
          match gaBytes [(w, chk)] s a (Svc.len c) with
          | some b => answer 0 b s
          | none => answer 1 [] (s.onP (gaRefuse site))
        else
          let r := gaPut false .posted [(w, chk)] a (Svc.data c) s
          match r.1 with
          | .done => answer 0 [] r.2
          | .refused => answer 1 [] (r.2.onP (gaRefuseWrite a))
          | _ => answer 1 [] r.2

/-- SERVICE_READ; `err` are the faults of the stack row word that it reads (R174). -/
def execServiceRead (mesh : Nat) (err : RowErr) (s : State) : Out := s.run (isMesh mesh) (serveAgent mesh 1 err)
/-- SERVICE_WRITE (R174). -/
def execServiceWrite (mesh : Nat) (err : RowErr) (s : State) : Out := s.run (isMesh mesh) (serveAgent mesh 2 err)

/-- Do all dies of a service path carry service (R173)? -/
def pathOpen (p : Panel) (d : Nat) : Nat → Nat → Bool
  | 0, _ => false
  | fuel + 1, s =>
    siteReachable p s && !(p.boot.retraining.any fun e => decide (e.1 = s)) && (match serviceEdge s d with
      | none => true
      | some e => if isCompute s then pathOpen p d fuel (farEnd s (32 * e)).1 else pathOpen p d fuel (entryDie s))

/-- The entry edge die that the hub picks: the first, clockwise from hub A, whose path from the hub round the ring and through the
array is open (R173; log 14). -/
def entryFor (p : Panel) (d : Nat) : Option Nat :=
  edgeDies.find? fun e => (ringEdge p p.activeHub e).isSome && pathOpen p d 64 e

/-- Send a service request for a guest from the active hub, with its number and its hub in its TAG (R173, R174, R478). None where no
path carries it. -/
def sendService (guest gtag : Nat) (req : Cell) (p : Panel) : Option Panel :=
  match entryFor p (Ga.site (Svc.ga req)) with
  | none => none
  | some e =>
    let tag := p.book.active * 2 ^ 15 + p.host.svcTag
    let c : Cell := {
      hdr := CellF.mk 3 7 (CellF.part req) e 0 (Ga.site (Svc.ga req)) 0 0 0 0 0,
      pay := BitVec.ofNat 320 (req.pay.toNat % 2 ^ 64 + tag * 2 ^ 64 + req.pay.toNat / 2 ^ 80 * 2 ^ 80) }
    let n := if Svc.op req = 1 then ceilDiv (Svc.len req) 32 else 1
    let p := p.modHost fun h => { h with svc := h.svc ++ [⟨tag, guest, gtag, n⟩], svcTag := (h.svcTag + 1) % 2 ^ 15 }
    some (p.modRtr p.activeHub fun r => { r with
      reply := r.reply ++ [c], svcSince := Tab.set tag (p.getClk p.activeHub).clk r.svcSince })

/-- A response under another TAG. -/
def withTag (tag : Nat) (c : Cell) : Cell :=
  { c with pay := BitVec.ofNat 320 (c.pay.toNat / 2 ^ 16 * 2 ^ 16 + tag % 2 ^ 16) }

/-- SERVICE_RESPONSE: the response at the head of a hub's agent; the last cell of an access completes it, and the guest has its
answer (R174, R478). -/
def execServiceResponse (hub : Nat) (s : State) : Out :=
  s.runP (isHub hub) fun p =>
    match (p.getRtr hub).agent with
    | [] => p
    | c :: t =>
      let p := p.modRtr hub fun r => { r with agent := t }
      match p.host.svc.find? fun x => decide (x.tag = svcTag c) with
      | none => p
      | some x =>
        let done := decide (Svc.status c ≠ 0) || decide (x.left ≤ 1)
        let p := p.modHost fun h => { h with
          svc := if done then h.svc.filter fun y => decide (y ≠ x)
            else h.svc.map fun y => if y = x then { x with left := x.left - 1 } else y }
        p.modGuest x.guest fun g => { g with
          outstanding := if done then g.outstanding.erase x.gtag else g.outstanding,
          answers := g.answers ++ [withTag x.gtag c] }

end Sys2Proof.Machine
end

