-- ==== Sys2Proof/Machine/CopyOps.lean ====
section
/-! DEFINITION. COPY_IN and COPY_OUT and the integrity chain over their blocks (R323, R481-R483). -/

namespace Sys2Proof.Machine

namespace Cpy

/-- Fields of a copy command (R323). -/
def ga (e : BitVec 512) : Nat := fld e 383 320
def haddr (e : BitVec 512) : Nat := fld e 319 256
def len (e : BitVec 512) : Nat := fld e 255 224
def caddr (e : BitVec 512) : Nat := fld e 191 128

end Cpy

/-- INFO1 of a copy that no block failed (R324). -/
def noBlock : Nat := 0xFFFFFFFF

/-- Does some path carry the hub's service requests to a site (R173)? -/
def hubPath (p : Panel) (s : Nat) : Bool := (entryFor p s).isSome

/-- The checks before any byte moves (R173, R323, R441). -/
def copyOk (p : Panel) (f : Nat) (e : BitVec 512) : Bool :=
  decide (Ga.space (Cpy.ga e) ≤ 1) && decide (1 ≤ Cpy.len e) && decide (Cpy.len e ≤ 2 ^ 30)
    && gaAllowed p ⟨false, fnPart f⟩ (Cpy.ga e) (Cpy.len e) && hubPath p (Ga.site (Cpy.ga e))

/-- A copy range refused (R323, R30). -/
def copyRefused (f n : Nat) (e : BitVec 512) (p : Panel) : Panel :=
  finishCmd f n e 0x11 noBlock 0 (if periphOn p 8 then gaRefuse (Ga.site (Cpy.ga e)) p else p)

def findCopy (p : Panel) (f n : Nat) : Option Copy := p.host.copies.find? fun c => decide (c.fn = f) && decide (c.sq = n)
def modCopy (id : Nat) (g : Copy → Copy) (p : Panel) : Panel :=
  p.modHost fun h => { h with copies := h.copies.map fun x => if x.id = id then g x else x }

/-- A copy begins: its queue is busy until it completes (R319). -/
def startCopy (c : Copy) (p : Panel) : Panel :=
  modSq c.fn c.sq (fun q => { q with busy := true }) (p.modHost fun h => { h with copies := h.copies ++ [c], nextCopy := h.nextCopy + 1 })

/-- The scans asked for the named copies, waiting, running or done, are forgotten. -/
def dropScans (mine : Nat → Bool) (p : Panel) : Panel :=
  let gone (w : ScanFor) : Bool := w.copy.any mine
  let hit (e : CheckEng) : Bool := decide (e.running = some 0) && e.queue0.head?.any (fun d => gone d.why)
  { p with chk := p.chk.map fun e => (e.1, { e.2 with
      queue0 := e.2.queue0.filter (fun d => !gone d.why), ready := e.2.ready.filter (fun r => !gone r.1),
      running := if hit e.2 then none else e.2.running, scan := if hit e.2 then none else e.2.scan }) }

/-- A copy completes with a status (R323-R326). -/
def endCopy (c : Copy) (status info1 info2 : Nat) (p : Panel) : Panel :=
  let p := p.modHost fun h => { h with copies := h.copies.filter fun x => decide (x.id ≠ c.id) }
  let p := modSq c.fn c.sq (fun q => { q with busy := false }) p
  postCompletion c.fn ⟨((p.getFn c.fn).sqOf c.sq).cq, c.sq, if c.copyIn then 1 else 2, status, c.cid, info1, info2, 0, none⟩ p

/-- The host's blocks as far as they are good: the bytes, and where and why they stop (R323, R325). -/
def goodBlocks : Nat → List (Option (List Byte × BitVec 32)) → List Byte × Option (Nat × Nat)
  | _, [] => ([], none)
  | j, none :: _ => ([], some (j, 0x14))
  | j, some (b, c) :: t =>
    if crcHost b = c then
      let r := goodBlocks (j + 1) t
      (b ++ r.1, r.2)
    else ([], some (j, 0x10))

/-- Do the blocks brought have the lengths of the copy's blocks? -/
def blocksFit (len : Nat) (l : List (Option (List Byte × BitVec 32))) : Bool :=
  decide (l.length = ceilDiv len 4096) && (List.range l.length).all fun j =>
    match l.getD j none with | some b => decide (b.1.length = min 4096 (len - 4096 * j)) | none => true

/-- The bytes of a COPY_IN's block. -/
def Copy.block_ (c : Copy) : List Byte := (c.data.drop (4096 * c.block)).take 4096

/-- Write the current block of a COPY_IN and ask for its readback (R481, R482); a host failure met there, or the end of the
copy, completes it. -/
def copyInNext (id : Nat) (s : State) : State :=
  match s.p.host.copies.find? fun x => decide (x.id = id) with
  | none => s
  | some c =>
    if 4096 * c.block ≥ c.len then s.onP (endCopy c 0 noBlock c.len)
    else match c.stop with
      | some (j, st) =>
        if j = c.block then
          s.onP fun p =>
            let p := if st = 0x10 then
                raise 0x0907 0xFF (keyFn c.fn) none
                  ({ p with chain := { p.chain with crc32 := p.chain.crc32 + 1 } }.modFn c.fn fun x => { x with ctr := { x.ctr with crc := x.ctr.crc + 1 } })
              else dmaError c.fn p
            endCopy c st j (4096 * j) p
        else put c s
      | none => put c s
where
  /-- Write the block: a stack's at once, a scratchpad's in parts (R107). -/
  put (c : Copy) (s : State) : State :=
    let w := gaWrite ⟨false, fnPart c.fn⟩ (.copyIn c.id) (c.ga + 4096 * c.block) c.block_ c.rows s
    match w.1 with
    | .done => w.2.onP (askCopy c.id)
    | .asked => w.2.onP (modCopy c.id fun x => { x with writing := true })
    | .bad => w.2.onP (endCopy c 0x12 c.block (4096 * c.block))
    | _ => w.2.onP (endCopy c 0x11 c.block (4096 * c.block))

/-- A block's parts have all been performed: its readback is asked for, or the copy ends with its status (R109, R325). -/
def blockWritten (id status : Nat) (p : Panel) : Panel :=
  match p.host.copies.find? fun x => decide (x.id = id) with
  | none => p
  | some c =>
    if status = 0 then askCopy id (modCopy id (fun x => { x with writing := false }) p)
    else endCopy c (if status = 2 then 0x12 else 0x11) c.block (4096 * c.block) p

/-- COPY_IN (R323). -/
def execCopyIn (fn sq : Nat) (entry : BitVec 512) (host : HostBlocks) (s : State) : Out :=
  s.run (isFn fn && decide (sq < 16)) fun s =>
    if ¬ blocksFit (Cpy.len entry) host.blocks then s
    else runEntry 0x01 fn sq entry (fun s =>
      if ¬ (copyOk s.p fn entry && periphOn s.p 8) then s.onP (copyRefused fn sq entry)
      else
        let g := goodBlocks 0 host.blocks
        let id := s.p.host.nextCopy
        copyInNext id (s.onP (startCopy
          { id := id, fn := fn, sq := sq, cid := Sqe.cid entry, copyIn := true, ga := Cpy.ga entry, len := Cpy.len entry, block := 0,
            data := g.1, asked := false, writing := false, retried := false, haddr := Cpy.haddr entry, caddr := Cpy.caddr entry, rows := host.rows, stop := g.2 }))) s

/-- COPY_OUT (R323, R483). -/
def execCopyOut (fn sq : Nat) (entry : BitVec 512) (s : State) : Out :=
  s.run (isFn fn && decide (sq < 16)) (runEntry 0x02 fn sq entry fun s => s.onP fun p =>
    if ¬ (copyOk p fn entry && periphOn p 8) then copyRefused fn sq entry p
    else
      let id := p.host.nextCopy
      askCopy id (startCopy
        { id := id, fn := fn, sq := sq, cid := Sqe.cid entry, copyIn := false, ga := Cpy.ga entry, len := Cpy.len entry, block := 0,
          data := [], asked := false, writing := false, retried := false, haddr := Cpy.haddr entry, caddr := Cpy.caddr entry, rows := [], stop := none } p))

def modChain (f : ChainCtr → ChainCtr) (p : Panel) : Panel := { p with chain := f p.chain }

/-- A second comparison has failed: the copy stops (R482, R483). -/
def chainStop (c : Copy) (p : Panel) : Panel :=
  endCopy c 0x12 c.block (4096 * c.block) (raise 0x0C02 (Ga.site c.ga) (Ga.site c.ga) none p)

/-- INGRESS_READBACK_DONE of the copy of a submission queue (R482). -/
def execIngressReadbackDone (fn sq : Nat) (s : State) : Out :=
  s.run (isFn fn && decide (sq < 16)) fun s =>
    match findCopy s.p fn sq with
    | none => s
    | some c =>
      match takeReady (Ga.site c.ga) (fun w => decide (w = .ingress c.id c.block)) s.p with
      | (none, _) => s
      | (some r, p) =>
        let s := { s with p := p }
        if r.reason = 0 ∧ r.crc = crc64 0 c.block_ then
          copyInNext c.id (s.onP fun p =>
            modCopy c.id (fun x => { x with block := x.block + 1, retried := false, asked := false })
              (modChain (fun h => { h with inBlocks := h.inBlocks + 1 }) p))
        else
          let s := s.onP (modChain fun h => { h with readback := h.readback + 1 })
          if c.retried then s.onP fun p => chainStop c (modChain (fun h => { h with second := h.second + 1 }) p)
          else copyInNext c.id (s.onP (modCopy c.id fun x => { x with retried := true, asked := false }))

/-- The panel writes bytes of a copy to the host (R323). -/
def hostData (addr : Nat) (b : List Byte) (p : Panel) : Panel := p.modHost fun h => { h with out := h.out ++ [.write addr b] }

/-- EGRESS_BLOCK_DONE: the hub's CRC-64 over the block's bytes as they arrived meets the egress CRC-64; `clean` says that
they arrived as read (R483). -/
def execEgressBlockDone (fn sq : Nat) (clean : Bool) (s : State) : Out :=
  s.run (isFn fn && decide (sq < 16)) fun s =>
    match findCopy s.p fn sq with
    | none => s
    | some c =>
      match takeReady (Ga.site c.ga) (fun w => decide (w = .egress c.id c.block)) s.p with
      | (none, _) => s
      | (some r, p) =>
        let s := { s with p := p }
        let b := r.data
        if r.reason = 4 then s.onP (endCopy c 0x12 c.block (4096 * c.block))
        else if r.reason ≠ 0 then s.onP (endCopy c 0x11 c.block (4096 * c.block))
        else if clean ∧ r.crc = crc64 0 b then
          s.onP fun p =>
            let p := hostData (c.haddr + 4096 * c.block) b (modChain (fun h => { h with outBlocks := h.outBlocks + 1 }) p)
            let p := if c.caddr = 0 then p else hostData (c.caddr + 4 * c.block) (leBytes 4 (crcHost b).toNat) p
            if c.len ≤ 4096 * (c.block + 1) then endCopy c 0 noBlock c.len p
            else askCopy c.id (modCopy c.id (fun x => { x with block := x.block + 1, retried := false, asked := false }) p)
        else
          let s := s.onP (modChain fun h => { h with outMis := h.outMis + 1 })
          if c.retried then s.onP (chainStop c)
          else s.onP fun p => askCopy c.id (modCopy c.id (fun x => { x with retried := true, asked := false }) p)

end Sys2Proof.Machine
end

