-- ==== Sys2Proof/Machine/CtlNet.lean ====
section
/-! DEFINITION. The control network: links, routes, forwarding, beats, the messages of hubs and dies, bulk sessions
(R285-R305). -/

namespace Sys2Proof.Machine

/-- All nodes. -/
def allNodes : List Nat := allDies.filter isNode

/-- Nodes one link nearer than those found, by breadth: distances from `d` over the live links. -/
def spread (p : Panel) : Nat → Nat → List Nat → Tab Nat → Tab Nat
  | 0, _, _, dist => dist
  | fuel + 1, n, front, dist =>
    let nxt := (front.flatMap fun s => (List.range 5).filterMap fun q => if ctlUp p s q then ctlFar s q else none).eraseDups.filter
      fun t => (Tab.find? dist t).isNone
    if nxt.isEmpty then dist else spread p fuel (n + 1) nxt (nxt.foldl (fun t s => Tab.set s n t) dist)

/-- A node's route entry toward `d` by the distances from `d`: the lowest port on a shortest path, and the best other port
(R293, R297; log 22). -/
def bestPorts (p : Panel) (dist : Tab Nat) (s : Nat) : Nat :=
  let ports := (List.range 5).filterMap fun q =>
    if ctlUp p s q then (ctlFar s q).bind fun t => (Tab.find? dist t).map fun n => (n, q) else none
  let best (l : List (Nat × Nat)) : Option (Nat × Nat) := l.foldl (fun b x => match b with
    | none => some x
    | some y => if x.1 < y.1 then some x else some y) none
  match best ports with
  | none => 0xFF
  | some x => (match best (ports.filter fun y => decide (y ≠ x)) with | some y => y.2 * 16 | none => 0xF0) + x.2

/-- The tables that the hub computes over the live links: per destination, per node. -/
def newRoutes (p : Panel) : List (Nat × Nat × Nat) :=
  (allNodes.filter (takesPart p)).flatMap fun d =>
    let dist := spread p 64 1 [d] [(d, 0)]
    (allNodes.filter fun s => takesPart p s && decide (s ≠ d)).map fun s => (s, d, bestPorts p dist s)

/-- Write the tables at once, as bring-up does (R415). -/
def bringRoutes (p : Panel) : Panel :=
  each (newRoutes p) (fun e p => p.modNode e.1 fun n => { n with route := Tab.set e.2.1 e.2.2 n.route }) p

/-- A link that the hub has probed may be used again from both ends (R288). -/
def linkBack (e : Nat × Nat) (p : Panel) : Panel :=
  let up (s q : Nat) (p : Panel) : Panel := p.modNode s fun n => { n with
    linkDown := n.linkDown.filter (fun x => decide (x ≠ q)), probed := n.probed.filter (fun x => decide (x ≠ q)), fails := Tab.del q n.fails }
  match (ctlFar e.1 e.2).bind fun t => (portTo t e.1).map fun q => (t, q) with
  | some (t, q) => up t q (up e.1 e.2 p)
  | none => p

/-- The down links that the hub has probed: node and port (R288). -/
def probedLinks (p : Panel) : List (Nat × Nat) := allNodes.flatMap fun s => (p.getNode s).probed.map fun q => (s, q)

/-- May a probe of the hub come over a port whose link is down: both ends take part, and neither is fenced off (R288, R503)? -/
def probeable (p : Panel) (s port : Nat) : Bool :=
  let on (t : Nat) : Bool := takesPart p t && decide (p.ust t ≠ .fenced)
  on s && (p.getNode s).linkDown.contains port && (ctlFar s port).any on

/-- ROUTE_TABLE_REWRITE after a link-down report, or to bring back the down links that the hub has probed: the entries that change are
written with CFG_WRITE (R288, R293). -/
def execRouteTableRewrite (s : State) : Out :=
  s.runP true fun p =>
    let back := probedLinks p
    if p.ctl.linkReport.isNone ∧ back.isEmpty then p
    else
      let p := each back linkBack p
      let new := (newRoutes p).filter fun e => decide (routeEntry (p.getNode e.1) e.2.1 ≠ e.2.2)
      let p := each new (fun e p => toSite e.1 0 (.cfgWrite 0 e.2.1 (BitVec.ofNat 64 e.2.2)) p) p
      raise 0x0612 0xFF keyPanel none (p.modCtl fun c => { c with linkReport := none })

/-- The node's replay buffer of a port keeps the last 16 messages sent (R287). -/
def keepReplay (s port : Nat) (k : Pkt) (p : Panel) : Panel :=
  p.modNode s fun n =>
    let l := Tab.get [] n.replay port ++ [k]
    { n with replay := Tab.set port (l.drop (l.length - 16)) n.replay }

/-- A message sent on a port that is of no more use goes another way: a unicast by its route, a multicast on every live port, where
copies already seen are dropped (R292, R293, R295). -/
def sendAgain (s : Nat) (k : Pkt) (p : Panel) : Panel :=
  if k.dmode ≤ 1 then forwardUnicast s k p else each (livePorts p s) (fun q => enqueue s q k) p

/-- A node stops using a port: what its replay buffer holds and what waits there goes another way (R288, R295). -/
def quitPort (s port : Nat) (p : Panel) : Panel :=
  let n := p.getNode s
  let ks := Tab.get [] n.replay port ++ (List.range 8).flatMap fun c => (Tab.get [] n.out (8 * port + c)).map (·.1)
  let p := p.modNode s fun n => { n with
    replay := Tab.del port n.replay, out := n.out.filter (fun e => decide (e.1 / 8 ≠ port)),
    wire := Tab.del port n.wire, rx := Tab.del port n.rx, fails := Tab.del port n.fails }
  each ks (sendAgain s) p

/-- A link is declared down at a port: both ends stop using it, and the node raises and reports it (R288). -/
def linkLost (node port : Nat) (p : Panel) : Panel :=
  let far := (ctlFar node port).bind fun t => (portTo t node).map fun q => (t, q)
  let p := p.modNode node fun n => { n with linkDown := port :: n.linkDown }
  let p := match far with | some (t, q) => p.modNode t fun n => { n with linkDown := q :: n.linkDown } | none => p
  let p := match far with | some (t, q) => quitPort t q (quitPort node port p) | none => quitPort node port p
  dieRaise node 0 node 0x0610 (some (BitVec.ofNat 64 port)) p

/-- A message has come whole over a port (R287): one of a reserved class or kind, or with a reserved bit set, is discarded and
counted (R289, R304). -/
def receiveWord (s port : Nat) (w : BitVec 128) (p : Panel) : Panel :=
  let k := pktOf w
  let bad : Bool := !reservedZero w || (match k.msg with | .reserved _ _ => true | _ => false)
  if bad then p.modNode s fun n => { n with ctr := { n.ctr with reserved := n.ctr.reserved + 1 } }
  else routeOn s (some port) k p

/-- A flit that the check bits pass: the second of a message completes it; with none under way it is an idle flit (R287, R289). -/
def goodFlit (s port : Nat) (p : Panel) : Panel :=
  let n := p.getNode s
  match Tab.get [] n.wire port with
  | [] => p
  | w :: t =>
    if Tab.get 0 n.rx port = 0 then p.modNode s fun n => { n with rx := Tab.set port 1 n.rx }
    else receiveWord s port w (p.modNode s fun n => { n with rx := Tab.set port 0 n.rx, wire := Tab.set port t n.wire, fails := Tab.set port 0 n.fails })

/-- CTL_FLIT_RECEIVE on a port: `chk` is what the check bits find. One that cannot be corrected has its message replayed from the
start; the sixteenth time in a row the link is down (R287, R288). What comes over a link that is down is a probe of the hub's: a valid
one is remembered until the routes are written again (R288; DESIGN CHOICE, log 85). -/
def execCtlFlitReceive (node port : Nat) (chk : WordChk) (s : State) : Out :=
  s.runP (isNode node && decide (port < 5)) fun p =>
    let n := p.getNode node
    let idle := (Tab.get [] n.wire port).isEmpty
    if probeable p node port ∧ chk ≠ .uncorrectable then
      p.modNode node fun n => { n with probed := if n.probed.contains port then n.probed else port :: n.probed }
    else if ¬ (takesPart p node && ctlUp p node port) then p
    else match chk with
      | .ok => goodFlit node port p
      | .corrected => goodFlit node port (p.modNode node fun n => { n with
          errs := n.errs + 1, ctr := { n.ctr with corrected := n.ctr.corrected + 1 } })
      | .uncorrectable =>
        let p := p.modNode node fun n => { n with
          errs := n.errs + 1, rx := Tab.set port 0 n.rx,
          fails := if idle then n.fails else Tab.upd 0 port (· + 1) n.fails,
          ctr := { n.ctr with replays := n.ctr.replays + if idle then 0 else 1 } }
        if 16 ≤ Tab.get 0 (p.getNode node).fails port then linkLost node port p else p

/-- CTL_LINK_DOWN: 64 CK_CTL cycles have passed at a port without a valid flit (R288). -/
def execCtlLinkDown (node port : Nat) (s : State) : Out :=
  s.runP (isNode node && decide (port < 5)) fun p => if takesPart p node && ctlUp p node port then linkLost node port p else p

/-- A unicast with no live route (R293). -/
def discardUnicast (s : Nat) (k : Pkt) (p : Panel) : Panel :=
  let p := p.modNode s fun n => { n with ctr := { n.ctr with undeliverable := n.ctr.undeliverable + 1 } }
  let c := msgCode k.msg
  let p := match k.msg with
    | .undeliverable .. => p
    | _ => sendPkt ⟨0, k.src, s, 0, 0, .undeliverable c.1 c.2 (unicastTo (p.getNode s) k)⟩ p
  dieRaise s 0 s 0x0611 none p

/-- The message that leaves a port next: the first of its lowest class that waits (R294). -/
def nextOut (n : Node) (port : Nat) : Option (Pkt × Nat) :=
  (List.range 8).findSome? fun c => (Tab.get [] n.out (8 * port + c)).head?

/-- It leaves; an event message that has waited more than 100 µs is counted (R297). -/
def popOut (s port : Nat) (e : Pkt × Nat) (p : Panel) : Panel :=
  p.modNode s fun n => { n with
    out := Tab.upd [] (8 * port + (msgCode e.1.msg).1) (·.drop 1) n.out,
    ctr := { n.ctr with delayed := n.ctr.delayed + (if (msgCode e.1.msg).1 = 2 ∧ e.2 + 10000 < p.now then 1 else 0) } }

/-- CTL_MESSAGE_FORWARD at a port: its next message leaves, strictly by class, and is on the link. Where the link is down it goes
another way. Port 5 stands for the unicasts that found no live port: the next is discarded, unless the node's route table has not
been written yet (R287, R289-R294; log 57). -/
def execCtlMessageForward (node port : Nat) (s : State) : Out :=
  s.runP (isNode node && decide (port ≤ 5)) fun p =>
    let n := p.getNode node
    if ¬ takesPart p node then p
    else match nextOut n port with
      | none => p
      | some e =>
        let q := popOut node port e p
        if port = 5 then
          if n.route.isEmpty then p
          else if (routePort p node (unicastTo n e.1)).isSome then forwardUnicast node e.1 q
          else discardUnicast node e.1 q
        else match ctlUp p node port, (ctlFar node port).bind fun t => (portTo t node).map fun r => (t, r) with
          | true, some (t, r) =>
            (keepReplay node port e.1 q).modNode t fun x => { x with wire := Tab.upd [] r (· ++ [pktWord e.1]) x.wire }
          | _, _ => sendAgain node e.1 q

/-- URGENT_QUEUE_PACE (R296). -/
def execUrgentQueuePace (node : Nat) (s : State) : Out :=
  s.runP (isNode node) fun p =>
    let n := p.getNode node
    match n.urgent with
    | [] => p
    | k :: t =>
      if (match n.lastUrgent with | some u => decide (u + 100 ≤ p.now) | none => true) then
        sendPkt k (p.modNode node fun n => { n with urgent := t, lastUrgent := some p.now })
      else p

/-- Disable every data and control link of a die (R503, step 3; R14). -/
def cutLinks (s : Nat) (p : Panel) : Panel :=
  let off (t g : Nat) (p : Panel) : Panel := p.modRtr t fun r => { r with link := Tab.upd link0 g (fun l => { l with failed := true }) r.link }
  let p := each (dataEdges s) (fun e p => off (farEdge s e).1 (farEdge s e).2 (off s e p)) p
  each (List.range 5) (fun q p =>
    match ctlFar s q with
    | none => p
    | some t =>
      let down (a b : Nat) (p : Panel) : Panel := p.modNode a fun n => { n with
        linkDown := if n.linkDown.contains b then n.linkDown else b :: n.linkDown, probed := n.probed.filter fun x => decide (x ≠ b) }
      match portTo t s with | some z => down t z (down s q p) | none => down s q p) p

/-- A data link is back in use at one end: flit numbers start again, and the cells that the far end had not accepted wait for new
flits (R169; log 60). -/
def freshLink (e : Nat) (back : List (Nat × Cell)) (r : Router) : Router :=
  { r with
    tx := Tab.upd [] e (back ++ ·) r.tx,
    link := Tab.upd link0 e (fun l => { l with failed := false, fails := 0, waiting := false, next := 0, txSeq := 0, buf := [] }) r.link }

/-- Bring a die's links back to use: they have been retrained or probed (R288, R424, R505). -/
def joinLinks (s : Nat) (p : Panel) : Panel :=
  let p := each (dataEdges s) (fun e p =>
    let f := farEdge s e
    let mine := (pendingFlits p s e).flatMap (·.cells)
    let theirs := (pendingFlits p f.1 f.2).flatMap (·.cells)
    (p.modRtr s (freshLink e mine)).modRtr f.1 (freshLink f.2 theirs)) p
  each (List.range 5) (fun q p =>
    match ctlFar s q with
    | none => p
    | some t =>
      let up (a b : Nat) (p : Panel) : Panel := p.modNode a fun n => { n with linkDown := n.linkDown.filter (fun x => decide (x ≠ b)), probed := n.probed.filter fun x => decide (x ≠ b) }
      match portTo t s with | some z => up t z (up s q p) | none => up s q p) p

/-- A node disables its data and control links into dies that are cut off (R14, R387, R503). -/
def cutInto (node : Nat) (dead : Nat → Bool) (p : Panel) : Panel :=
  let p := p.modNode node fun n => { n with
    linkDown := n.linkDown ++ (List.range 5).filter fun q => (match ctlFar node q with | some t => dead t | none => false) && !n.linkDown.contains q }
  each ((dataEdges node).filter fun e => dead (farEdge node e).1) (fun e p =>
    p.modRtr node fun r => { r with link := Tab.upd link0 e (fun l => { l with failed := true }) r.link }) p

/-- FENCE at a node: the named site stops and its links, transit entries included, are disabled; a node with a link into
it, or into a die of the named block, disables that link (R387, R503, R304). Unit kind 1 is a site, kind 2 a port, as in
R358; kind 3 is a block (log 29). -/
def execFence (node : Nat) (k : Pkt) (s : State) : Out :=
  s.runP (isNode node) (onPkt node k fun p =>
    match k.msg with
    | .fence kind num _ _ =>
      if kind = 1 ∧ num = node then
        let p := if isCompute node then freezeDie node p else p
        cutLinks node (p.modRtr node fun r => { r with transit := r.transit.map fun e => (e.1, BitVec.ofNat 32 (e.2.toNat % 2 ^ 31)) })
      else if kind = 1 then cutInto node (fun t => decide (t = num)) p
      else if kind = 3 ∧ blockOf node ≠ num then cutInto node (fun t => decide (blockOf t = num)) p
      else p
    | _ => p)

/-- The events that a core fault raises (R72). -/
def coreFaultEvs : List Nat := [0x0402, 0x0404, 0x0409, 0x0502, 0x0508, 0x0701, 0x0702, 0x070F]

/-- The dies at the far ends of a die's failed data links (R169). -/
def failedFar (p : Panel) (s : Nat) : List Nat :=
  if ¬ isMesh s then []
  else ((List.range 4).filter fun e => (Tab.get link0 (p.getRtr s).link e).failed).map fun e => (farEnd s (32 * e)).1

/-- The units against which a report is evidence (R498). -/
def evidenceUnits (p : Panel) (site core ev : Nat) : List Nat :=
  if ev = 0x0207 ∨ ev = 0x0208 ∨ ev = 0x0303 ∨ ev = 0x060D then [site]
  else if ev = 0x0409 then [keyStack site]
  else if ev = 0x0508 then [keyCore (4 * site + core)]
  else if ev = 0x0606 then site :: failedFar p site
  else []

/-- FAULT_REPORT at the active hub: the event, the freeze of R220, the evidence of R498, the site FAILED of a strap mismatch or of a
power fault (R17, R303, R304). -/
def execFaultReport (node : Nat) (k : Pkt) (s : State) : Out :=
  s.runP (isNode node) (onPkt node k fun p =>
    match k.msg with
    | .faultReport ev core data =>
      let p := hubEnter ev k.src core k.src data 0 p
      let core_ := isCompute k.src && coreFaultEvs.contains ev && decide ((p.getCore (4 * k.src + core)).a.run = .faulted)
      let p := if core_ || decide (ev = 0x0607) || decide (ev = 0x060D) then freezeOf ev k.src p else p
      let p := if ev = 0x0101 ∨ ev = 0x0102 ∨ ev = 0x0D01 then moveUnit k.src .failed ev p else p
      each (evidenceUnits p k.src core ev) (fun u => pendEvidence u ev) p
    | _ => p)

/-- Are all the control links of a node down (R498)? -/
def cutOff (p : Panel) (s : Nat) : Bool := (List.range 5).all fun q => !ctlUp p s q

/-- EVENT at the active hub (R303): a shard error makes its entry BAD (R262), a link-down report asks for new routes
(R293), and is evidence against a node that it cuts off (R498). -/
def execEvent (node : Nat) (k : Pkt) (s : State) : Out :=
  s.runP (isNode node) (onPkt node k fun p =>
    match k.msg with
    | .event ev core supp data =>
      let p := hubEnter ev k.src core k.src data supp p
      if ev = 0x0801 then p.modDir (data.toNat % 524288) fun d => { d with st := if d.st = .empty then .empty else .bad }
      else if ev = 0x0610 then
        let p := p.modCtl fun c => { c with linkReport := some p.now }
        let far := match ctlFar k.src (data.toNat % 8) with | some t => [k.src, t] | none => [k.src]
        each (far.filter fun t => takesPart p t && cutOff p t) (fun t => pendEvidence t 0x0610) p
      else p
    | _ => p)

/-- The tag of an epoch set, matched against a tag. -/
def tagIs (trun : Bool) (tqid : Nat) (t : Bool) (q : Nat) : Bool := decide (t = trun) && (trun || decide (q = tqid))

/-- Set a tag's epoch in a router: current epochs, descriptors, destination registers (R199). -/
def applyEpoch (s : Nat) (trun : Bool) (tqid ep : Nat) (p : Panel) : Panel :=
  p.modRtr s fun r => { r with
    unit := r.unit.map fun e => if tagIs trun tqid e.2.trun e.2.tqid then (e.1, { e.2 with cep := ep }) else e,
    udesc := r.udesc.map fun e =>
      if tagIs trun tqid (UDesc.trun e.2) (UDesc.tqid e.2) then
        (e.1, BitVec.ofNat 256 (fld e.2 255 176 * 2 ^ 176 + ep % 2 ^ 16 * 2 ^ 160 + fld e.2 159 0)) else e,
    dest := r.dest.map fun e => if tagIs trun tqid e.2.trun e.2.tqid then (e.1, { e.2 with epoch := ep }) else e }

/-- EPOCH_SET at a router: applied when its sequence is newer; every copy is acknowledged (R199, R301). -/
def execEpochSet (node : Nat) (k : Pkt) (s : State) : Out :=
  s.runP (isNode node) fun p =>
    match k.msg with
    | .epochSet seq _ trun tqid ep =>
      onPkt node k (fun p =>
        let newer : Bool := match (p.getRtr node).lastEpochSeq with
          | none => true
          | some l => decide (1 ≤ (seq + 2 ^ 16 - l) % 2 ^ 16 ∧ (seq + 2 ^ 16 - l) % 2 ^ 16 ≤ 32767)
        let p := if newer then (applyEpoch node trun tqid ep p).modRtr node fun r => { r with lastEpochSeq := some seq } else p
        toHub node 1 (.ack seq 0) p) p
    | _ => p

/-- An epoch set that every router has acknowledged: a query's ledger epoch is written (R260). -/
def settleEpoch (seq : Nat) (p : Panel) : Panel :=
  match p.ctl.epochs.find? fun e => decide (e.seq = seq) with
  | none => p
  | some e =>
    if ¬ e.missing.isEmpty then p
    else
      let p := p.modCtl fun c => { c with epochs := c.epochs.filter fun x => decide (x.seq ≠ seq) }
      if e.trun then p else p.modQuery e.tqid fun q => { q with epoch := e.epoch }

/-- Take an acknowledgement (R222, R301, R302, R371). -/
def takeAck (src tag seq r : Nat) (s : State) : State :=
  if tag = 1 then
    progressRestarts <| s.onP fun p => settleEpoch seq (p.modCtl fun c => { c with
      epochs := c.epochs.map fun e => if e.seq = seq then { e with missing := e.missing.filter fun x => decide (x ≠ src) } else e })
  else if tag = 2 then
    match s.p.ctl.lives.find? fun l => decide (l.num = seq) && decide (l.site = src) with
    | none => s
    | some l =>
      let s := s.onP fun p => p.modCtl fun c => { c with lives := c.lives.filter fun x => decide (x ≠ l) }
      if l.region = freeRegion then s.onP settleLive
      else if l.region = planRegion then
        let num := match l.writes with | (_, _, _, d) :: _ => d.toNat / 2 ^ 32 | [] => 0
        s.onP fun p => p.modClocks fun c => { c with
          plans := c.plans.map fun x => if x.plan.num = num ∧ x.acked.contains src = false then { x with acked := src :: x.acked } else x }
      else
        progress l.region (s.onP fun p => p.modReg l.region fun g => { g with liveAcks := g.liveAcks.filter fun x => decide (x ≠ src) })
  else if tag = 3 then
    s.onP fun p => p.modReg r fun g => { g with stopped := if g.stopped.contains src then g.stopped else src :: g.stopped }
  else s

/-- ACK at the active hub; of a barred unit it is a sign of health and no more (R499). -/
def execAck (node : Nat) (k : Pkt) (s : State) : Out :=
  s.run (isNode node) fun s =>
    match k.msg with
    | .ack seq r =>
      onPktS k node (fun s => if barred s.p k.src then s.onP (healthSign k.src) else takeAck k.src k.tag seq r s) s
    | _ => s

/-- NACK at the active hub: the set is sent again (R302). -/
def execNack (node : Nat) (k : Pkt) (s : State) : Out :=
  s.runP (isNode node) fun p =>
    match k.msg with
    | .nack seq _ =>
      onPkt node k (fun p =>
        match p.ctl.lives.find? fun l => decide (l.num = seq) && decide (l.site = k.src) && decide (k.tag = 2) with
        | none => p
        | some l =>
          let p := each l.writes (fun w p => toSite k.src (seq % 64) (.liveWrite w.1 w.2.1 w.2.2.1 w.2.2.2) p) p
          toSite k.src (seq % 64) (.liveCommit seq l.writes.length) p) p
    | _ => p

/-- LIVE_WRITE at a die: the write waits for its commit, under its TAG; a repeat takes the place of the first (R295, R302). -/
def execLiveWrite (node : Nat) (k : Pkt) (s : State) : Out :=
  s.runP (isNode node) (onPkt node k fun p =>
    match k.msg with
    | .liveWrite i sub off d => p.modDie node fun x => { x with
      liveSet := Tab.upd [] k.tag (fun l => (l.filter fun w => decide ((w.1, w.2.1, w.2.2.1) ≠ (i, sub, off))) ++ [(i, sub, off, d)]) x.liveSet }
    | _ => p)

/-- A set of LIVE values comes into force at a die (R302). -/
def applyLive (s : Nat) (ws : List (Nat × Nat × Nat × BitVec 64)) (p : Panel) : Panel :=
  let keys := (ws.map fun w => 256 * w.1 + w.2.1).eraseDups
  p.modDie s fun x => { x with
    live := each keys (fun k t =>
      let n := match odRow p.variant (k / 256) (k % 256) with | some r => r.len | none => 8
      Tab.set k (ws.foldl (fun b w =>
        if 256 * w.1 + w.2.1 = k then b.take (8 * w.2.2.1) ++ (leBytes 8 w.2.2.2.toNat ++ b.drop (8 * w.2.2.1 + 8)) else b)
          (List.replicate n 0) |>.take n) t) x.live }

/-- LIVE_COMMIT at a die: a complete set is applied at once and acknowledged, any other is discarded and refused (R302). -/
def execLiveCommit (node : Nat) (k : Pkt) (s : State) : Out :=
  s.runP (isNode node) (onPkt node k fun p =>
    match k.msg with
    | .liveCommit n count =>
      let ws := Tab.get [] (p.getDie node).liveSet k.tag
      let p := p.modDie node fun x => { x with liveSet := Tab.del k.tag x.liveSet }
      if ws.length ≠ count then toHub node 2 (.nack n 0) p
      else match planOf ws with
        | some x => let r := armPlan node x p; if r.1 then toHub node 2 (.ack n 0) r.2 else r.2
        | none => toHub node 2 (.ack n 0) (applyLive node ws p)
    | _ => p)

/-- LATE_NOTICE at the source site: counted by the core it names (R117, R303). -/
def execLateNotice (node : Nat) (k : Pkt) (s : State) : Out :=
  s.runP (isNode node) (onPkt node k fun p =>
    match k.msg with
    | .lateNotice _ src _ _ _ _ _ =>
      if isCompute node then
        coreRaise (4 * node + src % 4) 0x0504 none
          (p.modA (4 * node + src % 4) fun a => { a with wnctr := { a.wnctr with received := a.wnctr.received + 1 } })
      else p
    | _ => p)

/-- UNDELIVERABLE at the source of the discarded message: counted (R293, R303). -/
def execUndeliverable (node : Nat) (k : Pkt) (s : State) : Out :=
  s.runP (isNode node) (onPkt node k fun p =>
    match k.msg with
    | .undeliverable _ _ _ => p.modNode node fun n => { n with ctr := { n.ctr with undeliverable := n.ctr.undeliverable + 1 } }
    | _ => p)

/-- A message that the active hub's firmware sends of its own accord, which no row of the table sends: the row of its kind at that
hub sends it, unless it is the one that the hub has been delivered; at any other node, and then, it is the delivery (log 24). -/
def onHubPkt (s : Nat) (k : Pkt) (f : State → State) (t : State) : State :=
  if s = t.p.activeHub ∧ k.src = s ∧ (t.p.getNode s).inbox.head? ≠ some k then
    t.onP fun p => if k.dmode ≤ 1 then sendPkt k p else fromHub s k.dmode k.dst k.msg p
  else onPktS k s f t

/-- CFG_WRITE at a node: a route, the group map by 64-bit words, or the active-hub register; table 3 is read only (R291,
R304; log 25). -/
def execCfgWrite (node : Nat) (k : Pkt) (s : State) : Out :=
  s.run (isNode node) (onHubPkt node k fun s => s.onP fun p =>
    match k.msg with
    | .cfgWrite table i v =>
      if table = 0 then
        p.modNode node fun n => { n with route := Tab.set (i % 256) (fld v 7 0) n.route, routeWrites := n.routeWrites + 1 }
      else if table = 1 then
        p.modNode node fun n => { n with groups := splice n.groups (8 * (i % 4)) 8 v.toNat }
      else if table = 2 then p.modNode node fun n => { n with hub := fld v 8 8, gen := fld v 7 0 }
      else p.modNode node fun n => { n with ctr := { n.ctr with reserved := n.ctr.reserved + 1 } }
    | _ => p)

/-- What a configuration table reads (R304). -/
def cfgValue (p : Panel) (s table i : Nat) : Nat :=
  let n := p.getNode s
  if table = 0 then routeEntry n (i % 256)
  else if table = 1 then groupMap p s / 2 ^ (64 * (i % 4)) % 2 ^ 64
  else if table = 2 then n.hub * 256 + n.gen
  else if i = 0 then (p.getClk s).lastPlan % 2 ^ 32 * 2 ^ 32 + (p.getClk s).step else 0

/-- CFG_READ at a node: the value goes back under the read's TAG (R304). -/
def execCfgRead (node : Nat) (k : Pkt) (s : State) : Out :=
  s.run (isNode node) (onHubPkt node k fun s => s.onP fun p =>
    match k.msg with
    | .cfgRead table i => sendPkt ⟨0, k.src, node, k.tag, 0, .cfgData table i (BitVec.ofNat 64 (cfgValue p node table i))⟩ p
    | _ => p)

/-- CFG_DATA at the hub: the value read is kept with its tag, table and index, the site above the tag; a step read back
settles the plan that the die missed (R304, R371). -/
def execCfgData (node : Nat) (k : Pkt) (s : State) : Out :=
  s.runP (isNode node) (onPkt node k fun p =>
    match k.msg with
    | .cfgData table i v =>
      let p := p.modCtl fun c => { c with
        reads := (c.reads.filter fun r => !(decide (r.1 = k.src * 64 + k.tag) && decide (r.2.1 = table) && decide (r.2.2.1 = i)))
          ++ [(k.src * 64 + k.tag, table, i, some v)] }
      if table = 3 ∧ i = 0 then settleReadback k.src (fld v 2 0) p else p
    | _ => p)

/-- HUB_BEAT at a node: a newer generation names the active hub; hub B notes hub A's beats, hub A hub B's (R298, R299). -/
def execHubBeat (node : Nat) (k : Pkt) (s : State) : Out :=
  s.runP (isNode node) (onPkt node k fun p =>
    match k.msg with
    | .hubBeat gen active _ =>
      let ahead := (gen + 256 - (p.getNode node).gen) % 256
      let p := if active ∧ 1 ≤ ahead ∧ ahead ≤ 127 then
          let old := (p.getNode node).hub
          let p := p.modNode node fun n => { n with hub := hubNum k.src, gen := gen }
          if old ≠ hubNum k.src ∧ isCompute node = true then resendArrival node p else p
        else p
      if node = 0xDD ∧ k.src = 0x00 then p.modCtl fun c => { c with hubBeatA := p.now, hubMissed := 0 }
      else if node = 0x00 ∧ k.src = 0xDD then p.modCtl fun c => { c with lastBeat := Tab.set 0xDD p.now c.lastBeat }
      else p
    | _ => p)

/-- Does a hub run: its images did not fail, its book entry lets it take part, and a takeover does not hold it in reset? -/
def hubRuns (p : Panel) (h : Nat) : Bool :=
  takesPart p h && !p.boot.hubDown.contains h && !(p.book.tookOver && decide (h = 0))

/-- Has a node's beat period passed since its last beat (R299)? -/
def beatDue (p : Panel) (s period : Nat) : Bool :=
  match (p.getNode s).beatAt with
  | some t => decide (t + period ≤ p.now)
  | none => true

/-- HUB_BEAT_SEND (R298, R299). -/
def execHubBeatSend (hub : Nat) (s : State) : Out :=
  s.runP (isHub hub) fun p =>
    if hubRuns p hub && beatDue p hub (cfg p 0x7024 0 1) then
      fromHub hub 3 0 (.hubBeat p.book.tgen (decide (hub = p.activeHub)) p.now) (p.modNode hub fun n => { n with beatAt := some p.now })
    else p

/-- NODE_BEAT at the active hub: the beat's time; its errors above the threshold are evidence; of a barred unit it is
discarded (R299, R498, R499). -/
def execNodeBeat (node : Nat) (k : Pkt) (s : State) : Out :=
  s.runP (isNode node) (onPkt node k fun p =>
    match k.msg with
    | .nodeBeat errs _ =>
      if barred p k.src then healthSign k.src p
      else
        let p := p.modCtl fun c => { c with lastBeat := Tab.set k.src p.now c.lastBeat, missed := Tab.set k.src 0 c.missed }
        if cfg p 0xE020 0 4 < errs then pendEvidence k.src 0x0E02 p else p
    | _ => p)

/-- NODE_BEAT_SEND: with the errors since the last beat (R299, R304). -/
def execNodeBeatSend (node : Nat) (s : State) : Out :=
  s.runP (isNode node) fun p =>
    if takesPart p node && !isHub node && beatDue p node (cfg p 0x7024 0 3) then
      toHub node 0 (.nodeBeat ((p.getNode node).errs % 2 ^ 32) p.now) (p.modNode node fun n => { n with errs := 0, beatAt := some p.now })
    else p

/-- NODE_BEAT_MISSED: another node beat period has passed with no beat; at the count it is evidence (R299, R498). -/
def execNodeBeatMissed (node : Nat) (s : State) : Out :=
  s.runP (isNode node) fun p =>
    let m := Tab.get 0 p.ctl.missed node
    if takesPart p node ∧ Tab.get 0 p.ctl.lastBeat node + cfg p 0x7024 0 3 * (m + 1) < p.now then
      let p := p.modCtl fun c => { c with missed := Tab.set node (m + 1) c.missed }
      if m + 1 = cfg p 0x7024 0 4 then pendEvidence node 0x0E02 p else p
    else p

/-- HUB_LOSS_TIMEOUT: a missed beat period at hub B is raised; with the loss timeout hub B decides to take over, or
declines where it has no live link (R299, R507). -/
def execHubLossTimeout (s : State) : Out :=
  s.runP true fun p =>
    let gap := p.now - p.ctl.hubBeatA
    if p.book.active ≠ 0 ∨ p.book.standbyLost ∨ ¬ hubRuns p 0xDD ∨ gap < cfg p 0x7024 0 1 then p
    else
      let p := raise 0x0613 0xDD 0xDD none (p.modCtl fun c => { c with hubMissed := gap / cfg p 0x7024 0 1 })
      if gap < cfg p 0x7024 0 2 then p
      else if (List.range 3).any (ctlUp p 0xDD) then p.modBook fun b => { b with takeDue := true }
      else raise 0x0E0A 0xDD 0xDD none p

/-- EPOCH_SET_RETRY of a set sequence 100 µs after it was sent: sent again, up to three attempts; then the routers missing
are evidence. Routers out of service are not waited for (R301). -/
def execEpochSetRetry (seq : Nat) (s : State) : Out :=
  s.run true fun s => progressRestarts <| s.onP fun p =>
    match p.ctl.epochs.find? fun e => decide (e.seq = seq) with
    | none => p
    | some e =>
      if p.now < e.sentAt + 10000 then p
      else
        let left := e.missing.filter fun x => match p.ust x with | .failed => false | .fenced => false | .absent => false | _ => true
        let put (n : Nat) (p : Panel) : Panel := p.modCtl fun c => { c with
          epochs := c.epochs.map fun x => if x.seq = seq then { x with missing := left, sentAt := p.now, tries := n } else x }
        if left.isEmpty then settleEpoch seq (put e.tries p)
        else if e.tries < 3 then toGroup 2 (0x40 + e.part) (.epochSet seq e.part e.trun e.tqid e.epoch) (put (e.tries + 1) p)
        else if e.tries = 3 then each left (fun x => pendEvidence x 0x0E02) (put 4 p)
        else put e.tries p

/-- The hub's record of a bulk session, begun with its BULK_OPEN (R305). -/
def noteBulk (sess group : Nat) (p : Panel) : Panel :=
  if p.ctl.bulks.any fun b => decide (b.sess = sess) && decide (b.group = group) && b.done.isEmpty && b.incomplete.isEmpty then p
  else p.modCtl fun c => { c with
    lastBulk := sess,
    bulks := (c.bulks.filter fun b => decide (b.sess ≠ sess)) ++
      [⟨sess, group, (allNodes.filter fun s => takesPart p s && (groupMap p s).testBit group), [], [], [], [], 0, []⟩] }

/-- BULK_OPEN at a target: refused for another space, and where a masked core is not stopped (R56, R305). -/
def execBulkOpen (node : Nat) (k : Pkt) (s : State) : Out :=
  s.run (isNode node) (onHubPkt node k fun s => s.onP fun p =>
    match k.msg with
    | .bulkOpen sess space mask base len =>
      let cores := (List.range 4).filter mask.testBit
      let bad := !((decide (space = 2) && isCompute node) || decide (space = 4)) || (isCompute node && !cores.all fun c => coreIdle p (4 * node + c))
      let p := noteBulk sess k.dst p
      p.modNode node fun n => { n with
        bulk := (n.bulk.filter fun b => decide (b.sess ≠ sess)) ++ [⟨sess, space, mask, base, len, bad, []⟩] }
    | _ => p)

/-- Write one unit of a bulk session (R56, R305): to each masked core's program store, or to die control space. -/
def bulkPut (s : Nat) (b : BulkIn) (i : Nat) (d : BitVec 64) (t : State) : Bool × State :=
  let off := b.base + 8 * i
  let bytes := leBytes 8 d.toNat
  if b.space = 2 then
    let ks := ((List.range 4).filter b.mask.testBit).map (4 * s + ·)
    if ¬ decide (off + 8 ≤ programBytes) then (false, t.onP (gaRefuse s))
    else if ks.all (programFree t.p) then (true, each ks (fun k => putProgram k off bytes) t)
    else (false, t)
  else
    let a := s * 2 ^ 44 + 4 * 2 ^ 40 + off
    let r := gaPut true .posted [] a bytes t
    if r.1 = .done then (true, r.2) else (false, r.2.onP (gaRefuseWrite a))

/-- BULK_DATA at a target (R305). -/
def execBulkData (node : Nat) (k : Pkt) (s : State) : Out :=
  s.run (isNode node) (onHubPkt node k fun s =>
    match k.msg with
    | .bulkData sess i d =>
      let s := s.onP fun p => p.modCtl fun c => { c with bulks := c.bulks.map fun b => if b.sess = sess then { b with data := Tab.set i d b.data } else b }
      match (s.p.getNode node).bulk.find? fun b => decide (b.sess = sess) with
      | none => s
      | some b =>
        if b.refused ∨ b.len ≤ i then s
        else
          let r := bulkPut node b i d s
          if r.1 then r.2.onP fun p => p.modNode node fun n => { n with
            bulk := n.bulk.map fun x => if x.sess = sess then { x with units := Tab.set i d x.units } else x }
          else r.2
    | _ => s)

/-- What a target answers at BULK_CLOSE: status, units missing, the first of them (R304, R305). -/
def bulkAnswer (b : BulkIn) (crc : BitVec 64) : Nat × Nat × Nat :=
  let gone := (List.range b.len).filter fun i => (Tab.find? b.units i).isNone
  if b.refused then (3, 0, 0)
  else match gone with
    | i :: _ => (1, gone.length, i)
    | [] => if crc64 0 (b.units.flatMap fun e => leBytes 8 e.2.toNat) = crc then (0, 0, 0) else (2, 0, 0)

/-- BULK_CLOSE at a target: it checks its CRC-64 and answers (R305). -/
def execBulkClose (node : Nat) (k : Pkt) (s : State) : Out :=
  s.run (isNode node) (onHubPkt node k fun s => s.onP fun p =>
    match k.msg with
    | .bulkClose sess crc =>
      let p := p.modCtl fun c => { c with bulks := c.bulks.map fun b => if b.sess = sess then { b with check := crc } else b }
      match (p.getNode node).bulk.find? fun b => decide (b.sess = sess) with
      | none => p
      | some b => let r := bulkAnswer b crc; toHub node 0 (.bulkResult sess r.1 (r.2.1 % 2 ^ 20) r.2.2) p
    | _ => p)

/-- The hub takes a target's result: done, a CRC mismatch, a refusal, or missing units, which it sends again up to three
times (R305). -/
def takeBulk (src sess status first : Nat) (p : Panel) : Panel :=
  match p.ctl.bulks.find? fun b => decide (b.sess = sess) with
  | none => p
  | some b =>
    let put (b : BulkOut) (p : Panel) : Panel := p.modCtl fun c => { c with bulks := c.bulks.map fun x => if x.sess = sess then b else x }
    let add (l : List Nat) : List Nat := if l.contains src then l else l ++ [src]
    if status = 0 then put { b with done := add b.done } p
    else if status = 2 then put { b with crc := add b.crc } p
    else if status = 3 then put { b with incomplete := add b.incomplete } p
    else
      let n := Tab.get 0 b.resends src
      if 3 ≤ n then
        raise 0x0614 src src none (put { b with incomplete := add b.incomplete } p)
      else
        let p := put { b with resends := Tab.set src (n + 1) b.resends } p
        let p := each (b.data.filter fun e => decide (first ≤ e.1)) (fun e p => toSite src 0 (.bulkData sess e.1 e.2) p) p
        toGroup 2 b.group (.bulkClose sess b.check) p

/-- BULK_RESULT at the hub (R305). -/
def execBulkResult (node : Nat) (k : Pkt) (s : State) : Out :=
  s.runP (isNode node) (onPkt node k fun p =>
    match k.msg with
    | .bulkResult sess status _ first => takeBulk k.src sess status first p
    | _ => p)

end Sys2Proof.Machine
end

