-- ==== Sys2Proof/Machine/HostOps.lean ====
section
/-! DEFINITION. The host's accesses to BAR 0 and BAR 2, the queues, the ports, and function resets (R308-R319, R327-R334). -/

namespace Sys2Proof.Machine

/-- A dropped write, counted (R312, R316). -/
def dropWrite (f : Nat) (p : Panel) : Panel := p.modFn f fun x => { x with ctr := { x.ctr with dropped := x.ctr.dropped + 1 } }

/-- A write to the standby port: dropped, counted, raised (the standby port). -/
def standbyDrop (f : Nat) (p : Panel) : Panel := raise 0x0904 0xFF (keyFn f) none (dropWrite f p)

/-- Does an access of the host arrive: its port is up and has the function (R308, R311)? -/
def arrives (p : Panel) (hp f : Nat) : Bool := (p.getHPort hp).up && decide (f ≤ (p.getHPort hp).vfs)

/-- A write to BAR 0 of the active port; the standby port drops it (R308, R313). -/
def bar0 (hp f : Nat) (act : Panel → Panel) (p : Panel) : Panel :=
  if ¬ arrives p hp f then p else if hp = activePort p then act p else standbyDrop f p

/-- A queue of a function: 0 to 15 the submission queues, 16 to 31 the completion queues, 32 the event ring (R317, R329). -/
def getQ (p : Panel) (f q : Nat) : Queue :=
  if q < 16 then (p.getFn f).sqOf q else if q < 32 then (p.getFn f).cqOf (q - 16) else (p.getFn f).ring
def modQ (f q : Nat) (g : Queue → Queue) (p : Panel) : Panel :=
  if q < 16 then modSq f q g p else if q < 32 then modCq f (q - 16) g p else p.modFn f fun x => { x with ring := g x.ring }

/-- A queue enters the error state (R317, R318). -/
def queueError (f q : Nat) (p : Panel) : Panel :=
  setIcause f 3 (raise 0x0902 0xFF (keyFn f) none (modQ f q (fun x => { x with st := .error }) p))

/-- A doorbell's value as R318 sorts it: an index to take, the one in force, or a bad one. -/
inductive Bell where
  | take (i : Nat) | same | bad
  deriving DecidableEq, Repr

def bellOf (x : BitVec 32) (q : Queue) (now : Nat) : Bell :=
  if fld x 31 16 ≠ 0 ∨ q.size ≤ fld x 15 0 ∨ q.st ≠ .enabled then .bad
  else if fld x 15 0 = now then .same else .take (fld x 15 0)

/-- A doorbell that is dropped; an enabled queue enters the error state (R318). -/
def badBell (f q : Nat) (p : Panel) : Panel :=
  let p := dropWrite f p
  if (getQ p f q).st = .enabled then queueError f q p else setIcause f 3 (raise 0x0902 0xFF (keyFn f) none p)

/-- The effect of a doorbell (R318, R327, R329). -/
def ringBell (f q : Nat) (x : BitVec 32) (p : Panel) : Panel :=
  let y := getQ p f q
  match bellOf x y (if q < 16 then y.tail else y.head) with
  | .bad => badBell f q p
  | .same => p
  | .take i =>
    if q < 16 then modQ f q (fun y => { y with tail := i }) p
    else
      let p := modQ f q (fun y => { y with head := i }) p
      if q < 32 then postHeld f (q - 16) 4096 p
      else if y.dropped = 0 then p
      else ringPut f ⟨0x0906, 0, 0xFF, 0, p.now, BitVec.ofNat 64 y.dropped, 0, 0⟩ (modQ f q (fun y => { y with dropped := 0 }) p)

/-- SQ_TAIL_DOORBELL, CQ_HEAD_DOORBELL, EVENT_RING_DOORBELL (R318, R327, R329). -/
def execSqTailDoorbell (hp fn sq : Nat) (x : BitVec 32) (s : State) : Out :=
  s.runP (isHPort hp && isFn fn && decide (sq < 16)) (bar0 hp fn (ringBell fn sq x))
def execCqHeadDoorbell (hp fn cq : Nat) (x : BitVec 32) (s : State) : Out :=
  s.runP (isHPort hp && isFn fn && decide (cq < 16)) (bar0 hp fn (ringBell fn (16 + cq) x))
def execEventRingDoorbell (hp fn : Nat) (x : BitVec 32) (s : State) : Out :=
  s.runP (isHPort hp && isFn fn) (bar0 hp fn (ringBell fn 32 x))

/-- The fields of queue `n`'s control word that are writable while it is disabled (R317); the event ring has LOG2N only, its VEC
fixed and its CQ ignored (R329). -/
def ctlFields (n : Nat) (x : BitVec 64) (q : Queue) : Queue :=
  let q := { q with log2n := fld x 20 16 }
  if n < 16 then { q with cq := fld x 11 8 } else if n < 32 then { q with vec := fld x 12 8 } else q

/-- Enable a queue (R317). -/
def enableQueue (f q : Nat) (p : Panel) : Panel :=
  let y := getQ p f q
  if y.base % 4096 = 0 ∧ 4 ≤ y.log2n ∧ y.log2n ≤ 16 ∧ (q < 16 → (getQ p f (16 + y.cq)).st = .enabled) then
    modQ f q (fun y => { y with
      en := true, st := .enabled, head := 0, tail := 0, phase := true, seq := 0, unsig := 0, dropped := 0 }) p
  else queueError f q (modQ f q (fun y => { y with en := true }) p)

/-- A write of a queue's control word: fields, then EN (R317, R319). A field write to a queue that is not disabled is
dropped and counted. EN = 1 has no effect on a queue that drains (log 76). -/
def writeQueueCtl (f q : Nat) (x : BitVec 64) (p : Panel) : Panel :=
  let y := getQ p f q
  let p := if y.st = .disabled then modQ f q (ctlFields q x) p else if ctlFields q x y = y then p else dropWrite f p
  if bit x 0 then (if y.en then p else if y.st = .disabled then enableQueue f q p else p)
  else if y.en then modQ f q (fun y => { y with en := false, st := .draining }) p else p

/-- QUEUE_ENABLE: the control word written with EN = 1 (R317). -/
def execQueueEnable (hp fn q : Nat) (x : BitVec 64) (s : State) : Out :=
  s.runP (isHPort hp && isFn fn && decide (q < 33)) (bar0 hp fn (writeQueueCtl fn q (x ||| 1)))
/-- QUEUE_DISABLE: the control word written with EN = 0 (R319). -/
def execQueueDisable (hp fn q : Nat) (x : BitVec 64) (s : State) : Out :=
  s.runP (isHPort hp && isFn fn && decide (q < 33)) (bar0 hp fn (writeQueueCtl fn q (x &&& ~~~1)))

/-- Has a draining queue finished: its commands, and for a completion queue those of the queues that name it? -/
def drainedQ (p : Panel) (f q : Nat) : Bool :=
  if q < 16 then !(getQ p f q).busy
  else (List.range 16).all fun n => !(getQ p f n).busy || decide ((getQ p f n).cq ≠ q - 16)

/-- QUEUE_DRAINED (R319); entries held for a completion queue that is now disabled are dropped (R327). -/
def execQueueDrained (fn q : Nat) (s : State) : Out :=
  s.runP (isFn fn && decide (q < 33)) fun p =>
    if (getQ p fn q).st = .draining ∧ drainedQ p fn q = true then
      let p := modQ fn q (fun y => { y with st := .disabled }) p
      if 16 ≤ q ∧ q < 32 then dropHeld fn (q - 16) p else p
    else p

/-- CQ_COALESCE_TIMEOUT (R328). -/
def execCqCoalesceTimeout (fn cq : Nat) (s : State) : Out :=
  s.runP (isFn fn && decide (cq < 16)) fun p =>
    let q := (p.getFn fn).cqOf cq
    if q.time ≠ 0 ∧ 0 < q.unsig ∧ q.oldest + q.time ≤ p.now then signalCq fn cq p else p

/-- ICAUSE_CLEAR: a write of ones clears the bits. The standby port's ICAUSE holds none (R312, R334). -/
def execIcauseClear (hp fn : Nat) (x : BitVec 64) (s : State) : Out :=
  s.runP (isHPort hp && isFn fn) fun p =>
    if arrives p hp fn ∧ hp = activePort p then
      p.modFn fn fun y => { y with icause := ofBits ((bitsSet 4 y.icause).filter fun i => !bit x i) }
    else p

/-- Write a slice register; a base above the address space is dropped and counted (R315). -/
def writeSlice (f i : Nat) (x : BitVec 64) (p : Panel) : Panel :=
  if fld x 63 52 ≠ 0 then dropWrite f p
  else p.modFn f fun y => { y with slices := Tab.set i (BitVec.ofNat 64 (fld x 63 32 * 2 ^ 32 + (if bit x 0 then 1 else 0))) y.slices }

/-- APERTURE_SLICE_WRITE (R315). -/
def execApertureSliceWrite (hp fn i : Nat) (x : BitVec 64) (s : State) : Out :=
  s.runP (isHPort hp && isFn fn && decide (i < 16)) (bar0 hp fn (writeSlice fn i x))

/-- The global address of an offset in a slice of BAR 2, where the slice is in use (R314). -/
def sliceGa (p : Panel) (f slice off : Nat) : Option Nat :=
  let x := Tab.get 0 (p.getFn f).slices slice
  if bit x 0 then some (fld x 63 32 * 2 ^ 32 + off) else none

/-- The panel answers an aperture read. -/
def answerRead (o : HostOut) (p : Panel) : Panel := p.modHost fun h => { h with out := h.out ++ [o] }

def countRefusal (f : Nat) (p : Panel) : Panel := p.modFn f fun x => { x with ctr := { x.ctr with refusals := x.ctr.refusals + 1 } }

/-- What lane checks find on a read of a stack by global address (R128): whether all is well. -/
def wordChecks (a n : Nat) (rows : RowChks) (p : Panel) : Bool × Panel :=
  if Ga.space a = 0 then
    let r := scanWords .ga (Ga.site a) (Ga.off a) (badRows p (Ga.site a) (rowWords (Ga.off a) n) rows) p
    (r.1.isNone, r.2)
  else (true, p)

/-- APERTURE_READ of `n` bytes at offset `off` of a slice of BAR 2 (R314); `rows` are the faults of a stack's row words. A scratchpad is 
read in parts, and the host has its answer after the last (R106, R316). -/
def execApertureRead (hp fn slice off n : Nat) (rows : RowErrs) (s : State) : Out :=
  s.run (isHPort hp && isFn fn && decide (slice < 16) && decide (off < 2 ^ 32)) fun s =>
    let refuse (abort : Bool) (s : State) : State := s.onP (answerRead (.readRefused hp fn abort))
    if ¬ arrives s.p hp fn then s
    else if hp ≠ activePort s.p then refuse true s
    else match sliceGa s.p fn slice off with
      | none => refuse false s
      | some a =>
        let b := ⟨false, fnPart fn⟩
        if ¬ (gaAllowed s.p b a n && hubPath s.p (Ga.site a)) then refuse false (s.onP fun p => countRefusal fn (gaRefuse (Ga.site a) p))
        else if Ga.space a = 1 then s.onP (askGeneral (.aperture hp fn) (Ga.site a) (Ga.off a) n none)
        else
          let rows := checkRows s.p s.mem (Ga.site a) rows
          let w := wordChecks a n rows s.p
          let s := { s with p := w.2 }
          if ¬ w.1 then refuse true s
          else match gaBytes rows s a n with
            | some d => s.onP (answerRead (.readData hp fn d))
            | none => refuse false (s.onP fun p => countRefusal fn (gaRefuse (Ga.site a) p))

/-- APERTURE_WRITE (R316); `rows` are the faults of row words that the write covers in part (R126). A running
core's program store turns it away as busy, which the host sees as a refusal (R56). -/
def execApertureWrite (hp fn slice off : Nat) (data : List Byte) (rows : RowErrs) (s : State) : Out :=
  s.run (isHPort hp && isFn fn && decide (slice < 16) && decide (off < 2 ^ 32)) fun s =>
    if ¬ arrives s.p hp fn then s
    else if hp ≠ activePort s.p then s.onP (standbyDrop fn)
    else match sliceGa s.p fn slice off with
      | none => s.onP (dropWrite fn)
      | some a =>
        if ¬ hubPath s.p (Ga.site a) then s.onP fun p => countRefusal fn (gaRefuseWrite a p)
        else
          let r := gaWrite ⟨false, fnPart fn⟩ .posted a data rows s
          if r.1 = .refused ∨ r.1 = .busy then r.2.onP (countRefusal fn) else r.2

/-- A general access is answered (R109, R174, R316, R323). -/
def finishGen (g : GenAcc) (s : State) : State :=
  match g.who with
  | .service req => s.onP (serviceReply g.site req g.status (if g.status = 0 then g.data else []))
  | .aperture hp fn => s.onP (answerRead (if g.status = 0 then .readData hp fn g.data else .readRefused hp fn true))
  | .posted => s
  | .copyIn id => s.onP (blockWritten id g.status)

/-- Answer the general accesses whose last part was performed long enough ago (R104). -/
def finishGens (s : State) : State :=
  let due (g : GenAcc) : Bool := decide (g.left = 0) && decide (g.due ≤ (s.p.getClk g.site).clk)
  each (s.p.gen.filter due) finishGen (s.onP fun p => { p with gen := p.gen.filter fun g => !due g })

/-- Post what every function holds, as far as there is room (R327, R334). -/
def postAllHeld (p : Panel) : Panel :=
  each (List.range 17) (fun f p => each (List.range 16) (fun n p => postHeld f n 4096 p) p) p

/-- A port's link comes up: its PERST_N is released and its hub's block has power (R310, R417). -/
def tryLink (hp : Nat) (p : Panel) : Panel :=
  if ¬ (p.getHPort hp).perst ∧ (p.getBlk (if hp = 0 then 16 else 18)).st = .up then
    let p := p.modHPort hp fun x => { x with up := true }
    if hp = 1 ∧ p.host.taken then postAllHeld p else p
  else p

/-- The highest of the rates or widths that a port supports within a bound; the lowest at least (R309). -/
def trainedTo (l : List Nat) (bound : Nat) : Nat := ((l.filter fun x => decide (x ≤ bound)).getLast?).getD (l.headD 0)

/-- PERST_RELEASE. What the host then sets up in configuration space, which has no row of its own, comes with it: the rate
and width that the link trains to, NumVFs, and whether bus mastering and MSI-X are enabled (R309, R311, R334; log 20). -/
def execPerstRelease (hp rate width : Nat) (flit enumd : Bool) (vfs : Nat) (s : State) : Out :=
  s.runP (isHPort hp) fun p =>
    if ¬ (p.getHPort hp).perst then p
    else
      let p := p.modHPort hp fun x => { x with
        perst := false, rate := trainedTo [25, 50, 80, 160, 320, 640] (min (10 * cfg p 0x9003 0 1) (if flit then rate else min rate 320)),
        width := trainedTo [1, 2, 4, 8, 16] (min width (cfg p 0x9003 0 2)), flit := flit, enumd := enumd, vfs := min vfs 16 }
      tryLink hp p

/-- A function's MSI-X table on a port returns to reset (R331). -/
def dropMsix (hp f : Nat) (p : Panel) : Panel := p.modFn f fun x => { x with msix := Tab.del hp x.msix, pend := Tab.del hp x.pend }

/-- A copy stops where its queue is reset: its completion, ABORTED, finds the queue disabled (R325, R327, R331). -/
def abortCopy (c : Copy) (p : Panel) : Panel := endCopy c 0x15 noBlock (if c.copyIn then 4096 * c.block else 0) p

/-- Stop everything that a function has under way: its copies, its held completions, its queries (R331). -/
def stopFn (hp f : Nat) (p : Panel) : Panel :=
  let p := p.modFn f fun x =>
    { x with
      sq := [], cq := [], ring := queue0, icause := 0, slices := [], reqLen := 0, busy := false, rspLen := 0, req := [], rsp := [],
      unconfirmed := [] }
  let p := each (List.range 16) (dropHeld f) (dropMsix hp f p)
  let p := each (p.host.copies.filter fun c => decide (c.fn = f)) abortCopy (dropScans (fun id => p.host.copies.any fun c => decide (c.fn = f ∧ c.id = id)) p)
  each (liveQueries p) (fun e p =>
    if (p.getQuery e.1).fn = f ∧ (p.getQuery e.1).st ≠ .free then
      let p := p.modQuery e.1 fun x => { x with silent := true }
      if (p.getQuery e.1).posted then settleQuery e.1 (p.modQuery e.1 fun x => { x with written := true }) else endQuery e.1 1 p
    else p) p

/-- End the mailbox session of a function (R351). -/
def endMailbox (f reason : Nat) (p : Panel) : Panel :=
  let p := p.modPwr fun w => { w with
    writes := w.writes.map fun x => match x.job.reply with
      | some r => if r.1 = 16 + f then { x with job := { x.job with reply := none } } else x
      | none => x }
  let p := p.modSec fun c => { c with imgWrite := c.imgWrite.filter fun w => decide (w.slot ≠ 16 + f) }
  p.modOd fun o => { o with
    ended := ((o.sessions.filter fun x => decide (x.slot = 16 + f)).map fun x => (x.id, reason)) ++ o.ended,
    sessions := o.sessions.filter fun x => decide (x.slot ≠ 16 + f) }

/-- Why a session ended: the reasons of class 0x07 (R342); a reset or FLR of its function closes it (log 21). -/
def endedIdle : Nat := 1
def endedTakeover : Nat := 2
def endedClose : Nat := 3

/-- A function level reset of one function on a port (R331). The queues, the mailbox and the slices are the active port's; the
standby port's function has its MSI-X table. -/
def flrOne (hp f : Nat) (p : Panel) : Panel :=
  raise 0x0909 0xFF (keyFn f) none (if hp = activePort p then endMailbox f endedClose (stopFn hp f p) else dropMsix hp f p)

/-- A function level reset: the PF's clears VF Enable and resets every VF of the port too (R331). -/
def flr (hp f : Nat) (p : Panel) : Panel :=
  if f = 0 then (each (List.range ((p.getHPort hp).vfs + 1)) (flrOne hp) p).modHPort hp fun x => { x with vfs := 0 } else flrOne hp f p

/-- FLR (R331). -/
def execFlr (hp fn : Nat) (s : State) : Out :=
  s.runP (isHPort hp && isFn fn) fun p => if arrives p hp fn then flr hp fn p else p

/-- PERST_ASSERT: the port and its functions are reset (R310). -/
def execPerstAssert (hp : Nat) (s : State) : Out :=
  s.runP (isHPort hp) fun p => (flr hp 0 p).modHPort hp fun _ => port0

/-- HOST_LINK_DOWN (R310). -/
def execHostLinkDown (hp : Nat) (s : State) : Out :=
  s.runP (isHPort hp) fun p =>
    if (p.getHPort hp).up then
      let p := p.modHPort hp fun x => { x with up := false }
      if (p.getHPort hp).perst then p
      else raise 0x0908 (if hp = 0 then 0x00 else 0xDD) (if hp = 0 then 0x00 else 0xDD) none p
    else p

/-- Write an MSI-X vector of a port; unmasking raises what is pending (R312, R328). -/
def writeMsix (hp f off : Nat) (b : List Byte) (p : Panel) : Panel :=
  let v := off / 16
  let x := BitVec.ofNat 128 (splice (msixVec p f hp v).toNat (off % 16) b.length (leNat b))
  let p := p.modFn f fun y => { y with msix := Tab.set hp (Tab.set v x (Tab.get [] y.msix hp)) y.msix }
  if ¬ bit x 96 ∧ (Tab.get 0 (p.getFn f).pend hp).testBit v then
    raiseVector f hp v (p.modFn f fun y => { y with pend := Tab.upd 0 hp (fun m => m - 2 ^ v) y.pend })
  else p

/-- Write the queue registers of BAR 0: BASE, the control word, CNT and TIME (R317). -/
def writeQueueReg (f q off : Nat) (b : List Byte) (p : Panel) : Panel :=
  let y := getQ p f q
  let n := b.length
  if off < 8 then
    if y.st = .disabled then modQ f q (fun y => { y with base := splice y.base off n (leNat b) }) p else dropWrite f p
  else if off < 16 then
    let old := y.log2n * 2 ^ 16 + (if q < 16 then y.cq * 2 ^ 8 else y.vec * 2 ^ 8) + (if y.en then 1 else 0)
    writeQueueCtl f q (BitVec.ofNat 64 (splice old (off - 8) n (leNat b))) p
  else if off < 24 then p
  else if q < 16 then p
  else
    let x := BitVec.ofNat 64 (splice (y.cnt * 2 ^ 32 + y.time) (off - 24) n (leNat b))
    modQ f q (fun y => { y with cnt := fld x 47 32, time := fld x 31 0 }) p

/-- Write BAR 0 at an offset (R312): `req` are the mailbox request buffer's bytes. -/
def writeBar0 (hp f off : Nat) (b : List Byte) (p : Panel) : Panel :=
  let n := b.length
  if ¬ ((n = 4 ∨ n = 8) ∧ off % n = 0 ∧ off < 0x400000) then dropWrite f p
  else if off / 8 = 0x21 then
    let m := leNat b * 2 ^ (8 * (off % 8))
    p.modFn f fun y => { y with icause := ofBits ((bitsSet 4 y.icause).filter fun i => !m.testBit i) }
  else if 0x1000 ≤ off ∧ off < 0x1100 then
    let i := (off - 0x1000) / 16
    if (off - 0x1000) % 16 < 8 then
      writeSlice f i (BitVec.ofNat 64 (splice (Tab.get 0 (p.getFn f).slices i).toNat (off % 16) n (leNat b))) p
    else dropWrite f p
  else if 0x2000 ≤ off ∧ off < 0x2420 then writeQueueReg f ((off - 0x2000) / 32) (off % 32) b p
  else if 0x3000 ≤ off ∧ off < 0x3084 then
    let p := ringBell f ((off - 0x3000) / 4) (BitVec.ofNat 32 (leNat (b.take 4))) p
    if n = 4 then p
    else if off = 0x3080 then dropWrite f p
    else ringBell f ((off - 0x3000) / 4 + 1) (BitVec.ofNat 32 (leNat (b.drop 4))) p
  else if 0x4000 ≤ off ∧ off < 0x4008 then
    p.modFn f fun y => { y with reqLen := splice y.reqLen (off - 0x4000) n (leNat b) % 2 ^ 17 }
  else if 0x10000 ≤ off ∧ off < 0x20000 then
    p.modFn f fun y =>
      let r := y.req ++ List.replicate (0x10000 - y.req.length) 0
      { y with req := r.take (off - 0x10000) ++ b ++ r.drop (off - 0x10000 + n) }
  else if 0x30000 ≤ off ∧ off < 0x30200 then writeMsix hp f (off - 0x30000) b p
  else dropWrite f p

end Sys2Proof.Machine
end

