-- ==== Sys2Proof/Machine/Quot.lean ====
section
/-! DEFINITION. Exact quotients for factors, resistances and forecasts (R391, R406, R408): arithmetic, the exponential, and
binary32 in and out. -/

namespace Sys2Proof.Machine

/-- A quotient in lowest terms with a positive denominator; over 0 it is 0. -/
def Q.mk' (a b : Int) : Q :=
  let s : Int := if b < 0 then -1 else 1
  let g := Nat.gcd a.natAbs b.natAbs
  if g = 0 then ⟨0, 1⟩ else ⟨s * a / g, b.natAbs / g⟩

def qAdd (x y : Q) : Q := Q.mk' (x.num * y.den + y.num * x.den) (x.den * y.den : Nat)
def qSub (x y : Q) : Q := Q.mk' (x.num * y.den - y.num * x.den) (x.den * y.den : Nat)
def qMul (x y : Q) : Q := Q.mk' (x.num * y.num) (x.den * y.den : Nat)
/-- `x / y`; the caller sees that `y` is not 0. -/
def qDiv (x y : Q) : Q := Q.mk' (x.num * y.den) (x.den * y.num)
def qOf (n : Int) : Q := ⟨n, 1⟩
def qLe (x y : Q) : Bool := decide (x.num * y.den ≤ y.num * x.den)
def qLt (x y : Q) : Bool := decide (x.num * y.den < y.num * x.den)
def qAbs (x : Q) : Q := ⟨x.num.natAbs, x.den⟩
/-- Rounded down. -/
def qFloor (x : Q) : Int := x.num / x.den

/-- The sum of x^i / i! for i from `i` on, `fuel` terms, given the term x^i / i!, in units of 2^-96. -/
def expTerms (num den : Nat) : Nat → Nat → Nat → Nat
  | 0, _, _ => 0
  | fuel + 1, i, t => t + expTerms num den fuel (i + 1) (t * num / (den * (i + 1)))

/-- 1 - e^-x for a positive quotient x of at most 64, to within 2^-64; log 28. -/
def decayed (x : Q) : Q :=
  let e := expTerms x.num.toNat x.den 256 0 (2 ^ 96)
  Q.mk' ((e : Int) - 2 ^ 96) e

/-- The value of a finite binary32 pattern. -/
def ofF32 (b : Nat) : Q :=
  let e := nfld b 30 23
  let m := nfld b 22 0 + (if e = 0 then 0 else 2 ^ 23)
  let k := max 1 e
  let n : Int := if b.testBit 31 then -(m : Int) else m
  if 150 ≤ k then Q.mk' (n * 2 ^ (k - 150)) 1 else Q.mk' n (2 ^ (150 - k) : Nat)

/-- The binary32 nearest to a quotient, ties to even (R341). -/
def toF32 (x : Q) : Nat :=
  let a := x.num.natAbs
  let sign := if x.num < 0 then 2 ^ 31 else 0
  if a = 0 then 0
  else
    let l : Int := (Nat.log2 a : Int) - Nat.log2 x.den
    let l := if a * 2 ^ (-l).toNat < x.den * 2 ^ l.toNat then l - 1 else l
    let e := if l < -126 then -126 else l
    let s := 23 - e
    let n := a * 2 ^ s.toNat
    let d := x.den * 2 ^ (-s).toNat
    let f := n / d
    let r := n % d
    let f := if d < 2 * r ∨ (2 * r = d ∧ f % 2 = 1) then f + 1 else f
    let biased := (e + 126).toNat * 2 ^ 23 + f
    sign + min biased (255 * 2 ^ 23)

end Sys2Proof.Machine
end

