-- ==== Sys2Proof/Machine/PowerBase.lean ====
section
/-! DEFINITION. Power blocks: their dies, factory factors, VMIN frames, switching on and off, and collapse (R379-R388). -/

namespace Sys2Proof.Machine

/-- The dies of a block. -/
def blockDies (b : Nat) : List Nat := allDies.filter fun s => decide (blockOf s = b)
/-- Is a block one that the variant fuses (R432)? -/
def blkFused (p : Panel) (b : Nat) : Bool := (blkFuses p.variant).testBit b
/-- The blocks with power. -/
def liveBlocks (p : Panel) : List Nat := (List.range 20).filter fun b => decide ((p.getBlk b).st = .up)

/-- Field n of a block's factors as bring-up put them in force (R433, R435). -/
def blkFactor (p : Panel) (b n : Nat) : Q :=
  match Tab.find? p.boot.calib.inForce (256 * 0xC003 + b) with
  | some x => ofF32 (fieldOf p.variant 0xC003 b n x)
  | none => match odRow p.variant 0xC003 b with
    | some r => ofF32 (fieldOf p.variant 0xC003 b n (r.dflt p.variant))
    | none => ⟨0, 1⟩

/-- The calibration factor in force: joules per count (R391). -/
def calFactor (p : Panel) (b : Nat) : Q := if (p.getBlk b).calOk then (p.getBlk b).factor else blkFactor p b 1
/-- The thermal resistances in force (R406). -/
def rthJOf (p : Panel) (b : Nat) : Q := if (p.getBlk b).estJ then (p.getBlk b).rthJ else blkFactor p b 2
def rthDOf (p : Panel) (b : Nat) : Q := if (p.getBlk b).estD then (p.getBlk b).rthD else blkFactor p b 3

/-- T_coolant in 0.01 °C (R403). -/
def coolant (p : Panel) : Int := if p.pwr.inletOk then p.pwr.inlet else 4000

/-- A limit less coolant and guard, over a resistance, in whole watts; zero when negative (R406). Over a resistance of 0 the
spec states no result: a free value (log 4). -/
def limitW (limit : Int) (cool : Q) (rth : Q) (p : Panel) : Nat × Panel :=
  if rth.num = 0 then p.freeNat
  else ((qFloor (qDiv (qSub (qOf (limit - p.pwr.guard)) cool) rth)).toNat, p)

/-- Set a block's thermal cap from its resistances and a mean coolant temperature (R406). -/
def setCap (b : Nat) (cool : Q) (p : Panel) : Panel :=
  let j := limitW 105 cool (rthJOf p b) p
  let d := if b < 16 then limitW 95 cool (rthDOf p b) j.2 else j
  d.2.modBlk b fun x => { x with cap := min j.1 d.1 }

/-- CRC-8 with polynomial 0x07 over bits taken in the order given (R384). -/
def crc8 (bits : List Bool) : Nat :=
  bits.foldl (fun c b =>
    let top := (c / 128 % 2 = 1) ≠ (b = true)
    let c := c * 2 % 256
    if top then c ^^^ 7 else c) 0

/-- A VMIN frame: its start bit is bit 31 of the word kept here (R384). -/
def vminFrame (seq b vcode : Nat) (coll valid : Bool) : BitVec 32 :=
  let x := seq % 16 * 2 ^ 27 + b * 2 ^ 22 + vcode % 4096 * 2 ^ 10 + (if coll then 2 ^ 9 else 0) + (if valid then 2 ^ 8 else 0)
  BitVec.ofNat 32 (2 ^ 31 + x + crc8 ((List.range 23).map fun i => x.testBit (8 + i)))

/-- Can a die drive its block's line: powered, not FAILED, not held in a die reset (R384)? -/
def canDrive (p : Panel) (s : Nat) : Bool :=
  let st := (p.getBlk (blockOf s)).st
  (decide (st = .enabling) || decide (st = .up)) && !fusedDie p.variant s && decide (p.ust s ≠ .failed) && decide (p.ust s ≠ .absent) && (Tab.find? p.rst s).isNone

/-- The die that drives a block's line (R384). -/
def driverOf (p : Panel) (b : Nat) : Option Nat :=
  if b < 16 then
    (if canDrive p (hamperOf b) then some (hamperOf b) else ((blockDies b).filter fun s => isCompute s && canDrive p s).head?)
  else
    ((edgeDies.filter fun s => decide (blockOf s = b)) ++ (if b = 16 then [0x00] else if b = 18 then [0xDD] else [])).find? (canDrive p)

/-- A die loses its power. -/
def dieOff (s : Nat) (p : Panel) : Panel :=
  (p.modBoot fun x => { x with dieUp := Tab.set s .off x.dieUp }).modClk s fun c => { c with locked := false, left := 0, armed := none }

/-- A die reset, or a probe's, relocks the die's PLL and releases a trip where its junctions read 85 °C or less; CK_CORE runs again (R369, R405). -/
def restartClock (s : Nat) (p : Panel) : Panel :=
  p.modClk s fun c =>
    let hot := c.tripped && (match c.junction with | some t => decide (850 < t) | none => true)
    { c with locked := true, tripped := hot, left := if c.left = 0 ∧ hot = false then stepN c.step else c.left }

/-- OPERATION = 0x00 is written to a block's group: its dies lose power, and with them a hub's PCI Express port. -/
def blockOff (st : BlkSt) (b : Nat) (p : Panel) : Panel :=
  let p := each (blockDies b) dieOff (p.modBlk b fun x => { x with st := st, vmin := false })
  if b = 16 then p.modHPort 0 fun x => { x with up := false }
  else if b = 18 then p.modHPort 1 fun x => { x with up := false } else p

/-- The contents of a stack are lost with its power (R387). -/
def stackLost (s : Nat) (p : Panel) : Panel :=
  if isCompute s then p.modStk s fun k => { k with tags := [], keys := [], reqs := [] } else p

/-- Directory entries homed on a site become LOST (R264, R387). -/
def loseShards (s : Nat) (p : Panel) : Panel :=
  each (p.ret.dir.filter fun e => decide (DirE.home e.2.bits = s)) (fun e p => loseEntry e.1 p) p

/-- Freeze the active regions of the partitions that declared a transit through a die (R387, R503). -/
def freezeTransits (cause s : Nat) (p : Panel) : Panel :=
  let parts := ((p.getRtr s).transit.filter fun e => bit e.2 31).map fun e => fld e.2 27 24
  each (p.reg.filter fun e => parts.contains e.2.part) (fun e => triggerFreeze e.1 cause) p

/-- A block has collapsed (R387, R388): the fence, the freezes, the state, the event, and the group off. Where the active
hub's own block falls, the other hub declares it and takes over. -/
def collapse (b : Nat) (p : Panel) : Panel :=
  if (p.getBlk b).st ≠ .up then p
  else
    let own := decide (blockOf p.activeHub = b)
    let p := if own then p.modBook fun k => { k with takeDue := k.takeDue || (decide (k.active = 0) && !k.standbyLost && hubRuns p 0xDD) } else p
    let from_ := if own then p.standbyHub else p.activeHub
    let p := each [0xF0, 0xF1, 0xF2] (fun g => fromHub from_ 2 g (.fence 3 b 0 0x0101)) p
    let p := each (blockDies b) (freezeTransits 0x0101) p
    let p := p.modBlk b fun x => { x with collapses := x.collapses + 1, collapsedAt := some p.now }
    let p := moveUnit (keyBlock b) .failed 0x0101 p
    let p := raise 0x0101 0xFF (keyBlock b) (some (BitVec.ofNat 64 b)) p
    let p := each (blockDies b) (fun s p => loseShards s (stackLost s p)) p
    let p := blockOff .failed b p
    if b = 18 then loseStandby p else p

end Sys2Proof.Machine
end

