-- ==== Sys2Proof/Machine/PowerOps.lean ====
section
/-! DEFINITION. Power delivery and the energy ledger: VMIN frames, PMBus, blocks on and off, the ledger's windows, the
governor, standby power (R379-R396, R553, R561). -/

namespace Sys2Proof.Machine

/-- What VIR outside its range does to a block that is up, given the window's minimum code (R379). -/
def judgeVir (b vcode : Nat) (p : Panel) : Panel :=
  if (p.getBlk b).st ≠ .up then p
  else if vcode < 2400 then collapse b p
  else
    let out := decide (vcode < 2600) || decide (3300 < vcode)
    let x := p.getBlk b
    let low := if out then x.lowFor + 100 else 0
    let high := if 3400 < vcode then x.highFor + 100 else 0
    let p := p.modBlk b fun x => { x with lowFor := low, highFor := high }
    let p := if 1000 < low ∧ low ≤ 1100 then raise 0x0104 0xFF (keyBlock b) (some (BitVec.ofNat 64 b)) p else p
    if 1000 ≤ high then collapse b p else p

/-- VMIN_FRAME of a block: the minimum VIR code of the window, as the block's sensors read it. With no die to drive it the
line stays high while the hub moves the duty (R384). -/
def execVminFrame (blk vcode : Nat) (s : State) : Out :=
  s.runP (isBlock blk) fun p =>
    let x := p.getBlk blk
    match x.driver with
    | none => p.modBlk blk fun x => { x with driver := driverOf p blk, vmin := false }
    | some d =>
      if ¬ canDrive p d then p.modBlk blk fun x => { x with driver := driverOf p blk, vmin := false }
      else
        let valid := (blockDies blk).any (canDrive p)
        let p := p.modBlk blk fun x => { x with
          vcode := vcode % 4096, vmin := valid, frames := x.frames + 1,
          frame := vminFrame x.frames blk vcode (decide (vcode % 4096 < 2400)) valid }
        judgeVir blk (vcode % 4096) p

/-- BLOCK_COLLAPSE at a sense tap (R387). -/
def execBlockCollapse (blk : Nat) (s : State) : Out := s.runP (isBlock blk) (collapse blk)

/-- FUSE_NOT_TRIPPED: 1 ms after a collapse the hub reads the group's current, in 0.1 A, against 10 % of its rating (R387). -/
def execFuseNotTripped (blk iout : Nat) (s : State) : Out :=
  s.runP (isBlock blk) fun p =>
    match (p.getBlk blk).collapsedAt with
    | some t =>
      if t + 100000 ≤ p.now then
        let p := p.modBlk blk fun x => { x with iout := iout }
        if (if blk < 16 then 900 else 200) < iout then raise 0x0103 0xFF (keyBlock blk) (some (BitVec.ofNat 64 blk)) p else p
      else p
    | none => p

/-- A fault of a group: at most one event per group per second (R385). -/
def pmFault (b : Nat) (p : Panel) : Panel :=
  raiseAs .second 0x0105 0xFF (keyBlock b) (some (BitVec.ofNat 64 b)) (p.modBlk b fun x => { x with faults := x.faults + 1 })

/-- Take a group's poll (R385, R391). Its VOUT times its IOUT over 10 ms is its energy in µJ. -/
def takePoll (b : Nat) (a : Option PmRead) (p : Panel) : Panel :=
  match a with
  | none => pmFault b (p.modBlk b fun x => { x with badPoll := true })
  | some ⟨v, i, t, pec, fault⟩ =>
    if ¬ pec then
      let p := p.modBlk b fun x => { x with pec := x.pec + 1, badPoll := true }
      if 2 ≤ (p.getBlk b).pec then pmFault b p else p
    else
      let p := p.modBlk b fun x => { x with
        vout := v, iout := i, temp := t, pec := 0, e10 := x.e10 + v * i, eSec := x.eSec + v * i }
      if fault then pmFault b p else p

/-- PMBUS_POLL of every powered group (R385): what each answers; a group not listed is silent. -/
def execPmbusPoll (l : List (Nat × Option PmRead)) (s : State) : Out :=
  s.runP true fun p =>
    if ¬ periphOn p 3 then p
    else each (liveBlocks p) (fun b => takePoll b ((List.find? (fun e : Nat × Option PmRead => decide (e.1 = b)) l).bind (·.2))) p

/-- PMB_ALERT: the hub reads STATUS_WORD of every powered group (R553): `bad` lists those that do not answer or report a
fault. -/
def execPmbAlert (bad : List Nat) (s : State) : Out :=
  s.runP true fun p => if periphOn p 3 then each ((liveBlocks p).filter bad.contains) pmFault p else p

/-- CALIBRATION_FACTOR_UPDATE of a block: its energy over its dies' counts of the same 10 ms; the factory factor where PMBus
failed (R391). Over no counts the spec states no factor: a free value. -/
def execCalibrationFactorUpdate (blk : Nat) (s : State) : Out :=
  s.runP (isBlock blk) fun p =>
    let x := p.getBlk blk
    if x.st ≠ .up then p
    else if x.badPoll then p.modBlk blk fun x => { x with badPoll := false, e10 := 0, c10 := 0, calOk := false }
    else
      let f : Q × Panel := if x.c10 = 0 then (⟨p.freeNat.1, 1⟩, p.freeNat.2) else (Q.mk' x.e10 (x.c10 * 1000000 : Nat), p)
      f.2.modBlk blk fun x => { x with e10 := 0, c10 := 0, calOk := true, factor := f.1 }

/-- The order in which blocks are enabled (R415). -/
def blockOrder : List Nat := [16, 18, 17, 19] ++ List.range 16

/-- Does the coolant let compute blocks be enabled (R419)? -/
def coolantOk (p : Panel) : Bool := p.pwr.inletRead && p.pwr.inletOk && decide (p.pwr.inlet ≤ 4500)

/-- Enable block `b`: VOUT_COMMAND and OPERATION = 0x80 are written at tick `t` (R386). -/
def enableBlock (b t : Nat) (p : Panel) : Panel :=
  let p := p.modBlk b fun x => { x with st := .enabling, since := t }
  p.modBlk b fun x => { x with driver := driverOf p b }

/-- Enable the next block in order from tick `t`, or wait for the coolant (R386, R415, R419). -/
def nextBlock (t : Nat) (p : Panel) : Panel :=
  match blockOrder.find? fun b => !blkFused p b && decide ((p.getBlk b).st = .off) with
  | none => p
  | some b =>
    if b < 16 ∧ coolantOk p = false then
      let q := p.modBoot fun x => { x with coolFrom := some (x.coolFrom.getD p.now), coolRaised := true }
      if p.boot.coolRaised then q else raise 0x0304 p.activeHub keyPanel none q
    else enableBlock b t p

/-- BLOCK_POWER_GOOD: STATUS_WORD shows power good, and VMIN frames are VALID within 25 mV of the setpoint; the dies start,
and the next block follows 1 ms later (R386, R417). -/
def execBlockPowerGood (blk : Nat) (s : State) : Out :=
  s.runP (isBlock blk) fun p =>
    let x := p.getBlk blk
    let near := decide (2 * p.pwr.setpoint ≤ x.vcode + 50) && decide (x.vcode ≤ 2 * p.pwr.setpoint + 50)
    if ¬ (x.st = .enabling ∧ x.since ≤ p.now ∧ x.vmin ∧ near = true) then p
    else
      let p := p.modBlk blk fun x => { x with st := .up, since := p.now, lowFor := 0, highFor := 0 }
      let p := each ((blockDies blk).filter fun s => !fusedDie p.variant s && (decide (fstate p s = 0) || decide (fstate p s = 4) || decide (fstate p s = 6))) (fun s p =>
        p.modBoot fun y => { y with dieUp := if Tab.get .off y.dieUp s = .off then Tab.set s .released y.dieUp else y.dieUp }) p
      let p := if usable p (keyBlock blk) then p else putState (keyBlock blk) .ready 0 true p
      let p := setCap blk (Q.mk' (coolant p) 100) p
      nextBlock (p.now + 100000) (tryLink 1 (tryLink 0 p))

/-- BLOCK_ENABLE_TIMEOUT, 20 ms after the enable (R386). -/
def execBlockEnableTimeout (blk : Nat) (s : State) : Out :=
  s.runP (isBlock blk) fun p =>
    let x := p.getBlk blk
    if ¬ (x.st = .enabling ∧ x.since + 2000000 ≤ p.now) then p
    else
      let p := moveUnit (keyBlock blk) .failed 0x0102 p
      let p := raise 0x0102 0xFF (keyBlock blk) (some (BitVec.ofNat 64 blk)) p
      nextBlock p.now (blockOff .failed blk p)

/-- Energy of a count of a die's activity in whole µJ (R391). -/
def countUJ (p : Panel) (s n : Nat) : Nat := (qFloor (qMul (calFactor p (blockOf s)) (qOf (n * 1000000)))).toNat

/-- Charge the previous window: per die, per block, in common and for the panel (R391). -/
def chargeWindow (acts : List (Nat × Nat)) (p : Panel) : Panel :=
  let ujs := (acts.filter fun e => isDie e.1).map fun e => (e.1, countUJ p e.1 e.2)
  let total := (ujs.map (·.2)).sum
  let common := ((ujs.filter fun e => (p.partOf e.1).isNone).map (·.2)).sum
  let p := p.modPwr fun w => { w with
    dieUJ := each ujs (fun e t => Tab.upd 0 e.1 (· + e.2) t) [], common := common, panelW := total / 1000, total := w.total + total }
  let p := each (acts.filter fun e => isDie e.1) (fun e p => p.modBlk (blockOf e.1) fun x => { x with c10 := x.c10 + e.2 }) p
  let p := each (accounts p) (fun n p => p.modAcct n fun a => { a with
    measured := ((ujs.filter fun e => decide (p.partOf e.1 = some n)).map (·.2)).sum }) p
  each (liveBlocks p) (fun b p => p.modBlk b fun x => { x with
    power := ((ujs.filter fun e => decide (blockOf e.1 = b)).map (·.2)).sum / 1000 }) p

/-- The settings that come into force at a window start (R393, R407, R412). -/
def newSettings (p : Panel) : Panel :=
  let cap := cfg p 0x3002 0 1
  let thermal := ((liveBlocks p).map fun b => (p.getBlk b).cap).sum
  let governs := decide (thermal < cap)
  let was := p.pwr.thermalGoverns
  let p := p.modPwr fun w => { w with
    cap := cap, thermalCap := thermal, effCap := min cap thermal, thermalGoverns := governs, depthN := cfg p 0x3004 0 1,
    share := (List.range 16).map (fun n => (n, cfg p 0x3005 n 1)), guard := cfg p 0x3013 0 1, holdLimit := cfg p 0x3013 0 2 }
  if governs && !was then raise 0x0308 p.activeHub keyPanel none p else p

/-- Step 1: corrections (R390). -/
def correctAll (p : Panel) : Panel :=
  each (accounts p) (fun n p => p.modAcct n fun a => { a with balance := a.balance + a.debits - a.measured }) p

/-- Step 2: the refill after overhead (R390). -/
def refillAll (p : Panel) : Panel :=
  let left := refill p - p.pwr.common
  let sum := max 1 (shareSum p)
  each (accounts p) (fun n p => p.modAcct n fun a => { a with balance := a.balance + (left * shareOf p n / sum : Nat) }) p

/-- Step 3: balances above their depth give to a pool, which goes once to those below (R390). -/
def clampAll (p : Panel) : Panel :=
  let above (n : Nat) : Nat := ((p.getAcct n).balance - depthOf p n).toNat
  let pool := ((accounts p).map above).sum
  let below := (accounts p).filter fun n => decide ((p.getAcct n).balance < depthOf p n)
  let sum := max 1 ((below.map (shareOf p)).sum)
  let q := each (accounts p) (fun n q => q.modAcct n fun a => { a with balance := min a.balance (depthOf p n) }) p
  each below (fun n q => q.modAcct n fun a => { a with
    balance := min (a.balance + (pool * shareOf p n / sum : Nat)) (depthOf p n) }) q

/-- The ledger at a window start: corrections, refill and clamp; after a takeover the clamp alone (R390, R393). -/
def ledgerWindow (p : Panel) : Panel :=
  let p := if p.pwr.skip then p.modPwr fun w => { w with skip := false } else refillAll (correctAll p)
  each (accounts p) (fun n p => p.modAcct n fun a => { a with lastDebits := a.debits, debits := 0 }) (clampAll p)

/-- A condition's count of consecutive windows. -/
def inRow (c : Bool) (n : Nat) : Nat := if c then n + 1 else 0

/-- Lower the thermal ceiling by one step, not below the lowest, under a plan where the panel runs above it (R409). -/
def lowerCeiling (p : Panel) : Panel :=
  let c := max (cfg p 0x2011 0 1) (p.pwr.ceiling - 1)
  let p := p.modPwr fun w => { w with ceiling := c }
  if c < panelStep p then panelPlan c p else p

/-- The thermal ceiling at a window start: up after 64 windows with no hold; down where a block has exceeded its own cap by
more than 5 % for four windows (R407, R409). -/
def ceilingWindow (p : Panel) : Panel :=
  let held := (liveBlocks p).any (blockHeld p)
  let n := inRow (!held) p.pwr.freeWindows
  let up := decide (64 ≤ n) && decide (p.pwr.ceiling < cfg p 0x2011 0 3)
  let p := p.modPwr fun w => { w with freeWindows := if up then 0 else n, ceiling := min (if up then w.ceiling + 1 else w.ceiling) (cfg p 0x2011 0 3) }
  each (liveBlocks p) (fun b p =>
    let x := p.getBlk b
    let n := inRow (decide (x.cap * 105 < x.power * 100)) x.above
    let p := p.modBlk b fun x => { x with above := if 4 ≤ n then 0 else n }
    if 4 ≤ n then lowerCeiling p else p) p

/-- The governor's counts of windows (R392). -/
def governorCounts (p : Panel) : Panel :=
  let bal := ((accounts p).map fun n => (p.getAcct n).balance).sum
  let depth := ((accounts p).map (depthOf p)).sum
  let w := p.pwr.panelW * 100
  let cap := p.pwr.effCap
  p.modPwr fun x => { x with
    atDepth := inRow (decide (9 * (depth : Int) ≤ 10 * bal) && decide (w ≤ cap * 85)) x.atDepth,
    over95 := inRow (decide (cap * 95 < w)) x.over95, overCap := inRow (decide (cap * 105 < w)) x.overCap,
    under90 := inRow (decide (w ≤ cap * 90)) x.under90 }

/-- Which row of R392 holds: 1 the cap exceeded, 2 back to nominal, 3 the highest step, 4 one step up, 0 none. -/
def governorRow (p : Panel) : Nat :=
  let f := panelStep p
  let bal := ((accounts p).map fun n => (p.getAcct n).balance).sum
  let depth := ((accounts p).map (depthOf p)).sum
  let nominal := cfg p 0x2011 0 2
  let highest := cfg p 0x2011 0 3
  if 4 ≤ p.pwr.overCap then 1
  else if f = highest ∧ nominal < highest ∧ (2 * bal < (depth : Int) ∨ 2 ≤ p.pwr.over95) then 2
  else if 16 ≤ p.pwr.atDepth ∧ cfg p 0x3004 0 2 = 1 ∧ ((liveBlocks p).any (blockHeld p)) = false ∧ p.clk.use ≠ 2 then 3
  else if f < nominal ∧ 64 ≤ p.pwr.under90 then 4
  else 0

/-- The governor chooses the step, within the step limits and the thermal ceiling; a change is raised and planned, and a
waiting spread change is planned at the step in force (R375, R392, R409). -/
def govern (p : Panel) : Panel :=
  let p := governorCounts p
  let f := panelStep p
  let row := governorRow p
  let want := if row = 1 then max (f - 1) (cfg p 0x2011 0 1) else if row = 2 then cfg p 0x2011 0 2 else if row = 3 then cfg p 0x2011 0 3
    else if row = 4 then f + 1 else f
  let p := if row = 1 then
      let p := p.modPwr fun w => { w with overCap := 0 }
      if want < f then raise 0x010A p.activeHub keyPanel none (p.modPwr fun w => { w with capDowns := w.capDowns + 1 }) else p
    else if row = 4 then p.modPwr fun w => { w with under90 := 0 } else p
  let want := boundStep p (min want p.pwr.ceiling)
  let p := p.modPwr fun w => { w with chosen := want }
  if want ≠ f then
    panelPlan want (raise 0x010B p.activeHub keyPanel (some (BitVec.ofNat 64 want)) (p.modPwr fun w => { w with changes := w.changes + 1 }))
  else if p.clk.spreadDue then panelPlan f p
  else p

/-- A setpoint change is written to the groups between windows while no region is ACTIVE (R385). -/
def putSetpoint (p : Panel) : Panel :=
  if p.reg.any fun e => decide (e.2.phase = .active) then p else p.modPwr fun w => { w with setpoint := cfg p 0x3003 0 1 }

/-- LEDGER_WINDOW_START: the dies' activity counts of the window that ended (R389-R393, R407, R409). -/
def execLedgerWindowStart (acts : List (Nat × Nat)) (s : State) : Out :=
  s.runP true fun p =>
    let p := ceilingWindow (ledgerWindow (newSettings (chargeWindow acts p)))
    putSetpoint (if p.boot.ready then govern p else p)

/-- VSB12_LOW: the rail reads below 10.8 V (R379, R394). -/
def execVsb12Low (x : RailRead) (s : State) : Out :=
  s.runP true fun p =>
    let old := p.pwr.vsb12
    let p := p.modPwr fun w => { w with bank := x.bank, vsb12 := x.vsb12 }
    if x.vsb12 < 10800 ∧ 10800 ≤ old then raise 0x0106 p.activeHub keyPanel (some (BitVec.ofNat 64 x.vsb12)) p else p

/-- VSB12_LOSS: below 9.0 V the hub turns every group off and sheds what it can; a commit in progress completes (R379,
R561). -/
def execVsb12Loss (x : RailRead) (s : State) : Out :=
  s.runP true fun p =>
    let p := p.modPwr fun w => { w with bank := x.bank }
    if x.vsb12 < 9000 then
      let p := p.modPwr fun w => { w with vsb12 := x.vsb12, holdOnly := true }
      each ((List.range 20).filter fun b => decide ((p.getBlk b).st = .up ∨ (p.getBlk b).st = .enabling)) (blockOff .off) p
    else p

end Sys2Proof.Machine
end

