-- ==== Sys2Proof/Machine/Thermal.lean ====
section
/-! DEFINITION. Thermal behaviour: hardware step-downs and trips, reports, resistances, forecasts and holds, the coolant
(R400-R410, R419). Temperatures are tenths of a degree, the coolant's hundredths. -/

namespace Sys2Proof.Machine

/-- An event of any die: a guest, which is no control node, is spoken for by the hub that it is linked to. -/
def anyDieRaise (s ev : Nat) (d : Dat) (p : Panel) : Panel := if isNode s then dieRaise s 0 s ev d p else raise ev s s d p

/-- TJ_LIMIT: the die's hottest sensor reads Tj max: an emergency step-down, as R373 has it; at F0 nothing (R404). -/
def execTjLimit (die : Nat) (s : State) : Out :=
  s.runP (isDie die) fun p =>
    let c := p.getClk die
    if c.step = 0 ∨ ¬ c.locked ∨ c.tripped then p
    else
      let p := p.modClk die fun c => { c with
        step := c.step - 1, emerg := c.emerg + 1, emergAt := some (p.now, c.step - 1), asked := some (c.step - 1), tjDowns := c.tjDowns + 1 }
      anyDieRaise die 0x0302 none (anyDieRaise die 0x0204 none p)

/-- THERMAL_TRIP: 115 °C for 1 µs; CK_CORE stops at the end of its cycle (R405). -/
def execThermalTrip (die : Nat) (s : State) : Out :=
  s.runP (isDie die) fun p =>
    if (p.getClk die).tripped then p
    else
      let p := p.modClk die fun c => { c with tripped := true, trips := c.trips + 1 }
      let p := p.modPwr fun w => { w with trips := w.trips + 1 }
      let p := anyDieRaise die 0x0303 none p
      if isNode die then p else pendEvidence die 0x0303 p

/-- The readings that count: within -20 °C to 150 °C, and within 20 °C of some other sensor of the die (R401). A single
sensor has no other to differ from. -/
def goodReadings (l : List Int) : List Int :=
  let e := (List.range l.length).zip l
  (e.filter fun x =>
    decide (-200 ≤ x.2 ∧ x.2 ≤ 1500) && (decide (l.length ≤ 1) || e.any fun y => decide (y.1 ≠ x.1) && decide ((y.2 - x.2).natAbs ≤ 200))).map (·.2)

def hottest : List Int → Option Int
  | [] => none
  | x :: t => match hottest t with | none => some x | some y => some (max x y)

/-- THERMAL_REPORT of a die: its junction sensors and its DRAM sensors (R401). A die with every sensor excluded is evidence,
and its temperature is taken as Tj max. -/
def execThermalReport (die : Nat) (junction dram : List Int) (s : State) : Out :=
  s.runP (isDie die) fun p =>
    let j := goodReadings junction
    let d := goodReadings dram
    let p := p.modClk die fun c => { c with
      junction := some ((hottest j).getD 1050), dram := hottest d,
      excluded := junction.length + dram.length - j.length - d.length }
    if j.isEmpty then pendEvidence die 0x0303 p else p

/-- The hottest reading of a block's dies. -/
def blockHot (p : Panel) (b : Nat) (f : DieClk → Option Int) : Option Int := hottest ((blockDies b).filterMap fun s => f (p.getClk s))

/-- The power that a member die will draw in the step its region waits to start at condition 5, in watts (R408). With an
EXPLEN of 0 the spec states none: a free value (log 4). -/
def stepPower (p : Panel) (r s : Nat) : Q :=
  let d := stepDesc p r ((p.getReg r).bar.getD 0)
  let t := (p.getReg r).members.length * Step.explen d * stepN (p.getClk s).step
  if t = 0 then ⟨p.freeNat.1, 1⟩ else Q.mk' (Step.energy d * 10000 : Nat) t

/-- P_f of a block (R408). -/
def blockPower (p : Panel) (b : Nat) : Q :=
  (blockDies b).foldl (fun a s => qAdd a (
    match p.regionOf s with
    | some r => if (p.getReg r).phase = .active ∧ (p.getReg r).stage = .admitted then stepPower p r s
        else Q.mk' (Tab.get 0 p.pwr.dieUJ s : Nat) 1000
    | none => Q.mk' (Tab.get 0 p.pwr.dieUJ s : Nat) 1000)) ⟨0, 1⟩

/-- The temperature 4 ms ahead, in tenths of a degree (R408). -/
def forecast (p : Panel) (b : Nat) (now : Int) (rth : Q) : Q :=
  let t := Q.mk' now 10
  let ss := qAdd (Q.mk' (coolant p) 100) (qMul rth (blockPower p b))
  let tau := blkFactor p b 4
  let f := if tau.num ≤ 0 then qOf 1 else decayed (qDiv (qOf 4) tau)
  qMul (qOf 10) (qAdd t (qMul (qSub ss t) f))

/-- Forecast one block: its sums, its forecasts, its hold (R406, R408). -/
def forecastBlock (b : Nat) (p : Panel) : Panel :=
  let j := blockHot p b (·.junction)
  let d := if b < 16 then blockHot p b (·.dram) else none
  let fj := match j with | some t => forecast p b t (rthJOf p b) | none => qOf (-2731)
  let fd := match d with | some t => forecast p b t (rthDOf p b) | none => qOf (-2731)
  let hold := qLe (qOf 1050) fj || qLe (qOf 950) fd || dramHot p b || p.pwr.inletHeld
  let first := hold && !(p.getBlk b).held
  let p := p.modBlk b fun x => { x with
    sumJ := x.sumJ + j.getD 0, cntJ := x.cntJ + (if j.isSome then 1 else 0), sumD := x.sumD + d.getD 0,
    cntD := x.cntD + (if d.isSome then 1 else 0), fJ := qFloor fj, fD := qFloor fd, held := hold,
    heldAt := if first then p.now else x.heldAt, holds := x.holds + (if first then 1 else 0) }
  if first then raise 0x0301 0xFF (keyBlock b) (some (BitVec.ofNat 64 b)) p else p

/-- THERMAL_FORECAST of every powered block (R408, R410). -/
def execThermalForecast (s : State) : Out :=
  s.runP true fun p => ((each (liveBlocks p) forecastBlock p).freeNat.2).modPwr fun w => { w with allHeld := false }

/-- Move a resistance by an estimate: replaced within half of the value in force, else half-way; was it beyond (R406)? -/
def moveRth (old est : Q) : Q × Bool :=
  let diff := qSub est old
  if qLe (qMul (qOf 2) (qAbs diff)) old then (est, false) else (qAdd old (Q.mk' diff.num (2 * diff.den : Nat)), true)

/-- Estimate one block's resistances over the second (R406). -/
def estimateBlock (cool : Q) (b : Nat) (p : Panel) : Panel :=
  let x := p.getBlk b
  let watts : Q := Q.mk' x.eSec 1000000
  let use := qLe (qOf (if b < 16 then 135 else 30)) watts
  let est (sum : Int) (n : Nat) : Q := qDiv (qSub (Q.mk' sum (10 * n : Nat)) cool) watts
  let j := if use ∧ 0 < x.cntJ then some (moveRth (rthJOf p b) (est x.sumJ x.cntJ)) else none
  let d := if use ∧ 0 < x.cntD ∧ b < 16 then some (moveRth (rthDOf p b) (est x.sumD x.cntD)) else none
  let far : Bool := (match j with | some y => y.2 | none => false) || (match d with | some y => y.2 | none => false)
  let p := p.modBlk b fun x => { x with
    estJ := x.estJ || j.isSome, rthJ := match j with | some y => y.1 | none => x.rthJ,
    estD := x.estD || d.isSome, rthD := match d with | some y => y.1 | none => x.rthD,
    shifts := x.shifts + (if far then 1 else 0), sumJ := 0, cntJ := 0, sumD := 0, cntD := 0, eSec := 0 }
  let p := setCap b cool p
  if far then raise 0x0307 0xFF (keyBlock b) (some (BitVec.ofNat 64 b)) p else p

/-- RTH_ESTIMATE, every second (R406). -/
def execRthEstimate (s : State) : Out :=
  s.runP true fun p =>
    let cool := if p.pwr.cntC = 0 then Q.mk' (coolant p) 100 else Q.mk' p.pwr.sumC (100 * p.pwr.cntC : Nat)
    (each (liveBlocks p) (estimateBlock cool) p).modPwr fun w => { w with sumC := 0, cntC := 0 }

/-- The regions whose step waits at condition 5 with a member in a block. -/
def waiting5 (p : Panel) (b : Nat) : List Nat :=
  (p.reg.filter fun e => decide (e.2.phase = .active) && decide (e.2.stage = .admitted) && e.2.members.any fun s => decide (blockOf s = b)).map (·.1)

/-- HOLD_LIMIT_EXPIRY of a block held for the hold limit: the ceiling falls, or at the lowest step the waiting steps are
admitted regardless (R409). -/
def execHoldLimitExpiry (blk : Nat) (s : State) : Out :=
  s.runP (isBlock blk) fun p =>
    let x := p.getBlk blk
    if ¬ x.held ∨ p.now < x.heldAt + 100000 * p.pwr.holdLimit then p
    else
      let p := p.modBlk blk fun x => { x with heldAt := p.now }
      if cfg p 0x2011 0 1 < p.pwr.ceiling then lowerCeiling p
      else
        let rs := waiting5 p blk
        if rs.isEmpty then p
        else
          let p := each rs (fun r p => p.modReg r fun g => { g with forced := true }) p
          raise 0x0309 0xFF (keyBlock blk) (some (BitVec.ofNat 64 blk)) (p.modPwr fun w => { w with forced := w.forced + 1 })

/-- A coolant sensor's reading fails (R403). -/
def coolantFail (n : Nat) (p : Panel) : Panel :=
  let p := p.modPwr fun w => { w with failed := w.failed + 1 }
  if n = 3 then raise 0x0305 p.activeHub keyPanel none p else p

/-- The inlet has been read (R402, R403): its range, and the hold of every block above 45 °C for 1 s until 43 °C. -/
def takeInlet (t : Int) (p : Panel) : Panel :=
  let good := decide (2000 ≤ t ∧ t ≤ 4000)
  let left := p.pwr.inRange && !good
  let hot := decide (4500 < t)
  let from_ := if hot then some (p.pwr.inletHotAt.getD p.now) else none
  let now := hot && decide ((from_.getD p.now) + ticksPerSecond ≤ p.now)
  let start := now && !p.pwr.inletHeld
  let p := p.modPwr fun w => { w with
    inlet := t, inletRead := true, inletOk := true, inFail := 0, inRange := good, inletHotAt := from_,
    inletHeld := if now then true else w.inletHeld && decide (4300 < t) }
  let p := if left then raise 0x0304 p.activeHub keyPanel none p else p
  if start then
    let low := cfg p 0x2011 0 1
    let p := p.modPwr fun w => { w with ceiling := low }
    if low < panelStep p then panelPlan low p else p
  else p

/-- COOLANT_POLL: what each sensor reads in 0.01 °C, none where the read fails (R402, R403). -/
def execCoolantPoll (inlet outlet : Option Int) (s : State) : Out :=
  s.runP true fun p =>
    if ¬ periphOn p 4 then p
    else
      let p := match inlet with
        | some t => takeInlet t p
        | none =>
          let n := p.pwr.inFail + 1
          coolantFail n (p.modPwr fun w => { w with inFail := n, inletOk := w.inletOk && decide (n < 3) })
      let p := match outlet with
        | some t => p.modPwr fun w => { w with outlet := t, outletOk := true, outFail := 0 }
        | none =>
          let n := p.pwr.outFail + 1
          coolantFail n (p.modPwr fun w => { w with outFail := n, outletOk := w.outletOk && decide (n < 3) })
      let high := p.pwr.inletOk && p.pwr.outletOk && decide (p.pwr.inlet + 1500 < p.pwr.outlet)
      let n := inRow high p.pwr.rise
      let p := p.modPwr fun w => { w with rise := n, sumC := w.sumC + coolant p, cntC := w.cntC + 1 }
      if n = 10 then raise 0x0306 p.activeHub keyPanel none p else p

end Sys2Proof.Machine
end

