-- ==== Sys2Proof/Machine/SecBase.lean ====
section
/-! DEFINITION. Measurements, images and the entropy source (R458-R464), which boot and the security commands share. -/

namespace Sys2Proof.Machine

/-- Measurement register `i` of a hub (R460). -/
def measOf (p : Panel) (h i : Nat) : List Byte := Tab.get (List.replicate 48 0) (Tab.get [] p.sec.meas h) i

/-- Extend a measurement register (R460). -/
def extend (h i : Nat) (x : List Byte) (p : Panel) : Panel :=
  p.modSec fun c => { c with meas := Tab.upd [] h (Tab.set i (sha384 (measOf p h i ++ x))) c.meas }

/-- The boot ROM derives a hub's CDI and Alias key from its device secret, signs the Alias certificate with the DeviceID key, which it
then erases, and locks the secret (R456, R461). -/
def layerKeys (h : Nat) (p : Panel) : Panel :=
  let m0 := measOf p h 0
  let m1 := measOf p h 1
  let cdi := cdiOf (Config.uds h) m0 m1
  let d := aliasScalar cdi
  let k := freeBytes 56 p
  k.2.modSec fun c => { c with
    cdi := Tab.set h cdi c.cdi, alias_ := Tab.set h d c.alias_, udsLocked := h :: c.udsLocked,
    aliasCert := Tab.set h [publicOf (deviceScalar (Config.uds h)), publicOf d, m0, m1, k.1] c.aliasCert }

/-- Image 0 A, 1 B (R458). -/
def imageOf (p : Panel) (i : Nat) : Image := Tab.get image0 p.sec.image i
/-- The SHA-384 of an image's header and body (R460): a factory image's is the factory's (log 7). -/
def imageDigest (p : Panel) (i : Nat) : List Byte :=
  match (imageOf p i).digest with | [] => leBytes 48 (Config.digestNat i) | d => d

/-- The SHA-384 of the core firmware that an image brings (R460; log 7). -/
def coreDigest (p : Panel) (i : Nat) : List Byte := leBytes 48 (Config.digestNat (2 + leNat (imageDigest p i)))

/-- Does the boot ROM accept an image (R459): its bytes are whole and signed, its slot programmed and not revoked, its SVN
high enough? -/
def imageOk (p : Panel) (i : Nat) : Bool :=
  let m := imageOf p i
  m.valid && p.sec.programmed.testBit m.slot && !p.sec.revoked.testBit m.slot && decide (p.sec.minSvn ≤ m.svn)

/-- The hub variant word (R431, R432). -/
def vword (p : Panel) (h : Nat) : BitVec 64 :=
  Tab.get (BitVec.ofNat 64 (p.variant * 2 ^ 60 + blkFuses p.variant * 2 ^ 32 + portFuses p.variant)) p.boot.vword h
/-- A die's fuse word (R431, R432). -/
def fuseOwed (v s : Nat) : BitVec 32 :=
  BitVec.ofNat 32 (v * 2 ^ 28 + (if fusedDie v s then 2 ^ 27 else 0) + (if isCompute s then variantLayers v * 2 ^ 23 else 0)
    + (if isEdge s && portFused v (portOfDie s) && !fusedDie v s then 2 ^ 22 else 0))
def fuseWord (p : Panel) (s : Nat) : BitVec 32 := Tab.get (fuseOwed p.variant s) p.boot.fuse s

/-- Is a hub's entropy source healthy (R464)? -/
def healthy (p : Panel) : Bool := Tab.get true p.sec.healthy p.book.active

/-- The calibration set and the credential objects in force, as M3 takes them: the objects in the order of their indices, the
sites or blocks or slots of each ascending (R460; log 30). -/
def configBytes (p : Panel) : List Byte :=
  let calib (i s : Nat) : List Byte :=
    match Tab.find? p.boot.calib.inForce (256 * i + s) with
    | some b => b
    | none => match odRow p.variant i s with | some r => r.dflt p.variant | none => []
  allDies.flatMap (calib 0xC001) ++ allDies.flatMap (calib 0xC002) ++ (List.range 20).flatMap (calib 0xC003)
    ++ (List.range 32).flatMap (odBytes p 0xB030)

/-- Extend M3 of the active hub (R460). -/
def measureConfig (p : Panel) : Panel := extend p.book.active 3 (sha384 (configBytes p)) p

end Sys2Proof.Machine
end

