-- ==== Sys2Proof/Machine/BringUp.lean ====
section
/-! DEFINITION. Panel reset and bring-up, the floor plan map, training records (R413-R432). -/

namespace Sys2Proof.Machine

/-- What a panel reset leaves of the boot state: fuses, straps of the hubs, factory words (R413). -/
def bootAfter (b : Boot) (held : Bool) : Boot :=
  { boot0 with
    porDone := b.porDone, held := held, phase := if held then 0 else 1, fuse := b.fuse, dieId := b.dieId, vword := b.vword }

/-- The panel after a panel reset, or, with `por`, after the hubs' power-on reset: what is stored in MRAM, NOR and fuses
stays, and the pins' levels; a write in progress is cut short, its slot invalid (R395, R413). -/
def resetPanel (held por : Bool) (p : Panel) : Panel :=
  let cut (t : Tab (NvSlot × NvSlot)) : Tab (NvSlot × NvSlot) := match p.pwr.writes with
    | [] => t
    | w :: _ => if !w.begun then t else Tab.upd default w.id (fun x => if newer w.id x.1 x.2 then (x.1, { x.2 with hdr := [] }) else ({ x.1 with hdr := [] }, x.2)) t
  let img : Tab Image := match p.sec.imgWrite with
    | some w => Tab.upd image0 w.image (fun x => { x with valid := false }) p.sec.image
    | none => p.sec.image
  { Panel.reset with
    variant := p.variant, free := p.free,
    clk := { clocks0 with
      tbRun := false, settle := p.clk.settle,
      refA := if por then default else p.clk.refA, refB := if por then default else p.clk.refB,
      settled := !por && (p.clk.refA.valid || p.clk.refB.valid), use := if p.clk.refA.valid ∨ ¬ p.clk.refB.valid then 0 else 1 },
    boot := bootAfter p.boot held,
    pwr := { power0 with vsb12 := p.pwr.vsb12, bank := p.pwr.bank, bankC := p.pwr.bankC, nv := cut p.pwr.nv },
    sec := { sec0 with
      image := img, minSvn := p.sec.minSvn, revoked := p.sec.revoked, programmed := p.sec.programmed, owned := p.sec.owned },
    host := { hostIf0 with port := p.host.port.map fun e => (e.1, { e.2 with up := false }) } }

/-- PANEL_RESET: PANEL_RST_N has been asserted for 10 µs (R413). `bankC` is the capacitance that the hub then measures, in
µF (R394). -/
def execPanelReset (bankC : Nat) (s : State) : Out :=
  s.run true fun s =>
    let p := resetPanel true false s.p
    let p := p.modPwr fun w => { w with bankC := bankC }
    { s with mem := [], p := if bankC < 10800 then raise 0x0108 p.activeHub keyPanel none p else p }

/-- The sequence begins, and with it the timebase, at 0 (R367, R414). -/
def originate (p : Panel) : Panel :=
  let p := p.modBoot fun b => { b with held := false, phase := 1, since := 0 }
  p.modClocks fun c => { c with tb := 0, vco := 0, origin := 0, tbRun := true }

/-- PANEL_RESET_RELEASE (R367, R414). -/
def execPanelResetRelease (s : State) : Out :=
  s.runP true fun p =>
    if ¬ p.boot.held then p
    else if p.boot.porDone then originate p
    else p.modBoot fun b => { b with held := false }

/-- VSB12_POR_RELEASE: the hubs' power-on reset is released; the OSC_SETTLE straps are sampled (R363, R414). -/
def execVsb12PorRelease (settle : Nat) (s : State) : Out :=
  s.run (decide (settle < 8)) fun s =>
    let held := s.p.boot.held
    let p := resetPanel held true s.p
    let p := p.modClocks fun c => { c with settle := settle }
    let p := p.modPwr fun w => { w with vsb12 := 12000, holdOnly := false }
    let p := p.modBoot fun b => { b with porDone := true }
    { s with mem := [], p := if held then p else originate p }

/-- Set peripheral bits of the hub that runs the sequence (R376). -/
def periphSet (bits : List Nat) (p : Panel) : Panel :=
  p.modClocks fun c => { c with periph := Tab.upd 0 p.book.active (fun x => x ||| BitVec.ofNat 32 (ofBits bits)) c.periph }

/-- Go to a phase (R415). -/
def toPhase (n : Nat) (p : Panel) : Panel :=
  p.modBoot fun b => { b with ticks := Tab.set b.phase (p.now - b.since) b.ticks, phase := n, since := p.now }

/-- The boot ROM of hub `h` reads and measures the images (R418, R456, R460, R461). -/
def bootRom (h : Nat) (readA readB : Bool) (ms : Nat) (p : Panel) : Panel :=
  let a := readA && imageOk p 0
  let b := readB && imageOk p 1
  let p := p.modClocks fun c => { c with periph := Tab.set h 7 c.periph }
  let p := p.modBoot fun x => { x with
    image := Tab.set h (if a then 0 else if b then 1 else 0xFF) x.image, aFails := x.aFails + (if a then 0 else 1),
    bFails := x.bFails + (if a || b then 0 else 1), romTime := ms, hubDown := if a || b then x.hubDown else h :: x.hubDown }
  if a || b then
    let p := extend h 0 (leBytes 4 Config.bootRomVersion ++ leBytes 8 (vword p h).toNat ++ leBytes 1 p.sec.minSvn ++ leBytes 1 p.sec.revoked) p
    let p := extend h 1 (imageDigest p (if a then 0 else 1)) p
    let p := layerKeys h p
    if a then p else raise 0x0D05 (if h = 0 then 0x00 else 0xDD) keyPanel none p
  else raise 0x0D06 (if h = 0 then 0x00 else 0xDD) keyPanel none p

/-- Does a hub's firmware run? -/
def imageRuns (p : Panel) (h : Nat) : Bool := decide (Tab.get 0xFE p.boot.image h ≤ 1)

/-- Hub B becomes the active hub at boot, with takeover generation 1 (R418, R507). -/
def bootAsB (p : Panel) : Panel :=
  let p := p.modBook fun b => { b with active := 1, tgen := 1, tookOver := true, takeDue := false }
  (p.modClocks fun c => { c with rootB := true }).modBoot fun b => { b with
    bootHub := 1, hubDown := if b.hubDown.contains 0 then b.hubDown else 0 :: b.hubDown }

/-- Phase 2 ends: the firmware of hub A runs, with hub B's beside it; or hub A signals failure and hub B boots (R418). -/
def endBoot (readA readB : Bool) (ms : Nat) (p : Panel) : Panel :=
  if p.boot.bootHub = 0 then
    let p := bootRom 0 readA readB ms p
    if imageRuns p 0 then toPhase 3 (bootRom 1 readA readB ms p) else p.modBoot fun b => { b with bootHub := 1 }
  else
    let p := bootRom 1 readA readB ms p
    if imageRuns p 1 then toPhase 3 (bootAsB p) else p

/-- HUB_B_BOOT_TIMEOUT: hub A has neither started its firmware nor signalled failure 1 s after t+0 (R418, R507). -/
def execHubBBootTimeout (readA readB : Bool) (ms : Nat) (s : State) : Out :=
  s.runP true fun p =>
    if p.boot.phase ≤ 2 ∧ p.boot.bootHub = 0 ∧ ¬ imageRuns p 0 ∧ p.clk.origin + ticksPerSecond ≤ p.now then
      let p := bootRom 1 readA readB ms (p.modBoot fun b => { b with bootHub := 1 })
      if imageRuns p 1 then toPhase 3 (raise 0x0D06 0x00 keyPanel none (bootAsB p)) else p
    else p

/-- Load the persistent objects from their newer valid slots (R395, R415). -/
def loadObjects (p : Panel) : Panel :=
  let p := each (List.range 16) (fun id p => match nvNewest p id with
    | some x => each x.body (fun e p => p.modOd fun o => { o with val := Tab.set e.1 e.2 o.val }) p
    | none => p) p
  match Tab.find? p.od.val (256 * 0x1030) with
  | some b => p.modOd fun o => { o with hme := leNat b }
  | none => p

/-- Load the calibration set; key 0 of its record holds origin, write count and tick (R433-R435). -/
def loadCalib (bad : Bool) (p : Panel) : Panel :=
  let body := match nvNewest p recCalib with | some x => x.body | none => []
  let set := body.filter fun e => decide (e.1 ≠ 0)
  let head := match List.find? (fun e : Nat × List Byte => decide (e.1 = 0)) body with | some e => e.2 | none => []
  let p := p.modBoot fun b => { b with
    calib := {
      user := decide (leNat (head.take 1) = 1), writes := leNat ((head.drop 1).take 4), tick := leNat ((head.drop 5).take 8),
      crc := (crcHost (set.flatMap (·.2))).toNat, valid := !bad, inForce := if bad then [] else set } }
  let p := each set (fun e p => p.modOd fun o => { o with val := Tab.set e.1 e.2 o.val }) p
  if bad then raise 0x0D0D p.activeHub keyPanel none p else p

/-- Load the floor plan map with its generation (R427, R428): key 0x100 holds the port part, 0x101 the generation. -/
def loadMap (p : Panel) : Panel :=
  match nvNewest p recMap with
  | none => p
  | some x => each x.body (fun e p => p.modBoot fun b =>
      if e.1 < 0x100 then { b with map := Tab.set e.1 (BitVec.ofNat 32 (leNat e.2)) b.map }
      else if e.1 = 0x100 then { b with portMap := (List.range 12).map fun n => (n, (e.2.getD n 0).toNat) }
      else { b with generation := leNat e.2 }) p

/-- The spare map of a stack from its record's 8-byte entries (R140, R430). -/
def loadSpares (s : Nat) (p : Panel) : Panel :=
  match nvNewest p (recSpare s) with
  | none => p
  | some x =>
    let b := x.body.flatMap (·.2)
    let es := (List.range (b.length / 8)).map fun i => BitVec.ofNat 64 (leNat ((b.drop (8 * i)).take 8))
    p.modStk s fun k => { k with
      spare := (List.range es.length).map fun i => (i, Spare.force true (es.getD i 0)),
      used := each es (fun e t => Tab.upd 0 ((Spare.layer e * 16 + Spare.ch e) * 32 + Spare.bank e) (max (Spare.spare e + 1)) t) [] }

/-- The body of a die's training record in a band: site, die ID, band, training revision; the settings themselves are the PHYs'
(R423; log 77). -/
def trainBody (p : Panel) (s band : Nat) : List (Nat × List Byte) :=
  let im := imageOf p (Tab.get 0 p.boot.image p.book.active)
  [(0, leBytes 1 s ++ leBytes 8 (Tab.get 0 p.boot.dieId s).toNat ++ leBytes 1 band ++ leBytes 4 (Config.trainRevision im.version))]

/-- The saved training records that are valid and match their die, band and revision (R424, R430). -/
def loadTraining (p : Panel) : Panel :=
  let holds (s b : Nat) : Bool := (nvNewest p (recTrain s b)).any fun x => decide (x.body = trainBody p s b)
  let l := (allDies.filter isNode).flatMap fun s => ((List.range 4).filter (holds s)).map fun b => (s, b)
  p.modBoot fun b => { b with training := l }

/-- The state of a die at phase 3 by its map entry (R422). -/
def bookState (p : Panel) (s : Nat) : USt :=
  if fusedDie p.variant s then .absent
  else match fstate p s with
    | 1 => .absent | 2 => .failed | 3 => .failed | 4 => .failed | _ => .suspect

/-- Build the state book from the map and the fuses (R422). -/
def buildBook (p : Panel) : Panel :=
  let put (key : Nat) (st : USt) (p : Panel) : Panel := p.modUnit key fun _ => { urec0 with st := st, prior := .ready, tick := p.now }
  let p := each allDies (fun s p => each (s :: siteParts s) (fun k => put k (bookState p s)) p) p
  let p := each (List.range 20) (fun b => put (keyBlock b) (if blkFused p b then .absent else .suspect)) p
  each (List.range 12) (fun n => put (keyPort n)
    (if portFused p.variant n then .absent else if Tab.get 0 p.boot.portMap n = 2 then .failed else .suspect)) p

/-- The peripheral bits of the management segments that are enabled. -/
def segBits (p : Panel) : List Nat := (if cfg p 0x1010 0 1 = 1 then [5] else []) ++ (if cfg p 0x1010 0 2 = 1 then [6] else [])

/-- Phase 3 ends: MRAM read, the book built, the variant words compared (R415, R422, R430, R432), and
the hubs agree on their transport key (R466). The PHYs of the segments that the settings enable are set with bits 3 and 4 (log 78). -/
def endMap (calibBad : Bool) (p : Panel) : Panel :=
  let p := loadTraining (each (computeSites.filter fun s => !fusedDie p.variant s) loadSpares (loadMap (loadCalib calibBad (loadObjects p))))
  let p := measureConfig (buildBook (p.modPwr fun w => { w with setpoint := cfg p 0x3003 0 1 }))
  if vword p 0 ≠ vword p 1 then (raise 0x0D04 p.activeHub keyPanel none (toPhase 15 p))
  else
    let p := if imageRuns p 0 ∧ imageRuns p 1 then makeTransport [0] [0xDD] p else p
    nextBlock p.now (periphSet (segBits p ++ [3, 4]) (toPhase 4 p))

/-- A unit fails at bring-up: FAILED, its die held in reset (R427). -/
def failUp (key cause : Nat) (p : Panel) : Panel :=
  let p := if p.ust key = .failed then p else moveUnit key .failed cause p
  if key < 0x3000 then p.modBoot fun b => { b with dieUp := Tab.set (keySite key) .held b.dieUp } else p

/-- The TYPE of a die position (R16). -/
def strapType (s : Nat) : Nat := if isHamperPos s then 1 else if isCompute s then 0 else if isEdge s then 2 else if isHub s then 3 else 4
/-- The kind of die of a TYPE: hamper positions hold compute dies (R16). -/
def strapKind (t : Nat) : Nat := if t = 1 then 0 else t

/-- Does a strap word pass the four checks of R17 at a die: odd parity; a TYPE of the die's kind; ROW and COL of a die position of that
TYPE; that position's BLOCK? -/
def strapOk (s : Nat) (w : BitVec 17) : Bool :=
  let t := siteAt (fld w 7 4) (fld w 3 0)
  decide ((bitsSet 17 w.toNat).length % 2 = 1) && decide (strapKind (fld w 10 8) = strapKind (strapType s))
    && isDie t && decide (strapType t = fld w 10 8) && decide (fld w 15 11 = blockOf t)

/-- STRAP_CHECK: a die reads its straps at the release of its reset; one whose straps fail stays held and reports it, a guest to the
hub that it is linked to (R16, R17, R303); its fuse word is compared with the variant's (R432). -/
def execStrapCheck (die : Nat) (w : BitVec 17) (s : State) : Out :=
  s.runP (isDie die) fun p =>
    if Tab.get .off p.boot.dieUp die ≠ .released then p
    else
      let p := p.modBoot fun b => { b with strap := Tab.set die w.toNat b.strap, dieUp := Tab.set die .running b.dieUp }
      if ¬ strapOk die w then
        let p := p.modBoot fun b => { b with dieUp := Tab.set die .held b.dieUp }
        if isNode die then dieRaise die 0 die 0x0D01 none p else failUp die 0x0D01 (raise 0x0D01 die die none p)
      else if fuseWord p die ≠ fuseOwed p.variant die then failUp die 0x0D03 (raise 0x0D03 die die none p)
      else p

/-- The dies that run. -/
def runningDies (p : Panel) : List Nat := allDies.filter fun s => decide (Tab.get .off p.boot.dieUp s = .running)

/-- Those that have not yet passed phases 5 to 7: a takeover before READY repeats them for no other (R421). -/
def untested (p : Panel) : List Nat := (runningDies p).filter fun s => !p.boot.tested.contains s

/-- Phase 4 is over: every enabled block is up or FAILED, every powered die has read its straps (R415). -/
def blocksDone (p : Panel) : Bool :=
  ((List.range 20).all fun b => blkFused p b || decide ((p.getBlk b).st = .up) || decide ((p.getBlk b).st = .failed))
    && allDies.all fun s => decide (Tab.get .off p.boot.dieUp s ≠ .released)

/-- Phase 5 ends: the dies lock in LOCAL mode at F0 (R374, R415). -/
def endPll (unlocked : List Nat) (p : Panel) : Panel :=
  let p := each (untested p) (fun s p =>
    if unlocked.contains s then failUp s 0x0207 p
    else p.modClk s fun c => { c with locked := true, localMode := true, step := 0, left := stepN 0 }) p
  toPhase 6 p

/-- The temperature band of a die, where it has reported (R423). -/
def bandOf (p : Panel) (s : Nat) : Option Nat :=
  (p.getClk s).junction.map fun t => if t < 350 then 0 else if t < 550 then 1 else if t < 750 then 2 else 3

/-- Does a die train in full: no record that holds, the policy against it, or errors under the saved settings (R424)? -/
def trainsFull (p : Panel) (prbs : List Nat) (s : Nat) : Bool :=
  let saved : Bool := match bandOf p s with | some b => p.boot.training.contains (s, b) | none => false
  !saved || decide (cfg p 0x4036 0 1 = 0) || decide (cfg p 0x4036 0 2 = 1) || !p.boot.calib.valid || prbs.contains s

/-- Phase 6 ends (R424): fallbacks, failed links, stacks and dies; then the control routes are live. -/
def endTrain (prbs : List Nat) (links : List (Nat × Nat)) (stackSites ctl : List Nat) (p : Panel) : Panel :=
  let full := ((untested p).filter isNode).filter (trainsFull p prbs)
  let p := each full (fun s p => raise 0x0D07 s s none p) p
  let p := p.modBoot fun b => { b with
    fellBack := full, trainFull := b.trainFull || !full.isEmpty,
    trainPending := b.trainPending ++ full.filterMap fun s => (bandOf p s).map fun x => (s, x) }
  let p := if cfg p 0x4036 0 2 = 1 then odPut 0x4036 0 ((odBytes p 0x4036 0).take 1 ++ [0] ++ (odBytes p 0x4036 0).drop 2) p else p
  let p := each (links.filter fun e => isMesh e.1 && decide (e.2 < 4)) (fun e p =>
    let off (t g : Nat) (p : Panel) : Panel := p.modRtr t fun r => { r with link := Tab.upd link0 g (fun l => { l with failed := true }) r.link }
    let f := farEnd e.1 (32 * e.2)
    raise 0x0606 e.1 e.1 none (off f.1 (f.2 / 32) (off e.1 e.2 p))) p
  let p := each (stackSites.filter isCompute) (fun s => failUp (keyStack s) 0x0606) p
  let p := each (ctl.filter isNode) (fun s => failUp s 0x0610) p
  let p := p.modCtl fun c => { c with lastBeat := (allDies.filter isNode).map (fun s => (s, p.now)), hubBeatA := p.now }
  toPhase 7 (bringRoutes p)

/-- A die that has passed phases 5 to 7 enters service: HAMPER where it is a spare, else READY (R422, R427). -/
def passUp (s : Nat) (p : Panel) : Panel :=
  let st : USt := if mapRole p s = 2 then .hamper else .ready
  let old := fstate p s
  let p := each (s :: siteParts s) (fun k p => p.modUnit k fun r => { r with st := st, prior := st, tick := p.now }) p
  let p := p.modBoot fun b => { b with tested := s :: b.tested }
  if old = 4 ∨ old = 6 then bumpGen (mapSet s 0 0 0 p) else p

/-- The fill of phase 7 writes every row word of a stack in service whole: none stays poisoned or waits to be rewritten (R123,
R128, R426). Its stored bytes are zero, which is what an unlisted row word reads as. -/
def fillStack (s : Nat) (p : Panel) : Panel :=
  if (p.stk.any fun e => decide (e.1 = s)) ∧ p.ust (keyStack s) ≠ .failed then
    p.modStk s fun k => { k with spare := k.spare.map fun e => (e.1, Spare.withPmask 0 e.2), writeback := [] }
  else p

/-- Phase 7 ends (R422, R426, R466): failures, repairs, and the dies in service. -/
def endBist (cores dies stackSites maps repaired : List Nat) (p : Panel) : Panel :=
  let fail (site key : Nat) (p : Panel) : Panel := failUp key 0x0D08 (raise 0x0D08 site key none p)
  let p := each (cores.filter isCore) (fun k => fail (siteOf k) (keyCore k)) p
  let p := each (dies.filter isDie) (fun s => fail s s) p
  let p := each (stackSites.filter isCompute) (fun s => fail s (keyStack s)) p
  let p := each (maps.filter isCompute) (fun s p => mapSet s 4 2 0x0D08 (fail s (keyStack s) p)) p
  let p := each (repaired.filter isCompute) (fun s p => raise 0x0D09 s s none (p.modBoot fun b => { b with bistRepairs := s :: b.bistRepairs })) p
  let p := each (untested p) passUp p
  let p := each computeSites fillStack p
  let p := each (List.range 12) (fun n p =>
    if p.ust (keyPort n) = .suspect ∧ usable p (portDies n).1 ∧ usable p (portDies n).2 then
      p.modUnit (keyPort n) fun r => { r with st := .ready, tick := p.now } else p) p
  toPhase 8 (makeTransport ([0, 1].filter fun h => imageRuns p h) (runningDies p) p)

/-- Phase 8 ends: the core firmware is at its targets (R415, R460). -/
def endBroadcast (failed : List Nat) (p : Panel) : Panel :=
  let p := each (failed.filter isDie) (fun s => failUp s 0x0614) p
  toPhase 9 (periphSet [8] (extend p.book.active 2 (coreDigest p (Tab.get 0 p.boot.image p.book.active)) p))

/-- Phase 9 is over: every port with a partner is UP or has ended a training attempt, or its limit has passed (R415). -/
def fabricDone (silent : List Nat) (p : Panel) : Bool :=
  decide (p.boot.since + 200000000 ≤ p.now) || (List.range 12).all fun n =>
    portFused p.variant n || decide (p.ust (keyPort n) = .failed) || silent.contains n || decide ((p.getPort n).phase = 8)
      || !(p.getPort n).fails.isEmpty

/-- Phase 10 begins: the first plan, and the peripherals (R415). -/
def startSync (p : Panel) : Panel :=
  panelPlan (cfg p 0x2011 0 2) (periphSet [5, 6, 7, 11] (toPhase 10 p))

/-- Are the READY and HAMPER dies in SYNC (R415)? -/
def allSync (p : Panel) : Bool :=
  allDies.all fun s => !isNode s || !(decide (p.ust s = .ready) || decide (p.ust s = .hamper)) || !(p.getClk s).localMode

/-- The training record of a die and band goes to MRAM (R425). -/
def storeTraining (e : Nat × Nat) (p : Panel) : Panel :=
  let r := nvStart (recTrain e.1 e.2) (trainBody p e.1 e.2) p
  if r.1 then r.2.modBoot fun b => { b with trainPending := b.trainPending.filter fun x => decide (x ≠ e) }
  else r.2.modBoot fun b => { b with storeRefused := b.storeRefused + 1 }

/-- READY (R415, R425). -/
def becomeReady (p : Panel) : Panel :=
  let p := (toPhase 11 p).modBoot fun b => { b with ready := true }
  each p.boot.trainPending storeTraining (raise 0x0D0E p.activeHub keyPanel none p)

/-- BRINGUP_PHASE_ADVANCE: the phase in force ends as its physical side gave, where its condition holds (R415). -/
def execBringupPhaseAdvance (o : PhaseOut) (s : State) : Out :=
  s.runP true fun p =>
    match p.boot.phase, o with
    | 1, .go => if p.clk.settled ∧ (p.clk.refA.valid ∨ p.clk.refB.valid) then toPhase 2 p else p
    | 2, .boot a b ms => endBoot a b ms p
    | 3, .map bad => endMap bad p
    | 4, .go => if blocksDone p then toPhase 5 p else p
    | 5, .pll l => endPll l p
    | 6, .train a b c d => endTrain a b c d p
    | 7, .bist a b c d e => endBist a b c d e p
    | 8, .bcast l => endBroadcast l p
    | 9, .fabric l => if fabricDone l p then startSync p else p
    | 10, .go => if allSync p then becomeReady p else p
    | _, _ => p

/-- The limit of a phase in ticks, by whether training fell back (R415). -/
def phaseLimit (n : Nat) (full : Bool) : Nat :=
  match n with
  | 1 => 17000000 | 2 => 40000000 | 3 => 5000000 | 4 => 45000000 | 5 => 500000 | 6 => if full then 3000000000 else 200000000
  | 7 => 300000000 | 8 => 50000000 | 9 => 200000000 | _ => 10000000

/-- BRINGUP_LATE, once per phase (R415). -/
def execBringupLate (s : State) : Out :=
  s.runP true fun p =>
    let n := p.boot.phase
    if 1 ≤ n ∧ n ≤ 10 ∧ ¬ p.boot.late.testBit n ∧ p.boot.since + phaseLimit n p.boot.trainFull < p.now then
      raise 0x0D0C p.activeHub keyPanel (some (BitVec.ofNat 64 n)) (p.modBoot fun b => { b with late := b.late ||| 2 ^ n })
    else p

/-- COOLANT_WAIT_RETRY, every 100 ms while compute blocks wait for the coolant (R419). -/
def execCoolantWaitRetry (s : State) : Out :=
  s.runP true fun p =>
    match p.boot.coolFrom with
    | none => p
    | some t =>
      let p := p.modBoot fun b => { b with coolWait := b.coolWait + (p.now - t), coolFrom := some p.now }
      if coolantOk p then nextBlock p.now (p.modBoot fun b => { b with coolFrom := none }) else p

/-- TRAINING_STORE_RETRY (R425). -/
def execTrainingStoreRetry (s : State) : Out :=
  s.runP true fun p => if p.boot.ready then each p.boot.trainPending storeTraining p else p

/-- The floor plan record's body (R427, R428). -/
def mapBody (p : Panel) : List (Nat × List Byte) :=
  p.boot.map.map (fun e => (e.1, leBytes 4 e.2.toNat))
    ++ [(0x100, (List.range 12).map fun n => BitVec.ofNat 8 (if portFused p.variant n then 1 else Tab.get 0 p.boot.portMap n)),
        (0x101, leBytes 4 p.boot.generation)]

/-- MAP_WRITE_RETRY: the hub stores a map that has changed; a refused write stays to be retried (R427, R428; log 31). -/
def execMapWriteRetry (s : State) : Out :=
  s.runP true fun p =>
    if p.boot.mapPending then
      let r := nvStart recMap (mapBody p) p
      if r.1 then r.2.modBoot fun b => { b with mapPending := false } else r.2
    else p

/-- Write a site's clearance object (R429); a site already cleared stays so (DESIGN CHOICE, log 80). Gives the abort code. -/
def writeClearance (s x : Nat) (p : Panel) : Nat × Panel :=
  if x ≠ 1 then (abortOf 0x04 1 0, p)
  else if fstate p s = 3 ∨ fstate p s = 4 then (0, bumpGen (mapSet s 6 (fld (mapEntry p s) 23 20) 0 p))
  else if fstate p s = 6 then (0, p)
  else (abortOf 0x09 1 0, p)

/-- FLOORPLAN_CLEARANCE (R429). -/
def execFloorplanClearance (site x : Nat) (s : State) : Out := s.runP (isSite site) fun p => (writeClearance site x p).2

end Sys2Proof.Machine
end

