-- ==== Sys2Proof/Machine/Seal.lean ====
section
/-! DEFINITION. The sealing of management frames (R355, R471), and the bytes of fabric link frames with their checks
(R518-R520, R473). -/

namespace Sys2Proof.Machine

/-- The nonce of a management frame: the direction in bits [95:88], the number in bits [31:0], the first byte most significant
(R471). -/
def sealNonce (dir num : Nat) : List Byte := BitVec.ofNat 8 dir :: List.replicate 7 0 ++ (leBytes 4 num).reverse

/-- A sealed frame: the header, which is authenticated, the data enciphered, and the tag (R355, R471). -/
def sealed (key : List Byte) (dir num : Nat) (header data : List Byte) : List Byte :=
  let x := gcmSeal key (sealNonce dir num) header data
  header ++ x.1 ++ x.2

/-- A null cell (R518). -/
def nullCell : Cell := ⟨BitVec.ofNat 64 (7 * 2 ^ 61), 0⟩

/-- The 48 bytes of a cell, and the cell of 48 bytes. -/
def cellBytes (c : Cell) : List Byte := leBytes 8 c.hdr.toNat ++ leBytes 40 c.pay.toNat
def bytesCell (b : List Byte) : Cell := ⟨BitVec.ofNat 64 (leNat (b.take 8)), BitVec.ofNat 320 (leNat ((b.drop 8).take 40))⟩

/-- The 960 cell bytes of a frame (R518). -/
def frameCells (f : LinkFrame) : List Byte := (List.range 20).flatMap fun i => cellBytes (f.cells.getD i nullCell)
/-- Trailer bits [127:64] (R519). -/
def frameTrailer (f : LinkFrame) : List Byte :=
  leBytes 8 (f.seq % 2048 * 2 ^ 53 + f.ack % 2048 * 2 ^ 42 + (if f.nak then 2 ^ 41 else 0) + unlanes 5 ((List.range 8).map fun v => f.cred.getD v 0))

/-- The frame whose cell bytes and trailer bits [127:64] are these (R518, R519). -/
def readFrame (cells trailer : List Byte) : LinkFrame :=
  let t := leNat trailer
  ⟨nfld t 63 53, nfld t 52 42, t.testBit 41, lanes 5 8 t, (pieces 48 20 cells).map bytesCell⟩

/-- The parts of a frame's 976 bytes: cells, trailer bits [127:64], CHECK (R518, R519). -/
def partCells (b : List Byte) : List Byte := b.take 960
def partCheck (b : List Byte) : List Byte := (b.drop 960).take 8
def partTrailer (b : List Byte) : List Byte := (b.drop 968).take 8

/-- The check of a frame without a session (R520). -/
def plainCheck (cells trailer : List Byte) : List Byte := leBytes 8 (crc64 0 (cells ++ trailer)).toNat
/-- A frame as it leaves without a session. -/
def plainFrame (f : LinkFrame) : List Byte := frameCells f ++ plainCheck (frameCells f) (frameTrailer f) ++ frameTrailer f
/-- A frame received without a session, where its check holds. -/
def checkedFrame (b : List Byte) : Option LinkFrame :=
  if partCheck b = plainCheck (partCells b) (partTrailer b) then some (readFrame (partCells b) (partTrailer b)) else none

/-- The nonce of a sealed pair: the direction's salt, the last 4 bytes of its key material, and the counter of the pair's first
frame (R473, R520). -/
def pairNonce (key : List Byte) (counter : Nat) : List Byte := key.drop 32 ++ leBytes 8 counter

/-- A pair sealed under a direction's key and salt (R520): the two frames as they leave. -/
def sealPair (key : List Byte) (counter : Nat) (f g : LinkFrame) : List (List Byte) :=
  let x := gcmSeal (key.take 32) (pairNonce key counter) (frameTrailer f ++ frameTrailer g) (frameCells f ++ frameCells g)
  [x.1.take 960 ++ x.2.take 8 ++ frameTrailer f, x.1.drop 960 ++ x.2.drop 8 ++ frameTrailer g]

/-- A pair received, where its tag holds (R520). -/
def openPair (key : List Byte) (counter : Nat) (a b : List Byte) : Option (LinkFrame × LinkFrame) :=
  match gcmOpen (key.take 32) (pairNonce key counter) (partTrailer a ++ partTrailer b) (partCells a ++ partCells b) (partCheck a ++ partCheck b) with
  | none => none
  | some t => some (readFrame (t.take 960) (partTrailer a), readFrame (t.drop 960) (partTrailer b))

end Sys2Proof.Machine
end

