-- ==== Sys2Proof/Machine/Partition.lean ====
section
/-! DEFINITION. Partitions, the reset levels and pack-up (R438-R455), and key loads (R467). -/

namespace Sys2Proof.Machine

/-- End the sessions that `f` picks, with the reason of class 0x07 (R342, R351); an image write of one ends with it (R474). -/
def endSessions (f : Session → Bool) (reason : Nat) (p : Panel) : Panel :=
  let gone := p.od.sessions.filter f
  let p := p.modSec fun c => { c with
    imgWrite := c.imgWrite.filter fun w => !gone.any fun x => decide (x.slot = w.slot) }
  p.modOd fun o => { o with
    ended := ((o.sessions.filter f).map fun x => (x.id, reason)) ++ o.ended, sessions := o.sessions.filter fun x => !f x }

/-- A die enters a partition: the key, the control group, then ASSIGNED (R440). -/
def addMember (n s : Nat) (p : Panel) : Panel :=
  serveSite .assigned s (setGroup (0x40 + n) true [s] (loadKey n s p))

/-- Does a valid transit entry of a partition other than `own` lie on a die (R445)? -/
def keepsTransit (p : Panel) (own : Option Nat) (s : Nat) : Bool :=
  (p.getRtr s).transit.any fun e => transitV e.2 && decide (some (fld e.2 27 24) ≠ own)

/-- The permits of an edge's tracks, those that no valid transit entry names set to 0 (R445). -/
def keptPermits (r : Router) (e w : Nat) : Nat :=
  ((List.range 32).map fun t => if transitNames r (32 * e + t) then w / 4 ^ t % 4 * 4 ^ t else 0).sum

/-- What a die reset zeroes of a router; it keeps the transit domain whole where `keep` (R443, R445). -/
def resetRouter (keep : Bool) (r : Router) : Router :=
  let x := { r with
    hop := [], seg := [], committed := 0, exec := none, drained := false, fired := [], sendBuf := [], vcLim := [], udesc := [],
    unit := [], dest := [], stalled := none, late := 0 }
  if keep then { x with
    permit := r.permit.map fun e => (e.1, keptPermits r e.1 e.2),
    sent := r.sent.filter fun e => decide (e.1 % 8 = 7) || transitNames r (e.1 / 8),
    tx := r.tx.map fun e => (e.1, e.2.filter fun c => decide (CellF.vc c.2 = 7) || transitNames r (32 * e.1 + c.1)) }
  else { x with
    permit := [], sent := [], transit := [], held := [], inq := [], svcq := [], agent := [], reply := [], tx := [], wire := [],
    creditIn := [], svcSince := [], svcWaited := [] }

/-- The far ends of a die whose transit domain is reset: their links are down, what they had put on them is gone with their counts
toward it, and the replay buffers of both ends are empty (R445). -/
def dropLinks (s : Nat) (p : Panel) : Panel :=
  let p := cutLinks s p
  let p := p.modBoot fun b => { b with retraining := (s, p.now) :: b.retraining.filter fun e => decide (e.1 ≠ s) }
  if isMesh s then
    let clear (e : Nat) (r : Router) : Router := { r with
      sent := r.sent.filter fun x => decide (x.1 / 256 ≠ e), tx := Tab.set e [] r.tx,
      creditIn := r.creditIn.filter fun x => decide (x.1 / 256 ≠ e), link := Tab.upd link0 e (fun l => { l with buf := [] }) r.link }
    each (dataEdges s) (fun e p => (p.modRtr s (clear e)).modRtr (farEdge s e).1 (clear (farEdge s e).2)) p
  else p

/-- The unscheduled accesses that a die reset ends: the check engine's scan (R443), and at a full reset general accesses too, a
service request's with the cell that asked (R445), the others refused. -/
def dropAccesses (keep : Bool) (s : Nat) (p : Panel) : Panel :=
  let stays (x : UPart) : Bool := decide (x.agent ≠ .check) && (keep || decide (x.agent ≠ .general))
  let p := each (coresOf s) (fun k p => p.modCore k fun c => { c with parts := c.parts.filter stays }) p
  let lost (g : GenAcc) : Bool := decide (g.site = s) && (match g.who with | .service _ => true | _ => false)
  if keep then p
  else { p with gen := (p.gen.filter fun g => !lost g).map fun g =>
    if g.site = s then { g with left := 0, due := 0, status := 1 } else g }

/-- What a die reset does to a Sieve: the pass is abandoned, the lanes are EMPTY (R443); SSTAT's passes start again, and it reads
aborted where there was a pass or an emission (R241; log 65). -/
def resetSieve (v : Sieve) : Sieve :=
  { v with
    st := if v.busy then .aborted else .idle, armed := false, emit := [], heldFrom := none, lane := [], passes := 0,
    ctr := { v.ctr with aborted := v.ctr.aborted + (if v.busy then 1 else 0) } }

/-- A die reset begins (R443, R445, R446): of a partition reset, of a removal, or by itself. -/
def startDieReset (s : Nat) (part removal : Option Nat) (p : Panel) : Panel :=
  let keep := keepsTransit p (removal.or (p.partOf s)) s
  let p := { p with rst := Tab.set s ⟨keep, part, removal⟩ p.rst }
  let p := if isCompute s then each (coresOf s) (fun k p => (coreReset k p).modCore k fun c => { c with kvmap := [] }) (forgetPages s p) else p
  let p := if keep then (flushTracks s p).2 else p
  let p := p.modRtr s (resetRouter keep)
  let p := if isCompute s then
      let p := p.modStk s fun k => { k with reqs := [], granted := (0, []), passAt := none, rows := [] }
      p.modSve s resetSieve
    else p
  let p := if isCompute s then dropAccesses keep s (resetChecks s p) else p
  let p := p.modDie s fun x => { x with rel := none, sent := none, running := false, liveSet := [] }
  if keep then p else dropLinks s p

/-- What a partition reset clears of a core beyond a die reset (R443, R453). -/
def partCore (c : Core) : Core :=
  { c with
    base := 0, limit := 0, stg := 0, pstride := 0, discard := default, missDue := 0, loaded := false, ran := false,
    a := { c.a with
      frec := default, wctr := default, ra := default, arith := default, wnctr := default, kv := default, sctr := default,
      win := c.a.win.map fun e => (e.1, { e.2 with gen := 0 }) } }

/-- A die reset completes (R445, R446): the scratchpads are clear, the cores stopped; at partition level the program stores
are zeroed as well. -/
def endDieReset (s : Nat) (t : State) : State :=
  match Tab.find? t.p.rst s with
  | none => t
  | some x =>
    let t := if isCompute s then
        each (coresOf s) (fun k t =>
          let m := t.mem.clear (gaScratch k 0) (gaScratch k scratchBytes)
          { t with
            mem := if x.part.isSome then m.clear (gaProgram k 0) (gaProgram k programBytes) else m,
            p := t.p.modCore k fun c =>
              let c := { c with clearing := 0, a := { c.a with run := .stopped } }
              if x.part.isSome then partCore c else c }) t
      else t
    t.onP fun p =>
      let p := pumpSite s (restartClock s { p with rst := Tab.del s p.rst })
      let p := p.modRctr s fun c => { c with
        die := c.die + 1, full := c.full + (if x.keep then 0 else 1), kept := c.kept + (if x.keep then 1 else 0) }
      match x.part with
      | some n =>
        let p := if isCompute s then p.modStk s fun k => { k with fast := false } else p
        p.modPart n fun y => { y with pack := y.pack.map fun u => { u with resets := u.resets.filter fun z => decide (z ≠ s) } }
      | none =>
        let p := match x.removal with | some n => zeroise n s p | none => p
        raise 0x0D15 s s none p

/-- DIE_RESET_DONE. `fell`: the links retrain, and saved settings failed (R424, R445). -/
def execDieResetDone (die : Nat) (fell : Bool) (s : State) : Out :=
  s.run (isDie die) fun s =>
    let full : Bool := match Tab.find? s.p.rst die with | some x => !x.keep | none => false
    let s := endDieReset die s
    if full && fell && !s.p.boot.fellBack.contains die then
      s.onP fun p => raise 0x0D07 die die none (p.modBoot fun b => { b with fellBack := die :: b.fellBack })
    else s

/-- Why a core or die reset is refused (R446): 0 where it is not. -/
def resetRefused (p : Panel) (s : Nat) : Nat :=
  if ¬ siteReachable p s then abortOf 0x0A 1 0
  else if packing p s || (match p.regionOf s with | some r => decide ((p.getReg r).phase = .active) | none => false) then abortOf 0x09 1 0
  else 0

/-- Write a site's reset command (R446, R455). Gives the abort code. -/
def writeReset (s x : Nat) (p : Panel) : Nat × Panel :=
  if x = 0 ∨ 16 < x then (abortOf 0x04 1 0, p)
  else if resetRefused p s ≠ 0 then (resetRefused p s, p)
  else if x = 16 then (0, if (Tab.find? p.rst s).isSome then p else startDieReset s none none p)
  else (0, each ((List.range 4).filter x.testBit) (fun c => coreReset (4 * s + c)) p)

/-- CORE_RESET_COMMAND (R446). -/
def execCoreResetCommand (cs mask : Nat) (s : State) : Out :=
  s.runP (isCompute cs) fun p => if mask < 16 then (writeReset cs mask p).2 else p

/-- DIE_RESET_COMMAND (R446). -/
def execDieResetCommand (cs : Nat) (s : State) : Out := s.runP (isCompute cs) fun p => (writeReset cs 16 p).2

/-- The sites of a member bitmap. -/
def bitSites (m : BitVec 256) : List Nat := (List.range 256).filter fun s => bit m s

/-- The first field of the record with a site that is no compute site (R440, R455). -/
def badField (m : BitVec 256) : Option Nat := ((bitSites m).find? fun s => !isCompute s).map fun s => 3 + s / 64

/-- Form a FREE partition: a key, its members, the event (R438, R440); without entropy the formation waits (R464). -/
def formPartition (n : Nat) (m : BitVec 256) (p : Panel) : Panel :=
  if healthy p then
    let ms := bitSites m
    let p := newKey n (p.modPart n fun x => { x with phase := .formed, members := ms, waiting := none })
    placePartKeys n (bumpGen (raise 0x0D10 0xFF (keyPart n) none (each ms (addMember n) p)))
  else p.modPart n fun x => { x with waiting := some m }

/-- Commit a partition record (R440, R442). Gives the abort code. -/
def commitPartition (n : Nat) (sealed : Bool) (m : BitVec 256) (p : Panel) : Nat × Panel :=
  let x := p.getPart n
  let ms := bitSites m
  let added := ms.filter fun s => !x.members.contains s
  let gone := x.members.filter fun s => !ms.contains s
  let refuse := (abortOf 0x09 1 0, p)
  if x.phase = .packing then refuse
  else match badField m with
    | some f => (abortOf 0x04 1 f, p)
    | none =>
      if added.any fun s => decide (p.ust s ≠ .ready) || (p.partOf s).isSome || (Tab.find? p.rst s).isSome then refuse
      else if gone.any fun s => (p.regionOf s).isSome then refuse
      else if x.phase = .formed ∧ ms.isEmpty = true then (abortOf 0x06 1 0, p)
      else if x.phase = .formed ∧ x.sealed = true ∧ ¬ sealed then refuse
      else
        let p := p.modPart n fun x => { x with sealed := sealed }
        if x.phase = .free then (0, if ms.isEmpty then p.modPart n fun x => { x with waiting := none } else formPartition n m p)
        else
          let p := p.modPart n fun x => { x with members := ms, removing := x.removing ++ gone }
          let p := each added (addMember n) p
          let p := if added.isEmpty then p else bumpGen p
          (0, each gone (fun s p => startDieReset s none (some n) (setGroup (0x40 + n) false [s] p)) p)

/-- PARTITION_RECORD_COMMIT with the record's sealed setting and member bitmap (R440, R455). -/
def execPartitionRecordCommit (part : Nat) (sealed : Bool) (members : BitVec 256) (s : State) : Out :=
  s.runP (isPart part) fun p => (commitPartition part sealed members p).2

/-- MEMBER_ERASE_DONE: zero row words with valid lane checks stand over the whole stack (R440). -/
def execMemberEraseDone (cs : Nat) (s : State) : Out :=
  s.run (isCompute cs) fun s =>
    match List.find? (fun e : Nat × Part => e.2.removing.contains cs) s.p.part with
    | none => s
    | some e =>
      if (Tab.find? s.p.rst cs).isSome then s
      else
        { s with
          mem := s.mem.clear (gaStack cs 0) (gaStack cs (stackBytes s.p.variant)),
          p :=
            let p := s.p.modPart e.1 fun x => { x with removing := x.removing.filter fun y => decide (y ≠ cs) }
            let p := p.modStk cs fun k => { k with tags := [], spare := k.spare.map fun y => (y.1, Spare.withPmask 0 y.2) }
            raise 0x0D16 cs cs none (bumpGen (serveSite .ready cs p)) }

/-- KEY_LOAD_TIMEOUT: a base die has not acknowledged a load of a partition's key within 10 µs (R467); a substitute
becomes unusable (R225). -/
def execKeyLoadTimeout (part cs : Nat) (s : State) : Out :=
  s.runP (isPart part && isCompute cs) fun p =>
    match (p.getPart part).loading.find? fun e => decide (e.1 = cs) with
    | none => p
    | some e =>
      if p.now < e.2 + 1000 then p
      else
        let p := p.modPart part fun x => { x with
          loading := x.loading.filter (fun y => decide (y.1 ≠ cs)),
          pack := x.pack.map fun u => { u with loads := u.loads.filter fun y => decide (y ≠ cs) } }
        let p := raise 0x0B09 cs (keyStack cs) none (moveUnit cs .failed 0x0B09 (zeroise part cs p))
        match p.regionOf cs with
        | some r => if ((p.getReg r).moved.any fun y => decide (y.2 = cs)) = true then raise 0x070C cs (keyRegion r) none p else p
        | none => p

/-- A site's copies stop, its partition packing up (R448): GA_REFUSED with the bytes written so far. -/
def stopCopies (n : Nat) (p : Panel) : Panel :=
  let hit (c : Copy) : Bool :=
    decide (p.partOf (Ga.site c.ga) = some n)
      || (decide (Ga.space c.ga = 0) && decide (rangeOf (p.getStk (Ga.site c.ga)) (Ga.off c.ga / 256) = some n))
  each (p.host.copies.filter hit) (fun c => endCopy c 0x11 c.block (4096 * c.block)) p

/-- RESET and DISSOLVE of a partition: pack-up begins (R446, R447). Gives the abort code. -/
def startPackup (n : Nat) (dissolve : Bool) (p : Panel) : Nat × Panel :=
  let x := p.getPart n
  if x.phase ≠ .formed then (abortOf 0x09 1 0, p)
  else
    let up : PackUp :=
      ⟨1, dissolve, p.now, p.now, cfg p 0x4044 0 1, x.members.filter fun s => decide (p.ust s = .failed), [], [], []⟩
    let p := p.modPart n fun x => { x with
      phase := .packing, pack := some up, stat := { x.stat with lastStep := 1, drain := 0, absorbed := 0, cut := 0, total := 0 } }
    let p := raise 0x0D11 0xFF (keyPart n) none p
    let p := endSessions (fun y => decide (y.scope = n) && decide (y.level ≠ .b)) endedClose (stopCopies n p)
    (0, each (p.reg.filter fun e => decide (e.2.part = n) && decide (e.2.phase = .active)) (fun e => immediateFreeze e.1 0x0D11) p)

/-- PARTITION_RESET (R447). -/
def execPartitionReset (part : Nat) (s : State) : Out := s.runP (isPart part) fun p => (startPackup part false p).2
/-- PARTITION_DISSOLVE (R447). -/
def execPartitionDissolve (part : Nat) (s : State) : Out := s.runP (isPart part) fun p => (startPackup part true p).2

/-- Write the partition control (R455). Gives the abort code. -/
def writePartControl (n x : Nat) (p : Panel) : Nat × Panel :=
  if x = 1 ∨ x = 2 then startPackup n (decide (x = 2)) p else (abortOf 0x04 1 0, p)

/-- Is an edge output track one whose cells of a partition are outbound: a member's toward a non-member, or the output of one of the
partition's transit entries (R448)? -/
def outTrack (n : Nat) (p : Panel) (s out : Nat) : Bool :=
  let ms := (p.getPart n).members
  !ms.contains (farEnd s out).1
    && (ms.contains s || (p.getRtr s).transit.any fun e => transitV e.2 && decide (fld e.2 27 24 = n ∧ fld e.2 15 8 = out))

/-- The outbound cells on links: on the way from a link to a VC queue, with the die and the input code (R448). -/
def outLinks (n : Nat) (p : Panel) : List (Nat × Nat × List Cell) :=
  p.rtr.flatMap fun e => e.2.wire.filterMap fun w =>
    let f := farEnd e.1 w.1
    let l := if outTrack n p f.1 f.2 then w.2.filter fun c => decide (CellF.part c = n) else []
    if l.isEmpty then none else some (e.1, w.1, l)

/-- Is a cell that waits for a flit on an edge, or in its replay buffer, outbound (R448)? -/
def outCell (n : Nat) (p : Panel) (s e : Nat) (c : Nat × Cell) : Bool :=
  decide (CellF.part c.2 = n) && outTrack n p s (32 * e + c.1)

/-- The outbound cells that no far end has accepted: the far die, its input code, the cell (R448). -/
def outSent (n : Nat) (p : Panel) : List (Nat × Nat × List Cell) :=
  p.rtr.flatMap fun r => (dataEdges r.1).flatMap fun e =>
    ((Tab.get [] r.2.tx e ++ (pendingFlits p r.1 e).flatMap (·.cells)).filter (outCell n p r.1 e)).map fun c =>
      let f := farEnd r.1 (32 * e + c.1)
      (f.1, f.2, [c.2])

/-- Discard them. -/
def dropSent (n : Nat) (p : Panel) : Panel :=
  let stays (s e : Nat) (l : List (Nat × Cell)) : List (Nat × Cell) := l.filter fun c => !outCell n p s e c
  { p with rtr := p.rtr.map fun r => (r.1, { r.2 with
    tx := r.2.tx.map fun e => (e.1, stays r.1 e.1 e.2),
    link := r.2.link.map fun e => (e.1, { e.2 with buf := e.2.buf.map fun x => { x with cells := stays r.1 e.1 x.cells } }) }) }

/-- The cells that transit entries of a partition hold: the die, the input code, the cells (R448). -/
def outTransits (n : Nat) (p : Panel) : List (Nat × Nat × List Cell) :=
  p.rtr.flatMap fun e => (e.2.held.filter fun h => decide (fld (Tab.get 0 e.2.transit h.1) 27 24 = n)).map fun h =>
    (e.1, fld (Tab.get 0 e.2.transit h.1) 23 16, [h.2])

/-- The cells of a partition in a member's service queues (R448). -/
def outService (n : Nat) (p : Panel) : List Cell :=
  (p.getPart n).members.flatMap fun s =>
    let r := p.getRtr s
    (r.svcq.flatMap (·.2) ++ r.reply ++ ((r.inq.filter fun e => decide (e.1 % 8 = 7)).flatMap (·.2))).filter fun c => decide (CellF.part c = n)

/-- Outbound cells that remain (R448). -/
def outbound (n : Nat) (p : Panel) : Nat :=
  ((outLinks n p ++ outSent n p ++ outTransits n p).map fun e => e.2.2.length).sum + (outService n p).length

/-- The sender's counts of the track that fed an input code, for the VCs whose cells were cut: what the far end still holds
(R449; log 32). -/
def settleTrack (e : Nat × Nat × List Cell) (p : Panel) : Panel :=
  let f := farEnd e.1 e.2.1
  each ((e.2.2.map CellF.vc).eraseDups) (fun v p =>
    p.modRtr f.1 fun r => { r with sent := Tab.set (8 * f.2 + v) (outstanding p f.1 f.2 v) r.sent }) p

/-- The cut: outbound cells are discarded where they are, counts reconciled, the partition's transit entries on non-members
made invalid (R447, R449). -/
def cutPartition (n : Nat) (p : Panel) : Panel :=
  let count := outbound n p
  let links := outLinks n p
  let held := outSent n p ++ outTransits n p
  let svc := outService n p
  let ms := (p.getPart n).members
  let mine (c : Cell) : Bool := decide (CellF.part c = n)
  let p := each links (fun e p => p.modRtr e.1 fun r => { r with wire := Tab.upd [] e.2.1 (fun l => l.filter fun c => !mine c) r.wire }) p
  let p := each (p.rtr.map (·.1)) (fun s p => p.modRtr s fun r => { r with
    inq := if ms.contains s then r.inq.map (fun e => (e.1, e.2.filter fun c => !(mine c && decide (e.1 % 8 = 7)))) else r.inq,
    held := r.held.filter (fun h => decide (fld (Tab.get 0 r.transit h.1) 27 24 ≠ n)),
    svcq := if ms.contains s then r.svcq.map fun e => (e.1, e.2.filter fun c => !mine c) else r.svcq,
    reply := if ms.contains s then r.reply.filter fun c => !mine c else r.reply }) p
  let p := each (links ++ held) settleTrack p
  let p := each svc answerCut p
  let p := each ((p.rtr.map (·.1)).filter fun s => !ms.contains s) (fun s p => p.modRtr s fun r => { r with
    transit := r.transit.filter fun e => decide (fld e.2 27 24 ≠ n) }) p
  let p := p.modPart n fun x => { x with stat := { x.stat with cut := x.stat.cut + count } }
  if 0 < count then raise 0x0D12 0xFF (keyPart n) none p else p

/-- The step of a pack-up, with its start tick. -/
def setStep (n k : Nat) (p : Panel) : Panel :=
  p.modPart n fun x => { x with pack := x.pack.map fun u => { u with step := k, since := p.now }, stat := { x.stat with lastStep := k } }

def modPack (n : Nat) (f : PackUp → PackUp) (p : Panel) : Panel := p.modPart n fun x => { x with pack := x.pack.map f }

/-- The members that are not FAILED. -/
def liveMembers (n : Nat) (p : Panel) : List Nat := (p.getPart n).members.filter fun s => decide (p.ust s ≠ .failed)

/-- Step 2: every query of the partition is cancelled under a new epoch (R260, R447). -/
def cancelQueries (n : Nat) (p : Panel) : Panel :=
  each ((liveQueries p).filter fun e => decide (e.2.part = n)) (fun e p =>
    if (p.getQuery e.1).posted then advanceEpoch e.1 p else failBound e.1 1 p) p

/-- Is a query's completion written, or held for want of room (R327)? -/
def completionOut (p : Panel) (q : Nat) : Bool :=
  (p.getQuery q).written || (p.getFn (p.getQuery q).fn).held.any fun h => decide (h.qid = some q)

/-- The base dies that a pack-up zeroises: members', and those with a range of the partition, where not FAILED (R447). -/
def zeroiseDies (n : Nat) (p : Panel) : List Nat :=
  (computeSites.filter fun s =>
    (p.getPart n).members.contains s || (p.getStk s).ranges.any fun x => decide (x.part = n)).filter fun s => decide (p.ust s ≠ .failed)

/-- What R453 clears of a partition, and its regions (R209). -/
def clearPartition (n : Nat) (dissolve : Bool) (p : Panel) : Panel :=
  let p := each ((p.reg.filter fun e => decide (e.2.part = n) && decide (e.2.phase ≠ .free)).map (·.1)) (fun r p =>
    (dissolveRegion r (p.modReg r fun g => { g with phase := if g.phase = .active then .frozen else g.phase })).2) p
  let p := each ((p.ret.dir.map (·.1)).filter fun i => decide (dirOwner p i = some n)) (fun i p => p.modDir i fun _ => dirEntry0) p
  let drop (i : Nat) (p : Panel) : Panel := p.modOd fun o => { o with val := Tab.del (256 * i + n) o.val }
  let p := (drop 0x8002 p).modAcct n fun a => { a with balance := 0, queue := [] }
  if dissolve then
    let p := (drop 0x8001 (drop 0x3005 p)).modPart n fun x => { x with sealed := false }
    each [0, 1] (fun g p =>
      let b := odBytes p 0xB040 g
      if (b.headD 0).toNat = n then
        odPut 0xB040 g (0xFF :: (b.drop 1).take 15 ++ (List.range 384).map fun i =>
          if 8 ≤ i % 24 ∧ i % 24 < 16 then 0 else b.getD (16 + i) 0) p
      else p) p
  else p

/-- Step 7 begins: the members' state, and for RESET a new key, its load under way (R447); without entropy it waits
(R464). -/
def formAgain (n : Nat) (p : Panel) : Panel :=
  if healthy p then
    let p := newKey n p
    let ms := (liveMembers n p).filter fun s => !isHamperPos s
    modPack n (fun u => { u with loads := ms }) (each ms (loadKey n) p)
  else p

/-- A pack-up ends: members and hampers in their states, the phase, the event (R447). -/
def endPackup (n : Nat) (u : PackUp) (p : Panel) : Panel :=
  let ms := (p.getPart n).members
  let hampers := ms.filter isHamperPos
  let p := each (hampers.filter fun s => decide (p.ust s ≠ .failed)) (serveSite .hamper) p
  let p := setGroup (0x40 + n) false (if u.dissolve then ms else hampers) p
  let p := each ((liveMembers n p).filter fun s => !isHamperPos s) (serveSite (if u.dissolve then .ready else .assigned)) p
  let failed := (ms.filter fun s => decide (p.ust s = .failed) && !u.failed0.contains s).length
  let p := p.modPart n fun x => { x with
    phase := if u.dissolve then .free else .formed, pack := none, key := if u.dissolve then none else x.key,
    members := if u.dissolve then [] else x.members.filter fun s => !isHamperPos s,
    stat := { x.stat with
      resets := x.stat.resets + (if u.dissolve then 0 else 1), total := p.now - u.start, failed := x.stat.failed + failed } }
  let p := if hampers.isEmpty then p else bumpGen p
  raise 0x0D13 0xFF (keyPart n) none p

/-- The step in progress is complete: the next begins (R447). -/
def nextStep (n : Nat) (u : PackUp) (s : State) : State :=
  match u.step with
  | 1 =>
    if (liveMembers n s.p).all fun m => (coresOf m).all (coreIdle s.p) then s.onP fun p => cancelQueries n (setStep n 2 p) else s
  | 2 =>
    let qs := (liveQueries s.p).filter fun e => decide (e.2.part = n)
    if (qs.all fun e => completionOut s.p e.1) && s.p.ctl.epochs.all fun e => decide (e.part ≠ n) || e.trun || e.missing.isEmpty then
      s.onP fun p => setStep n 3 (each qs (fun e p => { p with ret := { p.ret with
        query := Tab.set e.1 { query0 with epoch := (p.getQuery e.1).epoch } p.ret.query,
        order := p.ret.order.filter fun y => decide (y ≠ e.1) } }) p)
    else s
  | 3 => if outbound n s.p = 0 then s.onP (toCut n) else s
  | 4 => s.onP fun p => modPack n (fun u => { u with zeroise := zeroiseDies n p }) (setStep n 5 p)
  | 5 =>
    s.onP fun p =>
      let p := each (u.zeroise.filter fun m => decide (p.ust m ≠ .failed)) (zeroise n) p
      let p := setStep n 6 (clearPartition n u.dissolve (p.modPart n fun x => { x with key := none }))
      let ms := liveMembers n p
      modPack n (fun u => { u with resets := ms }) (each ms (fun m p => startDieReset m (some n) none (serveSite .assigned m p)) p)
  | 6 =>
    if u.resets.all fun m => decide (s.p.ust m = .failed) then
      s.onP fun p => if u.dissolve then endPackup n u (setStep n 7 p) else formAgain n (setStep n 7 p)
    else s
  | _ => if (s.p.getPart n).key.isSome then s.onP (endPackup n u) else s
where
  /-- The drain ends and the cut is made. -/
  toCut (n : Nat) (p : Panel) : Panel :=
    let from_ : Nat := match (p.getPart n).pack with | some u => u.since | none => 0
    let p := p.modPart n fun x => { x with stat := { x.stat with drain := p.now - from_ } }
    cutPartition n (setStep n 4 p)

/-- PACKUP_STEP_DONE (R447). -/
def execPackupStepDone (part : Nat) (s : State) : Out :=
  s.run (isPart part) fun s =>
    match (s.p.getPart part).pack with
    | none => s
    | some u => nextStep part u s

/-- PACKUP_DRAIN_LIMIT: the drain limit has passed in step 3 (R447). -/
def execPackupDrainLimit (part : Nat) (s : State) : Out :=
  s.runP (isPart part) fun p =>
    match (p.getPart part).pack with
    | none => p
    | some u => if u.step = 3 ∧ u.since + u.limit ≤ p.now then nextStep.toCut part p else p

/-- KEY_ZEROISE_TIMEOUT: a base die has not acknowledged the zeroise within 10 µs (R451). -/
def execKeyZeroiseTimeout (part cs : Nat) (s : State) : Out :=
  s.runP (isPart part && isCompute cs) fun p =>
    match (p.getPart part).pack with
    | none => p
    | some u =>
      if u.step = 5 ∧ u.zeroise.contains cs = true ∧ u.since + 1000 ≤ p.now then
        raise 0x0D14 cs cs none (moveUnit cs .failed 0x0D14
          (modPack part (fun u => { u with zeroise := u.zeroise.filter fun x => decide (x ≠ cs) }) p))
      else p

end Sys2Proof.Machine
end

