-- ==== Sys2Proof/Machine/Security.lean ====
section
/-! DEFINITION. Entropy, measurements, reports, firmware images, and the guests' firewall (R456-R464, R474-R480). -/

namespace Sys2Proof.Machine

/-- ENTROPY_FAILED at a hub (R464). -/
def execEntropyFailed (hub : Nat) (s : State) : Out :=
  s.runP (isHub hub) fun p => raise 0x0B01 hub hub none (p.modSec fun c => { c with healthy := Tab.set (hubNum hub) false c.healthy })

/-- What waited for the entropy source goes on: formations, and step 7 of a RESET (R464). -/
def resumeKeys (p : Panel) : Panel :=
  each (List.range 16) (fun n p =>
    let x := p.getPart n
    match x.waiting, x.pack with
    | some m, _ => (commitPartition n x.sealed m p).2
    | none, some u => if u.step = 7 ∧ ¬ u.dissolve ∧ x.key.isNone = true then formAgain n p else p
    | none, none => p) p

/-- ENTROPY_RETEST of a hub's stopped source: `ok` is what the health tests find (R464). -/
def execEntropyRetest (hub : Nat) (ok : Bool) (s : State) : Out :=
  s.runP (isHub hub) fun p =>
    if Tab.get true p.sec.healthy (hubNum hub) ∨ ¬ ok then p
    else
      let p := p.modSec fun c => { c with healthy := Tab.del (hubNum hub) c.healthy }
      if hubNum hub = p.book.active then resumeKeys p else p

/-- Write the measurement extend object (R460, R480). Gives the abort code. -/
def writeExtend (i : Nat) (b : List Byte) (p : Panel) : Nat × Panel :=
  if i < 5 then (abortOf 0x02 2 0, p) else (0, extend p.book.active i b p)

/-- MEASUREMENT_EXTEND (R460). -/
def execMeasurementExtend (i : Nat) (digest : BitVec 384) (s : State) : Out :=
  s.runP true fun p => if i < 8 then (writeExtend i (leBytes 48 digest.toNat) p).2 else p

/-- The scope that a report names: 255 the panel (R463). -/
def scopeKeyGen (p : Panel) (scope : Nat) : Nat := if scope < 16 then (p.getPart scope).keyGen else 0

/-- What a report says, in the order of R463: serial number, subject hub, subject key (the session's where it is a management
session, else the Alias key), M0 to M3 with the image's version and SVN, nonce, M4 to M7, hub, takeover generation, floor
plan generation, variant, scope, key generation, minimum SVN, and the key and nonce of the signature. -/
def reportOf (p : Panel) (x : Session) (nonce : List Byte) (k : List Byte) : List (List Byte) :=
  let h := p.book.active
  let m := imageOf p (Tab.get 0 p.boot.image h)
  [leBytes 8 (Tab.get 0 p.sec.reports h + 1), leBytes 1 h,
   if x.slot < 16 then x.eph else publicOf (Tab.get 0 p.sec.alias_ h), measOf p h 0, measOf p h 1, leBytes 4 m.version,
   leBytes 2 m.svn, measOf p h 2, measOf p h 3, nonce, measOf p h 4, measOf p h 5, measOf p h 6, measOf p h 7, leBytes 1 h,
   leBytes 1 p.book.tgen, leBytes 4 p.boot.generation, leBytes 1 p.variant, leBytes 1 x.scope, leBytes 4 (scopeKeyGen p x.scope),
   leBytes 1 p.sec.minSvn, publicOf (Tab.get 0 p.sec.alias_ h), k]

/-- A session writes a nonce: the active hub signs a report (R463). -/
def signReport (x : Session) (nonce : List Byte) (p : Panel) : Panel :=
  let v := freeBytes 56 p
  v.2.modSec fun c => { c with
    reports := Tab.upd 0 p.book.active (· + 1) c.reports, report := Tab.set x.slot (reportOf p x nonce v.1) c.report }

/-- REPORT_NONCE_WRITE by the session in a slot (R463). -/
def execReportNonceWrite (slot : Nat) (nonce : BitVec 384) (s : State) : Out :=
  s.runP true fun p =>
    match p.od.sessions.find? fun x => decide (x.slot = slot) with
    | some x => signReport x (leBytes 48 nonce.toNat) p
    | none => p

/-- Does a hub run an image (R474)? A takeover holds hub A in reset. -/
def imageInUse (p : Panel) (i : Nat) : Bool :=
  (List.range 2).any fun h => decide (Tab.get 0xFE p.boot.image h = i) && !(p.book.tookOver && decide (h = 0))

/-- A sector write to NOR: checked against the hold-up bank (R394). -/
def norSector (p : Panel) : Bool × Panel :=
  if holdupOk p estNor then (true, p.modPwr fun w => { w with checked := w.checked + 1, lastEst := estNor })
  else (false, holdupRefuse estNor p)

/-- The first segment of an image: sector 0 is erased (R474). Gives the abort code. -/
def beginImage (i slot : Nat) (p : Panel) : Nat × Panel :=
  if imageInUse p i then (abortOf 0x09 1 0, p)
  else
    let r := norSector p
    if r.1 then (0, r.2.modSec fun c => { c with
      imgWrite := some ⟨i, slot, 0⟩, image := Tab.upd image0 i (fun x => { x with valid := false }) c.image })
    else (abortOf 0x08 1 0, r.2)

/-- End an image write short: the image stays invalid (R474). -/
def dropImage (p : Panel) : Panel := p.modSec fun c => { c with imgWrite := none }

/-- Program the sectors after sector 0 that `got` bytes complete, or that `last` closes, each its own commit (R474). Gives the
abort code. -/
def feedImage (got : Nat) (last : Bool) : Nat → Panel → Nat × Panel
  | 0, p => (0, p)
  | fuel + 1, p =>
    match p.sec.imgWrite with
    | none => (abortOf 0x09 4 0, p)
    | some w =>
      let full := (if last then ceilDiv got 65536 else got / 65536) - 1
      if full ≤ w.sectors then (0, p)
      else
        let r := norSector p
        if r.1 then feedImage got last fuel (r.2.modSec fun c => { c with imgWrite := some { w with sectors := w.sectors + 1 } })
        else (abortOf 0x08 1 0, dropImage r.2)

/-- The checks of R459 on an image's bytes, on a panel. -/
def imageChecks (p : Panel) (b : List Byte) : Bool :=
  let n (o k : Nat) : Nat := leNat ((b.drop o).take k)
  let slot := n 10 1
  let body := b.drop 4096
  decide (4096 ≤ b.length) && decide (n 0 4 = 0x474D594C) && decide (n 260 4 = (crcHost (b.take 260)).toNat)
    && decide (slot < 4) && p.sec.programmed.testBit slot && !p.sec.revoked.testBit slot && decide (p.sec.minSvn ≤ n 8 2)
    && decide (n 12 4 ≤ 16773120) && decide (n 12 4 ≤ body.length) && decide ((b.drop 16).take 48 = sha384 (body.take (n 12 4)))
    && decide (sha384 ((b.drop 160).take 97) = Config.slotHash slot) && ecVerify ((b.drop 160).take 97) ((b.drop 64).take 96) (b.take 64)

/-- The last sector is in: sector 0 is programmed, the image checked and its status recorded (R474). Gives the abort code. -/
def endImage (b : List Byte) (p : Panel) : Nat × Panel :=
  match p.sec.imgWrite with
  | none => (abortOf 0x09 4 0, p)
  | some w =>
    let r := norSector p
    if ¬ r.1 then (abortOf 0x08 1 0, dropImage r.2)
    else
      let n (o k : Nat) : Nat := leNat ((b.drop o).take k)
      let ok := imageChecks r.2 b
      let p := r.2.modSec fun c => { c with
        imgWrite := none, image := Tab.set w.image ⟨sha384 (b.take 264 ++ (b.drop 4096).take (n 12 4)), ok, n 4 4, n 8 2, n 10 1⟩ c.image }
      (0, if ok then p else raise 0x0B02 p.activeHub keyPanel none p)

/-- A whole image (R474). Gives the abort code. -/
def writeImage (i slot : Nat) (b : List Byte) (p : Panel) : Nat × Panel :=
  let r := beginImage i slot p
  if r.1 ≠ 0 then r
  else
    let f := feedImage b.length true 257 r.2
    if f.1 ≠ 0 then f else endImage b f.2

/-- BOOT_IMAGE_WRITE of image `i` (0 A, 1 B) by the session in a slot, its bytes in order (R474). -/
def execBootImageWrite (i slot : Nat) (data : List Byte) (s : State) : Out :=
  s.runP true fun p => if i < 2 ∧ data ≠ [] ∧ data.length ≤ 16777216 then (writeImage i slot data p).2 else p

/-- RAISE_MIN_SVN (R475). Gives the abort code. -/
def raiseSvn (p : Panel) : Nat × Panel :=
  let run := Tab.get 0xFE p.boot.image p.book.active
  let svn := (imageOf p run).svn
  let bad (i : Nat) : Bool := !(imageOf p i).valid || decide ((imageOf p i).svn < svn)
  if 2 ≤ run ∨ bad 0 = true ∨ bad 1 = true ∨ p.sec.imgWrite.isSome = true then (abortOf 0x09 1 0, p)
  else (0, raise 0x0B0A p.activeHub keyPanel none (p.modSec fun c => { c with minSvn := max c.minSvn svn }))

/-- Revoke a signing slot (R475). Gives the abort code. -/
def revokeSlot (n : Nat) (p : Panel) : Nat × Panel :=
  let uses (i : Nat) : Bool := (imageOf p i).valid && decide ((imageOf p i).slot = n)
  if uses 0 ∨ uses 1 then (abortOf 0x09 1 0, p)
  else (0, raise 0x0B0B p.activeHub keyPanel none (p.modSec fun c => { c with revoked := c.revoked ||| 2 ^ n }))

/-- Write the image control object (R475, R480). Gives the abort code. -/
def writeImageControl (x : Nat) (p : Panel) : Nat × Panel :=
  if x = 1 then raiseSvn p else if 2 ≤ x ∧ x ≤ 5 then revokeSlot (x - 2) p else (abortOf 0x04 1 0, p)

def execRaiseMinSvn (s : State) : Out := s.runP true fun p => (raiseSvn p).2
/-- REVOKE_SIGNING_SLOT of slot 0 to 3 (R475). -/
def execRevokeSigningSlot (slot : Nat) (s : State) : Out := s.runP true fun p => if slot < 4 then (revokeSlot slot p).2 else p

/-- The site of guest 0 or 1 (R11). -/
def guestSite (g : Nat) : Nat := if g = 0 then 0x0D else 0xD0

namespace Bind

/-- Fields of a guest's binding (R477). -/
def part (b : List Byte) : Nat := (b.headD 0xFF).toNat
def rate (b : List Byte) : Nat := leNat ((b.drop 4).take 4)
def burst (b : List Byte) : Nat := leNat ((b.drop 8).take 4)
def vlim (b : List Byte) : Nat := leNat ((b.drop 12).take 4)
def base (b : List Byte) (w : Nat) : Nat := leNat ((b.drop (16 + 24 * w)).take 8)
def len (b : List Byte) (w : Nat) : Nat := leNat ((b.drop (24 + 24 * w)).take 8)
def rights (b : List Byte) (w : Nat) : Nat := (b.getD (32 + 24 * w) 0).toNat
/-- Does a window grant an operation (1 read, 2 write) on every byte of an access? -/
def grants (b : List Byte) (op a n : Nat) : Bool :=
  decide (op = 1 ∨ op = 2) && (List.range 16).any fun w =>
    decide (base b w ≤ a) && decide (a + n ≤ base b w + len b w) && (rights b w).testBit (op - 1)

end Bind

/-- A guest's bucket now (R478). -/
def bucketNow (p : Panel) (g : Nat) : Nat :=
  let x := p.getGuest g
  let b := odBytes p 0xB040 g
  min (Bind.burst b) (x.bucket + (p.now - x.filledAt) * Bind.rate b)

/-- A response of the firewall itself: STATUS 1 (R478). -/
def refuseCell (g : Nat) (c : Cell) : Cell := ⟨CellF.mk 4 7 0 0 0 (guestSite g) 0 0 0 0 0, BitVec.ofNat 320 (2 ^ 16 + svcTag c)⟩

/-- Answer a guest. -/
def answerGuest (g : Nat) (c : Cell) (p : Panel) : Panel := p.modGuest g fun x => { x with answers := x.answers ++ [c] }

/-- A guest is fenced (R478): its site FENCED, its link held down. -/
def fenceGuest (g : Nat) (p : Panel) : Panel :=
  let s := guestSite g
  let p := moveUnit s .fenced 0x0B08 p
  raise 0x0B08 s s none (p.modGuest g fun x => { x with linkUp := false, held := [], fences := x.fences + 1 })

/-- A refusal of the firewall (R478). -/
def refuseGuest (g : Nat) (c : Cell) (p : Panel) : Panel :=
  let sec := spanIdx .second p.now
  let p := (answerGuest g (refuseCell g c) p).modGuest g fun x => { x with
    refusals := x.refusals + 1, inSecond := if x.second = sec then x.inSecond + 1 else 1, second := sec }
  let p := raise 0x0B07 (guestSite g) (guestSite g) none p
  let v := Bind.vlim (odBytes p 0xB040 g)
  if 0 < v ∧ v < (p.getGuest g).inSecond ∧ p.ust (guestSite g) ≠ .fenced then fenceGuest g p else p

/-- Do checks 5 and 6 pass (R478)? -/
def admits (p : Panel) (g : Nat) (c : Cell) : Bool :=
  decide ((p.getGuest g).outstanding.length < 64) && decide (Svc.len c ≤ bucketNow p g)

/-- Admit a request: it leaves the bucket and goes to its service path; with none it is refused as under R30 (R173, R478). -/
def admitGuest (g : Nat) (c : Cell) (p : Panel) : Panel :=
  let n := Svc.len c
  let part := Bind.part (odBytes p 0xB040 g)
  let left := bucketNow p g - n
  let p := p.modGuest g fun x => { x with
    bucket := left, filledAt := p.now, outstanding := x.outstanding ++ [svcTag c], admitted := x.admitted + 1, bytes := x.bytes + n }
  let req : Cell := ⟨CellF.mk 3 7 part 0 0 0 0 0 0 0 0, c.pay⟩
  match sendService g (svcTag c) req p with
  | some q => q
  | none =>
    gaRefuse (Ga.site (Svc.ga c)) ((answerGuest g (refuseCell g c) p).modGuest g fun x => { x with outstanding := x.outstanding.erase (svcTag c) })

/-- GUEST_REQUEST: a TYPE 3 cell from guest 0 or 1 (R476, R478). -/
def execGuestRequest (g : Nat) (c : Cell) (s : State) : Out :=
  s.runP (decide (g < 2)) fun p =>
    let b := odBytes p 0xB040 g
    let part := Bind.part b
    let a := Svc.ga c
    if CellF.typ c ≠ 3 ∨ ¬ (p.getGuest g).linkUp then p
    else if p.ust (guestSite g) = .fenced ∨ 16 ≤ part ∨ ¬ Bind.grants b (Svc.op c) a (Svc.len c)
        ∨ ¬ gaAllowed p ⟨false, some part⟩ a (Svc.len c) then refuseGuest g c p
    else if (p.getGuest g).held.isEmpty ∧ admits p g c = true then admitGuest g c p
    else p.modGuest g fun x => { x with held := x.held ++ [⟨c, p.now⟩] }

/-- GUEST_REQUEST_RELEASE: the oldest held request passes checks 5 and 6 (R478). -/
def execGuestRequestRelease (g : Nat) (s : State) : Out :=
  s.runP (decide (g < 2)) fun p =>
    match (p.getGuest g).held with
    | [] => p
    | h :: t =>
      if admits p g h.req then
        admitGuest g h.req (p.modGuest g fun x => { x with held := t, heldTicks := x.heldTicks + (p.now - h.since) })
      else p

/-- GUEST_LINK_UP: data rate in GT/s, module kind, the guest's UCIe identity (R460, R476). -/
def execGuestLinkUp (g rate : Nat) (advanced : Bool) (ident : List Byte) (s : State) : Out :=
  s.runP (decide (g < 2)) fun p =>
    if [4, 8, 12, 16, 24, 32].contains rate ∧ ¬ (p.getGuest g).linkUp ∧ siteReachable p (guestSite g) = true then
      extend p.book.active 4 ident (p.modGuest g fun x => { x with linkUp := true, rate := rate, advanced := advanced })
    else p

end Sys2Proof.Machine
end

