-- ==== Sys2Proof/Machine/Fabric.lean ====
section
/-! DEFINITION. Fabric ports: training, link sessions, frames, hellos, routing across the ring (R515-R533, R542, R543, R547). -/

namespace Sys2Proof.Machine

/-- Is a probe of a unit in progress (R500)? -/
def probing (p : Panel) (key : Nat) : Bool := p.book.probes.any fun x => decide (x.key = key)

/-- May a port train and run: in service, or SUSPECT under its probe (R542)? -/
def portRuns (p : Panel) (n : Nat) : Bool :=
  decide (9 ≤ p.boot.phase) && (decide (p.ust (keyPort n) = .ready) || (decide (p.ust (keyPort n) = .suspect) && probing p (keyPort n)))

def portRaise (n ev : Nat) (d : Dat) (p : Panel) : Panel := dieRaise (portMaster n) 0 (keyPort n) ev d p

/-- Enter a phase of training (R517); an attempt begins with phase 2, phase 6 draws a hello nonce (R527; log 69), and the keys of a
session end with it (R466). -/
def setPhase (n k : Nat) (p : Panel) : Panel :=
  let v := if k = 6 then p.freeNat else (0, p)
  v.2.modPort n fun x => { x with
    phase := k, since := p.now, session := x.session && decide (k = 8), nonce := if k = 6 then leBytes 16 v.1 else x.nonce,
    sendKey := if 7 ≤ k then x.sendKey else [], recvKey := if 7 ≤ k then x.recvKey else [], half := none,
    helloed := x.helloed && decide (6 < k), held := false, authAt := none, lmSent := x.lmSent && decide (7 < k),
    ctr := { x.ctr with attempts := x.ctr.attempts + (if k = 2 then 1 else 0) } }

/-- An UP port leaves phase 8; its queues and its replay buffer stay (R543, R544). -/
def portDown (n k : Nat) (p : Panel) : Panel :=
  let up := decide ((p.getPort n).phase = 8)
  let p := setPhase n k p
  if up then portRaise n 0x0A02 none p else p

/-- The cells that a port's master holds. -/
def portCells (x : FPort) : Nat :=
  ((x.inq ++ x.egr).map fun e => e.2.length).sum
    + (x.replay.map fun f => (f.cells.filter fun c => decide (CellF.typ c ≤ 1)).length).sum

/-- The port master discards every cell it holds, counted (R542, R547). -/
def cutPort (n : Nat) (p : Panel) : Panel :=
  let k := portCells (p.getPort n) + (p.fab.transit.filter fun x => decide (x.owes = some n)).length
  let p := (p.modFab fun f => { f with transit := f.transit.filter fun x => decide (x.owes ≠ some n) }).modPort n fun x => { x with
    inq := [], egr := [], replay := [], resend := [], pulled := none, cut := true, ctr := { x.ctr with discards := x.ctr.discards + k } }
  if 0 < k then portRaise n 0x0A06 none p else p

/-- `a - b` modulo 2,048, the span of SEQ (R519). -/
def seqSub (a b : Nat) : Nat := (a + 2048 - b % 2048) % 2048

/-- The frames sent after SEQ `a`. -/
def after (a : Nat) (l : List LinkFrame) : List LinkFrame :=
  l.filter fun f => decide (1 ≤ seqSub f.seq a) && decide (seqSub f.seq a ≤ 1024)

/-- A port reaches UP: the credits of the partner's hello, and what was under way before the training is sent again from the
SEQ the hello names, or discarded (R517, R522, R543). -/
def portUp (n : Nat) (p : Panel) : Panel :=
  let x := p.getPort n
  let rseq := leNat ((x.peer.drop 22).take 2)
  let last := match x.replay.head? with | some f => seqSub f.seq 1 | none => seqSub x.sendSeq 1
  let known := decide (32768 ≤ rseq) && (decide (rseq % 2048 = last) || x.replay.any fun f => decide (f.seq = rseq % 2048))
  let lost := if known then 0 else (x.replay.map fun f => (f.cells.filter fun c => decide (CellF.typ c ≤ 1)).length).sum
  let keep := if known then after (rseq % 2048) x.replay else []
  let next := if known ∨ rseq < 32768 then x.sendSeq else (rseq + 1) % 2048
  let p := p.modPort n fun x => { x with
    credit := (List.range 8).map fun v => (v, 16 * ((x.peer.getD (24 + v) 0).toNat + 1)),
    sendSeq := next, replay := keep, resend := keep, counter := 0, seen := 0, half := none, nak := false, failRow := 0, framesUp := 0, pulled := none, cut := false,
    prevSerial := x.peer.take 16, fails := [], ctr := { x.ctr with discards := x.ctr.discards + lost } }
  let p := if 0 < lost then portRaise n 0x0A06 none p else p
  portRaise n 0x0A01 none (setPhase n 8 p)

/-- The PSTAT width of a set of groups (R526). -/
def widthOf (g : Nat) : Nat := if g = 3 then 3 else if g = 2 then 2 else if g = 1 then 1 else 0

/-- PORT_TRAINING_PHASE: the phase in force passes; in phases 1 to 4 `groups` (bit g) are the lane groups for which it does
(R517). -/
def execPortTrainingPhase (port groups : Nat) (s : State) : Out :=
  s.runP (isPort port) fun p =>
    let x := p.getPort port
    if ¬ portRuns p port then p
    else
      let g := if x.phase = 1 then groups % 4 else x.groups &&& groups
      match x.phase with
      | 1 => if g = 0 then p else setPhase port 2 (p.modPort port fun x => { x with groups := 3 })
      | 2 => if g = 0 then p else setPhase port 3 (p.modPort port fun x => { x with groups := g })
      | 3 => if g = 0 then p else setPhase port 4 (p.modPort port fun x => { x with groups := g })
      | 4 => if g = 0 then p else setPhase port 5 (p.modPort port fun x => { x with groups := g, width := widthOf g })
      | 5 => setPhase port 6 p
      | 6 => if x.helloed ∧ ¬ x.held then setPhase port 7 p else p
      | 7 => if x.session then portUp port (p.modPort port fun x => { x with session := true }) else p
      | _ => p

/-- The limit of a training phase in ticks (R517). -/
def trainLimit (k : Nat) : Nat :=
  match k with | 2 => 50000000 | 3 => 100000 | 4 => 100000 | 5 => 1000000 | 6 => 10000000 | _ => 10000000

/-- PORT_TRAINING_TIMEOUT: a phase fails, by its limit or because no group passes; `signal` says whether a partner signal is
present (R517, R542). A port held by its expected peer, or waiting to try its verification again, does not time out. -/
def execPortTrainingTimeout (port : Nat) (signal : Bool) (s : State) : Out :=
  s.runP (isPort port) fun p =>
    let x := p.getPort port
    if ¬ portRuns p port ∨ x.phase < 2 ∨ 7 < x.phase ∨ x.held ∨ x.authAt.isSome = true ∨ p.now < x.since + trainLimit x.phase then p
    else if ¬ signal then setPhase port 1 p
    else
      let fails := p.now :: x.fails.filter fun t => decide (p.now < t + 10 * ticksPerSecond)
      let p := p.modPort port fun x => { x with fails := fails }
      if probing p (keyPort port) then setPhase port 1 p
      else if 3 ≤ fails.length then pendEvidence (keyPort port) 0x0A05 (portRaise port 0x0A05 none (setPhase port 1 p))
      else setPhase port 2 p

/-- The serial that a port expects, as a hello carries it; none where any is accepted (R528). -/
def expectedSerial (p : Panel) (n : Nat) : Option (List Byte) :=
  match odBytes p 0xA004 n with | [] => none | b => some (b ++ List.replicate (16 - b.length) 0)

/-- A hello has come (R527, R528, R547). -/
def takeHello (n : Nat) (b : List Byte) (p : Panel) : Panel :=
  let x := p.getPort n
  let serial := b.take 16
  let new := !x.helloed || decide (x.peer.take 16 ≠ serial)
  let wrong : Bool := match expectedSerial p n with | some e => decide (e ≠ serial) | none => false
  let changed := !x.prevSerial.isEmpty && decide (x.prevSerial ≠ serial)
  let p := p.modPort n fun x => { x with peer := b, helloed := true, held := wrong && decide (x.phase = 6) }
  let p := if x.pulled.isSome ∧ changed then cutPort n p else p
  if new ∧ (wrong ∨ changed) then portRaise n 0x0A07 none p else p

/-- FABRIC_HELLO: the payload of a TYPE 5 cell (R527, R528). -/
def execFabricHello (port : Nat) (payload : BitVec 320) (s : State) : Out :=
  s.runP (isPort port) fun p =>
    if portRuns p port ∧ 6 ≤ (p.getPort port).phase then takeHello port (leBytes 40 payload.toNat) p else p

/-- The 16 bytes of this panel's serial (R527). -/
def serial16 : List Byte := (Config.serialText ++ List.replicate 16 0).take 16

/-- Is a serial one that the peer list admits (R472)? -/
def peerListed (p : Panel) (serial : List Byte) : Bool :=
  let l := odBytes p 0xB050 0
  l.isEmpty || (List.range (l.length / 64)).any fun i => decide ((l.drop (64 * i)).take 64 = serial ++ List.replicate 48 0)

/-- Load new keys: derived from the shared secret, a free value, with the lower serial's nonce and direction first (R465, R473). -/
def loadFabricKeys (n : Nat) (p : Panel) : Panel :=
  let x := p.getPort n
  let peer := x.peer.take 16
  let theirs := (x.peer.drop 32).take 8 ++ x.peerNonce
  let low := decide (blockNat serial16 < blockNat peer)
  let z := freeBytes 48 p
  let k := if low then fabricKeys z.1 x.nonce theirs serial16 peer n else fabricKeys z.1 theirs x.nonce peer serial16 n
  z.2.modPort n fun x => { x with
    session := true, counter := 0, seen := 0, authAt := none,
    sendKey := if low then k.take 36 else k.drop 36, recvKey := if low then k.drop 36 else k.take 36 }

/-- Run the link session of a port; `ok` says whether the peer's chain and signatures verify. A failed verification keeps the port out
of service (R472, R473). -/
def linkSession (n : Nat) (ok : Bool) (p : Panel) : Panel :=
  if ok && peerListed p ((p.getPort n).peer.take 16) then loadFabricKeys n p
  else
    let p := if (p.getPort n).phase = 8 then portDown n 7 p else p
    portRaise n 0x0B06 none (p.modPort n fun x => { x with authAt := some (p.now + 10 * ticksPerSecond) })

/-- FABRIC_LINK_SESSION in training, or of an UP port that needs new keys (R464, R472, R473). -/
def execFabricLinkSession (port : Nat) (ok : Bool) (s : State) : Out :=
  s.runP (isPort port) fun p =>
    let x := p.getPort port
    if portRuns p port ∧ (x.phase = 7 ∨ x.phase = 8) ∧ x.authAt.isNone = true ∧ healthy p = true then linkSession port ok p else p

/-- FABRIC_AUTH_RETRY (R472). -/
def execFabricAuthRetry (port : Nat) (ok : Bool) (s : State) : Out :=
  s.runP (isPort port) fun p =>
    match (p.getPort port).authAt with
    | some t => if portRuns p port ∧ t ≤ p.now ∧ healthy p = true then linkSession port ok p else p
    | none => p

/-- A replay of a port direction is counted and raised within its limits (R521). -/
def countReplay (n dir : Nat) (p : Panel) : Panel :=
  let sec := spanIdx .second p.now
  let k := match Tab.find? (p.getPort n).perSec dir with | some e => if e.1 = sec then e.2 + 1 else 1 | none => 1
  let p := p.modPort n fun x => { x with perSec := Tab.set dir (sec, k) x.perSec, ctr := { x.ctr with replays := x.ctr.replays + 1 } }
  let p := portRaise n 0x0A03 none p
  if cfg p 0xA041 0 1 < k then portRaise n 0x0A04 none p else p

/-- A frame or pair fails its check or its SEQ (R521): replay is asked for; after sixteen failed replays the port
retrains. -/
def checkFailed (n frames : Nat) (bad : Bool) (p : Panel) : Panel :=
  let x := p.getPort n
  let p := p.modPort n fun x => { x with
    nak := true, failRow := if x.nak && bad then x.failRow + 1 else x.failRow,
    ctr := { x.ctr with checkFail := x.ctr.checkFail + (if bad then frames else 0) } }
  let p := if x.nak && !bad then p else countReplay n 0 p
  if 16 ≤ (p.getPort n).failRow then portDown n 2 (p.modPort n fun x => { x with failRow := 0 }) else p

/-- The fields of the coordinate record (R530, R545): coordinate, size and the two ports of direction `2 * d` (+) or
`2 * d + 1` (-). -/
def coord (p : Panel) (d : Nat) : Nat := ((odBytes p 0xA001 0).getD d 0).toNat
def torus (p : Panel) (d : Nat) : Nat := ((odBytes p 0xA001 0).getD (3 + d) 0).toNat
def dirPort (p : Panel) (dir second : Nat) : Nat :=
  let i := 2 * dir + second
  ((odBytes p 0xA001 0).getD (6 + i / 2) 0).toNat / 16 ^ (i % 2) % 16

/-- The output port of a route entry (R529, R530); none where it leads nowhere. -/
def routeOut (p : Panel) (e : BitVec 32) (dpid : Nat) : Option Nat :=
  if ¬ bit e 31 then none
  else if bit e 30 then (if fld e 23 20 < 12 then some (fld e 23 20) else none)
  else
    let dst := [fld e 19 16, fld e 15 12, fld e 11 8]
    match (List.range 3).find? fun d => decide (dst.getD d 0 ≠ coord p d) with
    | none => none
    | some d =>
      let size := torus p d
      if size = 0 then none
      else
        let fwd := (dst.getD d 0 + size - coord p d % size) % size
        let dir := if 2 * fwd ≤ size then 2 * d else 2 * d + 1
        let a := dirPort p dir 0
        let q := if dpid % 2 = 0 ∧ a ≠ 0xF then a else dirPort p dir 1
        if q < 12 then some q else none

/-- Can a ring member carry fabric transit: is it neither ABSENT nor FAILED nor FENCED? -/
def ringUp (p : Panel) (s : Nat) : Bool := siteReachable p s

/-- The way around the ring from one member to another: the shorter, clockwise when equal; on an open chain the one there is
(R531, R27). -/
def ringWay (p : Panel) (a b : Nat) : Bool :=
  let n := (ringIdx b + 26 - ringIdx a) % 26
  let fused (f : Nat → Nat) (k : Nat) : Bool := ((List.range k).foldl (fun (x : Nat × Bool) _ => (f x.1, x.2 || fusedDie p.variant (f x.1))) (a, false)).2
  if fused ringNext n then false else if fused ringPrev (26 - n) then true else decide (n ≤ 26 - n)

/-- What becomes of a cell received on a port (R523-R525, R531, R532). A discarded cell's credit goes back. -/
def takeFabricCell (n : Nat) (c : Cell) (p : Panel) : Panel :=
  let ty := CellF.typ c
  let v := CellF.vc c
  let drop (p : Panel) : Panel := fabDiscard n (p.modPort n fun x => { x with ret := Tab.upd 0 v (· + 1) x.ret })
  if ty = 7 then p
  else if ty = 6 ∧ FabF.dpid c ≠ 0xFFF then p.modPort n fun x => { x with peerNonce := leBytes 8 c.pay.toNat }
  else if ty = 5 then takeHello n (leBytes 40 c.pay.toNat) p
  else if 2 ≤ ty ∨ v = 7 ∨ FabF.dpid c = 0xFFF then drop p
  else if FabF.dpid c = panelId p then
    let tag := Tab.get 0xFF (p.getPort n).inTag (FabF.ftag c)
    if tag = 0xFF then drop p
    else
      let h := CellF.mk ty v tag (portMaster n) 0 (FabF.dsite c) (FabF.dcore c) (FabF.dtrk c) 0 0 0
      p.modPort n fun x => { x with inq := Tab.upd [] v (· ++ [{ c with hdr := h }]) x.inq }
  else match routeOut p (Tab.get 0 (p.getPort n).route (FabF.dpid c)) (FabF.dpid c) with
    | none => drop p
    | some q =>
      if q = n ∨ (match p.ust (keyPort q) with | .absent => true | .failed => true | .fenced => true | _ => false) = true then drop p
      else
        p.modFab fun f => { f with transit := f.transit ++ [⟨portMaster n, q, ringWay p (portMaster n) (portMaster q), c, some n⟩] }

/-- The frame's or pair's contents are acted on (R519, R521, R522). -/
def actFrame (n : Nat) (f : LinkFrame) (p : Panel) : Panel :=
  let p := p.modPort n fun x => { x with
    recvSeq := some f.seq, nak := false, failRow := 0,
    credit := (List.range 8).foldl (fun t v => Tab.upd 0 v (· + f.cred.getD v 0) t) x.credit,
    replay := after f.ack x.replay }
  let p := if f.nak then
      let p := if (p.getPort n).resend.isEmpty then countReplay n 1 p else p
      p.modPort n fun x => { x with resend := x.replay, half := none }
    else p
  each f.cells (takeFabricCell n) p

/-- FABRIC_FRAME_RECEIVE: the bytes of one frame before UP, of a sealed pair (`pair`) from UP on (R518-R521). Before UP hellos and, from
phase 7 on, link management are taken (R527). -/
def execFabricFrameReceive (port : Nat) (pair : Bool) (f second : List Byte) (s : State) : Out :=
  s.runP (isPort port && decide (f.length = 976) && decide (second.length = if pair then 976 else 0)) fun p =>
    let x := p.getPort port
    if ¬ portRuns p port ∨ x.phase < 5 then p
    else if ¬ pair then
      if x.phase = 8 then p
      else
        let r := checkedFrame f
        let p := p.modPort port fun x => { x with
          ctr := { x.ctr with received := x.ctr.received + 1, checkFail := x.ctr.checkFail + (if r.isSome then 0 else 1) } }
        match r with
        | some f => each (f.cells.filter fun c => decide (CellF.typ c = 5 ∨ (CellF.typ c = 6 ∧ x.phase = 7))) (takeFabricCell port) p
        | none => p
    else if x.phase < 8 then p
    else
      let p := p.modPort port fun x => { x with seen := x.seen + 2, ctr := { x.ctr with received := x.ctr.received + 2 } }
      match openPair x.recvKey x.seen f second with
      | none => checkFailed port 2 true p
      | some (f, g) =>
        let next : Bool := match x.recvSeq with | some q => decide (f.seq = (q + 1) % 2048) | none => true
        if next = true ∧ g.seq = (f.seq + 1) % 2048 then actFrame port g (actFrame port f p) else checkFailed port 2 (!x.nak) p

/-- One cell position (R533): a cell of the next permitted VC that has a cell and a credit, after the last one served. Gives
the cell and whether a permitted VC waits for a credit (R535). -/
def fillOne (mask : Nat) (x : FPort) : Option Cell × Bool × FPort :=
  let waits (v : Nat) : Bool := mask.testBit v && !(Tab.get [] x.egr v).isEmpty
  let hold := (List.range 7).any fun v => waits v && decide (Tab.get 0 x.credit v = 0)
  let order := (List.range 7).map fun i => (x.turn + 1 + i) % 7
  match order.find? fun v => waits v && decide (0 < Tab.get 0 x.credit v) with
  | none => (none, hold, x)
  | some v =>
    ((Tab.get [] x.egr v).head?, hold,
      { x with turn := v, egr := Tab.upd [] v (·.drop 1) x.egr, credit := Tab.upd 0 v (· - 1) x.credit })

/-- Fill `k` positions: the cells, the positions with a credit hold (R533, R535). -/
def fill (mask : Nat) : Nat → FPort → List (Option Cell) × Nat × FPort
  | 0, x => ([], 0, x)
  | k + 1, x =>
    let a := fillOne mask x
    let r := fill mask k a.2.2
    (a.1 :: r.1, r.2.1 + (if a.2.1 then 1 else 0), r.2.2)

/-- This panel's hello on a port (R527). -/
def helloCell (p : Panel) (n : Nat) : Cell :=
  let x := p.getPort n
  let rseq := match x.recvSeq with | some q => 32768 + q % 2048 | none => 0
  let b := serial16 ++ leBytes 2 (Config.ppos % 4096) ++ leBytes 1 n ++ leBytes 1 p.variant ++ leBytes 2 (cfg p 0xA000 0 1)
    ++ leBytes 2 rseq ++ (List.range 8).map (fun v => BitVec.ofNat 8 (Tab.get 31 x.limit v)) ++ x.nonce.take 8
  ⟨FabF.mk 5 7 0xFFF (panelId p) 0 0 0 0 0 0, BitVec.ofNat 320 (leNat b)⟩

/-- The cells that take positions the slot table leaves empty (R527, R533): a hello where one is due, the session's first link
management cell, whose payload begins with the second half of the nonce; the spec does not lay out the rest (log 4, log 69). Its DPID is
the partner's, 0 where that is unassigned: 0xFFF would have it discarded (R532; DESIGN CHOICE, log 69). -/
def fillers (n : Nat) (p : Panel) : List Cell × Panel :=
  let x := p.getPort n
  let due := (decide (x.phase = 6) && decide (x.helloAt + 100 ≤ p.now)) || (decide (x.phase = 8) && decide (x.helloAt + 100000 ≤ p.now))
  let a : List Cell × Panel := if due then ([helloCell p n], p.modPort n fun x => { x with helloAt := p.now }) else ([], p)
  if 7 ≤ x.phase ∧ ¬ x.lmSent then
    let v := a.2.freeNat
    let pid := leNat ((x.peer.drop 20).take 2)
    (a.1 ++ [⟨FabF.mk 6 7 (if pid < 0xFFF then pid else 0) (panelId p) 0 0 0 0 0 0, BitVec.ofNat 320 (leNat (x.nonce.drop 8 ++ leBytes 32 v.1))⟩], v.2.modPort n fun x => { x with lmSent := true })
  else a

/-- Lay fillers into the empty positions, nulls in the rest. -/
def layCells : List (Option Cell) → List Cell → List Cell
  | [], _ => []
  | some c :: t, l => c :: layCells t l
  | none :: t, c :: l => c :: layCells t l
  | none :: t, [] => nullCell :: layCells t []

/-- The trailer that a frame leaves with: the newest acknowledgement, and the credits owed (R519). -/
def withTrailer (x : FPort) (f : LinkFrame) : LinkFrame :=
  { f with ack := x.recvSeq.getD 2047, nak := x.nak, cred := (List.range 8).map fun v => min 31 (Tab.get 0 x.ret v) }

/-- Send a frame: without a session as it is; with one it waits for the second of its pair, with which it is sealed under the next
counter (R520). Its credits are returned, and it is counted. -/
def sendFrame (n : Nat) (f : LinkFrame) (p : Panel) : Panel :=
  p.modPort n fun x =>
    let x : FPort := { x with
      ret := x.ret.map fun e => (e.1, e.2 - min 31 e.2), framesUp := x.framesUp + (if x.phase = 8 then 1 else 0),
      ctr := { x.ctr with sent := x.ctr.sent + 1 } }
    if x.phase < 8 then { x with sent := [plainFrame f] }
    else match x.half with
      | none => { x with half := some f }
      | some e => { x with half := none, sent := sealPair x.sendKey x.counter e f, counter := x.counter + 2 }

/-- FABRIC_FRAME_SEND: the next frame of a replay, or a new one filled under the slot table (R518, R521, R533). No new frame
leaves while the replay buffer is full. -/
def execFabricFrameSend (port : Nat) (s : State) : Out :=
  s.runP (isPort port) fun p =>
    let x := p.getPort port
    if ¬ portRuns p port ∨ x.phase < 5 ∨ 2 ^ 48 ≤ x.counter + 1 then p
    else if x.phase < 8 then
      let l := fillers port p
      sendFrame port (withTrailer x ⟨x.trainSeq % 2048, 0, false, [], layCells (List.replicate 20 none) l.1⟩)
        (l.2.modPort port fun x => { x with trainSeq := (x.trainSeq + 1) % 2048 })
    else match x.resend with
      | f :: t =>
        sendFrame port (withTrailer x f) (p.modPort port fun x => { x with
          resend := t, replay := x.replay.map fun g => if g.seq = f.seq then withTrailer x g else g })
      | [] =>
        if 1024 ≤ x.replay.length then p
        else
          let mask := if panelId p ≠ 0xFFF then Tab.get 0 (Tab.get [] x.slot (p.fab.bank % 2)) (p.now % p.fab.per) else 0
          let r := fill mask 20 x
          let p := p.modPort port fun _ => { r.2.2 with ctr := { r.2.2.ctr with holds := r.2.2.ctr.holds + r.2.1 } }
          let p := if 0 < r.2.1 then portRaise port 0x0A0C none p else p
          let l := fillers port p
          let y := l.2.getPort port
          let f := withTrailer y ⟨y.sendSeq % 2048, 0, false, [], layCells r.1 l.1⟩
          sendFrame port f (l.2.modPort port fun x => { x with replay := x.replay ++ [f], sendSeq := (x.sendSeq + 1) % 2048 })

/-- A transit cell at its output port's master enters the egress queue, header kept (R531). -/
def transitEgress (n : Nat) (c : Cell) (p : Panel) : Panel :=
  if (p.getPort n).cut ∨ (match p.ust (keyPort n) with | .absent => true | .failed => true | .fenced => true | _ => false) = true then
    fabDiscard n p
  else p.modPort n fun x => { x with egr := Tab.upd [] (CellF.vc c) (· ++ [c]) x.egr }

/-- A transit cell leaves its ingress buffer, whose credit goes back (R522). -/
def creditBack (x : RingCell) (p : Panel) : Panel :=
  match x.owes with
  | some n => p.modPort n fun y => { y with ret := Tab.upd 0 (CellF.vc x.cell) (· + 1) y.ret }
  | none => p

/-- Do two transit cells go the same way on the same track (R531)? -/
def sameTrack (x y : RingCell) : Bool :=
  decide (x.clockwise = y.clockwise) && decide (CellF.vc x.cell % 4 = CellF.vc y.cell % 4)

/-- The ring member that a transit cell goes to next. -/
def ringOn (x : RingCell) : Nat := if x.clockwise then ringNext x.site else ringPrev x.site

/-- Is a transit cell's way broken: the member before it cannot carry it, or the link to it is disabled (R14, R531)? -/
def wayBroken (p : Panel) (x : RingCell) : Bool := !ringUp p (ringOn x) || linkDisabled p x.site (if x.clockwise then 0x40 else 0x60)

/-- May a transit cell go on: there is room in its egress queue or credit toward the next member, or its way is broken (R168, R526, R531)? -/
def ringMay (p : Panel) (x : RingCell) : Bool :=
  if portMaster x.port = x.site then decide (((p.getPort x.port).vcOut (CellF.vc x.cell)).length < 256)
  else wayBroken p x || decide ((p.fab.transit.filter fun y => decide (y.site = ringOn x) && sameTrack x y).length < 64)

/-- The transit cell at a ring member that goes on next: the oldest that may, no older one of its track waiting before it. -/
def ringNow (p : Panel) (site : Nat) : Option RingCell :=
  let l := p.fab.transit.filter fun x => decide (x.site = site)
  l.find? fun x => ringMay p x && !(l.takeWhile fun y => decide (y ≠ x)).any (sameTrack x)

/-- RING_TRANSIT at a ring member: its next transit cell goes on, or into the egress queue of its port; cells wait for want of room or
credit; where its way is broken it is discarded (R531, R532). -/
def execRingTransit (site : Nat) (s : State) : Out :=
  s.runP (isEdge site || isHub site) fun p =>
    match ringNow p site with
    | none => p
    | some x =>
      let gone := creditBack x (p.modFab fun f => { f with transit := f.transit.erase x })
      if portMaster x.port = site then transitEgress x.port x.cell gone
      else if wayBroken p x then fabDiscard x.port gone
      else gone.modFab fun f => { f with transit := f.transit ++ [{ x with site := ringOn x, owes := none }] }

/-- CABLE_REMOVAL (R547). -/
def execCableRemoval (port : Nat) (s : State) : Out :=
  s.runP (isPort port) fun p =>
    if (p.getPort port).phase = 8 then (portDown port 1 p).modPort port fun x => { x with pulled := some p.now, width := 0 }
    else setPhase port 1 p

/-- CABLE_HOLD_EXPIRY: 10 s without the partner (R547). -/
def execCableHoldExpiry (port : Nat) (s : State) : Out :=
  s.runP (isPort port) fun p =>
    match (p.getPort port).pulled with
    | some t => if t + 10 * ticksPerSecond ≤ p.now ∧ (p.getPort port).phase ≠ 8 then cutPort port p else p
    | none => p

end Sys2Proof.Machine
end

