-- ==== Sys2Proof/Machine/Meridian.lean ====
section
/-! DEFINITION. The meridian chain and the fabric schedule (R534, R537-R540). -/

namespace Sys2Proof.Machine

/-- CRC of a meridian frame: CRC-16/CCITT-FALSE over bits [119:16] (R537). -/
def merCrc (x : BitVec 128) : BitVec 16 := crc16 (leBytes 13 (fld x 119 16)).reverse

/-- A meridian frame (R537). -/
def merFrame (hops pend bank tb sepoch switch : Nat) : BitVec 128 :=
  let x := BitVec.ofNat 128 (0xB4 * 2 ^ 120 + hops % 64 * 2 ^ 114 + pend % 2 * 2 ^ 113 + bank % 2 * 2 ^ 112 + tb % 2 ^ 64 * 2 ^ 48
    + sepoch % 2 ^ 16 * 2 ^ 32 + switch % 2 ^ 16 * 2 ^ 16)
  x ||| (merCrc x).zeroExtend 128

/-- Is a frame valid: its SYNC and its CRC (R537)? -/
def merValid (x : BitVec 128) : Bool := decide (fld x 127 120 = 0xB4) && decide (BitVec.ofNat 16 (fld x 15 0) = merCrc x)

/-- The panel's meridian role is head (R538). -/
def isHead (p : Panel) : Bool := decide (cfg p 0xA040 0 1 = 1)

/-- May the timebase not be loaded: after READY, while a region is ARMED or ACTIVE or a query is not FREE (R540)? -/
def tbBusy (p : Panel) : Bool :=
  p.boot.ready && ((p.reg.any fun e => decide (e.2.phase = .armed) || decide (e.2.phase = .active))
    || p.ret.query.any fun e => decide (e.2.st ≠ .free))

/-- Load the timebase with `t`; every copy of it follows (R367, R538). The event carries the step in ticks. -/
def loadTb (t : Nat) (p : Panel) : Panel :=
  let step := BitVec.ofNat 64 t - BitVec.ofNat 64 p.now
  raise 0x0A08 p.activeHub keyPanel (some step)
    ((p.modClocks fun c => { c with tb := t }).modFab fun f => { f with mer := { f.mer with conflict := none } })

/-- The follower's count should now be `t`: a tick of difference is slewed out; more is loaded, or waits as a conflict
(R538, R540). `atLock` says that the follower has just locked. -/
def followTb (atLock : Bool) (t : Nat) (p : Panel) : Panel :=
  if t ≤ p.now + 1 ∧ p.now ≤ t + 1 then
    let p := (p.modClocks fun c => { c with tb := t }).modFab fun f => { f with mer := { f.mer with conflict := none } }
    if atLock then raise 0x0A08 p.activeHub keyPanel (some 0) p else p
  else if p.fab.mer.conflict.isSome ∧ ¬ atLock then p
  else if tbBusy p then
    let p := if atLock then raise 0x0A08 p.activeHub keyPanel (some 0) p else p
    raise 0x0A0A p.activeHub keyPanel none (p.modFab fun f => { f with mer := { f.mer with conflict := some p.now } })
  else loadTb t p

/-- The active hub sets the open latch at a frame boundary once the timebase is locked without conflict, or running as a
head, and bit 11 is set, unless the panel is expelled (R539, R540). -/
def openBypass (p : Panel) : Panel :=
  if (isHead p ∨ (p.fab.mer.locked ∧ p.fab.mer.conflict = none)) ∧ periphOn p 11 ∧ ¬ p.book.expelled then
    p.modFab fun f => { f with mer := { f.mer with openLatch := true } }
  else p

/-- What a locked follower takes from a valid frame: the switch announced, at its own tick, and the schedule epoch (R538). -/
def takeSchedule (x : BitVec 128) (p : Panel) : Panel :=
  let tick := fld x 111 48 + 128 * fld x 31 16
  p.modFab fun f => { f with
    sepoch := fld x 47 32,
    switch := if bit x 113 then some (tick, fld x 112 112, cfg p 0xA030 0 1) else f.switch }

/-- A valid frame at a follower. -/
def goodFrame (x : BitVec 128) (p : Panel) : Panel :=
  let hops := fld x 119 114
  let m := p.fab.mer
  let put (h : Meridian → Meridian) (p : Panel) : Panel := p.modFab fun f => { f with mer := h f.mer }
  let p := put (fun m => { m with
    bad := 0, good := if hops = 63 then 0 else m.good + 1, lastTb := fld x 111 48, lastAt := p.now, lastHops := hops }) p
  if ¬ m.locked ∧ hops = 63 then
    if m.tooLong then p else raise 0x0A0A p.activeHub keyPanel none (put (fun m => { m with tooLong := true }) p)
  else if ¬ m.locked ∧ m.good + 1 < 16 then p
  else
    let p := put (fun m => { m with locked := true, tooLong := false }) p
    let p := openBypass (takeSchedule x (followTb (!m.locked) (fld x 111 48 + 128) p))
    if p.fab.mer.openLatch ∧ hops < 63 then
      put (fun m => { m with out := some (merFrame (hops + 1) (fld x 113 113) (fld x 112 112) (fld x 111 48) (fld x 47 32) (fld x 31 16)) }) p
    else p

/-- An invalid or missing frame at a follower: sixteen in a row lose the chain (R538). -/
def badFrame (p : Panel) : Panel :=
  let m := p.fab.mer
  let p := p.modFab fun f => { f with mer := { f.mer with bad := f.mer.bad + 1, good := 0, invalid := f.mer.invalid + 1 } }
  if m.locked ∧ 16 ≤ m.bad + 1 then
    selectRef (raise 0x0A09 p.activeHub keyPanel none
      (p.modFab fun f => { f with mer := { f.mer with locked := false, conflict := none } }))
  else p

/-- MERIDIAN_FRAME_RECEIVE: the frame that ends now, or none where it is missing (R538-R540). A head takes none. -/
def execMeridianFrameReceive (frame : Option (BitVec 128)) (s : State) : Out :=
  s.runP true fun p =>
    if isHead p then p
    else match frame with
      | some x => if merValid x then goodFrame x p else badFrame p
      | none => badFrame p

/-- MERIDIAN_FRAME_EMIT of a head, at a tick that is a multiple of 128 (R537). MER_OUT is driven while the open latch is
set. -/
def execMeridianFrameEmit (s : State) : Out :=
  s.runP true fun p =>
    if ¬ isHead p ∨ p.now % 128 ≠ 0 then p
    else
      let p := openBypass p
      if ¬ p.fab.mer.openLatch then p
      else
        let x := match p.fab.switch with
          | some (t, bank, _) => if p.now < t ∧ (t - p.now) / 128 < 65536 then merFrame 0 1 bank p.now p.fab.sepoch ((t - p.now) / 128)
            else merFrame 0 0 p.fab.bank p.now p.fab.sepoch 0
          | none => merFrame 0 0 p.fab.bank p.now p.fab.sepoch 0
        p.modFab fun f => { f with mer := { f.mer with out := some x } }

/-- MERIDIAN_RECHECK: 1 s after a conflict was found or checked, the count is loaded where it may be (R540). -/
def execMeridianRecheck (s : State) : Out :=
  s.runP true fun p =>
    match p.fab.mer.conflict with
    | some t =>
      if p.now < t + ticksPerSecond ∨ ¬ p.fab.mer.locked then p
      else if tbBusy p then p.modFab fun f => { f with mer := { f.mer with conflict := some p.now } }
      else loadTb (p.fab.mer.lastTb + 128 + (p.now - p.fab.mer.lastAt)) p
    | none => p

/-- SCHEDULE_SWITCH at the switch tick (R534, R538). -/
def execScheduleSwitch (s : State) : Out :=
  s.runP true fun p =>
    match p.fab.switch with
    | some (t, bank, per) =>
      if p.now < t then p
      else
        raise 0x0A0B p.activeHub keyPanel none (p.modFab fun f => { f with
          bank := bank, per := per, sepoch := (f.sepoch + 1) % 2 ^ 16, switch := none })
    | none => p

/-- Request a switch of schedule: period, bank, tick. A head takes one at least 10,000 ticks ahead, a follower in a chain
none (R534, R538). A head's frames name ticks that lie whole frames ahead, fewer than 65,536, so its tick is rounded up and announced from then
on (log 33). Gives the abort code. -/
def commitSchedule (per bank tick : Nat) (p : Panel) : Nat × Panel :=
  if per = 0 ∨ 65536 < per then (abortOf 0x04 1 1, p)
  else if 1 < bank then (abortOf 0x04 1 2, p)
  else if isHead p then
    if tick < p.now + 10000 then (abortOf 0x09 1 0, p)
    else (0, p.modFab fun f => { f with switch := some (roundUp tick 128, bank, per) })
  else if p.fab.mer.locked then (abortOf 0x09 1 0, p)
  else (0, p.modFab fun f => { f with switch := some (tick, bank, per) })

/-- FABRIC_SCHEDULE_COMMIT (R534, R538). -/
def execFabricScheduleCommit (per bank tick : Nat) (s : State) : Out :=
  s.runP true fun p => (commitSchedule per bank tick p).2

end Sys2Proof.Machine
end

