-- ==== Sys2Proof/Machine/Recovery.lean ====
section
/-! DEFINITION. Evidence, probes, and a fault manager's fence, expel and reinstate (R358, R359, R498-R506, R509, R542, R564). -/

namespace Sys2Proof.Machine

/-- A port's master is taken out of service (R503, R542): its cells discarded, its link keys erased, its lanes idle. -/
def holdPort (n : Nat) (p : Panel) : Panel := cutPort n (portDown n 1 p)

/-- Fence a port. -/
def fencePort (n : Nat) (p : Panel) : Panel := holdPort n (moveUnit (keyPort n) .fenced 0x0E05 p)

/-- Is a ring member cut off: no way round the ring joins it to the active hub (R27)? -/
def ringCut (p : Panel) (s : Nat) : Bool := (ringEdge p p.activeHub s).isNone

/-- Does a declared transit through the array lead to a die: a valid transit entry whose OUT is a link into it (R27, R164)? -/
def transitServes (p : Panel) (s : Nat) : Bool :=
  p.rtr.any fun e => isCompute e.1 && e.2.transit.any fun x => transitV x.2 && decide ((farEnd e.1 (fld x.2 15 8)).1 = s)

/-- The hub fences each port in service of a ring member that is cut off and that no transit serves (R27; log 61). -/
def fenceCutPorts (p : Panel) : Panel :=
  each ((List.range 12).filter fun n => (p.ust (keyPort n)).service && (let d := portDies n
    (ringCut p d.1 && !transitServes p d.1) || (ringCut p d.2 && !transitServes p d.2))) fencePort p

/-- STATE_EVIDENCE: the oldest evidence reported to the active hub acts (R498, R499). -/
def execStateEvidence (s : State) : Out :=
  s.runP true fun p =>
    match p.book.pendingEvid with
    | [] => p
    | e :: t => fenceCutPorts (evidence e.1 e.2 (p.modBook fun b => { b with pendingEvid := t }))

/-- HUB_B_BEATS_MISSED (R299, R509): hub A, while active, has had no beat of hub B for the hub loss timeout. -/
def execHubBBeatsMissed (s : State) : Out :=
  s.runP true fun p =>
    if p.book.active = 0 ∧ Tab.get 0 p.ctl.lastBeat 0xDD + cfg p 0x7024 0 2 ≤ p.now then loseStandby p else p

/-- RATE_SPAN_END: an aligned second or minute ends; what was limited in it may be raised again, with its count of
suppressed repeats (R564). -/
def execRateSpanEnd (s : State) : Out :=
  s.runP true fun p => p.modBook fun b => { b with
    latch := b.latch.map fun l =>
      let sp := evSpan l.ev
      if (sp = .second ∨ sp = .minute) ∧ l.idx ≠ spanIdx sp p.now then { l with live := false } else l }

/-- Is a region that holds a unit ARMED or ACTIVE (R500)? -/
def heldLive (p : Panel) (key : Nat) : Bool :=
  (sitesUnder key).any fun s => match p.regionOf s with
    | some r => decide ((p.getReg r).phase = .armed) || decide ((p.getReg r).phase = .active)
    | none => false

/-- May a unit be probed, and is it to be (R500-R502)? A unit that took its state from its container is probed with it. -/
def probeDue (p : Panel) (key : Nat) : Bool :=
  decide (p.ust key = .suspect) && !probing p key && !heldLive p key
    && (p.book.asked.contains key || ((p.unit key).own && decide (cfg p 0xE020 0 1 = 1)))

/-- PROBE_START (R500): the probe is counted against the limit; a die, stack or core takes its die's reset, a port retrains. -/
def execProbeStart (unit : UnitId) (s : State) : Out :=
  s.runP true fun p =>
    let key := UnitId.key unit
    if ¬ probeDue p key then p
    else
      let p := p.modUnit key fun r => { r with probes := p.now :: probesIn p key }
      let p := p.modBook fun b => { b with
        probesRun := b.probesRun + 1, probes := b.probes ++ [⟨key, p.now⟩], asked := b.asked.filter fun x => decide (x ≠ key) }
      if key < 0x3000 then (if isMesh (keySite key) then startDieReset (keySite key) none none p else p)
      else if key < 0x300C then setPhase (key - 0x3000) 1 p else p

/-- The state that a unit returns to: its prior state, while its partition still holds it where that was ASSIGNED (R497). -/
def priorState (p : Panel) (key : Nat) : USt :=
  match (p.unit key).prior with
  | .hamper => .hamper
  | .assigned => if (p.partOf (keySite key)).isSome then .assigned else .ready
  | _ => .ready

/-- A unit returns to service; a return to HAMPER raises the generation (R428, R501). -/
def restoreUnit (key : Nat) (p : Panel) : Panel :=
  let st := priorState p key
  let p := p.modUnit key fun r => { r with st := st, tick := p.now, own := true, takeover := false }
  if st = .hamper ∧ key < 0x1000 then bumpGen p else p

/-- The units that return with a probed unit: those that took its state, and the rest of the die with a die, core or stack
(R495, R501). -/
def returning (p : Panel) (key : Nat) : List Nat :=
  key :: (contained key .fenced).filter fun u =>
    barred p u && decide (p.ust u ≠ .failed) && (!(p.unit u).own || (decide (key < 0x3000) && decide (u < 0x3000)))

/-- A probe passes (R501): a reset under way completes, the die is locked and in SYNC, the units return. -/
def passProbe (key : Nat) (s : State) : State :=
  let s := if key < 0x3000 then endDieReset (keySite key) s else s
  s.onP fun p =>
    let p := if key < 0x3000 ∧ isNode (keySite key) = true then (restartClock (keySite key) p).modClk (keySite key) fun c => { c with localMode := false } else p
    raise 0x0E04 (keySite key) key none (each (returning p key) restoreUnit p)

/-- PROBE_COMPLETE: `fail` is the event of the failing step, if one fails. The whole probe has 200 ms, a port's 100 ms; a port
passes UP, or with no partner signal (R500, R501, R542). -/
def execProbeComplete (unit : UnitId) (fail : Option Nat) (s : State) : Out :=
  s.run true fun s =>
    let key := UnitId.key unit
    match s.p.book.probes.find? fun x => decide (x.key = key) with
    | none => s
    | some x =>
      let port := decide (0x3000 ≤ key ∧ key < 0x300C)
      let late := decide (x.started + (if port then 10000000 else 20000000) < s.p.now)
      let phase := (s.p.getPort (key - 0x3000)).phase
      let bad := late || fail.isSome || (port && decide (phase ≠ 8) && decide (phase ≠ 1))
      let s := s.onP fun p => p.modBook fun b => { b with probes := b.probes.filter fun y => decide (y.key ≠ key) }
      if s.p.ust key ≠ .suspect then s
      else if bad then
        s.onP fun p => fenceCutPorts (moveUnit key .failed (fail.getD 0x0E02) (p.modBook fun b => { b with probesFailed := b.probesFailed + 1 }))
      else passProbe key s

/-- Fence a compute or edge site (R503): the messages to it and to its neighbours, its links disabled at both ends, the
freezes of its region and of those with a transit through it, its transit entries invalid, its state. -/
def fenceSite (s epoch reason : Nat) (p : Panel) : Panel :=
  let p := each (s :: linkedDies s) (fun t => toSite t 0 (.fence 1 s epoch reason)) p
  let p := freezeTransits 0x0E05 s p
  let p := cutLinks s (p.modRtr s fun r => { r with transit := r.transit.map fun e => (e.1, BitVec.ofNat 32 (e.2.toNat % 2 ^ 31)) })
  let p := moveUnit s .fenced 0x0E05 (p.modCtl fun c => { c with linkReport := some p.now })
  if isEdge s then holdPort (portOfDie s) p else p

/-- FENCE of a site or port acts (R503, R509). -/
def actFence (kind unit epoch reason : Nat) (p : Panel) : Panel :=
  if kind = 2 then fencePort unit p
  else if isHub unit then loseStandby p
  else if isGuest unit then
    (moveUnit unit .fenced 0x0E05 p).modGuest (if unit = 0x0D then 0 else 1) fun x => { x with linkUp := false, held := [] }
  else fenceSite unit epoch reason p

/-- EXPEL acts (R504). -/
def actExpel (p : Panel) : Panel :=
  let ports := (List.range 12).filter fun n => !portFused p.variant n && decide ((p.ust (keyPort n)).rank < USt.rank .fenced)
  let p := each ports fencePort p
  let p := (p.modBook fun b => { b with
    expelled := true, expelPorts := b.expelPorts ++ ports.filter fun n => !b.expelPorts.contains n }).modFab fun f =>
      { f with mer := { f.mer with openLatch := false } }
  raise 0x0E09 p.activeHub keyPanel none p

/-- A unit FENCED by a manager becomes SUSPECT and is to be probed; a SUSPECT one is to be probed (R505). -/
def reinstateUnit (key : Nat) (p : Panel) : Panel :=
  let ask (p : Panel) : Panel := p.modBook fun b => { b with asked := if b.asked.contains key then b.asked else b.asked ++ [key] }
  match p.ust key with
  | .suspect => ask p
  | .fenced =>
    let p := putState key .suspect 0x0E06 true p
    let p := each ((contained key .suspect).filter fun u => decide (p.ust u = .fenced) && !(p.unit u).own) (putState · .suspect 0x0E06 false) p
    let p := raise 0x0E06 (keySite key) key none p
    ask (if key < 0x1000 then (if isMesh key then joinLinks key p else p) else setPhase (key - 0x3000) 1 p)
  | _ => p

/-- REINSTATE acts; that of the panel reinstates what EXPEL fenced (R504, R505). -/
def actReinstate (kind unit : Nat) (p : Panel) : Panel :=
  if kind = 0 then
    let ports := p.book.expelPorts.filter fun n => decide (p.ust (keyPort n) = .fenced)
    each (ports.map keyPort) reinstateUnit (p.modBook fun b => { b with expelled := false, expelPorts := [] })
  else reinstateUnit (if kind = 1 then unit else keyPort unit) p

/-- A manager's command, `cmd` 1 FENCE, 2 EXPEL, 3 REINSTATE, acts (R358, R503-R505). -/
def actManager (m : MgrCmd) (p : Panel) : Panel :=
  let p := p.modOd fun o => { o with mgr := { o.mgr with accepted := o.mgr.accepted + 1 } }
  if m.cmd = 1 then fenceCutPorts (actFence m.kind m.unit m.epoch m.reason p) else if m.cmd = 2 then actExpel p else actReinstate m.kind m.unit p

/-- Is the command one of those of R358, its unit one there is? -/
def managerFits (v : Nat) (m : MgrCmd) : Bool :=
  let unit := (decide (m.kind = 1) && isDie m.unit) || (decide (m.kind = 2) && decide (m.unit < 12) && !portFused v m.unit)
  (decide (m.cmd = 1) && unit) || (decide (m.cmd = 2) && decide (m.kind = 0) && decide (m.unit = 0))
    || (decide (m.cmd = 3) && (unit || (decide (m.kind = 0) && decide (m.unit = 0))))

/-- Does the state of the unit refuse the command (R503, R505)? A port or die FENCED with its container returns with it
(R495); a hub's fence lasts until panel reset (R509). -/
def managerState (p : Panel) (m : MgrCmd) : Bool :=
  let key := if m.kind = 1 then m.unit else keyPort m.unit
  if m.kind = 0 then false
  else if m.cmd = 1 then decide (m.kind = 1) && decide (m.unit = p.activeHub)
  else match p.ust key with
    | .failed => true
    | .fenced => (p.unit key).takeover || !(p.unit key).own || (decide (m.kind = 1) && isHub m.unit)
    | _ => false

/-- Is a command's epoch stale (R359)? -/
def managerStale (p : Panel) (m : MgrCmd) : Bool := decide (32768 ≤ (m.epoch + 65536 - p.od.hme) % 65536)

/-- A stale command is counted and raised (R359). -/
def staleManager (m : MgrCmd) (p : Panel) : Panel :=
  raise 0x0E20 p.activeHub keyPanel none (p.modOd fun o => { o with mgr := { o.mgr with stale := o.mgr.stale + 1, staleEpoch := m.epoch } })

/-- The checks of a manager's command before any store: the abort code, 0 where it passes (R343, R358, R359). -/
def managerCheck (m : MgrCmd) (p : Panel) : Nat × Panel :=
  if ¬ managerFits p.variant m then (abortOf 0x04 1 (if m.cmd = 0 ∨ 3 < m.cmd then 1 else if 2 < m.kind then 2 else 3), p)
  else if managerStale p m then (abortOf 0x09 2 0, staleManager m p)
  else if managerState p m then (abortOf 0x09 1 0, p)
  else if m.kind ≠ 0 ∧ p.ust (if m.kind = 1 then m.unit else keyPort m.unit) = .absent then (abortOf 0x0A 1 0, p)
  else (0, p)

/-- The bytes of the manager epoch object. -/
def hmeBytes (epoch : Nat) : List (Nat × List Byte) := [(256 * 0x1030, leBytes 2 epoch)]

/-- A manager's command: with an epoch that is new, HME is stored first and the command acts when it is (R359). Gives the
abort code and whether the answer waits for the store; `job` says what else waits for it. -/
def runManager (m : MgrCmd) (job : NvJob) (p : Panel) : Nat × Bool × Panel :=
  let c := managerCheck m p
  if c.1 ≠ 0 then (c.1, false, c.2)
  else if m.epoch = c.2.od.hme then (0, false, actManager m c.2)
  else
    let r := nvAsk (recArea 0x1030) { job with puts := hmeBytes m.epoch, cmd := some m } c.2
    if r.1 then (0, true, r.2) else (abortOf 0x08 1 0, false, r.2)

/-- A manager's command from outside a session. -/
def managerDirect (m : MgrCmd) (s : State) : Out := s.runP true fun p => (runManager m job0 p).2.2

/-- MANAGER_FENCE of a site (kind 1) or port (kind 2), under a manager's epoch (R358, R359, R503). -/
def execManagerFence (kind unit epoch reason manager : Nat) (s : State) : Out :=
  managerDirect ⟨1, kind, unit, epoch % 65536, reason, manager⟩ s

/-- EXPEL (R504). -/
def execExpel (epoch reason manager : Nat) (s : State) : Out := managerDirect ⟨2, 0, 0, epoch % 65536, reason, manager⟩ s

/-- REINSTATE of the panel (kind 0), a site or a port (R505). -/
def execReinstate (kind unit epoch reason manager : Nat) (s : State) : Out :=
  managerDirect ⟨3, kind, unit, epoch % 65536, reason, manager⟩ s

end Sys2Proof.Machine
end

