-- ==== Sys2Proof/Machine/OdRead.lean ====
section
/-! DEFINITION. What the objects of the dictionary read as (R32, R75, R101, R122, R149, R178, R205, R233, R267, R284, R307, R335,
R360, R378, R399, R412, R437, R455, R480, R493, R514, R545). Settings read as their stored bytes. -/

namespace Sys2Proof.Machine

/-- A Bool as 0 or 1. -/
def b2n (b : Bool) : Nat := if b then 1 else 0
/-- A 64-bit two's-complement value. -/
def i64 (x : Int) : Nat := (wrap 64 x).toNat
/-- A temperature reading; 0x8000 where there is none (R412). -/
def temp16 (t : Option Int) : Nat := match t with | some x => i16 x | none => 0x8000
/-- A pattern over the blocks. -/
def blockBits (f : Nat → Bool) : Nat := ofBits ((List.range 20).filter f)

/-- The bytes of a list, cut or filled with zeros to a length. -/
def padTo (n : Nat) (l : List Byte) : List Byte := (l ++ List.replicate (n - l.length) 0).take n

/-- A management attachment's MAC address: hub `h`, segment `g` (R354). -/
def macOf (h g : Nat) : List Byte := 0x02 :: (leBytes 5 (4 * Config.serialNumber + 2 * h + g)).reverse
/-- Its link-local address, from the MAC as modified EUI-64 (R354). -/
def linkLocal (h g : Nat) : List Byte :=
  let m := macOf h g
  [0xFE, 0x80, 0, 0, 0, 0, 0, 0] ++ (((m.headD 0) ^^^ 0x02) :: (m.drop 1).take 2) ++ [0xFF, 0xFE] ++ m.drop 3

/-- A hub's PLCA node ID on a segment: hub B takes 0, the coordinator's, on both at a takeover (R354). -/
def plcaNode (p : Panel) (h g : Nat) : Nat := if h = 1 ∧ p.book.tookOver then 0 else cfg p 0x1010 0 (6 + 2 * h + g)

/-- The session in a slot. -/
def sessionAt (p : Panel) (slot : Nat) : Option Session := p.od.sessions.find? fun x => decide (x.slot = slot)

/-- A mailbox session as it exists from READY without opening: level B, in its function's scope (R341, R350). -/
def basicSession (slot : Nat) : Session :=
  { slot := slot, id := 0, level := .b, scope := if slot = 16 then 0xFF else slot - 17, last := 0, seq := none, resp := default,
    stage := [], recorded := [], xfer := none, threshold := 1, eseq := 0, due := [], unacked := [], lost := false,
    requests := 0, cred := 0xFF, hdr := [], seg := 0, keys := [], eph := [] }

/-- The session of a slot, a mailbox's basic one among them. -/
def liveSession (p : Panel) (slot : Nat) : Option Session :=
  match sessionAt p slot with
  | some x => some x
  | none => if 16 ≤ slot ∧ p.boot.ready ∧ fnExists p (slot - 16) = true then some (basicSession slot) else none

def Level.code : Level → Nat
  | .b => 0 | .e => 1 | .s => 2

/-- A session table entry (R360). -/
def sessionRow (p : Panel) (slot : Nat) : List Nat :=
  match liveSession p slot with
  | none => [0, 0, 0, 0, 0, 0, 0, 0]
  | some x => [1, x.level.code, x.scope, b2n (decide (16 ≤ slot)), x.id, (p.now - x.last) / ticksPerSecond, x.requests, x.stage.length]

/-- Area 0x1000. -/
def odRead1 (p : Panel) (i s : Nat) : List Nat :=
  match i, s with
  | 0x1000, _ => [leNat ("Malxon".toUTF8.toList.map fun b => BitVec.ofNat 8 b.toNat), leNat Config.product, p.variant,
      leNat Config.serialText, Config.revision, Config.serialNumber]
  | 0x1001, _ =>
    let im := Tab.get 0 p.boot.image p.book.active
    [im, (imageOf p im).version, Config.bootRomVersion, 0x00010000]
  | 0x1021, _ => sessionRow p s
  | 0x1030, 0 => [p.od.hme]
  | 0x1030, _ => [p.od.mgr.accepted, p.od.mgr.stale, p.od.mgr.staleEpoch]
  | _, _ => let c := p.od.proto; [c.rxA, c.rxB, c.discarded, c.dup, c.badSeq, c.sent, c.resent, c.lost, c.down]

/-- Area 0x2000. -/
def odRead2 (p : Panel) (i s : Nat) : List Nat :=
  let c := p.clk
  match i with
  | 0x2000 => [p.now]
  | 0x2001 =>
    let held := c.holdover + (match c.holdFrom with | some t => p.now - t | none => 0)
    [b2n c.refA.valid, b2n c.refB.valid, c.use, c.failovers, held, c.settle]
  | 0x2010 =>
    let x := c.plans.getLast?
    [c.stepNow, (match x with | some y => y.plan.step | none => 0xFF), (match x with | some y => y.plan.t | none => 0), c.planNum,
      c.issued, c.missedPlans]
  | 0x2013 => let d := p.getClk s; [b2n d.localMode, d.step, b2n d.locked, d.stretched, d.emerg, d.plans, d.mism]
  | 0x2014 => [b2n (p.getClk s).localMode]
  | _ => [(Tab.get 0 c.periph s).toNat]

/-- Area 0x3000. -/
def odRead3 (p : Panel) (i s : Nat) : List Nat :=
  let w := p.pwr
  let b := p.getBlk s
  match i with
  | 0x3000 => [w.panelW, w.common, w.total, w.setpoint, w.vsb12, blockBits fun n => decide (p.ust (keyBlock n) = .failed)]
  | 0x3001 => [b.vcode, b.vout, b.iout, i16 b.temp, toF32 (calFactor p s), b.collapses, b.faults]
  | 0x3006 =>
    let a := p.getAcct s
    [i64 a.balance, depthOf p s, a.lastDebits, a.measured, a.admitted, a.oversize, a.waitTicks]
  | 0x3007 =>
    let usable := min 12000 w.bankC * (w.bank * w.bank - 36000000) / 2000000
    [w.bank, w.bankC, usable, w.checked, w.refused, w.lastEst]
  | 0x3008 => [w.chosen, w.atDepth, w.overCap, w.changes, w.capDowns]
  | 0x3010 => [w.thermalCap, w.effCap, w.ceiling, blockBits (blockHeld p), w.forced, w.trips]
  | 0x3011 => [toF32 (rthJOf p s), toF32 (rthDOf p s), b.cap, i16 b.fJ, i16 b.fD, b2n (blockHeld p s), b.holds, b.shifts]
  | 0x3012 => let d := p.getClk s; [temp16 d.junction, temp16 d.dram, d.excluded, d.tjDowns, d.trips]
  | _ => [i16 w.inlet, i16 w.outlet, b2n w.inletOk, b2n w.outletOk, i16 (coolant p), w.failed]

/-- Area 0x4000. 0x4000:03 counts a block without a spare by its hamper position's ROLE alone: one shipped FAILED keeps the ROLE of
a spare (DESIGN CHOICE, log 71). -/
def odRead4 (p : Panel) (i s : Nat) : List Nat :=
  match i, s with
  | 0x4000, 1 => [p.variant]
  | 0x4000, 2 => [(computeSites.filter fun x => match p.ust x with | .ready => true | .assigned => true | .running => true | _ => false).length]
  | 0x4000, _ => [((List.range 16).filter fun b => !blkFused p b && decide (mapRole p (hamperOf b) ≠ 2)).length]
  | 0x4001, _ => [posType s]
  | 0x4002, _ => [blockOf s]
  | 0x4003, _ => [Tab.get 0 p.boot.strap s]
  | 0x4004, _ => [p.gaRefusals]
  | 0x4010, _ => [hamperOf s]
  | 0x4020, _ => [(portDies s).2 * 256 + (portDies s).1]
  | 0x4030, _ =>
    let b := p.boot
    [b.phase, b2n b.ready] ++ (List.range 10).map (fun n => Tab.get 0 b.ticks (n + 1)) ++ [b.coolWait, b.refWait, b2n b.trainFull, b.late]
  | 0x4032, _ => [p.boot.generation]
  | 0x4034, _ =>
    [(fuseWord p s).toNat, (Tab.get 0 p.boot.dieId s).toNat, if s = 0 then (vword p 0).toNat else if s = 0xDD then (vword p 1).toNat else 0]
  | 0x4035, _ => [Tab.get 0xFF p.boot.image 0, Tab.get 0xFF p.boot.image 1, p.boot.aFails, p.boot.bFails, p.boot.romTime]
  | 0x4036, _ => [cfg p 0x4036 0 1, cfg p 0x4036 0 2, p.boot.stored, p.boot.storeRefused]
  | 0x4040, _ =>
    let x := p.getPart s
    let m := ofBits x.members
    [(match x.phase with | .free => 0 | .formed => 1 | .packing => 2), b2n x.sealed] ++ lanes 64 4 m ++ [x.members.length]
  | 0x4042, _ =>
    let x := (p.getPart s).stat
    [x.keys, x.resets, x.lastStep, x.drain, x.absorbed, x.cut, x.total, x.failed]
  | 0x4043, _ => [(p.partOf s).getD 0xFF]
  | _, _ => let c := p.getRctr s; [c.core, c.die, c.full, c.kept, c.transit]

def Phase.code : Phase → Nat
  | .free => 0 | .defined => 1 | .armed => 2 | .active => 3 | .frozen => 4 | .ended => 5

/-- The footprint's four bytes of a duty (R223, R233). -/
def footprintOf (p : Panel) (r n : Nat) : List Byte :=
  let g := p.getReg r
  match Tab.find? g.duty n with
  | none => [0, 0, 0xFF, 0]
  | some s =>
    let sub := Tab.find? g.subst s
    let av : Nat := if g.variant.any (fun e => decide (e.1 = n)) then 3
      else if g.moved.any (fun e => decide (e.1 = n)) then (if g.staging.any (fun e => decide (e.1 = n)) then 2 else 1)
      else match sub with
        | none => 0
        | some h => if g.staging.any (fun e => decide (e = (n, h))) then 2 else 1
    [BitVec.ofNat 8 s, BitVec.ofNat 8 (blockOf s), BitVec.ofNat 8 (sub.getD 0xFF), BitVec.ofNat 8 av]

/-- Area 0x5000: records and numbers; `k` is the core of a per-core object, whose index is `i`. -/
def odRead5 (p : Panel) (i k s : Nat) : List Nat :=
  let c := p.getCore k
  let g := p.getReg s
  match i with
  | 0x5000 => [cstatWord c.a, c.a.rc, c.a.icc]
  | 0x5004 => let w := c.a.wctr; [w.bank, w.corr, w.die, w.wait, w.slip, w.collisions, w.unposted]
  | 0x5008 => [c.base.toNat, c.limit.toNat]
  | 0x500C => [c.stg]
  | 0x5010 => let f := c.a.frec; [f.ev, f.pc, f.slot, f.step, f.icc]
  | 0x5014 => let w := c.a.ra; [w.issued, w.dropped, w.poisoned, w.served]
  | 0x5018 => let w := c.a.arith; [w.nans, w.infs, w.ex80, w.vcvt]
  | 0x5020 => if s = 0 then [0x00010000] else [0x00FF]
  | 0x5040 => [g.part, g.row0, g.col0, g.row1, g.col1, g.image, g.restore, g.count]
  | 0x5042 =>
    [g.phase.code, g.step, g.cur, g.cause] ++ (List.range 2).flatMap fun n =>
      let x := Tab.get default g.slots n
      [x.step, x.barrier, b2n x.valid]
  | 0x5049 =>
    let x := g.ctr
    [x.completed, x.overruns, x.maxSlip, x.ovStep, x.ovSlip, x.ovSlack, x.admission, x.freezes, x.restarts, x.discards]
  | 0x5062 => [g.seq.length]
  | _ => [g.seq.length, g.seq.pages, g.seq.applied, g.seq.longest, g.seq.conflicts]

/-- Row words that are poisoned: distinct ones named by entries in force (R128). -/
def poisonCount (k : Stack) : Nat :=
  (((inForce k).flatMap fun e => (bitsSet 8 (Spare.pmask e.2)).map fun c =>
    (Spare.row e.2, Spare.bank e.2, Spare.ch e.2, c)).eraseDups).length

/-- Area 0x6000. -/
def odRead6 (p : Panel) (i k s : Nat) : List Nat :=
  let c := p.getCore k
  let t := p.getStk s
  match i with
  | 0x6000 => let w := c.a.sctr; [w.parts, w.waitCc, w.longest, w.misses, w.starved, w.corrected, w.uncorr]
  | 0x6004 => let w := c.a.wnctr; [w.accepted, w.completed, w.late, w.violations, w.sent, w.received, w.suppressed]
  | 0x6010 => let d := c.discard; [d.reason, d.win, d.gen, d.cur, d.site, d.core, d.off, d.step]
  | 0x6020 =>
    [variantLayers p.variant, stackBytes p.variant, b2n t.fast, t.level, temp16 (hottest (t.dram.filterMap id)), (inForce t).length, poisonCount t]
  | 0x6021 => [b2n t.fast]
  | 0x6022 =>
    let w := t.ctr
    [w.corrected, w.uncorr, w.retired, w.exhausted, w.replaced, w.scrubs, w.deferred, w.chan, w.bank, w.late]
  | 0x6024 => let e := t.err; [e.kind, e.addr, e.lanes, e.req, e.core, e.tick]
  | 0x6030 => [c.pstride]
  | _ => let w := c.a.kv; [w.units, w.faults, w.refused]

/-- Area 0x7000. -/
def odRead7 (p : Panel) (i s : Nat) : List Nat :=
  let r := p.getRtr s
  let n := p.getNode s
  match i with
  | 0x7000 => [r.exec.getD 0xFF, currentRep r, r.late, r.committed]
  | 0x7001 =>
    let c := r.ctr
    [c.forwarded, c.lateFirings, c.lateSum, c.maxLate, c.creditHold, c.absentCell, c.lateSends, c.lateRecvs, c.misdelivered, c.boundary,
      c.service, c.starved]
  | 0x7002 => (List.range 4).flatMap fun e => let l := Tab.get link0 r.link e; [l.flits, l.crc, l.replays, l.longest, b2n (linkDisabled p s (32 * e))]
  | 0x7004 => [r.refusal.1, r.refusal.2.1, r.refusal.2.2.1, r.refusal.2.2.2]
  | 0x7010 => let c := r.octr; [c.taken, c.results, c.staleUnit, c.staleDest, c.mismatch, c.order, c.range, c.corrections]
  | 0x7013 => [(r.unit.map fun e => e.2.pairs.length).sum]
  | 0x7020 => [n.hub, n.gen, ofBits ((List.range 5).filter (ctlUp p s)), n.routeWrites]
  | 0x7021 =>
    let c := n.ctr
    [c.sent, c.received, c.corrected, c.replays, c.dups, c.old, c.undeliverable, c.delayed, c.deferred, c.ignored]
  | _ => match p.ctl.bulks.find? fun b => decide (b.sess = p.ctl.lastBulk) with
    | none => [p.ctl.lastBulk, 0, 0, 0, 0]
    | some b => [b.sess, b.targets.length, b.done.length, b.incomplete.length, b.crc.length]

def QuerySt.code : QuerySt → Nat
  | .free => 0 | .queued => 1 | .scanning => 2 | .merging => 3 | .reranking => 4 | .ending => 5
def ShardSt.code : ShardSt → Nat
  | .empty => 0 | .verifying => 1 | .usable => 2 | .bad => 3 | .lost => 4

/-- A ledger entry (R252). -/
def ledgerBits (q : Nat) (x : Query) : Nat :=
  q * 2 ^ 238 + x.epoch * 2 ^ 222 + x.st.code * 2 ^ 218 + x.part * 2 ^ 214 + x.km1 * 2 ^ 202 + x.status * 2 ^ 198 + x.sfirst * 2 ^ 177
    + x.scm1 * 2 ^ 158 + x.alive * 2 ^ 150 + x.lane * 2 ^ 144 + x.region * 2 ^ 138 + x.prof * 2 ^ 134 + x.deadline * 2 ^ 64
    + x.rcq * 2 ^ 56 + x.htag

/-- Areas 0x8000 and 0x9000. -/
def odRead8 (p : Panel) (i s : Nat) : List Nat :=
  match i, s with
  | 0x8000, _ => [524288, 262144, 64, 4096]
  | 0x8010, 0 => [p.ret.dirSel]
  | 0x8010, _ => [(p.getDir p.ret.dirSel).st.code]
  | 0x8030, _ => [p.ret.qSel]
  | 0x8031, _ =>
    let c := Tab.get default p.ret.ctr s
    [c.submitted, c.refused] ++ (List.range 8).map (Tab.get 0 c.completed) ++
      [((liveQueries p).filter fun e => decide (e.2.part = s)).length, c.batches, c.lanes]
  | 0x8040, _ => let c := (p.getSve s).ctr; [c.passes, c.bytes, c.codes, c.pairs, c.errors, c.waits, c.waitTicks, c.aborted]
  | 0x9000, _ =>
    (List.range 2).flatMap (fun h => let x := p.getHPort h; [b2n x.up, x.rate, x.width, b2n x.flit, b2n (decide (h = activePort p))])
      ++ [p.host.takeovers]
  | _, _ =>
    let c := (p.getFn s).ctr
    [c.taken, c.posted, c.rewritten, c.dropped, c.refusals, c.crc, c.dma, c.events, c.holds]

/-- Areas 0xA000 and 0xB000. -/
def odReadA (p : Panel) (i s : Nat) : List Nat :=
  match i, s with
  | 0xA000, _ => [Config.ppos % 4096]
  | 0xA002, _ =>
    let x := p.getPort s
    [x.phase, x.width, b2n x.session, x.ctr.sent, x.ctr.received, x.ctr.checkFail, x.ctr.replays, x.ctr.holds, x.ctr.discards, x.ctr.attempts]
  | 0xA030, _ => [cfg p 0xA030 0 1, cfg p 0xA030 0 2, cfg p 0xA030 0 3, p.fab.bank, p.fab.sepoch]
  | 0xA040, _ => let m := p.fab.mer; [cfg p 0xA040 0 1, b2n m.locked, b2n m.openLatch, m.lastHops, m.invalid]
  | 0xB000, _ =>
    let c := p.sec
    [b2n c.owned, b2n (healthy p), c.minSvn, c.programmed, c.revoked, Tab.get 0 c.reports p.book.active, c.keysMade, c.authed, c.authFails]
  | 0xB013, _ => (List.range 2).flatMap fun n => let x := imageOf p n; [b2n x.valid, x.version, x.svn, x.slot]
  | _, _ =>
    let x := p.getGuest s
    [b2n x.linkUp, x.rate, b2n x.advanced, x.admitted, x.bytes, x.refusals, x.heldTicks, x.fences]

/-- A unit state record (R514). -/
def unitRow (p : Panel) (key : Nat) : List Nat :=
  let r := p.unit key
  [r.st.code, r.prior.code, r.cause, r.tick, r.evid, (probesIn p key).length]

/-- Areas 0xC000 to 0xE000. -/
def odReadC (p : Panel) (i k s : Nat) : List Nat :=
  match i with
  | 0xC000 => let c := p.boot.calib; [b2n c.user, c.writes, c.tick, c.crc, b2n c.valid]
  | 0xD002 => let c := p.getChk s; [c.accepted, c.repeats, c.skips, c.errors, c.discarded, c.bytes]
  | 0xD010 => let c := p.chain; [c.inBlocks, c.crc32, c.readback, c.second, c.outBlocks, c.outMis]
  | 0xE000 => [p.book.log.length, (p.book.eseq + 2 ^ 32 - 1) % 2 ^ 32, p.book.lost]
  | 0xE010 => unitRow p s
  | 0xE011 => unitRow p (keyCore k)
  | 0xE015 => unitRow p (keyStack s)
  | 0xE016 => unitRow p (keyPort s)
  | 0xE017 => unitRow p (keyBlock s)
  | _ =>
    (List.range 8).map (fun c => (allDies.filter fun x => decide ((p.ust x).code = c)).length)
      ++ [b2n p.book.expelled, p.book.active, p.book.tgen, p.book.conflicts, p.book.probesRun, p.book.probesFailed]

/-- A queue register entry (R317). -/
def queueBytes (q : Queue) (isCq isSq : Bool) : List Byte :=
  let st : Nat := match q.st with | .disabled => 0 | .enabled => 1 | .error => 2 | .draining => 3
  leBytes 8 q.base ++ leBytes 8 (q.log2n * 2 ^ 16 + (if isSq then q.cq else q.vec) * 2 ^ 8 + b2n q.en)
    ++ leBytes 8 (st * 2 ^ 62 + q.head * 2 ^ 16 + q.tail) ++ leBytes 8 (if isCq then q.cnt * 2 ^ 32 + q.time else 0)

/-- A check engine's result entry (R491). -/
def checkResBytes (x : CheckRes) : List Byte :=
  leBytes 1 x.state ++ leBytes 1 x.reason ++ leBytes 1 x.last ++ leBytes 1 x.alive ++ leBytes 4 0 ++ leBytes 8 x.crc ++ leBytes 8 x.bytes
    ++ leBytes 8 x.tick

/-- Entries of the catalogue in ascending order (R514). -/
def catalogueBytes : List Byte := evCatalogue.flatMap fun e => leBytes 2 e.1 ++ leBytes 1 e.2.1 ++ leBytes 1 0

/-- Entries of a variant object (R233). -/
def variantBytes (l : List (Nat × Nat)) : List Byte := l.flatMap fun e => leBytes 2 e.1 ++ leBytes 1 e.2 ++ leBytes 1 0

/-- The port that stands for the tables which every port master holds alike. -/
def anyPort (p : Panel) : Nat := ((List.range 12).find? fun n => !portFused p.variant n).getD 0

/-- The bytes of the BLOBs and STRs that are not settings; none for those that are. -/
def odBlob (p : Panel) (i k s : Nat) : Option (List Byte) :=
  let c := p.getCore k
  match i, s with
  | 0x1011, _ => some ([(0, 0), (0, 1), (1, 0), (1, 1)].flatMap fun e => macOf e.1 e.2 ++ [0, 0] ++ linkLocal e.1 e.2)
  | 0x4031, _ => some (((List.range 256).flatMap fun x => leBytes 4 (mapEntry p x).toNat)
      ++ padTo 16 ((List.range 12).map fun n => BitVec.ofNat 8 (if portFused p.variant n then 1 else Tab.get 0 p.boot.portMap n)))
  | 0x5021, _ => some (leBytes 16 c.a.gen.toNat)
  | 0x5046, _ => some ((List.range 128).flatMap (footprintOf p s))
  | 0x5047, _ => some (variantBytes (p.getReg s).variant)
  | 0x5048, _ => some (variantBytes (p.getReg s).staging)
  | 0x6008, _ => some ((List.range 64).flatMap fun n => leBytes 2 (Tab.get window0 c.a.win n).gen)
  | 0x6023, _ => some ((List.range 4096).flatMap fun n => leBytes 8 (Tab.get 0 (p.getStk s).spare n).toNat)
  | 0x7005, _ => some ((List.range 32).flatMap fun n => leBytes 4 (Tab.get 0 (p.getRtr s).transit n).toNat)
  | 0x7011, _ => some ((List.range 16).flatMap fun u => leBytes 8 (Reg.value p (.ustate s u)))
  | 0x7012, _ => some ((List.range 64).flatMap fun n => leBytes 8 (Reg.value p (.destEp s n)))
  | 0x7022, _ => some (leBytes 32 (groupMap p s))
  | 0x7023, _ => some ((List.range 256).map fun n => BitVec.ofNat 8 (routeEntry (p.getNode s) n))
  | 0x8010, 1 => some (leBytes 16 (p.getDir p.ret.dirSel).bits.toNat)
  | 0x8011, _ => some ((List.range (524288 - p.ret.dirSel)).flatMap fun n => leBytes 16 (p.getDir (p.ret.dirSel + n)).bits.toNat)
  | 0x8030, 1 => some (leBytes 32 (ledgerBits p.ret.qSel (p.getQuery p.ret.qSel)))
  | 0x9002, _ =>
    let f := p.getFn s
    some (((List.range 16).flatMap fun n => queueBytes (f.sqOf n) false true) ++ ((List.range 16).flatMap fun n => queueBytes (f.cqOf n) true false)
      ++ queueBytes f.ring false false)
  | 0xA003, _ => some (padTo 40 (p.getPort s).peer)
  | 0xA010, _ => some ((List.range 4096).flatMap fun n => leBytes 4 (Tab.get 0 (p.getPort (anyPort p)).route n).toNat)
  | 0xA020, _ => some ((List.range 65536).map fun n => BitVec.ofNat 8 (Tab.get 0 (Tab.get [] (p.getPort s).slot (1 - p.fab.bank % 2)) n))
  | 0xA021, _ =>
    let x := p.getPort s
    some ((List.range 256).map (fun n => BitVec.ofNat 8 (Tab.get 0xFF x.inTag n)) ++ (List.range 16).map (fun n => BitVec.ofNat 8 (Tab.get 0xFF x.egTag n))
      ++ (List.range 8).flatMap fun v => leBytes 2 (Tab.get 0 x.egDst v))
  | 0xA022, _ => some ((List.range 8).flatMap fun v => leBytes 2 (16 * (Tab.get 31 (p.getPort s).limit v + 1)))
  | 0xB001, _ => some (Config.derBytes 0 s)
  | 0xB002, _ => some (Config.aliasDer (Tab.get [] p.sec.aliasCert s))
  | 0xB003, _ => some (padTo 48 (Config.derBytes 2 0))
  | 0xB004, _ => some (Config.derBytes 3 0)
  | 0xB020, _ => some (measOf p p.book.active s)
  | 0xD001, _ => some ((List.range 16).flatMap fun n => checkResBytes ((p.getChk s).result n))
  | 0xE001, _ => some (p.book.log.flatMap fun e => leBytes 32 (entryBits e false e.eseq))
  | 0xE002, _ => some catalogueBytes
  | _, _ => none

/-- The indices whose values are stored settings, for read. -/
def isSetting (i s : Nat) : Bool :=
  [0x1010, 0x1012, 0x1020, 0x2002, 0x2011, 0x2015, 0x2020, 0x3002, 0x3003, 0x3004, 0x3005, 0x3013, 0x4044, 0x5043, 0x5044, 0x5045,
    0x5050, 0x5060, 0x5061, 0x600C, 0x6025, 0x7008, 0x7024, 0x8001, 0x8002, 0x8020, 0x8021, 0x8022, 0x8023, 0x9003, 0xA001, 0xA004,
    0xA041, 0xB030, 0xB031, 0xB040, 0xB050, 0xC001, 0xC002, 0xC003, 0xE020].contains i || (decide (i = 0xA000) && decide (s = 0))

/-- The numbers of a record or scalar that is not a setting, field by field; `b` is its first index and `k` its core. -/
def odNums (p : Panel) (b k s : Nat) : List Nat :=
  match b / 0x1000 with
  | 1 => odRead1 p b s | 2 => odRead2 p b s | 3 => odRead3 p b s | 4 => odRead4 p b s | 5 => odRead5 p b k s | 6 => odRead6 p b k s
  | 7 => odRead7 p b s | 8 => odRead8 p b s | 9 => odRead8 p b s | 10 => odReadA p b s | 11 => odReadA p b s | _ => odReadC p b k s

/-- The value in force of an object that the table's row describes: index, sub-index (R339). A LIVE object committed and not
yet applied everywhere reads as it was. -/
def odValue (p : Panel) (r : ORow) (i s : Nat) : List Byte :=
  let k := 4 * s + (i - r.index)
  match odBlob p r.index k s with
  | some b => b
  | none =>
    if isSetting r.index s then
      (match Tab.find? p.od.pendingLive (256 * i + s) with | some b => b | none => odBytes p i s)
    else fldBytes r.flds (odNums p r.index k s)

/-- The committed value of a LIVE object (R339). -/
def odPending (p : Panel) (r : ORow) (i s : Nat) : List Byte :=
  if r.index = 0x5062 then leBytes 4 (let q := (p.getReg s).seq
    (q.sending ++ q.staged).getLastD q.length)
  else if isSetting r.index s then odBytes p i s else odValue p r i s

end Sys2Proof.Machine
end

