-- ==== Sys2Proof/Machine/OdCheck.lean ====
section
/-! DEFINITION. The checks of a request on an object before its block's state is looked at (R336-R343): the object, level,
scope and access class, gating, type and length, range and reserved fields. An abort code of 0 passes. -/

namespace Sys2Proof.Machine

/-- Is the object an array (R337)? -/
def ORow.isArray (r : ORow) : Bool := r.sub.last.isSome

/-- The key of the block that an object's element belongs to (R344). -/
def ORow.block (r : ORow) (s : Nat) : Nat := 256 * r.index + (if r.isArray then s else 0)

/-- A block's commit count (R344). -/
def commitsOf (p : Panel) (b : Nat) : Nat := Tab.get 0 p.od.commits b
/-- A commit is performed on a block (R344). -/
def countCommit (b : Nat) (p : Panel) : Panel :=
  p.modOd fun o => { o with commits := Tab.upd 0 b (fun n => (n + 1) % 65536) o.commits }

/-- What a request's index and sub-index name (R337). -/
inductive Named where
  | obj (r : ORow)
  | last (r : ORow)                   -- sub-index 0xFF of an array
  | commit (r : ORow)                 -- the commit sub-index
  | none_ (abort : Nat)

/-- Has an index a STILL, LIVE or RW object (R337)? -/
def commitRow (i : Nat) : Option ORow :=
  (odArea i).find? fun r => r.has i && (match r.acc with | .rw => true | .live => true | .still => true | _ => false)

/-- The object that a request names (R336, R337, R343). -/
def odFind (v i s : Nat) : Named :=
  match odIndex i with
  | none => .none_ (abortOf 0x01 1 0)
  | some r =>
    if s = 0xFF ∧ r.isArray then .last r
    else match (if s = 0xFE then commitRow i else none) with
      | some c => .commit c
      | none => match odRow v i s with
        | some o => .obj o
        | none => .none_ (abortOf 0x01 2 0)

/-- Has the object this field (R337)? -/
def ORow.hasField (r : ORow) (f : Nat) : Bool := decide (f = 0) || (decide (r.ty = .record) && decide (f ≤ r.flds.length))

/-- Does a session's level reach an object's (R340)? -/
def Level.reaches : Level → Level → Bool
  | _, .b => true
  | .e, .e => true
  | .s, .s => true
  | _, _ => false

/-- Objects whose sub-index is a region, a partition, a function (R233, R267, R284, R335, R399, R455). -/
def regionObj (i : Nat) : Bool := decide (0x5040 ≤ i ∧ i ≤ 0x5063 ∧ i ≠ 0x5050) || decide (0x8020 ≤ i ∧ i ≤ 0x8023)
def partObj (i : Nat) : Bool := [0x3005, 0x3006, 0x4040, 0x4041, 0x4042, 0x8001, 0x8002, 0x8031].contains i
def siteObj (r : ORow) : Bool :=
  match r.sub with | .site => true | .mesh => true | .node => true | .die => true | .compute => true | _ => false

/-- Does an array's element belong to partition `n` (R341)? -/
def elementOf (p : Panel) (n : Nat) (r : ORow) (s : Nat) : Bool :=
  if siteObj r then decide (p.partOf s = some n)
  else if regionObj r.index then decide ((p.getReg s).phase ≠ .free) && decide ((p.getReg s).part = n)
  else if partObj r.index then decide (s = n)
  else if r.index = 0x9001 ∨ r.index = 0x9002 then decide (s = n + 1)
  else decide (r.index = 0x1021) && decide (s = 0x11 + n)

/-- Does an array's sub-index name a site, region, partition, function or query (R341)? -/
def namesUnit (r : ORow) : Bool :=
  r.isArray && (siteObj r || regionObj r.index || partObj r.index || [0x1021, 0x9001, 0x9002].contains r.index)

/-- Objects that every session reaches in its own right (log 35): its threshold, its report, and the directory and ledger
selectors, whose own rules bound a partition's session (R238, R252, R360, R463). -/
def ownObj (i : Nat) : Bool := [0x1023, 0x8010, 0x8011, 0x8030, 0xB010].contains i

/-- Is an access inside a session's scope (R341)? The selected ledger entry is its partition's and the security officer's
(R267). -/
def inScope (p : Panel) (x : Session) (r : ORow) (s : Nat) (write : Bool) : Bool :=
  if r.index = 0x8030 ∧ s = 1 then
    decide (x.level = .s) || decide (x.scope = (p.getQuery p.ret.qSel).part)
  else
    decide (x.scope = 0xFF) || ownObj r.index || (r.isArray && elementOf p x.scope r s)
      || (!write && !namesUnit r && [1, 2, 4].contains (r.index / 0x1000))

/-- Level, scope and access class of a read (R339-R343). -/
def readAllowed (p : Panel) (x : Session) (r : ORow) (s : Nat) : Nat :=
  if ¬ x.level.reaches r.level then abortOf 0x02 1 0
  else if ¬ inScope p x r s false then abortOf 0x02 4 0
  else if r.acc = .wo then abortOf 0x02 3 0
  else 0

/-- Is a record's field RO? -/
def ORow.fieldRO (r : ORow) (f : Nat) : Bool := match fldAt r.flds f 0 with | some e => decide (f ≠ 0) && e.2.ro | none => false

/-- Level, scope and access class of a write, staged or not (R339-R343, R346). -/
def writeAllowed (p : Panel) (x : Session) (r : ORow) (s field : Nat) (stage : Bool) : Nat :=
  if ¬ x.level.reaches r.level ∨ ((stage ∨ field ≠ 0) ∧ x.level = .b) then abortOf 0x02 1 0
  else if ¬ inScope p x r s true then abortOf 0x02 4 0
  else if r.acc = .const ∨ r.acc = .ro ∨ r.fieldRO field = true ∨ (r.index = 0xB021 ∧ s < 5) then abortOf 0x02 2 field
  else 0

/-- The peripheral that a write of an object reaches, by its bit of the enable word (R376). -/
def periphOf (r : ORow) : Option Nat :=
  if r.index = 0xD000 then some 8
  else if r.index = 0xB011 then some 0
  else if r.index = 0xB010 ∨ r.index = 0xB012 ∨ r.index = 0xB021 then some 2
  else if r.pers ∨ r.index = 0x1032 then some 1
  else none

/-- The gating check of a write (R343, R376). -/
def gateCheck (r : ORow) (p : Panel) : Nat × Panel :=
  match periphOf r with
  | some b => if periphOn p b then (0, p) else gated p
  | none => (0, p)

/-- Is this well-formed UTF-8? `need` continuation bytes are owed, the next one between `lo` and `hi`. -/
def utf8Go : Nat → Nat → Nat → List Byte → Bool
  | need, _, _, [] => decide (need = 0)
  | 0, _, _, b :: t =>
    let x := b.toNat
    if x < 0x80 then utf8Go 0 0x80 0xBF t
    else if 0xC2 ≤ x ∧ x ≤ 0xDF then utf8Go 1 0x80 0xBF t
    else if x = 0xE0 then utf8Go 2 0xA0 0xBF t
    else if x = 0xED then utf8Go 2 0x80 0x9F t
    else if 0xE1 ≤ x ∧ x ≤ 0xEF then utf8Go 2 0x80 0xBF t
    else if x = 0xF0 then utf8Go 3 0x90 0xBF t
    else if 0xF1 ≤ x ∧ x ≤ 0xF3 then utf8Go 3 0x80 0xBF t
    else if x = 0xF4 then utf8Go 3 0x80 0x8F t
    else false
  | need + 1, lo, hi, b :: t => decide (lo ≤ b.toNat ∧ b.toNat ≤ hi) && utf8Go need 0x80 0xBF t
def utf8Ok (b : List Byte) : Bool := utf8Go 0 0x80 0xBF b

/-- Are the bytes of a field wrongly encoded (R338)? -/
def encBad (f : OFld) (b : List Byte) : Bool := decide (f.ty = .bool) && decide (1 < leNat b)

/-- The first field of a record, from number `n`, for which `bad` holds; RO fields are not looked at. -/
def firstField (bad : OFld → List Byte → Bool) : Nat → List OFld → List Byte → Option Nat
  | _, [], _ => none
  | n, f :: t, b =>
    if !f.ro && bad f (b.take f.ty.size) then some n else firstField bad (n + 1) t (b.drop f.ty.size)

/-- Type and length of a value (R338, R343). -/
def typeCheck (r : ORow) (field : Nat) (b : List Byte) : Nat :=
  if field ≠ 0 then
    match fldAt r.flds field 0 with
    | some e => if b.length ≠ e.2.ty.size then abortOf 0x03 1 field else if encBad e.2 b then abortOf 0x03 2 field else 0
    | none => abortOf 0x01 3 field
  else match r.ty with
    | .str => if b.length = 0 ∨ 64 < b.length then abortOf 0x03 1 0 else if utf8Ok b then 0 else abortOf 0x03 2 0
    | .blob =>
      if b.length = r.len ∨ (r.var = true ∧ b.length ≤ r.len ∧ b.length % r.elem = 0) then 0 else abortOf 0x03 1 0
    | .record => if b.length ≠ r.len then abortOf 0x03 1 0 else match firstField encBad 1 r.flds b with
      | some n => abortOf 0x03 2 n
      | none => 0
    | _ => if b.length ≠ r.len then abortOf 0x03 1 0 else if (firstField encBad 1 r.flds b).isSome then abortOf 0x03 2 0 else 0

/-- Is a field outside its range? An F32 NaN or infinity is above every range (R338). -/
def fldOut (f : OFld) (b : List Byte) : Bool := decide (leNat b < f.lo) || decide (f.hi < leNat b)

/-- A check of one element of a BLOB: 0, or the reason within class 0x04. -/
abbrev ElemCheck := List Byte → Nat

/-- Check the elements of a BLOB in order; FIELD is the first failing one's number from `n` (R342). -/
def elems (f : ElemCheck) : Nat → List (List Byte) → Nat
  | _, [] => 0
  | n, e :: t => if f e = 0 then elems f (n + 1) t else abortOf 0x04 (f e) n

/-- Cut bytes into elements of `k` bytes. -/
def chunks (k : Nat) (b : List Byte) : List (List Byte) := (List.range (b.length / k)).map fun i => (b.drop (k * i)).take k
def zeroAt (b : List Byte) (off n : Nat) : Bool := ((b.drop off).take n).all fun x => decide (x = 0)
def byteAt (b : List Byte) (i : Nat) : Nat := (b.getD i 0).toNat
def when_ (bad : Bool) (reason : Nat) : Nat := if bad then reason else 0

/-- A code profile's word: an all-zero word is a profile not set (R234; log 36). -/
def profBad (e : List Byte) : Nat :=
  let w := BitVec.ofNat 32 (leNat e)
  let g := fld w 15 0
  let m (lo hi k : Nat) : Bool := decide (lo ≤ g ∧ g ≤ hi ∧ g % k = 0)
  let ok := match fld w 31 28 with
    | 0 => m 64 1024 64 | 1 => m 8 256 8 | 2 => m 32 1024 32 | 3 => m 32 4096 32 | _ => false
  if w = 0 then 0
  else if fld w 23 16 ≠ 0 ∨ (fld w 31 28 ≠ 2 ∧ fld w 27 24 ≠ 0) then 2
  else when_ (!ok) 1

/-- A guest binding's elements: PART, zero, RATE, BURST, VLIM, the 16 windows (R477); an unbound guest's rates are free
(log 36). -/
def bindBad (b : List Byte) : Nat :=
  let bound := decide (Bind.part b ≠ 0xFF)
  let out (x lo hi : Nat) : Bool := bound && decide (x < lo ∨ hi < x)
  if bound ∧ 15 < Bind.part b then abortOf 0x04 1 1
  else if ¬ zeroAt b 1 3 then abortOf 0x04 2 2
  else if out (Bind.rate b) 1 640 then abortOf 0x04 1 3
  else if out (Bind.burst b) 256 16777216 then abortOf 0x04 1 4
  else if out (Bind.vlim b) 1 1000000 then abortOf 0x04 1 5
  else elems (fun e =>
      if leNat (e.take 8) % 4096 ≠ 0 ∨ leNat ((e.drop 8).take 8) % 4096 ≠ 0 then 1
      else when_ (decide (3 < byteAt e 16) || !zeroAt e 17 7) 2) 6 (chunks 24 (b.drop 16))

/-- The ranges and reserved fields that an object's own rules add to its table's (R343): the code for a whole value.
Bytes 12 to 15 of 0xA001, which R545 does not name, take any value and read back (DESIGN CHOICE, log 70). -/
def ownRange (p : Panel) (r : ORow) (s : Nat) (b : List Byte) : Nat :=
  match r.index with
  | 0x1012 => elems (fun e => if 128 < byteAt e 16 ∨ 1 < byteAt e 17 then 1 else when_ (!zeroAt e 18 6) 2) 1 (chunks 24 b)
  | 0x1032 => if byteAt b 3 ≠ 0 then abortOf 0x04 2 4 else if byteAt b 6 ≠ 0 ∨ byteAt b 7 ≠ 0 then abortOf 0x04 2 6 else 0
  | 0x2030 => if 0x1000 ≤ leNat b then abortOf 0x04 2 0 else 0
  | 0x3002 => if capMax p.variant < leNat b then abortOf 0x04 1 0 else 0
  | 0x5043 => elems (fun e =>
      let d := BitVec.ofNat 256 (leNat e)
      when_ (decide (fld d 255 224 ≠ 0 ∨ fld d 135 128 ≠ 0 ∨ fld d 118 112 ≠ 0 ∨ fld d 95 0 ≠ 0)) 2) 1 (chunks 32 b)
  | 0x5045 => elems (fun e => when_ (!zeroAt e 2 6 || !zeroAt e 24 8) 2) 1 (chunks 32 b)
  | 0x5047 => elems (fun e => when_ (decide (byteAt e 3 ≠ 0)) 2) 1 (chunks 4 b)
  | 0x5048 => elems (fun e => when_ (decide (byteAt e 3 ≠ 0)) 2) 1 (chunks 4 b)
  | 0x5060 =>
    let f (n : Nat) : Nat := fieldOf p.variant 0x5060 s n b
    match seqRange (f 1) (f 2) (f 3) (f 4) (f 5) with | some n => abortOf 0x04 1 n | none => 0
  | 0x5062 => if Sq.limit p s < leNat b then abortOf 0x04 1 0 else 0
  | 0x8001 => if s ≤ 15 ∧ 524288 < leNat (b.take 4) + leNat ((b.drop 4).take 4) then abortOf 0x04 1 2 else 0
  | 0x8002 => elems profBad 1 (chunks 4 b)
  | 0x8021 => elems (fun e => when_ (!zeroAt e 3 13) 2) 1 (chunks 16 b)
  | 0x8022 => elems (fun e =>
      let k := byteAt e 1 / 64
      when_ (decide (127 < byteAt e 0 ∨ 1 < k ∨ (if k = 0 then 15 else 63) < byteAt e 2 ∨ 63 < byteAt e 3)) 1) 1 (chunks 4 b)
  | 0x8023 => elems (fun e => when_ (!zeroAt e 1 7) 2) 1 (chunks 16 b)
  | 0x9003 =>
    if ¬ [8, 16, 32, 64].contains (byteAt b 0) then abortOf 0x04 1 1
    else if ¬ [1, 2, 4, 8, 16].contains (byteAt b 1) then abortOf 0x04 1 2
    else 0
  | 0xA000 => if leNat b < 4096 ∨ leNat b = 0xFFFF then 0 else abortOf 0x04 1 0
  | 0xA001 => elems (fun e =>
      when_ (((e.drop 3).take 3).any (fun x => decide (x.toNat = 0 ∨ 16 < x.toNat))
        || ((e.drop 6).take 6).any (fun x =>
            decide (12 ≤ x.toNat % 16 ∧ x.toNat % 16 < 15) || decide (12 ≤ x.toNat / 16 ∧ x.toNat / 16 < 15))) 1) 1 [b]
  | 0xA010 => elems (fun e =>
      let w := BitVec.ofNat 32 (leNat e)
      if fld w 29 24 ≠ 0 ∨ fld w 7 0 ≠ 0 then 2 else when_ (bit w 31 && bit w 30 && decide (11 < fld w 23 20)) 1) 1 (chunks 4 b)
  | 0xA021 => elems (fun e => when_ (decide (15 < byteAt e 0 ∧ byteAt e 0 ≠ 0xFF)) 1) 1 (chunks 1 (b.take 256))
  | 0xA022 => elems (fun e => when_ (decide (leNat e < 16 ∨ 4096 < leNat e ∨ leNat e % 16 ≠ 0)) 1) 1 (chunks 2 b)
  | 0xD000 => if Chk.reserved (BitVec.ofNat 256 (leNat b)) then abortOf 0x04 2 0 else 0
  | 0xB030 =>
    if 1 < byteAt b 0 then abortOf 0x04 1 1
    else if 2 < byteAt b 1 then abortOf 0x04 1 2
    else if 15 < byteAt b 2 ∧ byteAt b 2 ≠ 0xFF then abortOf 0x04 1 3
    else if ¬ zeroAt b 3 12 then abortOf 0x04 2 4
    else 0
  | 0xB040 => bindBad b
  | _ =>
    if r.quad ∧ r.index = 0x5008 then
      let lim := leNat (b.drop 8)
      let top := stackBytes p.variant
      if leNat (b.take 8) % 4096 ≠ 0 ∨ top ≤ leNat (b.take 8) then abortOf 0x04 1 1
      else if top ≤ lim ∨ (lim ≠ 0 ∧ (lim + 1) % 4096 ≠ 0) then abortOf 0x04 1 2
      else 0
    else 0

/-- Range and reserved fields of a whole value (R343). -/
def rangeCheck (p : Panel) (r : ORow) (s : Nat) (b : List Byte) : Nat :=
  let own := ownRange p r s b
  match firstField fldOut 1 r.flds b with
  | some n => if own / 2 ^ 16 % 256 = 2 ∧ own % 2 ^ 16 ≤ n then own else abortOf 0x04 1 (if r.ty = .record then n else 0)
  | none => own

/-- A value with one of its fields replaced (R346). -/
def layField (r : ORow) (field : Nat) (b old : List Byte) : List Byte :=
  match (if field = 0 then none else fldAt r.flds field 0) with
  | some e => old.take e.1 ++ b ++ old.drop (e.1 + e.2.ty.size)
  | none => b

/-- As `rangeCheck`, of one field: what fails in the others is no concern of its write (R343). -/
def fieldRange (p : Panel) (r : ORow) (s field : Nat) (b old : List Byte) : Nat :=
  if field = 0 then rangeCheck p r s b
  else match fldAt r.flds field 0 with
    | none => 0
    | some e =>
      if fldOut e.2 b then abortOf 0x04 1 field
      else
        let own := ownRange p r s (layField r field b old)
        if own % 2 ^ 16 = field then own else 0

/-- The unit that an object's value lives in, where it is a die's or a port's own (R342, R420). -/
def unitOf (r : ORow) (i s : Nat) : Option Nat :=
  if r.quad then some (keyCore (4 * s + (i - r.index)))
  else if 0x6020 ≤ r.index ∧ r.index ≤ 0x6024 then some (keyStack s)
  else if siteObj r ∧ (([5, 6, 7, 13].contains (r.index / 0x1000)) ∨ r.index = 0x8040 ∨ r.index = 0x2014) then some s
  else if r.index = 0xA020 ∨ r.index = 0xA021 ∨ r.index = 0xA022 then some (keyPort s)
  else none

/-- Is a unit's die in service, as far as bring-up has come (R420)? -/
def unitServed (p : Panel) (key : Nat) : Bool :=
  p.boot.ready || (if 0x3000 ≤ key ∧ key < 0x300C then
      p.boot.tested.contains (portDies (key - 0x3000)).1 && p.boot.tested.contains (portDies (key - 0x3000)).2
    else isHub (keySite key) || p.boot.tested.contains (keySite key))

/-- Is a unit FAILED or ABSENT, or its die? -/
def unitGone (p : Panel) (key : Nat) : Bool :=
  let gone (u : Nat) : Bool := decide (p.ust u = .failed) || decide (p.ust u = .absent)
  gone key || (decide (key < 0x3000) && gone (keySite key))

end Sys2Proof.Machine
end

