-- ==== Sys2Proof/Machine/OdCommit.lean ====
section
/-! DEFINITION. Commits: the checks on a block's state, its busy owner, its consistency, and putting its values in force
(R343-R348, and the objects' own rules). -/

namespace Sys2Proof.Machine

/-- Values to commit: index, sub-index, bytes. -/
abbrev Puts := List (Nat × Nat × List Byte)

/-- The value of an object under a commit's values (R345). -/
def lookPut (p : Panel) (puts : Puts) (i s : Nat) : List Byte :=
  match puts.find? fun e => decide (e.1 = i ∧ e.2.1 = s) with
  | some e => e.2.2
  | none => match odRow p.variant i s with
    | some r => odPending p r i s
    | none => []

/-- As `lookPut`: a field. -/
def lookFld (p : Panel) (puts : Puts) (i s n : Nat) : Nat := fieldOf p.variant i s n (lookPut p puts i s)

def phaseIn (p : Panel) (r : Nat) (l : List Phase) : Bool := l.contains (p.getReg r).phase

/-- Profiles that a write of the code profiles changes (R234). -/
def profsChanged (p : Panel) (s : Nat) (b : List Byte) : List Nat :=
  let old := odBytes p 0x8002 s
  (List.range 16).filter fun n => decide ((b.drop (4 * n)).take 4 ≠ (old.drop (4 * n)).take 4)

/-- An enabled S credential (R468). -/
def isOfficer (b : List Byte) : Bool := decide (byteAt b 0 = 1) && decide (byteAt b 1 = 2)

/-- The state check of an object (R343, class 0x09). -/
def stateCheck (p : Panel) (i s : Nat) (b : List Byte) : Nat :=
  let bad : Bool := match i with
    | 0x5043 => !phaseIn p s [.defined, .armed, .frozen]
    | 0x5044 => !phaseIn p s [.defined, .armed, .frozen]
    | 0x5045 => !phaseIn p s [.defined, .armed, .frozen]
    | 0x8020 => !phaseIn p s [.defined]
    | 0x8021 => !phaseIn p s [.defined]
    | 0x8022 => !phaseIn p s [.defined]
    | 0x8023 => !phaseIn p s [.defined]
    | 0x8002 => (profsChanged p s b).any fun n => (liveQueries p).any fun e => decide (e.2.part = s ∧ e.2.prof = n)
    | 0xB030 => p.sec.owned && (List.range 32).all fun n => !isOfficer (if n = s then b else odBytes p 0xB030 n)
    | _ => decide (0x6008 ≤ i ∧ i < 0x600C) && !windowsQuiet (p.getCore (4 * s + (i - 0x6008)))
  if bad then abortOf 0x09 1 0 else 0

/-- Is a die's region between START and its end (R231)? -/
def dieHeld (p : Panel) (s : Nat) : Bool := match p.regionOf s with | some r => decide ((p.getReg r).phase = .active) | none => false

/-- Does the owning block of a STILL object run (R339)? -/
def busyCheck (p : Panel) (r : ORow) (i s : Nat) : Nat :=
  let busy : Bool := match r.acc with
    | .still =>
      if r.quad then !coreIdle p (4 * s + (i - r.index)) || dieHeld p s
      else if r.index = 0x6021 then (coresOf s).any (fun k => !coreIdle p k) || dieHeld p s
      else if r.index = 0x8001 then (liveQueries p).any fun e => decide (e.2.part = s)
      else decide (r.index = 0xA022) && decide ((p.getPort s).phase = 8)
    | _ => false
  if busy then abortOf 0x05 1 0 else 0

/-- The first core of a die, in order, whose stack region fails: its base lies above its limit, or it meets another's (R59,
R75). A region never set, 0 to 0, meets none. FIELD is 1 where the base is at fault, 2 where the limit is. -/
def stackRegions (p : Panel) (puts : Puts) (s : Nat) : Nat :=
  let reg (c : Nat) : Nat × Nat := (lookFld p puts (0x5008 + c) s 1, lookFld p puts (0x5008 + c) s 2)
  let bad (c : Nat) : Option Nat :=
    let x := reg c
    if x.2 < x.1 then some 1
    else match (List.range 4).find? fun d => decide (d ≠ c) && decide (x ≠ (0, 0)) && decide (reg d ≠ (0, 0))
        && decide (x.1 ≤ (reg d).2) && decide ((reg d).1 ≤ x.2) with
      | some d => some (if (reg d).1 ≤ x.1 then 1 else 2)
      | none => none
  match (List.range 4).findSome? bad with
  | some n => abortOf 0x06 1 n
  | none => 0

/-- The consistency of the management network (R354, R360): a segment enabled, node IDs below the count, the hubs' different. -/
def netConsistent (f : Nat → Nat) : Nat :=
  if f 1 = 0 ∧ f 2 = 0 then abortOf 0x06 1 1
  else match [6, 7, 8, 9].find? fun n => decide (f 4 ≤ f n) with
    | some n => abortOf 0x06 1 n
    | none => if f 6 = f 8 then abortOf 0x06 1 8 else if f 7 = f 9 then abortOf 0x06 1 9 else 0

/-- The consistency of the retrieval allotments (R267). -/
def allotConsistent (p : Panel) (puts : Puts) (s : Nat) : Nat :=
  let f (n k : Nat) : Nat := lookFld p puts 0x8001 n k
  let meets (n : Nat) : Bool :=
    decide (n ≠ s) && decide (0 < f n 2 ∧ 0 < f s 2) && decide (f n 1 < f s 1 + f s 2) && decide (f s 1 < f n 1 + f n 2)
  if (List.range 16).any meets then abortOf 0x06 1 1
  else if 262144 < ((List.range 16).map fun n => f n 3).sum then abortOf 0x06 1 3
  else 0

/-- The consistency of a guest binding: a window in one space of one site, none on an unbound guest (R477). -/
def bindConsistent (b : List Byte) : Nat :=
  let w (n : Nat) : Bool :=
    let a := Bind.base b n
    let l := Bind.len b n
    decide (l ≠ 0) && (decide (Bind.part b = 0xFF) || decide (a / 2 ^ 40 ≠ (a + l - 1) / 2 ^ 40))
  match (List.range 16).find? w with
  | some n => abortOf 0x06 1 (6 + n)
  | none => 0

/-- The consistency check of a block under the values to come (R343, R345). -/
def consistency (p : Panel) (puts : Puts) : Nat :=
  match puts with
  | [] => 0
  | e :: _ =>
    let i := e.1
    let s := e.2.1
    let f (n : Nat) : Nat := lookFld p puts i s n
    if 0x5008 ≤ i ∧ i < 0x500C then stackRegions p puts s
    else match i with
      | 0x1010 => netConsistent f
      | 0x2011 => if f 2 < f 1 then abortOf 0x06 1 1 else if f 3 < f 2 then abortOf 0x06 1 2 else 0
      | 0x7024 => if f 2 < 4 * f 1 then abortOf 0x06 1 2 else 0
      | 0x8001 => allotConsistent p puts s
      | 0xA022 =>
        let l := (chunks 2 e.2.2).map leNat
        (match (List.range 8).find? fun n => decide (4096 < (l.take (n + 1)).sum) with | some n => abortOf 0x06 1 (n + 1) | none => 0)
      | 0xB040 => bindConsistent e.2.2
      | _ => 0

/-- Change a session, if it still stands. -/
def modSession (slot id : Nat) (f : Session → Session) (p : Panel) : Panel :=
  p.modOd fun o => { o with sessions := o.sessions.map fun x => if x.slot = slot ∧ x.id = id then f x else x }

/-- Commit a LIVE value: dies in no ACTIVE region are sent it now, an ACTIVE region at its next release (R231, R302, R339). The commit
is answered as it is accepted, and reads give the value in force until the last die has acknowledged (log 58). -/
def putLive (i s : Nat) (b : List Byte) (p : Panel) : Panel :=
  let k := 256 * i + s
  let act := p.reg.filter fun e => decide (e.2.phase = .active)
  let old := odBytes p i s
  let p := p.modOd fun o => { o with
    pendingLive := match Tab.find? o.pendingLive k with | some _ => o.pendingLive | none => Tab.set k old o.pendingLive }
  let p := each act (fun e p => p.modReg e.1 fun g => { g with pendKeys := if g.pendKeys.contains k then g.pendKeys else k :: g.pendKeys })
    (odPut i s b p)
  settleLive (if dieLiveKeys.contains k then each (allDies.filter fun x => isMesh x && !dieHeld p x) (freeLive [(k, b)]) p else p)

/-- Write consecutive directory entries, each a commit of its own; the first refused one stops (R238, R267). Gives the abort
code. -/
def writeDirs (part : Option Nat) : Nat → List (List Byte) → Panel → Nat × Panel
  | _, [], p => (0, p)
  | n, e :: t, p =>
    if 524288 ≤ n then (abortOf 0x04 1 0, p)
    else
      let r := writeDir part n (BitVec.ofNat 128 (leNat e)) p
      if r.1 ≠ 0 then r else writeDirs part (n + 1) t (countCommit (256 * 0x8011) r.2)

def scopePart (x : Session) : Option Nat := if x.scope = 0xFF then none else some x.scope

/-- Put a table of bytes in order. -/
def byteTab (b : List Byte) : Tab Nat := (List.range b.length).zip (b.map (·.toNat))
def wordTab (k : Nat) (b : List Byte) : Tab Nat := (List.range (b.length / k)).zip ((chunks k b).map leNat)

/-- The ports that are not fused. -/
def openPorts (p : Panel) : List Nat := (List.range 12).filter fun n => !portFused p.variant n

/-- Write a core's own STILL object (R75, R101, R122, R149). -/
def putCore (base k : Nat) (b : List Byte) (p : Panel) : Panel :=
  match base with
  | 0x5008 => p.modCore k fun c => { c with base := BitVec.ofNat _ (leNat (b.take 8)), limit := BitVec.ofNat _ (leNat (b.drop 8)) }
  | 0x500C => p.modCore k fun c => { c with stg := leNat b }
  | 0x5021 => p.modA k fun a => { a with gen := BitVec.ofNat _ (if leNat b = 0 then 1 else leNat b) }
  | 0x6008 => p.modA k fun a => { a with
      win := (List.range 64).foldl (fun t n => Tab.upd window0 n (fun w => { w with gen := leNat ((b.drop (2 * n)).take 2) }) t) a.win }
  | _ => p.modCore k fun c => { c with pstride := leNat b }

/-- Put one value in force: an object's own rules, else its setting (R339). Gives the abort code. -/
def applyPut (x : Session) (r : ORow) (i s : Nat) (b : List Byte) (p : Panel) : Nat × Panel :=
  let n := leNat b
  let f (k : Nat) : Nat := fieldOf p.variant i s k b
  if r.quad then (0, putCore r.index (4 * s + (i - r.index)) b p)
  else match i with
    | 0x1023 => (0, modSession x.slot x.id (fun y => { y with threshold := n }) p)
    | 0x2014 => writeClockMode s n p
    | 0x2030 => writePeriph s (BitVec.ofNat 32 n) p
    | 0x4033 => writeClearance s n p
    | 0x4040 => commitPartition s (decide (f 2 = 1)) (BitVec.ofNat 256 (leNat ((b.drop 2).take 32))) p
    | 0x4041 => writePartControl s n p
    | 0x4045 => writeReset s n p
    | 0x5040 => if (p.getReg s).phase ≠ .free then (conflict9, p) else defineRegion s (f 1) (f 2) (f 3) (f 4) (f 5) (f 6) (f 7) p
    | 0x5047 => putVariant s (variantEntries b) p
    | 0x5048 => stageVariant s (variantEntries b) p
    | 0x5060 => commitSequence s false b p
    | 0x5061 => commitSequence s true b p
    | 0x5062 => writeLength s n p
    | 0x6021 => (0, p.modStk s fun k => { k with fast := decide (n = 1) })
    | 0x7003 =>
      let q := commitSegment s n p
      if (segFail p s n).isSome then (abortOf 0x06 1 0, q) else (0, q)
    | 0x8010 => if s = 0 then (0, p.modRet fun t => { t with dirSel := n }) else writeDir (scopePart x) p.ret.dirSel (BitVec.ofNat 128 n) p
    | 0x8011 => writeDirs (scopePart x) p.ret.dirSel (chunks 16 b) p
    | 0x8030 => (0, p.modRet fun t => { t with qSel := n })
    | 0xA010 => (0, each (openPorts p) (fun q p => p.modPort q fun y => { y with
        route := (wordTab 4 b).map fun e => (e.1, BitVec.ofNat 32 e.2) }) p)
    | 0xA020 => (0, p.modPort s fun y => { y with slot := Tab.set (1 - p.fab.bank % 2) (byteTab b) y.slot })
    | 0xA021 => (0, p.modPort s fun y => { y with
        inTag := byteTab (b.take 256), egTag := byteTab ((b.drop 256).take 16), egDst := wordTab 2 (b.drop 272) })
    | 0xA022 => (0, p.modPort s fun y => { y with limit := (wordTab 2 b).map fun e => (e.1, e.2 / 16 - 1) })
    | 0xA030 =>
      let c := commitSchedule (f 1) (f 2) (f 3) p
      if c.1 ≠ 0 then c else (0, odPut i s b c.2)
    | 0xB010 => (0, signReport x b p)
    | 0xB011 => writeImage s x.slot b p
    | 0xB012 => writeImageControl n p
    | 0xB021 => writeExtend s b p
    | 0xD000 => writeDesc s (scopePart x) (BitVec.ofNat 256 n) p
    | _ => if r.acc = .live then (0, putLive i s b p) else (0, odPut i s b p)

/-- A region command of the region control object (R209). Gives the abort code. -/
def regionCommand (r x : Nat) (st : State) : Nat × State :=
  let onP (a : Nat × Panel) : Nat × State := (a.1, { st with p := a.2 })
  match x with
  | 1 => onP (armRegion r st.p)
  | 2 => startRegion r st
  | 3 => onP (freezeRegion r st.p)
  | 4 => restartRegion r st
  | 5 => onP (dissolveRegion r st.p)
  | _ => (abortOf 0x04 1 0, st)

/-- Put values in force in order; the first refusal ends it. -/
def applyPuts (x : Session) : Puts → State → Nat × State
  | [], st => (0, st)
  | e :: t, st =>
    match odRow st.p.variant e.1 e.2.1 with
    | none => (abortOf 0x01 2 0, st)
    | some r =>
      let a := if e.1 = 0x5041 then regionCommand e.2.1 (leNat e.2.2) st
        else
          let q := applyPut x r e.1 e.2.1 e.2.2 st.p
          (q.1, { st with p := q.2 })
      if a.1 ≠ 0 then a else applyPuts x t a.2

/-- What a persistent value's coming in force does besides (R375, R435, R460, R468, R469, R477, R478). -/
def settled (i s : Nat) (old b : List Byte) (p : Panel) : Panel :=
  match i with
  | 0x2020 => if old = b then p else p.modClocks fun c => { c with spreadDue := true }
  | 0xB030 =>
    let p := endSessions (fun x => decide (x.cred = s)) endedClose p
    measureConfig (p.modSec fun c => { c with owned := c.owned || isOfficer b })
  | 0xB040 =>
    let p := p.modGuest s fun g => { g with bucket := Bind.burst b, filledAt := p.now }
    let p := if Bind.part b ≠ 0xFF then p.modClocks fun c => { c with
      periph := Tab.upd 0 p.book.active (fun x => x ||| BitVec.ofNat 32 (2 ^ (9 + s))) c.periph } else p
    extend p.book.active 4 b p
  | _ => p

/-- Is an object LIVE (R339)? -/
def isLive (v i s : Nat) : Bool := match odRow v i s with | some r => decide (r.acc = .live) | none => false

/-- A stored record's values come in force: the calibration set's are in use from the next panel reset, and its store counts
(R348, R434, R435). -/
def putStored (id : Nat) (puts : List (Nat × List Byte)) (p : Panel) : Panel :=
  let p := each puts (fun e p =>
    let i := e.1 / 256
    let s := e.1 % 256
    if i = 0x1030 then p.modOd fun o => { o with hme := leNat e.2, val := Tab.set e.1 e.2 o.val }
    else if isLive p.variant i s then putLive i s e.2 p
    else
      let old := odBytes p i s
      settled i s old e.2 (odPut i s e.2 p)) p
  if id = recCalib then
    let c := p.boot.calib
    let set := p.od.val.filter fun e => decide (recOf e.1 = recCalib)
    let p := p.modBoot fun b => { b with
      calib := { c with user := true, writes := (c.writes + 1) % 2 ^ 32, tick := p.now, crc := (crcHost (set.flatMap (·.2))).toNat } }
    raise 0x0D0B p.activeHub keyPanel none p
  else p

/-- Empty a session's stage of a block (R346). -/
def clearStage (v : Nat) (block : Nat) (x : Session) : Session :=
  let mine (i s : Nat) : Bool := match odRow v i s with | some r => decide (r.block s = block) | none => false
  { x with stage := x.stage.filter (fun e => !mine e.index e.sub), recorded := x.recorded.filter fun e => decide (e.1 ≠ block) }

/-- Commit a block's values (R345, R346, R348): the checks from state onward, then their coming in force, at once or when their
record is stored. Gives the abort code and whether the answer waits for the store; `job` says what else waits. -/
def commitPuts (x : Session) (block : Nat) (puts : Puts) (job : NvJob) (st : State) : Nat × Bool × State :=
  let p := st.p
  let rows := puts.filterMap fun e => (odRow p.variant e.1 e.2.1).map fun r => (r, e)
  let units := rows.filterMap fun e => unitOf e.1 e.2.1 e.2.2.1
  let pers := rows.filter fun e => e.1.pers
  let state := match rows.findSome? fun e => let c := stateCheck p e.2.1 e.2.2.1 e.2.2.2; if c = 0 then none else some c with
    | some c => c
    | none => match rows.findSome? fun e => let c := busyCheck p e.1 e.2.1 e.2.2.1; if c = 0 then none else some c with
      | some c => c
      | none => consistency p puts
  let done (st : State) : State := st.onP fun p =>
    let p := if block = 256 * 0x8011 then p else countCommit block p
    if job.staged then modSession x.slot x.id (clearStage p.variant block) p else p
  let keyed := puts.map fun e => (256 * e.1 + e.2.1, e.2.2)
  if units.any fun u => !unitServed p u then (abortOf 0x09 1 0, false, st)
  else if state ≠ 0 then (state, false, st)
  else match puts with
    | (0x1032, _, b) :: _ =>
      let f (o n : Nat) : Nat := leNat ((b.drop o).take n)
      let m := runManager ⟨f 0 1, f 1 1, f 2 1, f 4 2, f 8 4, f 12 4⟩ { job with blocks := [block] } p
      let st := { st with p := m.2.2 }
      (m.1, m.2.1, if m.1 = 0 ∧ ¬ m.2.1 then done st else st)
    | _ =>
      match pers with
      | e :: _ =>
        let id := recOf (256 * e.2.1 + e.2.2.1)
        if keyed.all (fun e => decide (odBytes p (e.1 / 256) (e.1 % 256) = e.2)) = true then (0, false, done st)
        else
          let a := nvAsk id { job with puts := keyed, blocks := [block] } p
          (if a.1 then 0 else abortOf 0x08 1 0, a.1, { st with p := a.2 })
      | [] =>
        let a := applyPuts x puts st
        if a.1 ≠ 0 then (a.1, false, a.2)
        else if units.any (unitGone p) then (abortOf 0x0A 1 0, false, st)
        else (0, false, done a.2)

end Sys2Proof.Machine
end

