-- ==== Sys2Proof/Machine/OdWrite.lean ====
section
/-! DEFINITION. The operations of the transfer protocol inside a session: reads, writes, stages, commits, segments (R345-R349,
R355). -/

namespace Sys2Proof.Machine

/-- A request (R355). -/
structure Req where
  op : Nat
  stage : Bool
  pending : Bool
  field : Nat
  sub : Nat
  index : Nat
  sess : Nat
  seq : Nat
  offset : Nat
  total : Nat
  data : List Byte
  deriving DecidableEq, Repr

/-- Does a request on a segment come without a tag (R355): HELLO, and SESSION_OPEN before the key exists? -/
def Req.untagged (q : Req) : Bool := decide (q.op = 0x10) || (decide (q.op = 0x11) && decide (q.sess = 0))

/-- What an operation gives: its response, and whether it waits for a record to be stored. -/
structure Answer where
  resp : Resp
  waits : Bool
  st : State

/-- A response without data. -/
def respOf (abort commits : Nat) : Resp := ⟨abort, [], 0, false, commits⟩
def answer (abort commits : Nat) (st : State) : Answer := ⟨respOf abort commits, false, st⟩

/-- The data limit of a session's frames (R355). -/
def frameLimit (slot : Nat) : Nat := if slot < 16 then 1024 else 65504

/-- The commit count that a response carries: of the block addressed (R344, R355). -/
def blockCount (p : Panel) (i s : Nat) : Nat := match odRow p.variant i s with | some r => commitsOf p (r.block s) | none => 0

/-- Change the session of a request. -/
def State.modSess (st : State) (x : Session) (f : Session → Session) : State := st.onP (modSession x.slot x.id f)

/-- Is a segmented transfer's gap over (R349)? -/
def gapOver (t : Transfer) (now : Nat) : Bool := decide (t.last + ticksPerSecond < now)

/-- A transfer ends short; an image write ends with it (R349, R474). -/
def endTransfer (x : Session) (st : State) : State :=
  let img : Bool := match x.xfer with | some t => t.write && decide (t.index = 0xB011) | none => false
  let st := st.modSess x fun y => { y with xfer := none }
  if img then st.onP dropImage else st

/-- Send a value's first bytes; a longer one opens a transfer (R349). A second one while one is open is refused (log 37). -/
def sendValue (x : Session) (q : Req) (commits : Nat) (v : List Byte) (st : State) : Answer :=
  let n := frameLimit x.slot
  if v.length ≤ n then ⟨⟨0, v, v.length, false, commits⟩, false, st⟩
  else if x.xfer.isSome then answer (abortOf 0x09 5 0) commits st
  else
    let t : Transfer := ⟨false, false, q.index, q.sub, q.field, v.length, if v.length ≤ 65536 then v else [], n, st.p.now⟩
    ⟨⟨0, v.take n, v.length, true, commits⟩, false, st.modSess x fun y => { y with xfer := some t }⟩

/-- A field of a value. -/
def cutField (r : ORow) (field : Nat) (v : List Byte) : List Byte :=
  match (if field = 0 then none else fldAt r.flds field 0) with
  | some e => (v.drop e.1).take e.2.ty.size
  | none => v

/-- The value that a session reads of an object (R339, R360, R463). -/
def readValue (p : Panel) (x : Session) (r : ORow) (i s : Nat) (pending : Bool) : List Byte :=
  if i = 0x1023 then leBytes 1 x.threshold
  else if i = 0xB010 then Config.reportDer (Tab.get [] p.sec.report x.slot)
  else if pending then odPending p r i s else odValue p r i s

/-- What stops a read that is allowed: a unit not in service, no report yet, a running core's generator, a unit gone (R101,
R343, R420, R463). -/
def readStop (p : Panel) (x : Session) (r : ORow) (i s : Nat) : Nat :=
  let u := unitOf r i s
  if u.any (fun k => !unitServed p k) ∨ (i = 0xB010 ∧ (Tab.find? p.sec.report x.slot).isNone) then abortOf 0x09 1 0
  else if r.index = 0x5021 ∧ ¬ coreIdle p (4 * s + (i - 0x5021)) then abortOf 0x05 1 0
  else if u.any (unitGone p) then abortOf 0x0A 1 0
  else 0

/-- READ (R339, R355). -/
def opRead (x : Session) (q : Req) (st : State) : Answer :=
  let p := st.p
  match odFind p.variant q.index q.sub with
  | .none_ a => answer a 0 st
  | .last r =>
    if q.field ≠ 0 then answer (abortOf 0x01 3 q.field) 0 st
    else if ¬ x.level.reaches r.level then answer (abortOf 0x02 1 0) 0 st
    else sendValue x q 0 (leBytes 1 (r.sub.last.getD 0)) st
  | .commit r =>
    if q.field ≠ 0 then answer (abortOf 0x01 3 q.field) 0 st
    else if ¬ x.level.reaches r.level then answer (abortOf 0x02 1 0) 0 st
    else sendValue x q 0 [0] st
  | .obj r =>
    let n := commitsOf p (r.block q.sub)
    let a := readAllowed p x r q.sub
    let b := readStop p x r q.index q.sub
    if ¬ r.hasField q.field then answer (abortOf 0x01 3 q.field) n st
    else if a ≠ 0 then answer a n st
    else if b ≠ 0 then answer b n st
    else sendValue x q n (cutField r q.field (readValue p x r q.index q.sub q.pending)) st

/-- The bytes that DESCRIBE gives (R355). -/
def describeBytes (ty acc level pers len : Nat) : List Byte := leBytes 1 ty ++ leBytes 1 acc ++ leBytes 1 level ++ leBytes 1 pers ++ leBytes 4 len

/-- DESCRIBE (R355). -/
def opDescribe (x : Session) (q : Req) (st : State) : Answer :=
  match odFind st.p.variant q.index q.sub with
  | .none_ a => answer a 0 st
  | .last r => sendValue x q 0 (describeBytes 2 1 r.level.code 0 1) st
  | .commit r => sendValue x q 0 (describeBytes 2 3 r.level.code 0 1) st
  | .obj r =>
    sendValue x q (commitsOf st.p (r.block q.sub))
      (describeBytes r.ty.code r.acc.code r.level.code (b2n r.pers) (if r.ty = .str ∨ r.var = true then 0 else r.len)) st

/-- The staged writes of an object. -/
def stagedOf (x : Session) (i s : Nat) : List Staged := x.stage.filter fun e => decide (e.index = i ∧ e.sub = s)

/-- A session's staged writes laid over the value in force (R346). -/
def laidOver (p : Panel) (x : Session) (r : ORow) (i s : Nat) : List Byte :=
  (stagedOf x i s).foldl (fun v e => layField r e.field e.data v) (odPending p r i s)

/-- READ_STAGED (R355). -/
def opReadStaged (x : Session) (q : Req) (st : State) : Answer :=
  match odFind st.p.variant q.index q.sub with
  | .none_ a => answer a 0 st
  | .obj r =>
    let n := commitsOf st.p (r.block q.sub)
    let has := (stagedOf x q.index q.sub).any fun e => decide (q.field = 0) || decide (e.field = 0) || decide (e.field = q.field)
    if ¬ r.hasField q.field then answer (abortOf 0x01 3 q.field) n st
    else if ¬ x.level.reaches r.level then answer (abortOf 0x02 1 0) n st
    else if ¬ has then answer (abortOf 0x06 3 0) n st
    else sendValue x q n (cutField r q.field (laidOver st.p x r q.index q.sub)) st
  | _ => answer (abortOf 0x06 3 0) 0 st

/-- Stage a write (R346). Gives the abort code. -/
def stageWrite (x : Session) (r : ORow) (i s field : Nat) (b : List Byte) (st : State) : Nat × State :=
  let keep := x.stage.filter fun e => !(decide (e.index = i ∧ e.sub = s) && (decide (field = 0) || decide (e.field = field)))
  let blk := r.block s
  if 256 ≤ keep.length ∨ 65536 < (keep.map fun e => e.data.length).sum + b.length then (abortOf 0x09 3 0, st)
  else (0, st.modSess x fun y => { y with
    stage := keep ++ [⟨i, s, field, b⟩],
    recorded := if y.recorded.any fun e => decide (e.1 = blk) then y.recorded else (blk, commitsOf st.p blk) :: y.recorded })

/-- What waits for a commit of a request: the request's answer. -/
def jobOf (x : Session) (seq : Option Nat) (staged : Bool) (index : Nat) (rest : List Nat) : NvJob :=
  { job0 with reply := seq.map fun n => (x.slot, x.id, n), staged := staged, index := index, rest := rest }

/-- Write a whole value or a field: type, length, range, then the stage or a commit of its own (R343, R345, R346). Gives the
abort code and whether the answer waits. -/
def writeValue (x : Session) (r : ORow) (i s field : Nat) (stage : Bool) (b : List Byte) (seq : Option Nat) (st : State) : Nat × Bool × State :=
  let p := st.p
  let ty := typeCheck r field b
  if ty ≠ 0 then (ty, false, st)
  else if stage ∨ field ≠ 0 then
    let old := laidOver p x r i s
    let rg := fieldRange p r s field b old
    if rg ≠ 0 then (rg, false, st)
    else
      let a := stageWrite x r i s field b st
      (a.1, false, a.2)
  else
    let rg := rangeCheck p r s b
    if rg ≠ 0 then (rg, false, st) else commitPuts x (r.block s) [(i, s, b)] (jobOf x seq false 0 []) st

/-- Is a commit of the block waiting for its record (R347)? -/
def blockBusy (p : Panel) (b : Nat) : Bool := p.pwr.writes.any fun w => w.job.blocks.contains b

/-- Commit the staged values of one block (R346). -/
def commitStaged (x : Session) (i s : Nat) (seq : Option Nat) (rest : List Nat) (st : State) : Nat × Bool × State :=
  let p := st.p
  match odRow p.variant i s with
  | none => (abortOf 0x06 3 0, false, st)
  | some r =>
    let blk := r.block s
    let mine := x.stage.filter fun e => (match odRow p.variant e.index e.sub with | some o => decide (o.block e.sub = blk) | none => false)
    let keys := (mine.map fun e => (e.index, e.sub)).eraseDups
    let count := commitsOf p blk
    if mine.isEmpty then (abortOf 0x06 3 0, false, st)
    else if blockBusy p blk ∨ x.recorded.any (fun e => decide (e.1 = blk ∧ e.2 ≠ count)) = true then
      (abortOf 0x06 2 0, false, st.modSess x fun y => { y with recorded := y.recorded.map fun e => if e.1 = blk then (blk, count) else e })
    else
      let puts := keys.filterMap fun e => (odRow p.variant e.1 e.2).map fun o => (e.1, e.2, laidOver p x o e.1 e.2)
      commitPuts x blk puts (jobOf x seq true i rest) st

/-- Commit several sub-indices in ascending order; the first refused one ends it (R346; log 38). -/
def commitSubs (slot id i : Nat) (seq : Option Nat) : List Nat → State → Nat × Bool × State
  | [], st => (0, false, st)
  | s :: rest, st =>
    match sessionAt st.p slot with
    | none => (abortOf 0x07 4 0, false, st)
    | some x =>
      if x.id ≠ id then (abortOf 0x07 4 0, false, st)
      else
        let a := commitStaged x i s seq rest st
        if a.1 ≠ 0 ∨ a.2.1 then a else commitSubs slot id i seq rest a.2.2

/-- The sub-indices of an index that a session has staged, in ascending order; of a block of several indices, by any of them;
of an object that is no array, one stands for its block (R344, R346). -/
def stagedSubs (x : Session) (i : Nat) : List Nat :=
  match odIndex i with
  | none => []
  | some r =>
    let subs := (List.range 254).filter fun s => x.stage.any fun e => r.has e.index && decide (e.sub = s)
    if r.isArray then subs else subs.take 1

/-- COMMIT: a write to the commit sub-index (R346). -/
def opCommit (x : Session) (q : Req) (st : State) : Answer :=
  if q.field ≠ 0 then answer (abortOf 0x01 3 q.field) 0 st
  else if q.data.length ≠ 1 then answer (abortOf 0x03 1 0) 0 st
  else
    let v := byteAt q.data 0
    let subs := if v = 0xFF then stagedSubs x q.index else [v]
    if subs = [] then answer (abortOf 0x06 3 0) 0 st
    else
      let a := commitSubs x.slot x.id q.index (some q.seq) subs st
      ⟨respOf a.1 (blockCount a.2.2.p q.index (subs.getLast?.getD 0)), a.2.1, a.2.2⟩

/-- Take the bytes of a write that applies piece by piece: directory entries as they are whole, an image's sectors (R267, R474).
`old` bytes were there before. Gives the abort code. -/
def feedPieces (x : Session) (i s old : Nat) (data : List Byte) (last : Bool) (p : Panel) : Nat × Panel :=
  if i = 0x8011 then
    writeDirs (scopePart x) (p.ret.dirSel + old / 16) (chunks 16 ((data.drop (16 * (old / 16))))) p
  else
    let b := if old = 0 then beginImage s x.slot p else (0, p)
    if b.1 ≠ 0 then b
    else
      let f := feedImage data.length last 257 b.2
      if f.1 ≠ 0 ∨ ¬ last then f
      else
        let e := endImage data f.2
        if e.1 ≠ 0 then e else (0, countCommit (256 * i + s) e.2)

/-- Does an object's segmented write apply piece by piece (R267, R349, R474)? -/
def piecewise (i : Nat) : Bool := decide (i = 0x8011) || decide (i = 0xB011)

/-- The first segment of a write (R349): its TOTAL is the length that is checked. -/
def openWrite (x : Session) (r : ORow) (q : Req) (st : State) : Answer :=
  let n := commitsOf st.p (r.block q.sub)
  let ty := typeCheck r q.field (List.replicate q.total 0)
  if x.xfer.isSome then answer (abortOf 0x09 5 0) n st
  else if ty / 2 ^ 16 = 0x301 then answer ty n st
  else
    let a := if piecewise q.index then feedPieces x q.index q.sub 0 q.data false st.p else (0, st.p)
    let st := { st with p := a.2 }
    if a.1 ≠ 0 then answer a.1 (blockCount st.p q.index q.sub) st
    else
      let t : Transfer := ⟨true, q.stage, q.index, q.sub, q.field, q.total, q.data, q.data.length, st.p.now⟩
      answer 0 n (st.modSess x fun y => { y with xfer := some t })

/-- WRITE (R339-R349). -/
def opWrite (x : Session) (q : Req) (st : State) : Answer :=
  let p := st.p
  match odFind p.variant q.index q.sub with
  | .none_ a => answer a 0 st
  | .last r =>
    if q.field ≠ 0 then answer (abortOf 0x01 3 q.field) 0 st
    else answer (abortOf 0x02 (if x.level.reaches r.level then 2 else 1) 0) 0 st
  | .commit _ => opCommit x q st
  | .obj r =>
    let n := commitsOf p (r.block q.sub)
    let a := writeAllowed p x r q.sub q.field q.stage
    if ¬ r.hasField q.field then answer (abortOf 0x01 3 q.field) n st
    else if a ≠ 0 then answer a n st
    else
      let g := gateCheck r p
      let st := { st with p := g.2 }
      if g.1 ≠ 0 then answer g.1 n st
      else if q.data.length < q.total then openWrite x r q st
      else if q.total < q.data.length then answer (abortOf 0x03 1 0) n st
      else
        let w := writeValue x r q.index q.sub q.field q.stage q.data (some q.seq) st
        ⟨respOf w.1 (commitsOf w.2.2.p (r.block q.sub)), w.2.1, w.2.2⟩

/-- The open transfer that a segment belongs to, if it may go on (R349): its abort code otherwise. -/
def segmentOf (x : Session) (q : Req) (write : Bool) (now : Nat) : Nat × Option Transfer :=
  match x.xfer with
  | none => (abortOf 0x09 4 0, none)
  | some t =>
    if gapOver t now ∨ t.write ≠ write then (abortOf 0x09 4 0, none)
    else if q.offset ≠ t.moved then (abortOf 0x03 3 0, none)
    else (0, some t)

/-- SEG_READ (R349). -/
def opSegRead (x : Session) (q : Req) (st : State) : Answer :=
  match segmentOf x q false st.p.now with
  | (a, none) => answer a 0 (endTransfer x st)
  | (_, some t) =>
    let n := min (frameLimit x.slot) (t.total - t.moved)
    let v := if t.data = [] then
        (match odRow st.p.variant t.index t.sub with
          | some r => cutField r t.field (readValue st.p x r t.index t.sub false)
          | none => [])
      else t.data
    let left := t.total - t.moved - n
    let st := st.modSess x fun y => { y with
      xfer := if left = 0 then none else some { t with moved := t.moved + n, last := st.p.now } }
    ⟨⟨0, padTo n (v.drop t.moved), 0, decide (left ≠ 0), blockCount st.p t.index t.sub⟩, false, st⟩

/-- SEG_WRITE (R349): the write is applied with its last byte, or piece by piece. -/
def opSegWrite (x : Session) (q : Req) (st : State) : Answer :=
  match segmentOf x q true st.p.now with
  | (a, none) => answer a 0 (endTransfer x st)
  | (_, some t) =>
    let data := t.data ++ q.data
    let count (st : State) : Nat := blockCount st.p t.index t.sub
    if t.total < data.length then answer (abortOf 0x03 1 0) (count st) (endTransfer x st)
    else
      let last := decide (data.length = t.total)
      let st := st.modSess x fun y => { y with
        xfer := if last then none else some { t with data := data, moved := data.length, last := st.p.now } }
      if piecewise t.index then
        let a := feedPieces x t.index t.sub t.data.length data last st.p
        let st := { st with p := a.2 }
        answer a.1 (count st) (if a.1 = 0 then st else st.modSess x fun y => { y with xfer := none })
      else if ¬ last then answer 0 (count st) st
      else match odRow st.p.variant t.index t.sub with
        | none => answer (abortOf 0x01 2 0) 0 st
        | some r =>
          let w := writeValue x r t.index t.sub t.field t.stage data (some q.seq) st
          ⟨respOf w.1 (count w.2.2), w.2.1, w.2.2⟩

/-- END_TRANSFER (R355). -/
def opEndTransfer (x : Session) (st : State) : Answer := answer 0 0 (endTransfer x st)

/-- DISCARD (R346). -/
def opDiscard (x : Session) (st : State) : Answer := answer 0 0 (st.modSess x fun y => { y with stage := [], recorded := [] })

end Sys2Proof.Machine
end

