-- ==== Sys2Proof/Machine/OdOps.lean ====
section
/-! DEFINITION. Sessions, the transfer protocol on the management segments and the mailbox, and reports (R350-R357, R468-R470). -/

namespace Sys2Proof.Machine

/-- Where a request comes from: a management segment (0 A, 1 B) at a hub (0 A, 1 B), or a function's mailbox. -/
inductive Via where
  | seg (g h : Nat)
  | box (f : Nat)
  deriving DecidableEq, Repr

/-- The header of a response (R355), from its request's; the offset is the request's. NOTAG stands where no tag follows. -/
def respHeader (hdr : List Byte) (tagged : Bool) (r : Resp) : List Byte :=
  let cut (o n : Nat) : List Byte := (hdr.drop o).take n
  leBytes 2 0x4F44 ++ [1] ++ cut 3 1 ++ leBytes 1 (1 + (if r.more then 4 else 0) + (if tagged then 0 else 16)) ++ cut 5 2 ++ [0] ++ cut 8 12 ++ leBytes 4 r.total
    ++ leBytes 4 r.abort ++ leBytes 2 r.data.length ++ leBytes 2 r.commits

/-- The response is complete in the response buffer: BUSY returns to 0, ICAUSE[1] is set (R330). -/
def boxAnswer (f : Nat) (hdr : List Byte) (r : Resp) (p : Panel) : Panel :=
  let b := respHeader hdr false r ++ r.data
  setIcause f 1 (p.modFn f fun x => { x with busy := false, rspLen := b.length, rsp := b })

/-- Send a response (R355): on a segment by session ID and SEQ, sealed where there are session keys (R471), or into the
mailbox. -/
def deliver (v : Via) (keys hdr : List Byte) (sess seq : Nat) (r : Resp) (p : Panel) : Panel :=
  match v with
  | .seg g _ =>
    let h := respHeader hdr (!keys.isEmpty) r
    let f := if keys.isEmpty then h ++ r.data else sealed (keys.drop 32) 2 seq h r.data
    p.modOd fun o => { o with out := o.out ++ [(sess, seq, r)], frames := o.frames ++ [(g, f)] }
  | .box f => boxAnswer f hdr r p

/-- The path of a session's last request. -/
def Session.via (x : Session) : Via := if x.slot < 16 then .seg x.seg 0 else .box (x.slot - 16)
/-- The segment of a path. -/
def Via.seg_ : Via → Nat
  | .seg g _ => g
  | .box _ => 0

/-- Answer the request in progress of a session, which keeps the response (R352). -/
def answerSession (slot id seq : Nat) (r : Resp) (p : Panel) : Panel :=
  match p.od.sessions.find? fun x => decide (x.slot = slot ∧ x.id = id) with
  | none => p
  | some x => deliver x.via x.keys x.hdr id seq r (modSession slot id (fun y => { y with resp := r }) p)

/-- A frame is discarded and counted (R355). -/
def discardFrame (p : Panel) : Panel := p.modOd fun o => { o with proto := { o.proto with discarded := o.proto.discarded + 1 } }

/-- The next session ID, where one is left (R351). -/
def newSession (p : Panel) : Option (Nat × Panel) :=
  if p.od.nextId ≤ 65535 then some (p.od.nextId, p.modOd fun o => { o with nextId := o.nextId + 1 }) else none

/-- A session opens in a slot; what stood there ends, its stage with it (R351). Its keys are those of its exchange, which the mailbox
discards (R470). -/
def openSession (slot id : Nat) (level : Level) (scope cred : Nat) (keys eph : List Byte) (p : Panel) : Panel :=
  let p := endSessions (fun x => decide (x.slot = slot)) endedClose p
  p.modOd fun o => { o with
    sessions := o.sessions ++ [{ basicSession slot with id := id, level := level, scope := scope, last := p.now, cred := cred, keys := if slot < 16 then keys else [], eph := eph }] }

/-- A failed step 2 or 3: counted, raised; a credential slot that reaches its limit within a minute is locked (R470). -/
def authFail (c : Nat) (p : Panel) : Panel :=
  let p := raise 0x0B03 p.activeHub keyPanel none (p.modSec fun x => { x with authFails := x.authFails + 1 })
  if 32 ≤ c then p
  else
    let l : CredLock := Tab.get default p.sec.lock c
    let n := (if l.minute = spanIdx .minute p.now then l.fails else 0) + 1
    if cfg p 0xB031 0 1 ≤ n then
      raise 0x0B04 p.activeHub keyPanel (some (BitVec.ofNat 64 c)) (p.modSec fun x => { x with
        lock := Tab.set c ⟨spanIdx .minute p.now, 0, some (p.now + cfg p 0xB031 0 2 * ticksPerSecond)⟩ x.lock })
    else p.modSec fun x => { x with lock := Tab.set c ⟨spanIdx .minute p.now, n, l.until_⟩ x.lock }

/-- Is a credential slot locked (R470)? -/
def credLocked (p : Panel) (c : Nat) : Bool :=
  match (Tab.get default p.sec.lock c : CredLock).until_ with | some t => decide (p.now < t) | none => false

/-- The management sessions that are open or pending. -/
def mgmtCount (p : Panel) : Nat :=
  (p.od.sessions.filter fun x => decide (x.slot < 16)).length + (p.sec.pendingAuth.filter fun x => !x.mailbox).length

/-- The lowest free management slot. -/
def freeSlot (p : Panel) : Option Nat :=
  (List.range 16).find? fun n => !p.od.sessions.any (fun x => decide (x.slot = n)) && !p.sec.pendingAuth.any fun x => decide (x.slot = n)

def levelNamed (n : Nat) : Level := if n = 0 then .b else if n = 1 then .e else .s

/-- The answer to a session open: ID, level, exchange data (R355). -/
def openData (id level : Nat) (x : List Byte) : List Byte := leBytes 2 id ++ leBytes 1 level ++ x

/-- Step 1 of the exchange: a part of the certificates (R470). -/
def certPart (level n : Nat) (p : Panel) : Resp :=
  let all := Config.derBytes 0 p.book.active ++ Config.aliasDer (Tab.get [] p.sec.aliasCert p.book.active)
  let d := openData 0 level (leBytes 1 n ++ leBytes 1 (ceilDiv all.length 1000) ++ (all.drop (1000 * n)).take 1000)
  ⟨0, d, d.length, false, 0⟩

/-- Step 2 of the exchange: the credential is checked, the keys are derived and a session is pending (R465, R470). The panel's nonce, its
ephemeral key and the nonce of its signature are free values. T2 starts at the byte that names the step (DEDUCED, log 82). -/
def authStep2 (v : Via) (level scope : Nat) (x : List Byte) (p : Panel) : Resp × Panel :=
  let c := byteAt x 1
  let b := odBytes p 0xB030 c
  let box : Bool := match v with | .box _ => true | .seg _ _ => false
  if c < 32 ∧ credLocked p c then (respOf (abortOf 0x02 1 0) 0, p)
  else if ¬ (c < 32 ∧ byteAt b 0 = 1 ∧ byteAt b 1 = level ∧ (byteAt b 2 = 0xFF ∨ byteAt b 2 = scope) ∧ (ecPoint (x.drop 34)).isSome = true) then
    (respOf (abortOf 0x02 1 0) 0, authFail c p)
  else match (match v with | .box f => some (16 + f) | .seg _ _ => if mgmtCount p < cfg p 0x1020 0 2 then freeSlot p else none), newSession p with
    | some slot, some (id, p) =>
      let nonce := freeBytes 32 p
      let e := freeBytes 56 nonce.2
      let k := freeBytes 56 e.2
      let eph := publicOf (scalarOf e.1)
      let keys := sessionKeys (agree (scalarOf e.1) (x.drop 34)) ((x.drop 2).take 32 ++ nonce.1) id level scope
      let sig := ecSign (Tab.get 0 p.sec.alias_ p.book.active) (scalarOf k.1) (x ++ nonce.1 ++ eph)
      let d := openData id level (nonce.1 ++ eph ++ sig)
      (⟨0, d, d.length, false, 0⟩, k.2.modSec fun s => { s with
        pendingAuth := s.pendingAuth ++ [⟨id, slot, c, level, scope, p.now, box, keys, eph, x ++ nonce.1 ++ eph ++ sig⟩] })
    | _, _ => (respOf (abortOf 0x09 1 0) 0, p)

/-- An open without an exchange: level B on the mailbox, or level S on an unowned panel's PF mailbox (R351, R469). -/
def openPlain (f level scope : Nat) (p : Panel) : Resp × Panel :=
  match newSession p with
  | none => (respOf (abortOf 0x09 1 0) 0, p)
  | some (id, p) =>
    let p := openSession (16 + f) id (levelNamed level) scope 0xFF [] [] p
    let d := openData id level []
    (⟨0, d, d.length, false, 0⟩, if level = 2 then raise 0x0B05 p.activeHub keyPanel none p else p)

/-- SESSION_OPEN on session 0 (R351, R469, R470). -/
def openStep (v : Via) (q : Req) (p : Panel) : Resp × Panel :=
  let level := byteAt q.data 0
  let scope := byteAt q.data 1
  let x := q.data.drop 2
  let no (a : Nat) : Resp × Panel := (respOf a 0, p)
  let plain : Option Nat := match v with
    | .box f => if x = [] ∧ (level = 0 ∨ (level = 2 ∧ f = 0 ∧ ¬ p.sec.owned)) then some f else none
    | .seg _ _ => none
  let foreign : Bool := match v with | .box f => decide (f ≠ 0) && decide (scope ≠ f - 1) | .seg _ _ => false
  if q.data.length < 2 then no (abortOf 0x03 1 0)
  else if 2 < level ∨ (15 < scope ∧ scope ≠ 0xFF) then no (abortOf 0x04 1 0)
  else if foreign then no (abortOf 0x02 4 0)
  else if ¬ healthy p then no (abortOf 0x0A 3 0)
  else match plain with
    | some f => openPlain f level scope p
    | none =>
      if byteAt x 0 = 1 then (if x.length = 2 then (certPart level (byteAt x 1) p, p) else no (abortOf 0x03 1 0))
      else if byteAt x 0 = 2 then (if x.length = 131 then authStep2 v level scope x p else no (abortOf 0x03 1 0))
      else no (abortOf 0x04 1 0)

/-- Step 3 on a pending session: where the credential's signature verifies the session opens, else the pending one is discarded
(R470). -/
def authStep3 (v : Via) (a : PendingAuth) (hdr : List Byte) (q : Req) (p : Panel) : Resp × Panel :=
  let p := p.modSec fun s => { s with pendingAuth := s.pendingAuth.filter fun x => decide (x.id ≠ a.id) }
  if a.since + 5 * ticksPerSecond < p.now then (respOf (abortOf 0x07 4 0) 0, p)
  else if ¬ healthy p then (respOf (abortOf 0x0A 3 0) 0, p)
  else if q.data.length = 99 ∧ byteAt q.data 2 = 3 ∧ ecVerify ((odBytes p 0xB030 a.cred).drop 15) (q.data.drop 3) a.said = true then
    let p := openSession a.slot a.id (levelNamed a.level) a.scope a.cred a.keys a.eph (p.modSec fun s => { s with authed := s.authed + 1 })
    let d := openData a.id a.level []
    let r : Resp := ⟨0, d, d.length, false, 0⟩
    (r, modSession a.slot a.id (fun x => { x with seq := some q.seq, resp := r, hdr := hdr, seg := v.seg_ }) p)
  else (respOf (abortOf 0x02 1 0) 0, authFail a.cred p)

/-- HELLO's answer (R355): serial, active, hub. -/
def helloResp (h : Nat) (p : Panel) : Resp :=
  ⟨0, padTo 64 Config.serialText ++ leBytes 1 (b2n (decide (h = p.book.active))) ++ leBytes 1 h, 66, false, 0⟩

/-- Perform a request in a session (R355). -/
def perform (x : Session) (q : Req) (st : State) : Answer :=
  match q.op with
  | 0x01 => opRead x q st
  | 0x02 => opWrite x q st
  | 0x03 => opSegRead x q st
  | 0x04 => opSegWrite x q st
  | 0x05 => opEndTransfer x st
  | 0x06 => opDescribe x q st
  | 0x07 => opReadStaged x q st
  | 0x08 => opDiscard x st
  | 0x12 => answer 0 0 st
  | 0x13 => answer 0 0 st
  | _ => answer (abortOf 0x01 1 0) 0 st

/-- Is a session idle for longer than the idle timeout (R351)? A mailbox's own session of level B does not end so. -/
def sessionIdle (p : Panel) (x : Session) : Bool :=
  decide (x.id ≠ 0) && decide (x.last + cfg p 0x1020 0 1 * ticksPerSecond < p.now)

/-- Is the session's last request still without an answer (R352)? -/
def inProgress (p : Panel) (x : Session) : Bool :=
  p.pwr.writes.any fun w => decide (w.job.reply = x.seq.map fun n => (x.slot, x.id, n)) && w.job.reply.isSome

/-- A request of an open session (R351, R352, R471). -/
def inSession (v : Via) (hdr : List Byte) (x : Session) (q : Req) (st : State) : State :=
  let p := st.p
  let refuse (a : Nat) (p : Panel) : State := { st with p := deliver v x.keys hdr q.sess q.seq (respOf a 0) p }
  let drop (p : Panel) : Panel := match v with | .box f => p.modFn f fun y => { y with busy := false, rspLen := 0 } | .seg _ _ => p
  if sessionIdle p x then refuse (abortOf 0x07 endedIdle 0) (endSessions (fun y => decide (y.slot = x.slot)) endedIdle p)
  else if x.seq = some q.seq then
    if inProgress p x then st
    else { st with
      p := deliver v x.keys x.hdr q.sess q.seq x.resp (p.modOd fun o => { o with proto := { o.proto with dup := o.proto.dup + 1 } }) }
  else if inProgress p x then refuse (abortOf 0x09 5 0) p
  else if x.seq = some (2 ^ 32 - 1) ∧ q.seq = 0 then
    refuse (abortOf 0x07 endedClose 0) (endSessions (fun y => decide (y.slot = x.slot)) endedClose p)
  else if x.seq.any fun n => decide (q.seq ≠ n + 1) then
    { st with p := drop (p.modOd fun o => { o with proto := { o.proto with badSeq := o.proto.badSeq + 1 } }) }
  else
    let x := { x with seq := some q.seq, last := p.now, requests := x.requests + 1, hdr := hdr, seg := v.seg_ }
    let st := st.onP (modSession x.slot x.id fun _ => x)
    let a := perform x q st
    if a.waits then a.st
    else if q.op = 0x12 then
      { a.st with
        p := deliver v x.keys hdr q.sess q.seq a.resp (endSessions (fun y => decide (y.slot = x.slot)) endedClose a.st.p) }
    else { a.st with p := deliver v x.keys hdr q.sess q.seq a.resp (modSession x.slot x.id (fun y => { y with resp := a.resp }) a.st.p) }

/-- REPORT_ACK: reports up to a sequence are acknowledged (R357). -/
def ackReports (slot n : Nat) (p : Panel) : Panel :=
  let later (u : Unacked) : Bool :=
    let d := (u.entry.eseq + 2 ^ 32 - n) % 2 ^ 32
    decide (d ≠ 0) && decide (d < 2 ^ 31)
  p.modOd fun o => { o with
    sessions := o.sessions.map fun x => if x.slot = slot then { x with unacked := x.unacked.filter later } else x }

/-- The session that a request names on its path, a mailbox's own made to stand (R350). -/
def sessionFor (v : Via) (id : Nat) (p : Panel) : Option Session × Panel :=
  match v with
  | .seg _ _ => ((p.od.sessions.find? fun x => decide (x.slot < 16 ∧ x.id = id ∧ id ≠ 0)), p)
  | .box f =>
    match liveSession p (16 + f) with
    | none => (none, p)
    | some x =>
      if x.id ≠ id then (none, p)
      else if (sessionAt p (16 + f)).isSome then (some x, p)
      else (some { x with last := p.now }, p.modOd fun o => { o with sessions := o.sessions ++ [{ x with last := p.now }] })

/-- The code of a session that does not stand (R342, R350, R351). -/
def noSession (p : Panel) (id : Nat) : Nat :=
  match p.od.ended.find? fun e => decide (e.1 = id ∧ id ≠ 0) with
  | some e => abortOf 0x07 e.2 0
  | none => abortOf 0x07 4 0

/-- A request reaches a hub (R343, R350-R355): the standby hub answers HELLO only. -/
def request (v : Via) (hdr : List Byte) (q : Req) (st : State) : State :=
  let p := st.p
  let h : Nat := match v with | .seg _ h => h | .box _ => p.book.active
  let send (keys : List Byte) (r : Resp × Panel) : State := { st with p := deliver v keys hdr q.sess q.seq r.1 r.2 }
  let pend := p.sec.pendingAuth.find? fun a => decide (a.id = q.sess) && (match v with
    | .seg _ _ => !a.mailbox
    | .box f => a.mailbox && decide (a.slot = 16 + f))
  if q.op = 0x10 then send [] (helloResp h p, p)
  else if h ≠ p.book.active then send [] (respOf (abortOf 0x09 6 0) 0, p)
  else if q.op = 0x11 ∧ q.sess = 0 then send [] (openStep v q p)
  else match pend with
    | some a => send a.keys (if q.op = 0x11 then authStep3 v a hdr q p else (respOf (abortOf 0x07 4 0) 0, p))
    | none =>
      match sessionFor v q.sess p with
      | (none, p) => send [] (respOf (noSession p q.sess) 0, p)
      | (some x, p) =>
        if q.op = 0x21 then st.onP fun _ => ackReports x.slot (leNat q.data) p
        else inSession v hdr x q { st with p := p }

/-- A segment is heard: its tick, and its return where it was counted down (R354). -/
def segHeard (g : Nat) (p : Panel) : Panel :=
  let p := p.modOd fun o => { o with lastFrame := Tab.set g p.now o.lastFrame }
  if p.od.segDown.contains g then
    raise 0x0E22 p.activeHub keyPanel (some (BitVec.ofNat 64 g)) (p.modOd fun o => { o with segDown := o.segDown.filter fun x => decide (x ≠ g) })
  else p

/-- Does a hub receive on a segment (R354, R376, R420): the segment enabled, the PHY clocked, the firmware running? -/
def segServes (p : Panel) (h g : Nat) : Bool :=
  decide (3 ≤ p.boot.phase) && hubRuns p (if h = 0 then 0x00 else 0xDD) && decide (cfg p 0x1010 0 (1 + g) = 1)
    && bit (Tab.get 0 p.clk.periph h) (5 + g)

/-- The bytes that a request still has to send after its own: of a segmented write, MORE (R355). -/
def moreFollows (p : Panel) (q : Req) : Bool :=
  if q.op = 2 then decide (q.data.length < q.total)
  else if q.op = 4 then
    match (p.od.sessions.find? fun x => decide (x.slot < 16 ∧ x.id = q.sess)).bind (·.xfer) with
    | some t => decide (q.offset + q.data.length < t.total)
    | none => false
  else false

/-- The header of a request on a segment (R355). -/
def reqHeader (p : Panel) (q : Req) : List Byte :=
  let flags := (if q.stage then 2 else 0) + (if moreFollows p q then 4 else 0) + (if q.pending then 8 else 0) + (if q.untagged then 16 else 0)
  leBytes 2 0x4F44 ++ [1] ++ leBytes 1 q.op ++ leBytes 1 flags ++ leBytes 1 q.field ++ leBytes 1 q.sub ++ [0] ++ leBytes 2 q.index
    ++ leBytes 2 q.sess ++ leBytes 4 q.seq ++ leBytes 4 q.offset ++ leBytes 4 q.total ++ leBytes 4 0 ++ leBytes 2 q.data.length ++ leBytes 2 0

/-- The keys of the session that a request on a segment names, open or pending. -/
def keysFor (p : Panel) (id : Nat) : Option (List Byte) :=
  match p.od.sessions.find? fun x => decide (x.slot < 16 ∧ x.id = id ∧ id ≠ 0) with
  | some x => some x.keys
  | none => (p.sec.pendingAuth.find? fun a => decide (a.id = id) && !a.mailbox).map (·.keys)

/-- The tag that a request's frame carries under the keys of its session (R471). -/
def frameTag (p : Panel) (q : Req) : BitVec 128 :=
  let ack := decide (q.op = 0x21)
  let keys := (keysFor p q.sess).getD []
  BitVec.ofNat 128 (leNat (gcmSeal (keys.take 32) (sealNonce (if ack then 4 else 1) (if ack then leNat q.data else q.seq)) (reqHeader p q) q.data).2)

/-- Does a frame pass its form and its tag (R355, R471)? One of a session that does not stand has no key to fail under, and is
answered so (R350, R351; log 68). -/
def frameSound (p : Panel) (tag : Option (BitVec 128)) (q : Req) : Bool :=
  q.untagged || (match tag with
    | none => false
    | some t => (keysFor p q.sess).isNone || decide (t = frameTag p q))

/-- Have both hubs failed both images (R418)? -/
def bothFailed (p : Panel) : Bool := decide (Tab.get 0xFE p.boot.image 0 = 0xFF) && decide (Tab.get 0xFE p.boot.image 1 = 0xFF)

/-- A boot ROM's answer to HELLO when both hubs have failed: neither is active, and the abort code is that of an internal fault, which
is the form the model gives the report of R418 (DESIGN CHOICE, log 79). -/
def helloFailed (h : Nat) : Resp := ⟨abortOf 0x0A 3 0, padTo 64 Config.serialText ++ [0] ++ leBytes 1 h, 66, false, 0⟩

/-- A management frame arrives: `tag` is its tag, none where its MAGIC, VER or length is wrong (R355). -/
def mgmtFrame (g h : Nat) (tag : Option (BitVec 128)) (q : Req) (st : State) : State :=
  if bothFailed st.p ∧ q.op = 0x10 then st.onP (deliver (.seg g h) [] (reqHeader st.p q) q.sess q.seq (helloFailed h))
  else if ¬ segServes st.p h g then st
  else
    let st := st.onP fun p => p.modOd fun o => { o with
      proto := if g = 0 then { o.proto with rxA := o.proto.rxA + 1 } else { o.proto with rxB := o.proto.rxB + 1 } }
    if ¬ frameSound st.p tag q ∨ 1024 < q.data.length then st.onP discardFrame else request (.seg g h) (reqHeader st.p q) q (st.onP (segHeard g))

/-- A request with nothing but its operation. -/
def req0 (op sess seq : Nat) : Req := ⟨op, false, false, 0, 0, 0, sess, seq, 0, 0, []⟩

/-- Are the segment and hub of a management frame ones that there are, its fields of their widths? -/
def frameOk (g h : Nat) (q : Req) : Bool :=
  decide (g < 2) && decide (h < 2) && decide (q.sess < 65536) && decide (q.seq < 2 ^ 32) && decide (q.index < 65536) && decide (q.sub < 256)
    && decide (q.field < 256) && decide (q.offset < 2 ^ 32) && decide (q.total < 2 ^ 32)

/-- READ from a management segment `g` at hub `h`; `tag` is the frame's, none where its form is wrong (R355). -/
def execRead (g h : Nat) (tag : Option (BitVec 128)) (sess seq index sub field : Nat) (pending : Bool) (s : State) : Out :=
  let q : Req := { req0 1 sess seq with index := index, sub := sub, field := field, pending := pending }
  s.run (frameOk g h q) (mgmtFrame g h tag q)

/-- WRITE (R345, R346, R355); `total` is the object's length. -/
def execWrite (g h : Nat) (tag : Option (BitVec 128)) (sess seq index sub field : Nat) (stage : Bool) (total : Nat) (data : List Byte) (s : State) : Out :=
  let q : Req := { req0 2 sess seq with index := index, sub := sub, field := field, stage := stage, total := total, data := data }
  s.run (frameOk g h q) (mgmtFrame g h tag q)

/-- SEG_READ (R349). -/
def execSegRead (g h : Nat) (tag : Option (BitVec 128)) (sess seq offset : Nat) (s : State) : Out :=
  let q : Req := { req0 3 sess seq with offset := offset }
  s.run (frameOk g h q) (mgmtFrame g h tag q)

/-- SEG_WRITE (R349). -/
def execSegWrite (g h : Nat) (tag : Option (BitVec 128)) (sess seq offset : Nat) (data : List Byte) (s : State) : Out :=
  let q : Req := { req0 4 sess seq with offset := offset, data := data }
  s.run (frameOk g h q) (mgmtFrame g h tag q)

/-- END_TRANSFER (R355). -/
def execEndTransfer (g h : Nat) (tag : Option (BitVec 128)) (sess seq : Nat) (s : State) : Out :=
  s.run (frameOk g h (req0 5 sess seq)) (mgmtFrame g h tag (req0 5 sess seq))

/-- DESCRIBE (R355). -/
def execDescribe (g h : Nat) (tag : Option (BitVec 128)) (sess seq index sub : Nat) (s : State) : Out :=
  let q : Req := { req0 6 sess seq with index := index, sub := sub }
  s.run (frameOk g h q) (mgmtFrame g h tag q)

/-- READ_STAGED (R355). -/
def execReadStaged (g h : Nat) (tag : Option (BitVec 128)) (sess seq index sub field : Nat) (s : State) : Out :=
  let q : Req := { req0 7 sess seq with index := index, sub := sub, field := field }
  s.run (frameOk g h q) (mgmtFrame g h tag q)

/-- DISCARD (R346). -/
def execDiscard (g h : Nat) (tag : Option (BitVec 128)) (sess seq : Nat) (s : State) : Out :=
  s.run (frameOk g h (req0 8 sess seq)) (mgmtFrame g h tag (req0 8 sess seq))

/-- COMMIT: a write of `which` to the commit sub-index of an index (R346). -/
def execCommit (g h : Nat) (tag : Option (BitVec 128)) (sess seq index which : Nat) (s : State) : Out :=
  let q : Req := { req0 2 sess seq with index := index, sub := 0xFE, total := 1, data := leBytes 1 which }
  s.run (frameOk g h q) (mgmtFrame g h tag q)

/-- HELLO (R355). -/
def execHello (g h seq : Nat) (s : State) : Out :=
  s.run (frameOk g h (req0 0x10 0 seq)) (mgmtFrame g h none (req0 0x10 0 seq))

/-- SESSION_OPEN: `sess` 0 for steps 1 and 2, the pending session's ID for step 3; `exchange` is what follows the byte that names the
step (R351, R470). -/
def execSessionOpen (g h : Nat) (tag : Option (BitVec 128)) (sess seq level scope : Nat) (step : Byte) (exchange : List Byte) (s : State) :
    Out :=
  let q : Req := { req0 0x11 sess seq with data := leBytes 1 level ++ leBytes 1 scope ++ step :: exchange }
  s.run (frameOk g h q) (mgmtFrame g h tag q)

/-- SESSION_CLOSE (R351). -/
def execSessionClose (g h : Nat) (tag : Option (BitVec 128)) (sess seq : Nat) (s : State) : Out :=
  s.run (frameOk g h (req0 0x12 sess seq)) (mgmtFrame g h tag (req0 0x12 sess seq))

/-- KEEPALIVE (R351). -/
def execKeepalive (g h : Nat) (tag : Option (BitVec 128)) (sess seq : Nat) (s : State) : Out :=
  s.run (frameOk g h (req0 0x13 sess seq)) (mgmtFrame g h tag (req0 0x13 sess seq))

/-- REPORT_ACK of the reports up to `eseq` (R357). -/
def execReportAck (g h : Nat) (tag : Option (BitVec 128)) (sess eseq : Nat) (s : State) : Out :=
  let q : Req := { req0 0x21 sess 0 with data := leBytes 4 eseq }
  s.run (frameOk g h q) (mgmtFrame g h tag q)

/-- The request in a mailbox frame's bytes, if its MAGIC, VER and length hold, no tag follows and it is a request; reserved bits
are ignored (R6, R355). -/
def parseFrame (b : List Byte) : Option Req :=
  let n (o k : Nat) : Nat := leNat ((b.drop o).take k)
  let fl := byteAt b 4
  if 32 ≤ b.length ∧ n 0 2 = 0x4F44 ∧ byteAt b 2 = 1 ∧ b.length = 32 + n 28 2 ∧ n 28 2 ≤ 65504 ∧ ¬ fl.testBit 0 ∧ fl.testBit 4 then
    some ⟨byteAt b 3, fl.testBit 1, fl.testBit 3, byteAt b 5, byteAt b 6, n 8 2, n 10 2, n 12 4, n 16 4, n 20 4, b.drop 32⟩
  else none

/-- GO of a function's mailbox on the active port (R330): the request of REQLEN bytes is submitted; a GO while BUSY is dropped and
counted. A frame that is discarded leaves no response (R355; log 39). -/
def mailboxGo (fn : Nat) (s : State) : State :=
  let f := s.p.getFn fn
  if f.busy then s.onP (dropWrite fn)
  else if s.p.boot.phase < 3 then s
  else match parseFrame (padTo f.reqLen f.req) with
    | none => s.onP fun p => discardFrame (p.modFn fn fun y => { y with rspLen := 0 })
    | some q =>
      request (.box fn) ((padTo 32 f.req)) q (s.onP fun p => p.modFn fn fun y => { y with busy := true })

/-- MAILBOX_GO: the mailbox's register is written with GO and the REQLEN `len` (R330). -/
def execMailboxGo (hp fn len : Nat) (s : State) : Out :=
  s.run (isHPort hp && isFn fn && decide (len < 2 ^ 17)) fun s =>
    if ¬ arrives s.p hp fn then s
    else if hp ≠ activePort s.p then s.onP (standbyDrop fn)
    else mailboxGo fn (s.onP fun p => p.modFn fn fun y => { y with reqLen := len })

/-- Is the BAR 0 offset one that the standby port performs: the MSI-X table and ICAUSE (R334)? -/
def perPort (off : Nat) : Bool := decide (0x30000 ≤ off ∧ off < 0x30200) || decide (off / 8 = 0x21)

/-- Is the mailbox's GO among the bits of a write to BAR 0 (R330)? -/
def setsGo (off : Nat) (b : List Byte) : Bool :=
  (decide (off = 0x4000 ∧ b.length = 8) || decide (off = 0x4004 ∧ b.length = 4)) && (leNat b).testBit (8 * b.length - 1)

/-- REGISTER_WRITE: a register of a control space, checked and performed or refused (R30), or a register of BAR 0 (R312), GO of the
mailbox among them. -/
def execRegisterWrite (t : RegTarget) (data : List Byte) (s : State) : Out :=
  match t with
  | .ga b a rows => s.run true fun s => (gaWrite b .posted a data rows s).2
  | .bar0 hp f off =>
    s.run (isHPort hp && isFn f) fun s =>
      if ¬ arrives s.p hp f then s
      else if hp = activePort s.p then
        let s := s.onP (writeBar0 hp f off data)
        if setsGo off data then mailboxGo f s else s
      else s.onP fun p =>
        if perPort off then
          if (data.length = 4 ∨ data.length = 8) ∧ off % data.length = 0 then
            if off / 8 = 0x21 then p else writeMsix hp f (off - 0x30000) data p
          else dropWrite f p
        else standbyDrop f p

/-- A REPORT frame (R355, R357, R471): its entries in the layout of R329, sealed under the ESEQ of the first; its SEQ is 0 and its
FLAGS are 0 (log 68). -/
def reportFrame (x : Session) (l : List Entry) : List Byte :=
  let d := l.flatMap fun e => leBytes 32 (entryBits e false e.eseq)
  let h := leBytes 2 0x4F44 ++ [1, 0x20, 0, 0, 0, 0] ++ leBytes 2 0 ++ leBytes 2 x.id ++ leBytes 16 0 ++ leBytes 2 d.length ++ leBytes 2 0
  sealed (x.keys.drop 32) 3 ((l.head?.map (·.eseq)).getD 0) h d

/-- A report goes on both segments (R357). -/
def onBoth (f : List Byte) : List (Nat × List Byte) := [(0, f), (1, f)]

/-- REPORT_SEND: the events due to a session go out, up to 32 in a report (R357). -/
def execReportSend (slot : Nat) (s : State) : Out :=
  s.runP (decide (slot < 16)) fun p =>
    match sessionAt p slot with
    | none => p
    | some x =>
      let l := x.due.take 32
      if l.isEmpty then p
      else
        let p := modSession slot x.id (fun y => { y with due := y.due.drop 32, unacked := y.unacked ++ l.map fun e => ⟨e, p.now, 0⟩ }) p
        p.modOd fun o => { o with
          reports := o.reports ++ l.map (fun e => (x.id, e)), frames := o.frames ++ onBoth (reportFrame x l), proto := { o.proto with sent := o.proto.sent + 1 } }

/-- REPORT_RESEND: a session's oldest report without acknowledgement for 50 ms goes out again, or is lost after 8 times
(R357). -/
def execReportResend (slot : Nat) (s : State) : Out :=
  s.runP (decide (slot < 16)) fun p =>
    match sessionAt p slot with
    | none => p
    | some x => match x.unacked with
      | [] => p
      | u :: _ =>
        let mine (w : Unacked) : Bool := decide (w.sentAt = u.sentAt ∧ w.resends = u.resends)
        if p.now < u.sentAt + 5000000 then p
        else if u.resends < 8 then
          let again := (x.unacked.filter mine).map fun w => { w with sentAt := p.now, resends := w.resends + 1 }
          let p := modSession slot x.id (fun y => { y with unacked := again ++ y.unacked.filter fun w => !mine w }) p
          p.modOd fun o => { o with
            reports := o.reports ++ again.map (fun w => (x.id, w.entry)),
            frames := o.frames ++ onBoth (reportFrame x (again.map (·.entry))), proto := { o.proto with resent := o.proto.resent + 1 } }
        else
          let p := modSession slot x.id (fun y => { y with unacked := y.unacked.filter (fun w => !mine w), lost := true }) p
          let p := p.modOd fun o => { o with proto := { o.proto with lost := o.proto.lost + 1 } }
          if x.lost then p else raise 0x0E21 p.activeHub keyPanel (some (BitVec.ofNat 64 x.id)) p

/-- SESSION_IDLE_TIMEOUT (R351). -/
def execSessionIdleTimeout (slot : Nat) (s : State) : Out :=
  s.runP (decide (slot ≤ 32)) fun p =>
    match sessionAt p slot with
    | some x => if sessionIdle p x then endSessions (fun y => decide (y.slot = slot)) endedIdle p else p
    | none => p

/-- TRANSFER_GAP_TIMEOUT (R349). -/
def execTransferGapTimeout (slot : Nat) (s : State) : Out :=
  s.run (decide (slot ≤ 32)) fun s =>
    match sessionAt s.p slot with
    | some x => match x.xfer with
      | some t => if gapOver t s.p.now then endTransfer x s else s
      | none => s
    | none => s

/-- AUTH_PENDING_TIMEOUT: a session pending for 5 s is discarded (R470). -/
def execAuthPendingTimeout (id : Nat) (s : State) : Out :=
  s.runP true fun p => p.modSec fun c => { c with
    pendingAuth := c.pendingAuth.filter fun a => !(decide (a.id = id) && decide (a.since + 5 * ticksPerSecond ≤ p.now)) }

/-- CREDENTIAL_LOCKOUT_END (R470). -/
def execCredentialLockoutEnd (n : Nat) (s : State) : Out :=
  s.runP (decide (n < 32)) fun p =>
    match (Tab.get default p.sec.lock n : CredLock).until_ with
    | some t => if t ≤ p.now then p.modSec fun c => { c with lock := Tab.del n c.lock } else p
    | none => p

/-- MGMT_SEGMENT_DOWN: no valid frame or beacon for 1 s on an enabled segment (R354). -/
def execMgmtSegmentDown (g : Nat) (s : State) : Out :=
  s.runP (decide (g < 2)) fun p =>
    if cfg p 0x1010 0 (1 + g) = 1 ∧ ¬ p.od.segDown.contains g ∧ Tab.get 0 p.od.lastFrame g + ticksPerSecond ≤ p.now then
      raise 0x0E22 p.activeHub keyPanel (some (BitVec.ofNat 64 g)) (p.modOd fun o => { o with
        segDown := g :: o.segDown, proto := { o.proto with down := o.proto.down + 1 } })
    else p

/-- MGMT_SEGMENT_RETURN: a valid frame or PLCA beacon on a segment (R354). -/
def execMgmtSegmentReturn (g : Nat) (s : State) : Out := s.runP (decide (g < 2)) (segHeard g)

/-- The addresses that an attachment answers for (R354): its link-local one, and on the active hub the enabled global ones
(log 40). -/
def addressesOf (p : Panel) (h g : Nat) : List (List Byte) :=
  linkLocal h g :: (if h = p.book.active then
    ((chunks 24 (odBytes p 0x1012 0)).filter fun e => decide (byteAt e 17 = 1)).map (·.take 16) else [])

/-- NEIGHBOR_DISCOVERY for a target address at hub `h` on segment `g`: answered with the target and the attachment's MAC
address (R354). -/
def execNeighborDiscovery (h g : Nat) (target : BitVec 128) (s : State) : Out :=
  s.runP (decide (h < 2) && decide (g < 2)) fun p =>
    let t := (leBytes 16 target.toNat).reverse
    if ¬ segServes p h g then p
    else
      let p := segHeard g p
      if (addressesOf p h g).contains t then p.modOd fun o => { o with net := o.net ++ [(2 * h + g, t ++ macOf h g)] } else p

/-- ICMPV6_ECHO to an address of an attachment: answered with the request's data (R354). -/
def execIcmpv6Echo (h g : Nat) (target : BitVec 128) (data : List Byte) (s : State) : Out :=
  s.runP (decide (h < 2) && decide (g < 2)) fun p =>
    if ¬ segServes p h g then p
    else
      let p := segHeard g p
      if (addressesOf p h g).contains (leBytes 16 target.toNat).reverse then p.modOd fun o => { o with net := o.net ++ [(2 * h + g, data)] } else p

/-- Write an object whole in the session of a slot, as its request would, without an answer. -/
def directWrite (slot i s : Nat) (b : List Byte) (st : State) : State :=
  match liveSession st.p slot, odRow st.p.variant i s with
  | some x, some r =>
    if writeAllowed st.p x r s 0 false ≠ 0 then st
    else
      let g := gateCheck r st.p
      if g.1 ≠ 0 then { st with p := g.2 } else (writeValue x r i s 0 false b none { st with p := g.2 }).2.2
  | _, _ => st

/-- CREDENTIAL_WRITE of slot `n` by the session in a slot (R468, R469). -/
def execCredentialWrite (slot n : Nat) (data : List Byte) (s : State) : Out :=
  s.run (decide (slot ≤ 32) && decide (n < 32)) (directWrite slot 0xB030 n data)

/-- PANEL_ID_WRITE by the session in a slot (R528). -/
def execPanelIdWrite (slot : Nat) (id : BitVec 16) (s : State) : Out :=
  s.run (decide (slot ≤ 32)) (directWrite slot 0xA000 0 (leBytes 2 id.toNat))

end Sys2Proof.Machine
end

