-- ==== Sys2Proof/Machine/Nv.lean ====
section
/-! DEFINITION. The completion of nonvolatile record writes (R348, R394, R395, R425, R427, R430). -/

namespace Sys2Proof.Machine

/-- The slot that a write fills is the one that does not hold the newest valid copy; one that fails leaves it without a header
(R395). -/
def nvFill (w : NvWrite) (ok : Bool) (p : Panel) : Panel :=
  let x := nvSlots p w.id
  let s : NvSlot := ⟨if ok then nvHeader w.id w.seq w.body else [], w.body⟩
  p.modPwr fun y => { y with nv := Tab.set w.id (if newer w.id x.1 x.2 then (x.1, s) else (s, x.2)) y.nv }

/-- The die and band of a training record's identifier. -/
def trainOf (id : Nat) : Nat × Nat := ((id - 0x1000) / 8, (id - 0x1000) % 8)
def isTrain (id : Nat) : Bool := decide (0x1000 ≤ id ∧ id < 0x2000)

/-- Answer what waited for a write. -/
def nvAnswer (w : NvWrite) (abort commits : Nat) (p : Panel) : Panel :=
  match w.job.reply with
  | some r => answerSession r.1 r.2.1 r.2.2 (respOf abort commits) p
  | none => p

/-- A store that was refused or failed: the hub's own stays to be tried again (R139, R425, R427, R428). -/
def nvRefused (w : NvWrite) (abort : Nat) (p : Panel) : Panel :=
  let p := nvAnswer w abort (commitsOf p (w.job.blocks.headD 0)) p
  if w.id = recMap then p.modBoot fun b => { b with mapPending := true }
  else if isTrain w.id then p.modBoot fun b => { b with
    trainPending := trainOf w.id :: b.trainPending, storeRefused := b.storeRefused + 1 }
  else if 0x2000 ≤ w.id then
    raise 0x040A (w.id - 0x2000) (keyStack (w.id - 0x2000)) none (p.modStk (w.id - 0x2000) fun k => { k with mapPending := true })
  else p

/-- A record is stored: its values come in force, its blocks' commits are counted, its command acts, and the request is
answered, or goes on with its further sub-indices (R346, R348, R359). -/
def nvStored (w : NvWrite) (st : State) : State :=
  let j := w.job
  let st := st.onP fun p =>
    let p := if w.id ≤ recCalib then putStored w.id j.puts p
      else if isTrain w.id then p.modBoot fun b => { b with
        stored := b.stored + 1, training := if b.training.contains (trainOf w.id) then b.training else b.training ++ [trainOf w.id] }
      else p
    let p := each j.blocks countCommit p
    let p := match j.reply, j.staged with
      | some r, true => each j.blocks (fun b p => modSession r.1 r.2.1 (clearStage p.variant b) p) p
      | _, _ => p
    match j.cmd with
    | some m => actManager m p
    | none => p
  match j.reply with
  | none => st
  | some r =>
    let a := commitSubs r.1 r.2.1 j.index (some r.2.2) j.rest st
    if a.2.1 then a.2.2
    else
      let n := match j.rest.getLast? with
        | some s => blockCount a.2.2.p j.index s
        | none => commitsOf a.2.2.p (j.blocks.headD 0)
      a.2.2.onP (nvAnswer w a.1 n)

/-- Begin the next write that waits; one whose hold-up check fails is refused (R394). -/
def nvNext : Nat → Panel → Panel
  | 0, p => p
  | fuel + 1, p =>
    match p.pwr.writes with
    | [] => p
    | w :: t =>
      if w.begun then p
      else
        let b := nvBegin w p
        if b.1 then b.2.2.modPwr fun x => { x with writes := b.2.1 :: t }
        else nvNext fuel (nvRefused w (abortOf 0x08 1 0) (b.2.2.modPwr fun x => { x with writes := t }))

/-- NV_RECORD_WRITE: the write under way is done (R394, R395). -/
def execNvRecordWrite (e : NvEnd) (s : State) : Out :=
  s.run true fun s =>
    let s := s.onP fun p => p.modPwr fun w => { w with bank := e.bank }
    match s.p.pwr.writes with
    | [] => s
    | w :: t =>
      if ¬ w.begun then s.onP fun p => nvNext (t.length + 1) p
      else
        let s := s.onP fun p => nvFill w e.ok (p.modPwr fun x => { x with writes := t })
        let s := if e.ok then nvStored w s else s.onP (nvRefused w (abortOf 0x0A 2 0))
        s.onP fun p => nvNext (p.pwr.writes.length + 1) p

end Sys2Proof.Machine
end

