-- ==== Sys2Proof/Machine/Scalar.lean ====
section
/-! DEFINITION. The scalar slot, and NOP of every slot (R41, R44). -/

namespace Sys2Proof.Machine

/-- NOP: a slot whose opcode is 0x00, which does nothing (R41), or one that names no operation, which is illegal (R42, R43;
log 42). -/
def execNop (k : Nat) (sl : Slot) (opc : BitVec 8) (s : State) : Out :=
  s.run (isCore k && !listedOpc sl opc.toNat) fun s =>
    let w : SlotWord := { prd := 0, pneg := false, dst := 0, sa := 0, sb := 0, sc := 0, imm := 0 }
    if sl = .c then issueC k w (decide (opc = 0)) true id s else issueS k sl w (decide (opc = 0)) true (keepMem id) s

/-- A scalar operation that writes s[DST] with the latency given. -/
def scalarS (k : Nat) (w : SlotWord) (lat : Nat) (static : Bool) (f : CoreA → Word) (s : State) : Out :=
  s.runP (isCore k) (issueP k .s w static true (onA fun a => launch lat (.s (SlotW.dst w) (f a)) a))

/-- A scalar operation of two registers. -/
def scalar2 (k : Nat) (w : SlotWord) (lat : Nat) (f : Word → Word → Word) (s : State) : Out :=
  scalarS k w lat true (fun a => f (rdS a (SlotW.sa w)) (rdS a (SlotW.sb w))) s

/-- A comparison that writes p[DST[3:0]]; DST[5:4] is zero. -/
def scalarP (k : Nat) (w : SlotWord) (f : CoreA → Bool) (s : State) : Out :=
  s.runP (isCore k) (issueP k .s w (decide (SlotW.dst w < 16)) true
    (onA fun a => launch 1 (.p (SlotW.dst w) (f a)) a))

def execAdd (k : Nat) (w : SlotWord) (s : State) : Out := scalar2 k w 1 (fun x y => x + y) s
def execSub (k : Nat) (w : SlotWord) (s : State) : Out := scalar2 k w 1 (fun x y => x - y) s
def execAddi (k : Nat) (w : SlotWord) (s : State) : Out :=
  scalarS k w 1 true (fun a => rdS a (SlotW.sa w) + SlotW.simm w) s
def execAnd (k : Nat) (w : SlotWord) (s : State) : Out := scalar2 k w 1 (fun x y => x &&& y) s
def execOr (k : Nat) (w : SlotWord) (s : State) : Out := scalar2 k w 1 (fun x y => x ||| y) s
def execXor (k : Nat) (w : SlotWord) (s : State) : Out := scalar2 k w 1 (fun x y => x ^^^ y) s
/-- Shifts by a register take its bits [5:0]. -/
def execShl (k : Nat) (w : SlotWord) (s : State) : Out := scalar2 k w 1 (fun x y => x <<< (y.toNat % 64)) s
def execShr (k : Nat) (w : SlotWord) (s : State) : Out := scalar2 k w 1 (fun x y => x >>> (y.toNat % 64)) s
def execSar (k : Nat) (w : SlotWord) (s : State) : Out := scalar2 k w 1 (fun x y => x.sshiftRight (y.toNat % 64)) s
/-- SHLI: IMM[26:6] zero. -/
def execShli (k : Nat) (w : SlotWord) (s : State) : Out :=
  scalarS k w 1 (decide (SlotW.imm w 26 6 = 0)) (fun a => rdS a (SlotW.sa w) <<< SlotW.imm w 5 0) s
def execMul (k : Nat) (w : SlotWord) (s : State) : Out := scalar2 k w 3 (fun x y => x * y) s
def execMulhu (k : Nat) (w : SlotWord) (s : State) : Out :=
  scalar2 k w 3 (fun x y => BitVec.ofNat 64 (x.toNat * y.toNat / 2 ^ 64)) s
def execMin (k : Nat) (w : SlotWord) (s : State) : Out := scalar2 k w 1 (fun x y => if y.slt x then y else x) s
def execMax (k : Nat) (w : SlotWord) (s : State) : Out := scalar2 k w 1 (fun x y => if x.slt y then y else x) s
def execCmpeq (k : Nat) (w : SlotWord) (s : State) : Out :=
  scalarP k w (fun a => decide (rdS a (SlotW.sa w) = rdS a (SlotW.sb w))) s
def execCmplt (k : Nat) (w : SlotWord) (s : State) : Out :=
  scalarP k w (fun a => (rdS a (SlotW.sa w)).slt (rdS a (SlotW.sb w))) s
def execCmpltu (k : Nat) (w : SlotWord) (s : State) : Out :=
  scalarP k w (fun a => (rdS a (SlotW.sa w)).ult (rdS a (SlotW.sb w))) s
def execCmplti (k : Nat) (w : SlotWord) (s : State) : Out :=
  scalarP k w (fun a => (rdS a (SlotW.sa w)).slt (SlotW.simm w)) s
/-- LI: the 45-bit immediate, sign-extended. -/
def execLi (k : Nat) (w : SlotWord) (s : State) : Out :=
  scalarS k w 1 true (fun _ => (BitVec.ofNat 45 (SlotW.long w)).signExtend 64) s
/-- LIH: bits [18:0] above the register's low 45 bits, read at issue; bits [44:19] zero. -/
def execLih (k : Nat) (w : SlotWord) (s : State) : Out :=
  scalarS k w 1 (decide (SlotW.long w < 2 ^ 19))
    (fun a => BitVec.ofNat 64 (SlotW.long w % 2 ^ 19 * 2 ^ 45 + (rdS a (SlotW.dst w)).toNat % 2 ^ 45)) s
/-- MFS: registers 4 and 5 are WO, those above 7 not assigned (R38, R44). -/
def execMfs (k : Nat) (w : SlotWord) (s : State) : Out :=
  let n := SlotW.imm w 4 0
  scalarS k w 1 (decide (n ≤ 7 ∧ n ≠ 4 ∧ n ≠ 5)) (fun a => rdSpec a n) s
/-- MTS: registers 0 to 3 are RO, those above 7 not assigned; RNDMODE admits 0 to 2 (R38, R44). -/
def execMts (k : Nat) (w : SlotWord) (s : State) : Out :=
  let n := SlotW.imm w 4 0
  s.runP (isCore k) fun p =>
    issueP k .s w (decide (4 ≤ n ∧ n ≤ 7)) (decide (n ≠ 6 ∨ (rdS (p.getCore k).a (SlotW.sa w)).toNat ≤ 2))
      (onA fun a => launch 1 (.spec n (rdS a (SlotW.sa w))) a) p

end Sys2Proof.Machine
end

