-- ==== Sys2Proof/Machine/Takeover.lean ====
section
/-! DEFINITION. Takeover by hub B (R217, R308, R332-R334, R353, R393, R396, R397, R410, R421, R507, R508). -/

namespace Sys2Proof.Machine

/-- Commits in progress: hub B puts in force the one whose record is stored, and discards the others (R397). A store of the
hub's own that is lost stays to be tried again. -/
def resolveCommits (stored : Bool) (s : State) : State :=
  let ws := s.p.pwr.writes.map fun w => { w with job := { w.job with reply := none, rest := [] } }
  let s := s.onP fun p => p.modPwr fun x => { x with writes := [] }
  match ws with
  | [] => s
  | w :: t =>
    let s := if stored ∧ w.begun then nvStored w (s.onP (nvFill w true))
      else if w.begun then s.onP fun p => nvRefused w 0 (nvFill w false p)
      else s.onP (nvRefused w 0)
    s.onP (each t fun w p => nvRefused w 0 p)

/-- The state book and the hubs' own part: the generation, the beat, hub A fenced, the peripherals (R298, R508). -/
def takeHub (p : Panel) : Panel :=
  let p := p.modBook fun b => { b with active := 1, tgen := (b.tgen + 1) % 256, tookOver := true, takeDue := false }
  let p := p.modClocks fun c => { c with rootB := true, periph := Tab.set 1 (Tab.get 0 c.periph 1 ||| Tab.get 0 c.periph 0) c.periph }
  let p := fromHub 0xDD 3 0 (.hubBeat p.book.tgen true p.now) p
  let p := (moveUnit 0x00 .fenced 0x0E05 p).modUnit 0x00 fun r => { r with takeover := decide (r.st = .fenced) }
  raise 0x0E07 0xDD 0xDD none p

/-- What the hub kept for itself and hub B does not go on with: sessions but the mailboxes' own, pending sessions, bulk sessions,
image writes, guest and service requests in flight (R353, R470, R476, R508). -/
def takeDrop (p : Panel) : Panel :=
  let p := endSessions (fun x => decide (x.id ≠ 0)) endedTakeover p
  let p := p.modSec fun c => { c with
    pendingAuth := [], imgWrite := none
    guest := c.guest.map fun e => (e.1, { e.2 with linkUp := false, outstanding := [], held := [] }) }
  (p.modCtl fun c => { c with bulks := [] }).modHost fun h => { h with svc := [] }

/-- The ledger, the thermal holds and the barriers go on from what is mirrored (R217, R393, R410). -/
def takePower (p : Panel) : Panel :=
  let p := p.modPwr fun w => { w with skip := true, allHeld := true }
  each p.reg (fun e p => if e.2.phase = .active ∧ (e.2.bar.isSome ∨ e.2.freezing) then p.modReg e.1 fun g => { g with firstTick := p.now } else p) p

/-- The host's view: H0's link is down, H1 is the active port with an ICAUSE and mailbox buffers of its own, what is not confirmed is
written again, ICAUSE[2] is set and vector 0 raised (R310, R313, R332, R333). -/
def takeHost (p : Panel) : Panel :=
  let p := p.modHost fun h => { h with taken := true, takeovers := h.takeovers + 1 }
  let p := if (p.getHPort 0).up then raise 0x0908 0x00 0x00 none (p.modHPort 0 fun x => { x with up := false }) else p
  let fns := (List.range 17).filter (fnExists p)
  let p := each fns (fun f p =>
    let us := (p.getFn f).unconfirmed
    let p := p.modHost fun h => { h with out := h.out ++ us.map fun u => .write u.2.1 u.2.2 }
    p.modFn f fun x => { x with ctr := { x.ctr with rewritten := x.ctr.rewritten + us.length } }) p
  let p := each fns (fun f p => setIcause f 2 (p.modFn f fun x => { x with icause := 0, req := [], rsp := [], rspLen := 0, busy := false })) p
  if hostServed p then raise 0x0901 0xDD 0xDD none p else raise 0x0908 0xDD 0xDD none p

/-- Copies in progress start again from their first byte (R333). -/
def restartCopies (s : State) : State :=
  let s := s.onP (dropScans fun _ => true)
  each s.p.host.copies (fun c s =>
    let s := s.onP (modCopy c.id fun x => { x with block := 0, retried := false, asked := false })
    if c.copyIn then copyInNext c.id s else s.onP (askCopy c.id)) s

/-- Before READY hub B goes on with the sequence from phase 4 (R421). -/
def takeBoot (p : Panel) : Panel :=
  if p.boot.ready then p
  else
    let p := (p.modBoot fun b => { b with bootHub := 1 }).modClocks fun c => { c with origin := p.now }
    if 3 < p.boot.phase ∧ p.boot.phase < 15 then nextBlock p.now (periphSet [3, 4] (toPhase 4 p)) else p

/-- TAKEOVER: hub B, which has decided to, takes over; `stored`: the record being written carries the provisional SEQ in its
newer valid slot (R397, R507, R508). -/
def execTakeover (stored : Bool) (s : State) : Out :=
  s.run true fun s =>
    if s.p.book.takeDue ∧ s.p.book.active = 0 ∧ ¬ s.p.book.tookOver ∧ hubRuns s.p 0xDD = true then
      let s := s.onP fun p => fenceCutPorts (takeDrop (takeHub p))
      let s := resolveCommits stored s
      restartCopies (s.onP fun p => takeBoot (takeHost (takePower p)))
    else s

end Sys2Proof.Machine
end

