-- ==== Sys2Proof/Machine/Vector.lean ====
section
/-! DEFINITION. The vector slots V0 and V1 (R45, R87-R97). -/

namespace Sys2Proof.Machine

/-- A vector operation that writes v[DST] with the latency given. -/
def vectorV (k : Nat) (u : VUnit) (w : SlotWord) (lat : Nat) (static : Bool) (f : CoreA → Vec) (s : State) : Out :=
  s.runP (isCore k) (issueP k (slotV u) w static true (onA fun a => launch lat (.v (SlotW.dst w) (f a)) a))

/-- Lane-wise over a and b, in the element type. -/
def vector2 (k : Nat) (u : VUnit) (w : SlotWord) (lat : Nat) (f : Nat → Nat → Nat → Nat) (s : State) : Out :=
  let et := SlotW.et w
  vectorV k u w lat (decide (et ≤ 6)) (fun a =>
    ofLanes et (List.zipWith (f et) (vLanes et (rdV a (SlotW.sa w))) (vLanes et (rdV a (SlotW.sb w))))) s

/-- A bitwise operation, which ignores ET. -/
def vectorBits (k : Nat) (u : VUnit) (w : SlotWord) (f : Vec → Vec → Vec) (s : State) : Out :=
  vectorV k u w 1 true (fun a => f (rdV a (SlotW.sa w)) (rdV a (SlotW.sb w))) s

/-- One lane of an arithmetic operation: floats exactly and rounded once to nearest even (R87), integers modulo 2^width
(R90). -/
def laneArith (ff : Num → Num → Num) (fi : Int → Int → Int) (et x y : Nat) : Nat :=
  if etFloat et then (etFmt et).enc .rne (ff ((etFmt et).ieee x) ((etFmt et).ieee y))
  else (wrap (etWidth et) (fi x y)).toNat

def laneAdd : Nat → Nat → Nat → Nat := laneArith Num.add (fun x y => x + y)
def laneSub : Nat → Nat → Nat → Nat := laneArith (fun x y => Num.add x y.neg) (fun x y => x - y)
def laneMul : Nat → Nat → Nat → Nat := laneArith Num.mul (fun x y => x * y)
/-- One lane of VFMA: one rounding. -/
def laneFma (et x y z : Nat) : Nat :=
  if etFloat et then
    (etFmt et).enc .rne (Num.add (Num.mul ((etFmt et).ieee x) ((etFmt et).ieee y)) ((etFmt et).ieee z))
  else (wrap (etWidth et) ((x : Int) * y + z)).toNat

def execVadd (k : Nat) (u : VUnit) (w : SlotWord) (s : State) : Out := vector2 k u w 2 laneAdd s
def execVsub (k : Nat) (u : VUnit) (w : SlotWord) (s : State) : Out := vector2 k u w 2 laneSub s
def execVmul (k : Nat) (u : VUnit) (w : SlotWord) (s : State) : Out := vector2 k u w 3 laneMul s
def execVfma (k : Nat) (u : VUnit) (w : SlotWord) (s : State) : Out :=
  let et := SlotW.et w
  vectorV k u w 4 (decide (et ≤ 6)) (fun a =>
    let xs := List.zip (vLanes et (rdV a (SlotW.sa w))) (vLanes et (rdV a (SlotW.sb w)))
    ofLanes et (List.zipWith (fun xy z => laneFma et xy.1 xy.2 z) xs (vLanes et (rdV a (SlotW.sc w))))) s
def execVmax (k : Nat) (u : VUnit) (w : SlotWord) (s : State) : Out := vector2 k u w 2 laneMax s
def execVmin (k : Nat) (u : VUnit) (w : SlotWord) (s : State) : Out := vector2 k u w 2 laneMin s
def execVand (k : Nat) (u : VUnit) (w : SlotWord) (s : State) : Out := vectorBits k u w (fun x y => x &&& y) s
def execVor (k : Nat) (u : VUnit) (w : SlotWord) (s : State) : Out := vectorBits k u w (fun x y => x ||| y) s
def execVxor (k : Nat) (u : VUnit) (w : SlotWord) (s : State) : Out := vectorBits k u w (fun x y => x ^^^ y) s
/-- VSHUF: byte i of d is byte (b byte i) of a. It moves bytes, so ET is not looked at (DESIGN CHOICE, log 48). -/
def execVshuf (k : Nat) (u : VUnit) (w : SlotWord) (s : State) : Out :=
  vectorV k u w 2 true (fun a =>
    let x := (rdV a (SlotW.sa w)).toNat
    BitVec.ofNat 2048 (unlanes 8 ((lanes 8 256 (rdV a (SlotW.sb w)).toNat).map fun i => x / 256 ^ i % 256))) s
/-- VBCAST: every lane is the low bits of s[SA]. -/
def execVbcast (k : Nat) (u : VUnit) (w : SlotWord) (s : State) : Out :=
  let et := SlotW.et w
  vectorV k u w 2 (decide (et ≤ 6)) (fun a =>
    ofLanes et (List.replicate (etLanes et) ((rdS a (SlotW.sa w)).toNat % 2 ^ etWidth et))) s

/-- The byte-lane mask of a list of lane outcomes (R45). -/
def laneMask (et : Nat) (l : List Bool) : Wide :=
  BitVec.ofNat 256 (unlanes (etWidth et / 8) (l.map fun b => if b then 2 ^ (etWidth et / 8) - 1 else 0))

/-- A comparison that writes q[DST[2:0]]. -/
def vectorQ (k : Nat) (u : VUnit) (w : SlotWord) (f : Nat → Nat → Nat → Bool) (s : State) : Out :=
  let et := SlotW.et w
  s.runP (isCore k) (issueP k (slotV u) w (decide (et ≤ 6) && decide (SlotW.dst w < 8)) true (onA fun a =>
    launch 2 (.q (SlotW.dst w)
      (laneMask et (List.zipWith (f et) (vLanes et (rdV a (SlotW.sa w))) (vLanes et (rdV a (SlotW.sb w)))))) a))

def execVcmplt (k : Nat) (u : VUnit) (w : SlotWord) (s : State) : Out := vectorQ k u w laneLt s
def execVcmpeq (k : Nat) (u : VUnit) (w : SlotWord) (s : State) : Out := vectorQ k u w laneEq s
/-- VSEL: per byte lane, a where q[SC[2:0]] has the bit, else b; ET is not looked at (DESIGN CHOICE, log 48). -/
def execVsel (k : Nat) (u : VUnit) (w : SlotWord) (s : State) : Out :=
  vectorV k u w 1 (decide (SlotW.sc w < 8)) (fun a =>
    let m := (List.range 256).map fun i => (rdQ a (SlotW.sc w)).getLsbD i
    let ab := List.zip (lanes 8 256 (rdV a (SlotW.sa w)).toNat) (lanes 8 256 (rdV a (SlotW.sb w)).toNat)
    BitVec.ofNat 2048 (unlanes 8 (List.zipWith (fun (b : Bool) (xy : Nat × Nat) => if b then xy.1 else xy.2) m ab))) s

/-- A transcendental operation (R53, R88): FP32 only, one in two cycles on each unit. -/
def vectorT (k : Nat) (u : VUnit) (w : SlotWord) (f : Num → Num) (s : State) : Out :=
  s.runP (isCore k) fun p =>
    let last := Tab.get 0 (p.getCore k).a.lastT (vNum u)
    issueP k (slotV u) w (decide (SlotW.et w = 0)) (decide (last = 0 ∨ last + 1 ≤ (p.getCore k).a.rc))
      (onA fun a =>
        launch 8 (.v (SlotW.dst w)
            (ofLanes 0 ((vLanes 0 (rdV a (SlotW.sa w))).map fun x => fmtFP32.enc .rne (f (fmtFP32.ieee x)))))
          { a with lastT := Tab.set (vNum u) (a.rc + 1) a.lastT }) p

def execVexp2 (k : Nat) (u : VUnit) (w : SlotWord) (s : State) : Out := vectorT k u w exp2 s
def execVlog2 (k : Nat) (u : VUnit) (w : SlotWord) (s : State) : Out := vectorT k u w log2 s
def execVrsqrt (k : Nat) (u : VUnit) (w : SlotWord) (s : State) : Out := vectorT k u w rsqrt s
def execVrcp (k : Nat) (u : VUnit) (w : SlotWord) (s : State) : Out := vectorT k u w recip s

/-- The value of a lane of type `et`. -/
def laneNum (et x : Nat) : Num := if etFloat et then (etFmt et).ieee x else Num.ofInt (laneInt et x) 0

/-- The limits of an integer type (R91). -/
def intLo (et : Nat) : Int := if etSigned et then -(2 ^ (etWidth et - 1)) else 0
def intHi (et : Nat) : Int := if etSigned et then 2 ^ (etWidth et - 1) - 1 else 2 ^ etWidth et - 1

/-- An integer brought within a type's limits, and whether it was out of them. -/
def satInt (et : Nat) (i : Int) : Nat × Bool :=
  if i < intLo et then ((wrap (etWidth et) (intLo et)).toNat, true)
  else if intHi et < i then ((wrap (etWidth et) (intHi et)).toNat, true)
  else ((wrap (etWidth et) i).toNat, false)

/-- One lane of VCVT to type `t`: the encoding, and whether range changed the result (R91, R101). -/
def cvtLane (t : Nat) (r : Rnd) (x : Num) : Nat × Bool :=
  if etFloat t then ((etFmt t).enc r x, (etFmt t).above r x)
  else match x with
    | .nan => (0, false)
    | .inf s => ((wrap (etWidth t) (if s then intLo t else intHi t)).toNat, true)
    | .fin s m e => satInt t (roundInt r s m e)

/-- The rounding of each converted lane under RNDMODE, and the generator after it: mode 2 draws one word a lane, in
ascending order (R93). -/
def cvtRounds (n : Nat) (a : CoreA) : List Rnd × BitVec 128 :=
  if a.rnd = 0 then (List.replicate n .rne, a.gen)
  else if a.rnd = 1 then (List.replicate n .rtz, a.gen)
  else
    let d := genDraws n a.gen
    (d.1.map .stoch, d.2)

/-- The lanes that a VCVT converts (R91). -/
def cvtSource (et t j : Nat) (x : Vec) : List Nat :=
  if etLanes t < etLanes et then ((vLanes et x).drop (j * etLanes t)).take (etLanes t) else vLanes et x

/-- The write of a VCVT: the converted lanes in their places; where they are fewer than the destination's, the others keep what
they hold when it lands (R91). -/
def cvtWrite (et t j dst : Nat) (l : List Nat) : RegWrite :=
  if etLanes et < etLanes t then
    let w := etLanes et * etWidth t / 8
    .vlanes dst (j * w) w (BitVec.ofNat 2048 (unlanes (etWidth t) l * 256 ^ (j * w)))
  else .v dst (ofLanes t l)

/-- Is the part index below the ratio of the lane counts (R91)? -/
def cvtPartOk (et t j : Nat) : Bool := decide (j < max (etLanes et) (etLanes t) / min (etLanes et) (etLanes t))

/-- Checks of a VCVT (R91, R92). -/
def cvtOk (w : SlotWord) : Bool :=
  let et := SlotW.et w
  let t := SlotW.imm w 23 21
  if t = 7 then decide (et = 0) && decide (SlotW.imm w 20 18 ≤ 5) && decide (SlotW.imm w 17 16 = 0)
  else decide (et ≤ 6) && decide (t ≠ et) && cvtPartOk et t (SlotW.imm w 17 16)

/-- The result of a VCVT: its write, how many lanes range changed, and the generator after it. -/
def cvtAll (w : SlotWord) (a : CoreA) : RegWrite × Nat × BitVec 128 :=
  let et := SlotW.et w
  let t := SlotW.imm w 23 21
  let j := SlotW.imm w 17 16
  if t = 7 then
    let c := SlotW.imm w 20 18
    let xs := vLanes 0 (rdV a (SlotW.sa w))
    let rs := cvtRounds xs.length a
    let sc := (rdS a (SlotW.sb w)).toNat
    let scales := List.replicate 32 (sc % 256) ++ List.replicate 32 (sc / 256 % 256)
    let out := List.zipWith (fun (xr : Nat × Rnd) q => mxEnc c xr.2 q (fmtFP32.ieee xr.1)) (List.zip xs rs.1) scales
    (.v (SlotW.dst w) (BitVec.ofNat 2048 (unlanes (mxWidth c) (out.map (·.1)))), (out.filter (·.2)).length, rs.2)
  else
    let xs := cvtSource et t j (rdV a (SlotW.sa w))
    let rs := cvtRounds xs.length a
    let out := List.zipWith (fun x r => cvtLane t r (laneNum et x)) xs rs.1
    (cvtWrite et t j (SlotW.dst w) (out.map (·.1)), (out.filter (·.2)).length, rs.2)

def execVcvt (k : Nat) (u : VUnit) (w : SlotWord) (s : State) : Out :=
  s.runP (isCore k) (issueP k (slotV u) w (cvtOk w) true (onA fun a =>
    let r := cvtAll w a
    launch 3 r.1 { a with gen := r.2.2, arith := { a.arith with vcvt := a.arith.vcvt + r.2.1 } }))

/-- VRMAX: the maximum over the lanes of a (R89). -/
def execVrmax (k : Nat) (u : VUnit) (w : SlotWord) (s : State) : Out :=
  let et := SlotW.et w
  vectorV k u w 6 (decide (et ≤ 6)) (fun a =>
    let l := vLanes et (rdV a (SlotW.sa w))
    ofLanes et (List.replicate (etLanes et) (l.foldl (laneMax et) (l.headD 0)))) s

/-- One level of the pairwise tree: lane 2i plus lane 2i + 1 (R45). -/
def pairSums : List Nat → List Nat
  | x :: y :: t => laneAdd 0 x y :: pairSums t
  | l => l

/-- The tree over 64 lanes. -/
def treeSum : Nat → List Nat → Nat
  | 0, l => l.headD 0
  | n + 1, l => treeSum n (pairSums l)

def execVrsum (k : Nat) (u : VUnit) (w : SlotWord) (s : State) : Out :=
  vectorV k u w 6 (decide (SlotW.et w = 0)) (fun a =>
    ofLanes 0 (List.replicate 64 (treeSum 6 (vLanes 0 (rdV a (SlotW.sa w)))))) s

/-- The lane start of VTOEX80 and VFROMEX80: 0, 8, ..., 40 (R45). -/
def exStart (w : SlotWord) : Bool :=
  decide (SlotW.et w = 0) && decide (SlotW.imm w 23 16 % 8 = 0) && decide (SlotW.imm w 23 16 ≤ 40)

/-- The scale exponent (R94). -/
def exSigma (a : CoreA) (w : SlotWord) : Int := sextN 16 (rdS a (SlotW.sb w)).toNat

/-- One lane of VTOEX80: N, and whether the range flag is set (R95). -/
def toEx80 (sigma : Int) : Num → Int × Bool
  | .nan => (0, true)
  | .inf s => (if s then -(2 ^ 63) else 2 ^ 63 - 1, true)
  | .fin s m e =>
    let q : Int := (quantize .rtz m e (sigma - 63) : Nat)
    let n := if s then -q else q
    if 2 ^ 63 - 1 < n then (2 ^ 63 - 1, true) else if n < -(2 ^ 63) then (-(2 ^ 63), true) else (n, false)

/-- One value of VFROMEX80 (R97). -/
def fromEx80 (sigma : Int) (n : Nat) : Nat := fmtFP32.enc .rne (Num.ofInt (sextN 80 n) (sigma - 63))
/-- Does an EX80 value lie outside the window (R94)? -/
def exOutside (n : Nat) : Bool := decide (sextN 80 n < -(2 ^ 63)) || decide (2 ^ 63 - 1 < sextN 80 n)

/-- Set EXFLAGS at the end of the operation where a value asks for it. -/
def launchExf (b : Bool) (a : CoreA) : CoreA := if b then launch 4 .exf a else a

def execVtoex80 (k : Nat) (u : VUnit) (w : SlotWord) (s : State) : Out :=
  s.runP (isCore k) (issueP k (slotV u) w (exStart w) true (onA fun a =>
    let xs := ((vLanes 0 (rdV a (SlotW.sa w))).drop (SlotW.imm w 23 16)).take 24
    let out := xs.map fun x => toEx80 (exSigma a w) (fmtFP32.ieee x)
    let n := (out.filter (·.2)).length
    let a := launch 4 (.v (SlotW.dst w) (BitVec.ofNat 2048 (unlanes 80 (out.map fun o => (wrap 80 o.1).toNat)))) a
    launchExf (decide (0 < n)) { a with arith := { a.arith with ex80 := a.arith.ex80 + n } }))

/-- VFROMEX80: 24 lanes from IMM[23:16]; the others keep what they hold when it lands (R97). -/
def execVfromex80 (k : Nat) (u : VUnit) (w : SlotWord) (s : State) : Out :=
  s.runP (isCore k) (issueP k (slotV u) w (exStart w) true (onA fun a =>
    let l := SlotW.imm w 23 16
    let ns := lanes 80 24 (rdV a (SlotW.sa w)).toNat
    let d := BitVec.ofNat 2048 (unlanes 32 (ns.map (fromEx80 (exSigma a w))) * 256 ^ (4 * l))
    launchExf (ns.any exOutside) (launch 4 (.vlanes (SlotW.dst w) (4 * l) 96 d) a)))

end Sys2Proof.Machine
end

