-- ==== Sys2Proof/Machine/Dispatch.lean ====
section
/-! DEFINITION. One arm per command. -/

namespace Sys2Proof.Machine

def exec (i : Instr) (s : State) : Host.Outcome State Fault Refusal :=
  match i with
  | .nop k sl opc => Sys2Proof.Machine.execNop k sl opc s
  | .add k w => Sys2Proof.Machine.execAdd k w s
  | .sub k w => Sys2Proof.Machine.execSub k w s
  | .addi k w => Sys2Proof.Machine.execAddi k w s
  | .and k w => Sys2Proof.Machine.execAnd k w s
  | .or k w => Sys2Proof.Machine.execOr k w s
  | .xor k w => Sys2Proof.Machine.execXor k w s
  | .shl k w => Sys2Proof.Machine.execShl k w s
  | .shr k w => Sys2Proof.Machine.execShr k w s
  | .sar k w => Sys2Proof.Machine.execSar k w s
  | .shli k w => Sys2Proof.Machine.execShli k w s
  | .mul k w => Sys2Proof.Machine.execMul k w s
  | .mulhu k w => Sys2Proof.Machine.execMulhu k w s
  | .min k w => Sys2Proof.Machine.execMin k w s
  | .max k w => Sys2Proof.Machine.execMax k w s
  | .cmpeq k w => Sys2Proof.Machine.execCmpeq k w s
  | .cmplt k w => Sys2Proof.Machine.execCmplt k w s
  | .cmpltu k w => Sys2Proof.Machine.execCmpltu k w s
  | .cmplti k w => Sys2Proof.Machine.execCmplti k w s
  | .li k w => Sys2Proof.Machine.execLi k w s
  | .lih k w => Sys2Proof.Machine.execLih k w s
  | .mfs k w => Sys2Proof.Machine.execMfs k w s
  | .mts k w => Sys2Proof.Machine.execMts k w s
  | .vadd k u w => Sys2Proof.Machine.execVadd k u w s
  | .vsub k u w => Sys2Proof.Machine.execVsub k u w s
  | .vmul k u w => Sys2Proof.Machine.execVmul k u w s
  | .vfma k u w => Sys2Proof.Machine.execVfma k u w s
  | .vmax k u w => Sys2Proof.Machine.execVmax k u w s
  | .vmin k u w => Sys2Proof.Machine.execVmin k u w s
  | .vand k u w => Sys2Proof.Machine.execVand k u w s
  | .vor k u w => Sys2Proof.Machine.execVor k u w s
  | .vxor k u w => Sys2Proof.Machine.execVxor k u w s
  | .vshuf k u w => Sys2Proof.Machine.execVshuf k u w s
  | .vbcast k u w => Sys2Proof.Machine.execVbcast k u w s
  | .vcmplt k u w => Sys2Proof.Machine.execVcmplt k u w s
  | .vcmpeq k u w => Sys2Proof.Machine.execVcmpeq k u w s
  | .vsel k u w => Sys2Proof.Machine.execVsel k u w s
  | .vexp2 k u w => Sys2Proof.Machine.execVexp2 k u w s
  | .vlog2 k u w => Sys2Proof.Machine.execVlog2 k u w s
  | .vrsqrt k u w => Sys2Proof.Machine.execVrsqrt k u w s
  | .vrcp k u w => Sys2Proof.Machine.execVrcp k u w s
  | .vcvt k u w => Sys2Proof.Machine.execVcvt k u w s
  | .vrmax k u w => Sys2Proof.Machine.execVrmax k u w s
  | .vrsum k u w => Sys2Proof.Machine.execVrsum k u w s
  | .vtoex80 k u w => Sys2Proof.Machine.execVtoex80 k u w s
  | .vfromex80 k u w => Sys2Proof.Machine.execVfromex80 k u w s
  | .mfmt k w => Sys2Proof.Machine.execMfmt k w s
  | .mmul k w => Sys2Proof.Machine.execMmul k w s
  | .mswap k w => Sys2Proof.Machine.execMswap k w s
  | .mclr k w => Sys2Proof.Machine.execMclr k w s
  | .ldv k u w ecc => Sys2Proof.Machine.execLdv k u w ecc s
  | .stv k u w => Sys2Proof.Machine.execStv k u w s
  | .ldq k u w ecc => Sys2Proof.Machine.execLdq k u w ecc s
  | .stq k u w => Sys2Proof.Machine.execStq k u w s
  | .ldesc k u w ecc => Sys2Proof.Machine.execLdesc k u w ecc s
  | .srun k u w => Sys2Proof.Machine.execSrun k u w s
  | .sra k u w => Sys2Proof.Machine.execSra k u w s
  | .sdrop k u w => Sys2Proof.Machine.execSdrop k u w s
  | .lds k u w ecc => Sys2Proof.Machine.execLds k u w ecc s
  | .nsend k w => Sys2Proof.Machine.execNsend k w s
  | .nrecv k w => Sys2Proof.Machine.execNrecv k w s
  | .nrstc k w => Sys2Proof.Machine.execNrstc k w s
  | .nwopen k w => Sys2Proof.Machine.execNwopen k w s
  | .nwclose k w => Sys2Proof.Machine.execNwclose k w s
  | .br k w => Sys2Proof.Machine.execBr k w s
  | .brl k w => Sys2Proof.Machine.execBrl k w s
  | .brx k w => Sys2Proof.Machine.execBrx k w s
  | .loop k w => Sys2Proof.Machine.execLoop k w s
  | .waitc k w => Sys2Proof.Machine.execWaitc k w s
  | .waits k w => Sys2Proof.Machine.execWaits k w s
  | .bar k w => Sys2Proof.Machine.execBar k w s
  | .evt k w => Sys2Proof.Machine.execEvt k w s
  | .halt k w => Sys2Proof.Machine.execHalt k w s
  | .resultWriteback k => Sys2Proof.Machine.execResultWriteback k s
  | .streamUnitDelivery k sid ecc => Sys2Proof.Machine.execStreamUnitDelivery k sid ecc s
  | .waitEnd k => Sys2Proof.Machine.execWaitEnd k s
  | .haltComplete k => Sys2Proof.Machine.execHaltComplete k s
  | .scratchpadClearDone k => Sys2Proof.Machine.execScratchpadClearDone k s
  | .controlSpaceSpecialWrite k n x => Sys2Proof.Machine.execControlSpaceSpecialWrite k n x s
  | .programStoreWrite k off data => Sys2Proof.Machine.execProgramStoreWrite k off data s
  | .registerWrite t data => Sys2Proof.Machine.execRegisterWrite t data s
  | .unscheduledPartGrant k bank ecc => Sys2Proof.Machine.execUnscheduledPartGrant k bank ecc s
  | .unscheduledStarved k => Sys2Proof.Machine.execUnscheduledStarved k s
  | .openCycleMiss k => Sys2Proof.Machine.execOpenCycleMiss k s
  | .windowIngressCheck k => Sys2Proof.Machine.execWindowIngressCheck k s
  | .windowCloseComplete k w => Sys2Proof.Machine.execWindowCloseComplete k w s
  | .stackRequestGrant cs => Sys2Proof.Machine.execStackRequestGrant cs s
  | .stackReadCheck k sid unit idx err => Sys2Proof.Machine.execStackReadCheck k sid unit idx err s
  | .stackRowWordRelease k sid unit idx => Sys2Proof.Machine.execStackRowWordRelease k sid unit idx s
  | .correctionWriteback cs => Sys2Proof.Machine.execCorrectionWriteback cs s
  | .refresh cs => Sys2Proof.Machine.execRefresh cs s
  | .scrub cs err => Sys2Proof.Machine.execScrub cs err s
  | .rowRetired cs slot => Sys2Proof.Machine.execRowRetired cs slot s
  | .spareMapStoreRetry cs => Sys2Proof.Machine.execSpareMapStoreRetry cs s
  | .couplingSample cs t dram => Sys2Proof.Machine.execCouplingSample cs t dram s
  | .couplingLevelSet cs t dram => Sys2Proof.Machine.execCouplingLevelSet cs t dram s
  | .kvMapEntryWrite k page x => Sys2Proof.Machine.execKvMapEntryWrite k page x s
  | .hopEntryFire mesh e ecc => Sys2Proof.Machine.execHopEntryFire mesh e ecc s
  | .operatorResultReady cs u => Sys2Proof.Machine.execOperatorResultReady cs u s
  | .sendPayloadRead k track ecc => Sys2Proof.Machine.execSendPayloadRead k track ecc s
  | .cellArrival mesh code c => Sys2Proof.Machine.execCellArrival mesh code c s
  | .creditReturn mesh out vc n => Sys2Proof.Machine.execCreditReturn mesh out vc n s
  | .linkFlitReceive mesh edge seq ack ok ns => Sys2Proof.Machine.execLinkFlitReceive mesh edge seq ack ok ns s
  | .transitForward cs idx => Sys2Proof.Machine.execTransitForward cs idx s
  | .netStalled mesh e => Sys2Proof.Machine.execNetStalled mesh e s
  | .serviceCellQueue mesh code => Sys2Proof.Machine.execServiceCellQueue mesh code s
  | .serviceStarved mesh => Sys2Proof.Machine.execServiceStarved mesh s
  | .serviceRead mesh err => Sys2Proof.Machine.execServiceRead mesh err s
  | .serviceWrite mesh err => Sys2Proof.Machine.execServiceWrite mesh err s
  | .serviceResponse hub => Sys2Proof.Machine.execServiceResponse hub s
  | .segmentCommit mesh n => Sys2Proof.Machine.execSegmentCommit mesh n s
  | .hopTableWrite mesh e x => Sys2Proof.Machine.execHopTableWrite mesh e x s
  | .unitDescriptorWrite cs n u x => Sys2Proof.Machine.execUnitDescriptorWrite cs n u x s
  | .regionRecordCommit r part row0 col0 row1 col1 image restore => Sys2Proof.Machine.execRegionRecordCommit r part row0 col0 row1 col1 image restore s
  | .arm r => Sys2Proof.Machine.execArm r s
  | .start r => Sys2Proof.Machine.execStart r s
  | .freezeCommand r => Sys2Proof.Machine.execFreezeCommand r s
  | .restart r => Sys2Proof.Machine.execRestart r s
  | .regionDissolve r => Sys2Proof.Machine.execRegionDissolve r s
  | .dieBarrierArrival cs => Sys2Proof.Machine.execDieBarrierArrival cs s
  | .arrive node k => Sys2Proof.Machine.execArrive node k s
  | .barrierRelease r => Sys2Proof.Machine.execBarrierRelease r s
  | .release node k => Sys2Proof.Machine.execRelease node k s
  | .stepStart cs => Sys2Proof.Machine.execStepStart cs s
  | .barrierTimeout r => Sys2Proof.Machine.execBarrierTimeout r s
  | .stepWatchdog r => Sys2Proof.Machine.execStepWatchdog r s
  | .freeze node k => Sys2Proof.Machine.execFreeze node k s
  | .freezeComplete r => Sys2Proof.Machine.execFreezeComplete r s
  | .substitution r site listed => Sys2Proof.Machine.execSubstitution r site listed s
  | .variantInForceWrite r l => Sys2Proof.Machine.execVariantInForceWrite r l s
  | .variantStagingWrite r l => Sys2Proof.Machine.execVariantStagingWrite r l s
  | .sievePassGo cs x => Sys2Proof.Machine.execSievePassGo cs x s
  | .sievePassStart cs rows => Sys2Proof.Machine.execSievePassStart cs rows s
  | .sievePassDone cs => Sys2Proof.Machine.execSievePassDone cs s
  | .sieveDone node k => Sys2Proof.Machine.execSieveDone node k s
  | .query fn sq entry data => Sys2Proof.Machine.execQuery fn sq entry data s
  | .cancel fn sq entry => Sys2Proof.Machine.execCancel fn sq entry s
  | .earlyExit fn sq entry => Sys2Proof.Machine.execEarlyExit fn sq entry s
  | .deadlineCheck => Sys2Proof.Machine.execDeadlineCheck s
  | .queryCompletion r => Sys2Proof.Machine.execQueryCompletion r s
  | .directoryEntryWrite part idx x => Sys2Proof.Machine.execDirectoryEntryWrite part idx x s
  | .shardVerifyDone idx => Sys2Proof.Machine.execShardVerifyDone idx s
  | .sequenceRecordCommit r ring data => Sys2Proof.Machine.execSequenceRecordCommit r ring data s
  | .sequenceLengthWrite r x => Sys2Proof.Machine.execSequenceLengthWrite r x s
  | .ctlFlitReceive node port chk => Sys2Proof.Machine.execCtlFlitReceive node port chk s
  | .ctlLinkDown node port => Sys2Proof.Machine.execCtlLinkDown node port s
  | .ctlMessageForward node port => Sys2Proof.Machine.execCtlMessageForward node port s
  | .routeTableRewrite => Sys2Proof.Machine.execRouteTableRewrite s
  | .urgentQueuePace node => Sys2Proof.Machine.execUrgentQueuePace node s
  | .fence node k => Sys2Proof.Machine.execFence node k s
  | .faultReport node k => Sys2Proof.Machine.execFaultReport node k s
  | .epochSet node k => Sys2Proof.Machine.execEpochSet node k s
  | .ack node k => Sys2Proof.Machine.execAck node k s
  | .nack node k => Sys2Proof.Machine.execNack node k s
  | .liveWrite node k => Sys2Proof.Machine.execLiveWrite node k s
  | .liveCommit node k => Sys2Proof.Machine.execLiveCommit node k s
  | .event node k => Sys2Proof.Machine.execEvent node k s
  | .lateNotice node k => Sys2Proof.Machine.execLateNotice node k s
  | .undeliverable node k => Sys2Proof.Machine.execUndeliverable node k s
  | .cfgWrite node k => Sys2Proof.Machine.execCfgWrite node k s
  | .cfgRead node k => Sys2Proof.Machine.execCfgRead node k s
  | .cfgData node k => Sys2Proof.Machine.execCfgData node k s
  | .hubBeat node k => Sys2Proof.Machine.execHubBeat node k s
  | .hubBeatSend hub => Sys2Proof.Machine.execHubBeatSend hub s
  | .nodeBeat node k => Sys2Proof.Machine.execNodeBeat node k s
  | .nodeBeatSend node => Sys2Proof.Machine.execNodeBeatSend node s
  | .nodeBeatMissed node => Sys2Proof.Machine.execNodeBeatMissed node s
  | .hubLossTimeout => Sys2Proof.Machine.execHubLossTimeout s
  | .epochSetRetry seq => Sys2Proof.Machine.execEpochSetRetry seq s
  | .bulkOpen node k => Sys2Proof.Machine.execBulkOpen node k s
  | .bulkData node k => Sys2Proof.Machine.execBulkData node k s
  | .bulkClose node k => Sys2Proof.Machine.execBulkClose node k s
  | .bulkResult node k => Sys2Proof.Machine.execBulkResult node k s
  | .perstRelease hp rate width flit enumd vfs => Sys2Proof.Machine.execPerstRelease hp rate width flit enumd vfs s
  | .perstAssert hp => Sys2Proof.Machine.execPerstAssert hp s
  | .hostLinkDown hp => Sys2Proof.Machine.execHostLinkDown hp s
  | .sqTailDoorbell hp fn sq x => Sys2Proof.Machine.execSqTailDoorbell hp fn sq x s
  | .cqHeadDoorbell hp fn cq x => Sys2Proof.Machine.execCqHeadDoorbell hp fn cq x s
  | .eventRingDoorbell hp fn x => Sys2Proof.Machine.execEventRingDoorbell hp fn x s
  | .queueEnable hp fn q x => Sys2Proof.Machine.execQueueEnable hp fn q x s
  | .queueDisable hp fn q x => Sys2Proof.Machine.execQueueDisable hp fn q x s
  | .queueDrained fn q => Sys2Proof.Machine.execQueueDrained fn q s
  | .hostNop fn sq entry => Sys2Proof.Machine.execHostNop fn sq entry s
  | .copyIn fn sq entry host => Sys2Proof.Machine.execCopyIn fn sq entry host s
  | .copyOut fn sq entry => Sys2Proof.Machine.execCopyOut fn sq entry s
  | .cqCoalesceTimeout fn cq => Sys2Proof.Machine.execCqCoalesceTimeout fn cq s
  | .icauseClear hp fn x => Sys2Proof.Machine.execIcauseClear hp fn x s
  | .apertureSliceWrite hp fn idx x => Sys2Proof.Machine.execApertureSliceWrite hp fn idx x s
  | .apertureRead hp fn slice off n rows => Sys2Proof.Machine.execApertureRead hp fn slice off n rows s
  | .apertureWrite hp fn slice off data rows => Sys2Proof.Machine.execApertureWrite hp fn slice off data rows s
  | .mailboxGo hp fn len => Sys2Proof.Machine.execMailboxGo hp fn len s
  | .flr hp fn => Sys2Proof.Machine.execFlr hp fn s
  | .ingressReadbackDone fn sq => Sys2Proof.Machine.execIngressReadbackDone fn sq s
  | .egressBlockDone fn sq clean => Sys2Proof.Machine.execEgressBlockDone fn sq clean s
  | .checkDescriptorWrite cs part x => Sys2Proof.Machine.execCheckDescriptorWrite cs part x s
  | .checkScanDone cs chan rows => Sys2Proof.Machine.execCheckScanDone cs chan rows s
  | .read g h tag sess seq index sub field pending => Sys2Proof.Machine.execRead g h tag sess seq index sub field pending s
  | .write g h tag sess seq index sub field stage total data => Sys2Proof.Machine.execWrite g h tag sess seq index sub field stage total data s
  | .segRead g h tag sess seq offset => Sys2Proof.Machine.execSegRead g h tag sess seq offset s
  | .segWrite g h tag sess seq offset data => Sys2Proof.Machine.execSegWrite g h tag sess seq offset data s
  | .endTransfer g h tag sess seq => Sys2Proof.Machine.execEndTransfer g h tag sess seq s
  | .describe g h tag sess seq index sub => Sys2Proof.Machine.execDescribe g h tag sess seq index sub s
  | .readStaged g h tag sess seq index sub field => Sys2Proof.Machine.execReadStaged g h tag sess seq index sub field s
  | .discard g h tag sess seq => Sys2Proof.Machine.execDiscard g h tag sess seq s
  | .commit g h tag sess seq index which => Sys2Proof.Machine.execCommit g h tag sess seq index which s
  | .hello g h seq => Sys2Proof.Machine.execHello g h seq s
  | .sessionOpen g h tag sess seq level scope step exchange => Sys2Proof.Machine.execSessionOpen g h tag sess seq level scope step exchange s
  | .sessionClose g h tag sess seq => Sys2Proof.Machine.execSessionClose g h tag sess seq s
  | .keepalive g h tag sess seq => Sys2Proof.Machine.execKeepalive g h tag sess seq s
  | .reportAck g h tag sess eseq => Sys2Proof.Machine.execReportAck g h tag sess eseq s
  | .reportSend slot => Sys2Proof.Machine.execReportSend slot s
  | .reportResend slot => Sys2Proof.Machine.execReportResend slot s
  | .sessionIdleTimeout slot => Sys2Proof.Machine.execSessionIdleTimeout slot s
  | .transferGapTimeout slot => Sys2Proof.Machine.execTransferGapTimeout slot s
  | .authPendingTimeout id => Sys2Proof.Machine.execAuthPendingTimeout id s
  | .credentialLockoutEnd n => Sys2Proof.Machine.execCredentialLockoutEnd n s
  | .mgmtSegmentDown g => Sys2Proof.Machine.execMgmtSegmentDown g s
  | .managerFence kind unit epoch reason manager => Sys2Proof.Machine.execManagerFence kind unit epoch reason manager s
  | .expel epoch reason manager => Sys2Proof.Machine.execExpel epoch reason manager s
  | .reinstate kind unit epoch reason manager => Sys2Proof.Machine.execReinstate kind unit epoch reason manager s
  | .oscSettleExpiry a b => Sys2Proof.Machine.execOscSettleExpiry a b s
  | .refRecheck a b => Sys2Proof.Machine.execRefRecheck a b s
  | .refEdgeLoss idx => Sys2Proof.Machine.execRefEdgeLoss idx s
  | .refMeasurement idx hz => Sys2Proof.Machine.execRefMeasurement idx hz s
  | .tbAlignmentMarker node drift => Sys2Proof.Machine.execTbAlignmentMarker node drift s
  | .pllUnlock node => Sys2Proof.Machine.execPllUnlock node s
  | .stepPlanDeadline num => Sys2Proof.Machine.execStepPlanDeadline num s
  | .stepPlanReadback num => Sys2Proof.Machine.execStepPlanReadback num s
  | .regulatorRaise node => Sys2Proof.Machine.execRegulatorRaise node s
  | .stepPlanApply node => Sys2Proof.Machine.execStepPlanApply node s
  | .droopStretch cs => Sys2Proof.Machine.execDroopStretch cs s
  | .stepRequest die => Sys2Proof.Machine.execStepRequest die s
  | .dieClockModeWrite node x => Sys2Proof.Machine.execDieClockModeWrite node x s
  | .peripheralEnableWrite hub x => Sys2Proof.Machine.execPeripheralEnableWrite hub x s
  | .vminFrame blk vcode => Sys2Proof.Machine.execVminFrame blk vcode s
  | .blockCollapse blk => Sys2Proof.Machine.execBlockCollapse blk s
  | .fuseNotTripped blk iout => Sys2Proof.Machine.execFuseNotTripped blk iout s
  | .pmbusPoll l => Sys2Proof.Machine.execPmbusPoll l s
  | .pmbAlert bad => Sys2Proof.Machine.execPmbAlert bad s
  | .blockPowerGood blk => Sys2Proof.Machine.execBlockPowerGood blk s
  | .blockEnableTimeout blk => Sys2Proof.Machine.execBlockEnableTimeout blk s
  | .ledgerWindowStart acts => Sys2Proof.Machine.execLedgerWindowStart acts s
  | .stepAdmission r => Sys2Proof.Machine.execStepAdmission r s
  | .calibrationFactorUpdate blk => Sys2Proof.Machine.execCalibrationFactorUpdate blk s
  | .vsb12Low x => Sys2Proof.Machine.execVsb12Low x s
  | .vsb12Loss x => Sys2Proof.Machine.execVsb12Loss x s
  | .nvRecordWrite e => Sys2Proof.Machine.execNvRecordWrite e s
  | .tjLimit die => Sys2Proof.Machine.execTjLimit die s
  | .thermalTrip die => Sys2Proof.Machine.execThermalTrip die s
  | .thermalReport die junction dram => Sys2Proof.Machine.execThermalReport die junction dram s
  | .rthEstimate => Sys2Proof.Machine.execRthEstimate s
  | .thermalForecast => Sys2Proof.Machine.execThermalForecast s
  | .holdLimitExpiry blk => Sys2Proof.Machine.execHoldLimitExpiry blk s
  | .coolantPoll inlet outlet => Sys2Proof.Machine.execCoolantPoll inlet outlet s
  | .vsb12PorRelease settle => Sys2Proof.Machine.execVsb12PorRelease settle s
  | .panelReset bankC => Sys2Proof.Machine.execPanelReset bankC s
  | .panelResetRelease => Sys2Proof.Machine.execPanelResetRelease s
  | .bringupPhaseAdvance o => Sys2Proof.Machine.execBringupPhaseAdvance o s
  | .bringupLate => Sys2Proof.Machine.execBringupLate s
  | .hubBBootTimeout readA readB ms => Sys2Proof.Machine.execHubBBootTimeout readA readB ms s
  | .coolantWaitRetry => Sys2Proof.Machine.execCoolantWaitRetry s
  | .strapCheck die w => Sys2Proof.Machine.execStrapCheck die w s
  | .trainingStoreRetry => Sys2Proof.Machine.execTrainingStoreRetry s
  | .mapWriteRetry => Sys2Proof.Machine.execMapWriteRetry s
  | .floorplanClearance site x => Sys2Proof.Machine.execFloorplanClearance site x s
  | .partitionRecordCommit part sealed members => Sys2Proof.Machine.execPartitionRecordCommit part sealed members s
  | .memberEraseDone cs => Sys2Proof.Machine.execMemberEraseDone cs s
  | .partitionReset part => Sys2Proof.Machine.execPartitionReset part s
  | .partitionDissolve part => Sys2Proof.Machine.execPartitionDissolve part s
  | .packupStepDone part => Sys2Proof.Machine.execPackupStepDone part s
  | .packupDrainLimit part => Sys2Proof.Machine.execPackupDrainLimit part s
  | .keyZeroiseTimeout part cs => Sys2Proof.Machine.execKeyZeroiseTimeout part cs s
  | .coreResetCommand cs mask => Sys2Proof.Machine.execCoreResetCommand cs mask s
  | .dieResetCommand cs => Sys2Proof.Machine.execDieResetCommand cs s
  | .dieResetDone die fell => Sys2Proof.Machine.execDieResetDone die fell s
  | .reportNonceWrite slot nonce => Sys2Proof.Machine.execReportNonceWrite slot nonce s
  | .entropyFailed hub => Sys2Proof.Machine.execEntropyFailed hub s
  | .entropyRetest hub ok => Sys2Proof.Machine.execEntropyRetest hub ok s
  | .keyLoadTimeout part cs => Sys2Proof.Machine.execKeyLoadTimeout part cs s
  | .credentialWrite slot n data => Sys2Proof.Machine.execCredentialWrite slot n data s
  | .bootImageWrite idx slot data => Sys2Proof.Machine.execBootImageWrite idx slot data s
  | .raiseMinSvn => Sys2Proof.Machine.execRaiseMinSvn s
  | .revokeSigningSlot slot => Sys2Proof.Machine.execRevokeSigningSlot slot s
  | .measurementExtend idx digest => Sys2Proof.Machine.execMeasurementExtend idx digest s
  | .guestRequest g c => Sys2Proof.Machine.execGuestRequest g c s
  | .guestRequestRelease g => Sys2Proof.Machine.execGuestRequestRelease g s
  | .fabricLinkSession port ok => Sys2Proof.Machine.execFabricLinkSession port ok s
  | .fabricAuthRetry port ok => Sys2Proof.Machine.execFabricAuthRetry port ok s
  | .stateEvidence => Sys2Proof.Machine.execStateEvidence s
  | .probeStart unit => Sys2Proof.Machine.execProbeStart unit s
  | .probeComplete unit fail => Sys2Proof.Machine.execProbeComplete unit fail s
  | .takeover stored => Sys2Proof.Machine.execTakeover stored s
  | .rateSpanEnd => Sys2Proof.Machine.execRateSpanEnd s
  | .portTrainingPhase port groups => Sys2Proof.Machine.execPortTrainingPhase port groups s
  | .portTrainingTimeout port signal => Sys2Proof.Machine.execPortTrainingTimeout port signal s
  | .fabricFrameReceive port pair f second => Sys2Proof.Machine.execFabricFrameReceive port pair f second s
  | .fabricFrameSend port => Sys2Proof.Machine.execFabricFrameSend port s
  | .fabricHello port payload => Sys2Proof.Machine.execFabricHello port payload s
  | .ringTransit site => Sys2Proof.Machine.execRingTransit site s
  | .meridianFrameReceive frame => Sys2Proof.Machine.execMeridianFrameReceive frame s
  | .meridianFrameEmit => Sys2Proof.Machine.execMeridianFrameEmit s
  | .meridianRecheck => Sys2Proof.Machine.execMeridianRecheck s
  | .scheduleSwitch => Sys2Proof.Machine.execScheduleSwitch s
  | .fabricScheduleCommit per bank tick => Sys2Proof.Machine.execFabricScheduleCommit per bank tick s
  | .panelIdWrite slot id => Sys2Proof.Machine.execPanelIdWrite slot id s
  | .cableRemoval port => Sys2Proof.Machine.execCableRemoval port s
  | .cableHoldExpiry port => Sys2Proof.Machine.execCableHoldExpiry port s
  | .hubBBeatsMissed => Sys2Proof.Machine.execHubBBeatsMissed s
  | .guestLinkUp g rate advanced ident => Sys2Proof.Machine.execGuestLinkUp g rate advanced ident s
  | .mgmtSegmentReturn g => Sys2Proof.Machine.execMgmtSegmentReturn g s
  | .neighborDiscovery h g target => Sys2Proof.Machine.execNeighborDiscovery h g target s
  | .icmpv6Echo h g target data => Sys2Proof.Machine.execIcmpv6Echo h g target data s

end Sys2Proof.Machine
end

