-- ==== Sys2Proof/Machine/Tick.lean ====
section
/-! DEFINITION. The clock edge, which is what the panel does while no command waits (log 5): one VCO period passes, the
timebase counts every hundredth, and each die whose CK_CORE cycle ends leaves it (R36, R65-R67, R108, R110, R155, R158,
R175, R367-R370, R445). -/

namespace Sys2Proof.Machine

/-- A receive write of the run cycle that a core leaves: memory at its rank, then its post; its banks were named as the cycle
began (R61, R105, R158). -/
def landOneRecv (k : Nat) (x : RecvDue) (s : State) : State :=
  let w := recvW k s.mem x
  let r := schedWrite w.rk w.ga w.n w.v (s.p.getCore k) s.mem
  { s with mem := r.2, p := recvDone k x.ord0 x.track x.range (s.p.setCore k r.1) }

/-- All of them: each at its track's rank (R105). -/
def landCore (k : Nat) (s : State) : State :=
  let due := dueRecvs (s.p.getCore k)
  each due (landOneRecv k) (s.onP fun p => p.modCore k fun c => { c with recvs := c.recvs.filter fun x => !due.contains x })

/-- What a core does at the end of a run cycle: its bundle closes, its feed queue drops what it has no room for, its streams
take and write their units, its receives land. -/
def endCycle (k : Nat) (s : State) : State :=
  landCore k (captureAll k (s.onP fun p => trimFeed k (closeBundle k p)))

/-- The open-cycle monitor at the end of run cycle `rc`, spans of `n` cycles (R108). -/
def openMonitor (n : Nat) (c : Core) : Core :=
  let seen := c.openSeen || c.a.banks.isEmpty
  if n = 0 ∨ (c.a.rc + 1) % n ≠ 0 then { c with openSeen := seen }
  else { c with openSeen := false, missDue := c.missDue + if seen then 0 else 1 }

/-- The banks in conflict in a run cycle, with the stall cycles for which each still serves an access (R65, R66). -/
def conflictBanks (a : CoreA) : List (Nat × Nat) :=
  (a.banks.flatten.eraseDups.map fun b => (b, (a.banks.filter fun e => e.contains b).length - 1)).filter fun e => decide (0 < e.2)

/-- A core enters its next run cycle: what belonged to the last one is cleared, and RC counts, but on a die whose cores are
clock-gated (R15, R36, R66, R105, R106, R110). -/
def nextCycle (gated : Bool) (n : Nat) (c : Core) : Core :=
  let c := openMonitor (if gated then 0 else n) { c with clearing := c.clearing - 1 }
  { c with
    stores := [], granted := [], stallLeft := c.a.stallReq, stallBanks := conflictBanks c.a,
    a := { c.a with rc := c.a.rc + (if gated then 0 else 1), banks := [], stallReq := 0 } }

/-- A stall cycle of a core ends: each bank in conflict has served one more access, and unscheduled agents ask anew (R65,
R106). -/
def nextStall (c : Core) : Core :=
  { c with granted := [], stallBanks := (c.stallBanks.map fun b => (b.1, b.2 - 1)).filter fun b => decide (0 < b.2) }

/-- The banks of the receive writes of the cycle just entered (R66, R158). -/
def recvBanks (k : Nat) (p : Panel) : Panel :=
  let c := p.getCore k
  each (dueRecvs c) (fun x p => schedBanks k (banksOf x.addr 40) p) p

/-- Does a core stall its die in fast mode: it would issue, a corrected or uncorrectable row word of its has passed its
delivery cycle, and its release point has not come (R67)? -/
def waitsRow (p : Panel) (k : Nat) : Bool :=
  let a := (p.getCore k).a
  let clk := (p.getClk (siteOf k)).clk
  decide (a.run = .running) && decide (a.issued ≤ a.rc) && !coreIdle p k
    && (p.getStk (siteOf k)).reqs.any fun r =>
      decide (r.core = coreOf k) && (decide (r.out = .rebuilt) || decide (r.out = .uncorr)) && !isDropped a r
        && decide (r.rc + 88 ≤ a.rc) && decide (clk < r.clk + 96)

/-- A stall cycle at a core: counted for what it asks itself, a delayed row word or banks, else as its die's (R66-R68, R75).
Bank cycles are counted where they are asked; `stallLeft` is what is left of them. -/
def stallCycle (row : Bool) (c : Core) : Core :=
  let w := c.a.wctr
  { c with
    stallLeft := c.stallLeft - 1,
    a := { c.a with wctr := { w with
      corr := w.corr + (if row then 1 else 0), die := w.die + (if c.stallLeft = 0 ∧ ¬ row then 1 else 0) } } }

/-- The CK_CORE cycle just entered: in fast mode a delayed row word stalls the die, and a stall cycle is counted at every
core (R65, R67, R68). -/
def enterCycle (s : Nat) (p : Panel) : Panel :=
  let rows := if (p.getStk s).fast then (coresOf s).filter (waitsRow p) else []
  let n := (p.getClk s).stall
  if n = 0 ∧ rows.isEmpty then p
  else
    each (coresOf s) (fun k p => p.modCore k (stallCycle (rows.contains k))) (p.modClk s fun c => { c with stall := max n 1 })

/-- The lowest track of an edge that no transit entry names (R175). -/
def freeTrack (r : Router) (e : Nat) : Option Nat :=
  (List.range 32).find? fun t => !transitNames r (32 * e + t)

/-- Outside a segment each edge output sends one service cell in a cycle, where it has credit (R168, R175). -/
def idleService (s e : Nat) (p : Panel) : Panel :=
  let r := p.getRtr s
  match Tab.get [] r.svcq e, freeTrack r e with
  | c :: t, some n =>
    let out := 32 * e + n
    if canSend p s out 7 then
      sendCell s out c (p.modRtr s fun r => { r with
        svcq := Tab.set e t r.svcq, ctr := { r.ctr with service := r.ctr.service + 1 } })
    else p
  | _, _ => p

/-- Is an entry held for want of room at its output, in the cycle that ends (R156, R171)? -/
def heldEntry (p : Panel) (s e : Nat) : Bool :=
  entryDue p s e && match cellAt p s e with | some c => !outputReady p s e c | none => false

/-- Does an entry lack nothing but a cell (R156, R171)? -/
def absentEntry (p : Panel) (s e : Nat) : Bool :=
  entryDue p s e && (cellAt p s e).isNone && !emptyService p s e && outputReady p s e ⟨0, 0⟩

/-- The waits of a run cycle that ends (R171). -/
def countHolds (s : Nat) (p : Panel) : Panel :=
  let es := (p.getRtr s).entries
  let one (f : Panel → Nat → Nat → Bool) : Nat := if es.any (f p s) then 1 else 0
  p.modRtr s fun r => { r with
    ctr := { r.ctr with creditHold := r.ctr.creditHold + one heldEntry, absentCell := r.ctr.absentCell + one absentEntry } }

/-- The router in a new CK_CORE cycle; its counter waits while the die stalls (R65, R155, R156, R175). -/
def routerCycle (s : Nat) (stalled : Bool) (p : Panel) : Panel :=
  let run := (p.getRtr s).exec.isSome && !stalled
  let p := if run then countHolds s p else p
  let p := p.modRtr s fun r => { r with busyOut := [], busyIn := [], cyc := r.cyc + (if run then 1 else 0) }
  if (p.getRtr s).running then p else each (dataEdges s) (idleService s) p

/-- The stall that the bundles of a die's cores ask of it (R66): the longest. -/
def stallAsked (s : Nat) (p : Panel) : Nat := (coresOf s).foldl (fun n k => max n (p.getCore k).a.stallReq) 0

/-- A CK_CORE cycle of a compute die ends and the next begins. -/
def dieEdge (site : Nat) (s : State) : State :=
  if (s.p.getClk site).stall ≠ 0 then
    s.onP fun p =>
      let p := each (coresOf site) (fun k p => p.modCore k nextStall) p
      enterCycle site <| routerCycle site true <| p.modClk site fun c => { c with stall := c.stall - 1, clk := c.clk + 1 }
  else
    let s := each (coresOf site) endCycle s
    s.onP fun p =>
      let n := stallAsked site p
      let p := routerCycle site false p
      let p := each (coresOf site) (fun k p => p.modCore k (nextCycle (decide (p.ust site = .hamper)) (dieCfg p site 0x600C 0))) p
      let p := p.modClk site fun c => { c with stall := n, clk := c.clk + 1 }
      enterCycle site (each (coresOf site) recvBanks p)

/-- A CK_CORE cycle of an edge die or a hub ends. -/
def edgeEdge (site : Nat) (p : Panel) : Panel :=
  routerCycle site false (p.modClk site fun c => { c with clk := c.clk + 1 })

/-- One VCO period of a die: its CK_CORE cycle ends with its last. A die whose PLL has lost lock or that has tripped ends the cycle in
progress and stops; `left` is then 0 (R368-R370, R405). -/
def dieTick (site : Nat) (s : State) : State :=
  let c := s.p.getClk site
  let runs := c.locked && !c.tripped
  if ¬ runs ∧ c.left = 0 then s
  else if 1 < c.left then s.onP fun p => p.modClk site fun c => { c with left := c.left - 1 }
  else
    let s := s.onP fun p => p.modClk site fun c => { c with left := if runs then stepN c.step else 0, stretch := false }
    if isCompute site then dieEdge site s else if isRouter site then s.onP (edgeEdge site) else s

/-- The links of a die that retrains after a full die reset come back after 2 ms (R445), and its transport keys are made again
(R466). -/
def endRetraining (p : Panel) : Panel :=
  let due := p.boot.retraining.filter fun e => decide (e.2 + 200000 ≤ p.now)
  each due (fun e p => makeTransport ([0, 1].filter fun h => imageRuns p h) [e.1] (joinLinks e.1 p))
    (p.modBoot fun b => { b with retraining := b.retraining.filter fun e => !decide (e.2 + 200000 ≤ p.now) })

/-- At a release's start tick each member's first CK_CORE edge at or after the CK_TB edge is its next (R215, R218). -/
def markStarts (p : Panel) : Panel :=
  each (p.reg.filter fun e => decide (e.2.phase = .active) && decide (e.2.relTick = p.now)) (fun e p =>
    each e.2.members (fun s p => p.modDie s fun x => { x with clkT := (p.getClk s).clk + 1 }) p) p

/-- A tick of the timebase with every hundredth VCO period (R367, R368). -/
def timebase (p : Panel) : Panel :=
  let p := p.modClocks fun c => { c with vco := c.vco + 1 }
  if p.clk.vco % 100 = 0 ∧ p.clk.tbRun then markStarts (endRetraining (p.modClocks fun c => { c with tb := c.tb + 1 })) else p

/-- The clock edge of an idle step. -/
def clockEdge (s : State) : State :=
  finishGens (each (s.p.clk.die.map (·.1)) dieTick (s.onP timebase))

end Sys2Proof.Machine
end

