-- ==== Sys2Proof/Machine/Step.lean ====
section
/-! DEFINITION. One step of the block: the command at the front of the queue, or, where none waits, a clock edge. -/

namespace Sys2Proof.Machine

/-- Take the command at the front of the queue and run it on the panel with the rest of the queue; with no command
waiting, one VCO period passes (log 5). -/
def step (s : State) : Host.Outcome State Fault Refusal :=
  match s.pending with
  | i :: rest => exec i { s with pending := rest }
  | [] => .next (clockEdge s)

/-- The command that a word spells, put at the front of the queue. The opcode table gives no row any bits, so no word
spells one (log 1). -/
def State.withFetchWord (s : State) (_nbits _w : Nat) : State := s

end Sys2Proof.Machine
end

