-- ==== Sys2Proof/Decode.lean ====
section
/-! DEFINITION. The table gives no command bits, so no word spells one (log 1). What has bits is a program: a bundle of 512 bits
holds eight slot words (R40, R41), and each spells a slot command (R44-R50). Here a bundle is taken apart, and a slot command
is written back as its word. -/

namespace Sys2Proof

/-- The command that a word spells by the table's bits: the table gives no row any. -/
def decodeTableWord (_nbits _w : Nat) : Option Instr := none

/-- Where a slot's 64 bits begin in a bundle (R40). -/
def slotShift : Slot → Nat
  | .s => 0 | .v0 => 64 | .v1 => 128 | .m => 192 | .l0 => 256 | .l1 => 320 | .n => 384 | .c => 448

/-- A slot's word of a bundle. -/
def slotBits (b : BitVec 512) (sl : Slot) : Word := b.extractLsb' (slotShift sl) 64

/-- The opcode and the other fields of a slot word (R41). -/
def opcOf (x : Word) : BitVec 8 := x.extractLsb' 56 8
def fieldsOf (x : Word) : SlotWord :=
  ⟨x.extractLsb' 52 4, x.getLsbD 51, x.extractLsb' 45 6, x.extractLsb' 39 6, x.extractLsb' 33 6, x.extractLsb' 27 6, x.extractLsb' 0 27⟩

/-- The slot word of an opcode and fields (R41). -/
def packSlot (opc : BitVec 8) (w : SlotWord) : Word :=
  opc ++ w.prd ++ BitVec.ofBool w.pneg ++ w.dst ++ w.sa ++ w.sb ++ w.sc ++ w.imm

/-- The command of a word in slot S (R44). -/
def commandS (k : Nat) (opc : BitVec 8) (w : SlotWord) : Instr :=
  match opc.toNat with
  | 0x01 => .add k w
  | 0x02 => .sub k w
  | 0x03 => .addi k w
  | 0x04 => .and k w
  | 0x05 => .or k w
  | 0x06 => .xor k w
  | 0x07 => .shl k w
  | 0x08 => .shr k w
  | 0x09 => .sar k w
  | 0x0A => .shli k w
  | 0x0B => .mul k w
  | 0x0C => .mulhu k w
  | 0x0D => .min k w
  | 0x0E => .max k w
  | 0x10 => .cmpeq k w
  | 0x11 => .cmplt k w
  | 0x12 => .cmpltu k w
  | 0x13 => .cmplti k w
  | 0x18 => .li k w
  | 0x19 => .lih k w
  | 0x1C => .mfs k w
  | 0x1D => .mts k w
  | _ => .nop k .s opc
/-- In a vector slot (R45). -/
def commandV (k : Nat) (u : VUnit) (opc : BitVec 8) (w : SlotWord) : Instr :=
  match opc.toNat with
  | 0x01 => .vadd k u w
  | 0x02 => .vsub k u w
  | 0x03 => .vmul k u w
  | 0x04 => .vfma k u w
  | 0x05 => .vmax k u w
  | 0x06 => .vmin k u w
  | 0x07 => .vand k u w
  | 0x08 => .vor k u w
  | 0x09 => .vxor k u w
  | 0x0A => .vshuf k u w
  | 0x0B => .vbcast k u w
  | 0x0C => .vcmplt k u w
  | 0x0D => .vcmpeq k u w
  | 0x0E => .vsel k u w
  | 0x10 => .vexp2 k u w
  | 0x11 => .vlog2 k u w
  | 0x12 => .vrsqrt k u w
  | 0x13 => .vrcp k u w
  | 0x14 => .vcvt k u w
  | 0x15 => .vrmax k u w
  | 0x16 => .vrsum k u w
  | 0x17 => .vtoex80 k u w
  | 0x18 => .vfromex80 k u w
  | _ => .nop k (match u with | .v0 => .v0 | .v1 => .v1) opc
/-- In slot M (R46). -/
def commandM (k : Nat) (opc : BitVec 8) (w : SlotWord) : Instr :=
  match opc.toNat with
  | 0x01 => .mfmt k w
  | 0x02 => .mmul k w
  | 0x03 => .mswap k w
  | 0x04 => .mclr k w
  | _ => .nop k .m opc
/-- In a stream slot (R48); no word that it reads has failed its check. -/
def commandL (k : Nat) (u : LUnit) (opc : BitVec 8) (w : SlotWord) : Instr :=
  match opc.toNat with
  | 0x01 => .ldv k u w default
  | 0x02 => .stv k u w
  | 0x03 => .ldq k u w default
  | 0x04 => .stq k u w
  | 0x05 => .ldesc k u w default
  | 0x06 => .srun k u w
  | 0x07 => .sra k u w
  | 0x08 => .sdrop k u w
  | 0x09 => .lds k u w default
  | _ => .nop k (match u with | .l0 => .l0 | .l1 => .l1) opc
/-- In slot N (R49). -/
def commandN (k : Nat) (opc : BitVec 8) (w : SlotWord) : Instr :=
  match opc.toNat with
  | 0x01 => .nsend k w
  | 0x02 => .nrecv k w
  | 0x03 => .nrstc k w
  | 0x04 => .nwopen k w
  | 0x05 => .nwclose k w
  | _ => .nop k .n opc
/-- In slot C (R50). -/
def commandC (k : Nat) (opc : BitVec 8) (w : SlotWord) : Instr :=
  match opc.toNat with
  | 0x01 => .br k w
  | 0x02 => .brl k w
  | 0x03 => .brx k w
  | 0x04 => .loop k w
  | 0x05 => .waitc k w
  | 0x06 => .waits k w
  | 0x07 => .bar k w
  | 0x08 => .evt k w
  | 0x09 => .halt k w
  | _ => .nop k .c opc

/-- The command that a slot's word spells at a core; an opcode that the slot does not list is NOP's to judge (R43; log 42). -/
def slotCommand (k : Nat) (sl : Slot) (x : Word) : Instr :=
  match sl with
  | .s => commandS k (opcOf x) (fieldsOf x)
  | .v0 => commandV k .v0 (opcOf x) (fieldsOf x)
  | .v1 => commandV k .v1 (opcOf x) (fieldsOf x)
  | .m => commandM k (opcOf x) (fieldsOf x)
  | .l0 => commandL k .l0 (opcOf x) (fieldsOf x)
  | .l1 => commandL k .l1 (opcOf x) (fieldsOf x)
  | .n => commandN k (opcOf x) (fieldsOf x)
  | .c => commandC k (opcOf x) (fieldsOf x)

/-- The eight slot commands of a bundle, in the order of R75. -/
def bundleCommands (k : Nat) (b : BitVec 512) : List Instr :=
  [Slot.s, .v0, .v1, .m, .l0, .l1, .n, .c].map fun sl => slotCommand k sl (slotBits b sl)

/-- The slot of a unit. -/
def VUnit.slot : VUnit → Slot
  | .v0 => .v0 | .v1 => .v1
def LUnit.slot : LUnit → Slot
  | .l0 => .l0 | .l1 => .l1

/-- The core, slot and word of a slot command: none of any other. -/
def encodeSlot : Instr → Option (Nat × Slot × Word)
  | .add k w => some (k, .s, packSlot 0x01 w)
  | .sub k w => some (k, .s, packSlot 0x02 w)
  | .addi k w => some (k, .s, packSlot 0x03 w)
  | .and k w => some (k, .s, packSlot 0x04 w)
  | .or k w => some (k, .s, packSlot 0x05 w)
  | .xor k w => some (k, .s, packSlot 0x06 w)
  | .shl k w => some (k, .s, packSlot 0x07 w)
  | .shr k w => some (k, .s, packSlot 0x08 w)
  | .sar k w => some (k, .s, packSlot 0x09 w)
  | .shli k w => some (k, .s, packSlot 0x0A w)
  | .mul k w => some (k, .s, packSlot 0x0B w)
  | .mulhu k w => some (k, .s, packSlot 0x0C w)
  | .min k w => some (k, .s, packSlot 0x0D w)
  | .max k w => some (k, .s, packSlot 0x0E w)
  | .cmpeq k w => some (k, .s, packSlot 0x10 w)
  | .cmplt k w => some (k, .s, packSlot 0x11 w)
  | .cmpltu k w => some (k, .s, packSlot 0x12 w)
  | .cmplti k w => some (k, .s, packSlot 0x13 w)
  | .li k w => some (k, .s, packSlot 0x18 w)
  | .lih k w => some (k, .s, packSlot 0x19 w)
  | .mfs k w => some (k, .s, packSlot 0x1C w)
  | .mts k w => some (k, .s, packSlot 0x1D w)
  | .vadd k u w => some (k, u.slot, packSlot 0x01 w)
  | .vsub k u w => some (k, u.slot, packSlot 0x02 w)
  | .vmul k u w => some (k, u.slot, packSlot 0x03 w)
  | .vfma k u w => some (k, u.slot, packSlot 0x04 w)
  | .vmax k u w => some (k, u.slot, packSlot 0x05 w)
  | .vmin k u w => some (k, u.slot, packSlot 0x06 w)
  | .vand k u w => some (k, u.slot, packSlot 0x07 w)
  | .vor k u w => some (k, u.slot, packSlot 0x08 w)
  | .vxor k u w => some (k, u.slot, packSlot 0x09 w)
  | .vshuf k u w => some (k, u.slot, packSlot 0x0A w)
  | .vbcast k u w => some (k, u.slot, packSlot 0x0B w)
  | .vcmplt k u w => some (k, u.slot, packSlot 0x0C w)
  | .vcmpeq k u w => some (k, u.slot, packSlot 0x0D w)
  | .vsel k u w => some (k, u.slot, packSlot 0x0E w)
  | .vexp2 k u w => some (k, u.slot, packSlot 0x10 w)
  | .vlog2 k u w => some (k, u.slot, packSlot 0x11 w)
  | .vrsqrt k u w => some (k, u.slot, packSlot 0x12 w)
  | .vrcp k u w => some (k, u.slot, packSlot 0x13 w)
  | .vcvt k u w => some (k, u.slot, packSlot 0x14 w)
  | .vrmax k u w => some (k, u.slot, packSlot 0x15 w)
  | .vrsum k u w => some (k, u.slot, packSlot 0x16 w)
  | .vtoex80 k u w => some (k, u.slot, packSlot 0x17 w)
  | .vfromex80 k u w => some (k, u.slot, packSlot 0x18 w)
  | .mfmt k w => some (k, .m, packSlot 0x01 w)
  | .mmul k w => some (k, .m, packSlot 0x02 w)
  | .mswap k w => some (k, .m, packSlot 0x03 w)
  | .mclr k w => some (k, .m, packSlot 0x04 w)
  | .ldv k u w _ => some (k, u.slot, packSlot 0x01 w)
  | .stv k u w => some (k, u.slot, packSlot 0x02 w)
  | .ldq k u w _ => some (k, u.slot, packSlot 0x03 w)
  | .stq k u w => some (k, u.slot, packSlot 0x04 w)
  | .ldesc k u w _ => some (k, u.slot, packSlot 0x05 w)
  | .srun k u w => some (k, u.slot, packSlot 0x06 w)
  | .sra k u w => some (k, u.slot, packSlot 0x07 w)
  | .sdrop k u w => some (k, u.slot, packSlot 0x08 w)
  | .lds k u w _ => some (k, u.slot, packSlot 0x09 w)
  | .nsend k w => some (k, .n, packSlot 0x01 w)
  | .nrecv k w => some (k, .n, packSlot 0x02 w)
  | .nrstc k w => some (k, .n, packSlot 0x03 w)
  | .nwopen k w => some (k, .n, packSlot 0x04 w)
  | .nwclose k w => some (k, .n, packSlot 0x05 w)
  | .br k w => some (k, .c, packSlot 0x01 w)
  | .brl k w => some (k, .c, packSlot 0x02 w)
  | .brx k w => some (k, .c, packSlot 0x03 w)
  | .loop k w => some (k, .c, packSlot 0x04 w)
  | .waitc k w => some (k, .c, packSlot 0x05 w)
  | .waits k w => some (k, .c, packSlot 0x06 w)
  | .bar k w => some (k, .c, packSlot 0x07 w)
  | .evt k w => some (k, .c, packSlot 0x08 w)
  | .halt k w => some (k, .c, packSlot 0x09 w)
  | _ => none

end Sys2Proof
end

