-- ==== Sys2Proof/WellFormed.lean ====
section
/-! DEFINITION. Well-formedness of a command: the units it names are units that a panel of the series has (R10, R11,
R25, R35), and its operands are no wider than the fields that carry them. -/

namespace Sys2Proof

open Sys2Proof.Machine in
/-- Are the segment and hub of a management frame ones that there are, its fields of their widths (R355)? -/
def mgmtOk (g h sess seq index sub field offset total : Nat) : Bool :=
  decide (g < 2) && decide (h < 2) && decide (sess < 65536) && decide (seq < 2 ^ 32) && decide (index < 65536) && decide (sub < 256)
    && decide (field < 256) && decide (offset < 2 ^ 32) && decide (total < 2 ^ 32)

open Sys2Proof.Machine in
/-- Does the target of a register write exist: any address of the GA map, which R30 checks, or BAR 0 of a function? -/
def targetOk : RegTarget → Bool
  | .ga _ _ _ => true
  | .bar0 hp fn _ => isHPort hp && isFn fn

open Sys2Proof.Machine in
/-- Do the units that the command names exist? -/
def wellFormed : Instr → Bool
  | .nop k sl opc => isCore k && !listedOpc sl opc.toNat
  | .add k _ => isCore k
  | .sub k _ => isCore k
  | .addi k _ => isCore k
  | .and k _ => isCore k
  | .or k _ => isCore k
  | .xor k _ => isCore k
  | .shl k _ => isCore k
  | .shr k _ => isCore k
  | .sar k _ => isCore k
  | .shli k _ => isCore k
  | .mul k _ => isCore k
  | .mulhu k _ => isCore k
  | .min k _ => isCore k
  | .max k _ => isCore k
  | .cmpeq k _ => isCore k
  | .cmplt k _ => isCore k
  | .cmpltu k _ => isCore k
  | .cmplti k _ => isCore k
  | .li k _ => isCore k
  | .lih k _ => isCore k
  | .mfs k _ => isCore k
  | .mts k _ => isCore k
  | .vadd k _ _ => isCore k
  | .vsub k _ _ => isCore k
  | .vmul k _ _ => isCore k
  | .vfma k _ _ => isCore k
  | .vmax k _ _ => isCore k
  | .vmin k _ _ => isCore k
  | .vand k _ _ => isCore k
  | .vor k _ _ => isCore k
  | .vxor k _ _ => isCore k
  | .vshuf k _ _ => isCore k
  | .vbcast k _ _ => isCore k
  | .vcmplt k _ _ => isCore k
  | .vcmpeq k _ _ => isCore k
  | .vsel k _ _ => isCore k
  | .vexp2 k _ _ => isCore k
  | .vlog2 k _ _ => isCore k
  | .vrsqrt k _ _ => isCore k
  | .vrcp k _ _ => isCore k
  | .vcvt k _ _ => isCore k
  | .vrmax k _ _ => isCore k
  | .vrsum k _ _ => isCore k
  | .vtoex80 k _ _ => isCore k
  | .vfromex80 k _ _ => isCore k
  | .mfmt k _ => isCore k
  | .mmul k _ => isCore k
  | .mswap k _ => isCore k
  | .mclr k _ => isCore k
  | .ldv k _ _ _ => isCore k
  | .stv k _ _ => isCore k
  | .ldq k _ _ _ => isCore k
  | .stq k _ _ => isCore k
  | .ldesc k _ _ _ => isCore k
  | .srun k _ _ => isCore k
  | .sra k _ _ => isCore k
  | .sdrop k _ _ => isCore k
  | .lds k _ _ _ => isCore k
  | .nsend k _ => isCore k
  | .nrecv k _ => isCore k
  | .nrstc k _ => isCore k
  | .nwopen k _ => isCore k
  | .nwclose k _ => isCore k
  | .br k _ => isCore k
  | .brl k _ => isCore k
  | .brx k _ => isCore k
  | .loop k _ => isCore k
  | .waitc k _ => isCore k
  | .waits k _ => isCore k
  | .bar k _ => isCore k
  | .evt k _ => isCore k
  | .halt k _ => isCore k
  | .resultWriteback k => isCore k
  | .streamUnitDelivery k _ _ => isCore k
  | .waitEnd k => isCore k
  | .haltComplete k => isCore k
  | .scratchpadClearDone k => isCore k
  | .controlSpaceSpecialWrite k _ _ => isCore k
  | .programStoreWrite k _ _ => isCore k
  | .registerWrite t _ => targetOk t
  | .unscheduledPartGrant k bank _ => isCore k && decide (bank < 256)
  | .unscheduledStarved k => isCore k
  | .openCycleMiss k => isCore k
  | .windowIngressCheck k => isCore k
  | .windowCloseComplete k w => isCore k && decide (w < 64)
  | .stackRequestGrant cs => isCompute cs
  | .stackReadCheck k _ _ _ _ => isCore k
  | .stackRowWordRelease k _ _ _ => isCore k
  | .correctionWriteback cs => isCompute cs
  | .refresh cs => isCompute cs
  | .scrub cs _ => isCompute cs
  | .rowRetired cs _ => isCompute cs
  | .spareMapStoreRetry cs => isCompute cs
  | .couplingSample cs _ _ => isCompute cs
  | .couplingLevelSet cs _ _ => isCompute cs
  | .kvMapEntryWrite k page _ => isCore k && decide (page < 65536)
  | .hopEntryFire mesh _ _ => isMesh mesh
  | .operatorResultReady cs u => isCompute cs && decide (u < 16)
  | .sendPayloadRead k track _ => isCore k && decide (track < 16)
  | .cellArrival mesh code _ => isRouter mesh && decide (code < 128) && (dataEdges mesh).contains (code / 32)
  | .creditReturn mesh out vc _ => isRouter mesh && decide (out < 128) && decide (vc < 8)
  | .linkFlitReceive mesh edge _ _ _ _ => isRouter mesh && (dataEdges mesh).contains edge
  | .transitForward cs i => isCompute cs && decide (i < 32)
  | .netStalled mesh _ => isMesh mesh
  | .serviceCellQueue mesh code => isRouter mesh && decide (code ≤ 0x80)
  | .serviceStarved mesh => isRouter mesh
  | .serviceRead mesh _ => isMesh mesh
  | .serviceWrite mesh _ => isMesh mesh
  | .serviceResponse hub => isHub hub
  | .segmentCommit mesh n => isMesh mesh && decide (n < 64)
  | .hopTableWrite mesh e _ => isMesh mesh && decide (e < 65600)
  | .unitDescriptorWrite cs n u _ => isCompute cs && decide (n < 64) && decide (u < 16)
  | .regionRecordCommit r _ _ _ _ _ _ _ => isRegion r
  | .arm r => isRegion r
  | .start r => isRegion r
  | .freezeCommand r => isRegion r
  | .restart r => isRegion r
  | .regionDissolve r => isRegion r
  | .dieBarrierArrival cs => isCompute cs
  | .arrive node _ => isNode node
  | .barrierRelease r => isRegion r
  | .release node _ => isNode node
  | .stepStart cs => isCompute cs
  | .barrierTimeout r => isRegion r
  | .stepWatchdog r => isRegion r
  | .freeze node _ => isNode node
  | .freezeComplete r => isRegion r
  | .substitution r site _ => isRegion r && isCompute site
  | .variantInForceWrite r _ => isRegion r
  | .variantStagingWrite r _ => isRegion r
  | .sievePassGo cs _ => isCompute cs
  | .sievePassStart cs _ => isCompute cs
  | .sievePassDone cs => isCompute cs
  | .sieveDone node _ => isNode node
  | .query fn sq _ _ => isFn fn && decide (sq < 16)
  | .cancel fn sq _ => isFn fn && decide (sq < 16)
  | .earlyExit fn sq _ => isFn fn && decide (sq < 16)
  | .deadlineCheck => true
  | .queryCompletion r => isRegion r
  | .directoryEntryWrite _ _ _ => true
  | .shardVerifyDone _ => true
  | .sequenceRecordCommit r _ _ => isRegion r
  | .sequenceLengthWrite r _ => isRegion r
  | .ctlFlitReceive node port _ => isNode node && decide (port < 5)
  | .ctlLinkDown node port => isNode node && decide (port < 5)
  | .ctlMessageForward node port => isNode node && decide (port ≤ 5)
  | .routeTableRewrite => true
  | .urgentQueuePace node => isNode node
  | .fence node _ => isNode node
  | .faultReport node _ => isNode node
  | .epochSet node _ => isNode node
  | .ack node _ => isNode node
  | .nack node _ => isNode node
  | .liveWrite node _ => isNode node
  | .liveCommit node _ => isNode node
  | .event node _ => isNode node
  | .lateNotice node _ => isNode node
  | .undeliverable node _ => isNode node
  | .cfgWrite node _ => isNode node
  | .cfgRead node _ => isNode node
  | .cfgData node _ => isNode node
  | .hubBeat node _ => isNode node
  | .hubBeatSend hub => isHub hub
  | .nodeBeat node _ => isNode node
  | .nodeBeatSend node => isNode node
  | .nodeBeatMissed node => isNode node
  | .hubLossTimeout => true
  | .epochSetRetry _ => true
  | .bulkOpen node _ => isNode node
  | .bulkData node _ => isNode node
  | .bulkClose node _ => isNode node
  | .bulkResult node _ => isNode node
  | .perstRelease hp _ _ _ _ _ => isHPort hp
  | .perstAssert hp => isHPort hp
  | .hostLinkDown hp => isHPort hp
  | .sqTailDoorbell hp fn sq _ => isHPort hp && isFn fn && decide (sq < 16)
  | .cqHeadDoorbell hp fn cq _ => isHPort hp && isFn fn && decide (cq < 16)
  | .eventRingDoorbell hp fn _ => isHPort hp && isFn fn
  | .queueEnable hp fn q _ => isHPort hp && isFn fn && decide (q < 33)
  | .queueDisable hp fn q _ => isHPort hp && isFn fn && decide (q < 33)
  | .queueDrained fn q => isFn fn && decide (q < 33)
  | .hostNop fn sq _ => isFn fn && decide (sq < 16)
  | .copyIn fn sq _ _ => isFn fn && decide (sq < 16)
  | .copyOut fn sq _ => isFn fn && decide (sq < 16)
  | .cqCoalesceTimeout fn cq => isFn fn && decide (cq < 16)
  | .icauseClear hp fn _ => isHPort hp && isFn fn
  | .apertureSliceWrite hp fn i _ => isHPort hp && isFn fn && decide (i < 16)
  | .apertureRead hp fn slice off _ _ => isHPort hp && isFn fn && decide (slice < 16) && decide (off < 2 ^ 32)
  | .apertureWrite hp fn slice off _ _ => isHPort hp && isFn fn && decide (slice < 16) && decide (off < 2 ^ 32)
  | .mailboxGo hp fn len => isHPort hp && isFn fn && decide (len < 2 ^ 17)
  | .flr hp fn => isHPort hp && isFn fn
  | .ingressReadbackDone fn sq => isFn fn && decide (sq < 16)
  | .egressBlockDone fn sq _ => isFn fn && decide (sq < 16)
  | .checkDescriptorWrite cs _ _ => isCompute cs
  | .checkScanDone cs chan _ => isCompute cs && decide (chan < 16)
  | .read g h _ sess seq index sub field _ => mgmtOk g h sess seq index sub field 0 0
  | .write g h _ sess seq index sub field _ total _ => mgmtOk g h sess seq index sub field 0 total
  | .segRead g h _ sess seq offset => mgmtOk g h sess seq 0 0 0 offset 0
  | .segWrite g h _ sess seq offset _ => mgmtOk g h sess seq 0 0 0 offset 0
  | .endTransfer g h _ sess seq => mgmtOk g h sess seq 0 0 0 0 0
  | .describe g h _ sess seq index sub => mgmtOk g h sess seq index sub 0 0 0
  | .readStaged g h _ sess seq index sub field => mgmtOk g h sess seq index sub field 0 0
  | .discard g h _ sess seq => mgmtOk g h sess seq 0 0 0 0 0
  | .commit g h _ sess seq index _ => mgmtOk g h sess seq index 0 0 0 0
  | .hello g h seq => mgmtOk g h 0 seq 0 0 0 0 0
  | .sessionOpen g h _ sess seq _ _ _ _ => mgmtOk g h sess seq 0 0 0 0 0
  | .sessionClose g h _ sess seq => mgmtOk g h sess seq 0 0 0 0 0
  | .keepalive g h _ sess seq => mgmtOk g h sess seq 0 0 0 0 0
  | .reportAck g h _ sess _ => mgmtOk g h sess 0 0 0 0 0 0
  | .reportSend slot => decide (slot < 16)
  | .reportResend slot => decide (slot < 16)
  | .sessionIdleTimeout slot => decide (slot ≤ 32)
  | .transferGapTimeout slot => decide (slot ≤ 32)
  | .authPendingTimeout _ => true
  | .credentialLockoutEnd n => decide (n < 32)
  | .mgmtSegmentDown g => decide (g < 2)
  | .managerFence _ _ _ _ _ => true
  | .expel _ _ _ => true
  | .reinstate _ _ _ _ _ => true
  | .oscSettleExpiry _ _ => true
  | .refRecheck _ _ => true
  | .refEdgeLoss i => decide (i < 2)
  | .refMeasurement i _ => decide (i < 2)
  | .tbAlignmentMarker node _ => isNode node
  | .pllUnlock node => isNode node
  | .stepPlanDeadline _ => true
  | .stepPlanReadback _ => true
  | .regulatorRaise node => isNode node
  | .stepPlanApply node => isNode node
  | .droopStretch cs => isCompute cs
  | .stepRequest die => isDie die
  | .dieClockModeWrite node _ => isNode node
  | .peripheralEnableWrite hub _ => isHub hub
  | .vminFrame blk _ => isBlock blk
  | .blockCollapse blk => isBlock blk
  | .fuseNotTripped blk _ => isBlock blk
  | .pmbusPoll _ => true
  | .pmbAlert _ => true
  | .blockPowerGood blk => isBlock blk
  | .blockEnableTimeout blk => isBlock blk
  | .ledgerWindowStart _ => true
  | .stepAdmission r => isRegion r
  | .calibrationFactorUpdate blk => isBlock blk
  | .vsb12Low _ => true
  | .vsb12Loss _ => true
  | .nvRecordWrite _ => true
  | .tjLimit die => isDie die
  | .thermalTrip die => isDie die
  | .thermalReport die _ _ => isDie die
  | .rthEstimate => true
  | .thermalForecast => true
  | .holdLimitExpiry blk => isBlock blk
  | .coolantPoll _ _ => true
  | .vsb12PorRelease settle => decide (settle < 8)
  | .panelReset _ => true
  | .panelResetRelease => true
  | .bringupPhaseAdvance _ => true
  | .bringupLate => true
  | .hubBBootTimeout _ _ _ => true
  | .coolantWaitRetry => true
  | .strapCheck die _ => isDie die
  | .trainingStoreRetry => true
  | .mapWriteRetry => true
  | .floorplanClearance site _ => isSite site
  | .partitionRecordCommit part _ _ => isPart part
  | .memberEraseDone cs => isCompute cs
  | .partitionReset part => isPart part
  | .partitionDissolve part => isPart part
  | .packupStepDone part => isPart part
  | .packupDrainLimit part => isPart part
  | .keyZeroiseTimeout part cs => isPart part && isCompute cs
  | .coreResetCommand cs _ => isCompute cs
  | .dieResetCommand cs => isCompute cs
  | .dieResetDone die _ => isDie die
  | .reportNonceWrite _ _ => true
  | .entropyFailed hub => isHub hub
  | .entropyRetest hub _ => isHub hub
  | .keyLoadTimeout part cs => isPart part && isCompute cs
  | .credentialWrite slot n _ => decide (slot ≤ 32) && decide (n < 32)
  | .bootImageWrite _ _ _ => true
  | .raiseMinSvn => true
  | .revokeSigningSlot _ => true
  | .measurementExtend _ _ => true
  | .guestRequest g _ => decide (g < 2)
  | .guestRequestRelease g => decide (g < 2)
  | .fabricLinkSession port _ => isPort port
  | .fabricAuthRetry port _ => isPort port
  | .stateEvidence => true
  | .probeStart _ => true
  | .probeComplete _ _ => true
  | .takeover _ => true
  | .rateSpanEnd => true
  | .portTrainingPhase port _ => isPort port
  | .portTrainingTimeout port _ => isPort port
  | .fabricFrameReceive port pair f second => isPort port && decide (f.length = 976) && decide (second.length = if pair then 976 else 0)
  | .fabricFrameSend port => isPort port
  | .fabricHello port _ => isPort port
  | .ringTransit site => isEdge site || isHub site
  | .meridianFrameReceive _ => true
  | .meridianFrameEmit => true
  | .meridianRecheck => true
  | .scheduleSwitch => true
  | .fabricScheduleCommit _ _ _ => true
  | .panelIdWrite slot _ => decide (slot ≤ 32)
  | .cableRemoval port => isPort port
  | .cableHoldExpiry port => isPort port
  | .hubBBeatsMissed => true
  | .guestLinkUp g _ _ _ => decide (g < 2)
  | .mgmtSegmentReturn g => decide (g < 2)
  | .neighborDiscovery h g _ => decide (h < 2) && decide (g < 2)
  | .icmpv6Echo h g _ _ => decide (h < 2) && decide (g < 2)

end Sys2Proof
end

