-- ==== Sys2Proof/Safety.lean ====
section
/-! DEFINITION. The words that claims are stated in: when a slot of a core issues, the state after it has, and what a
report leaves behind. -/

namespace Sys2Proof.Machine

/-- Slot `sl` of core `k` issues the operation of `w` now: the core exists, its bundle has come to the slot, and the slot's
predicate lets it execute (R36, R42). -/
abbrev Issues (k : Nat) (sl : Slot) (w : SlotWord) (s : State) : Prop :=
  isCore k = true ∧ canIssue k sl s.p = true ∧ executes (s.p.getCore k).a w = true

/-- The state after slot `sl` of core `k` has issued, its operation having the effect `f` on the core: nothing else of the
panel changes, and no byte of memory. -/
def issued (k : Nat) (sl : Slot) (f : CoreA → CoreA) (s : State) : State :=
  { s with p := s.p.setCore k (onA f (openBundle sl (s.p.getCore k))) }

/-- The state after slot C of core `k` has issued with effect `f`, which closes the bundle. -/
def issuedC (k : Nat) (f : CoreA → CoreA) (s : State) : State :=
  { s with p := closeBundle k (issued k .c f s).p }

/-- The architectural part of core `k`. -/
abbrev coreA (k : Nat) (s : State) : CoreA := (s.p.getCore k).a

/-- Memory of core `k` as a scheduled access of rank `rk` sees it in this run cycle: after the writes of lower rank, those
that come about at the cycle's end among them (R105). -/
def seenBy (k : Nat) (rk : Rank) (s : State) : Mem :=
  memBefore rk { s.p.getCore k with stores := comingW k (s.p.getCore k) s.mem ++ (s.p.getCore k).stores } s.mem

/-- The event log holds an event of this code raised at the present tick. -/
def Logged (ev : Nat) (p : Panel) : Prop := ∃ e ∈ p.book.log, e.ev = ev ∧ e.tick = p.now

/-- A message that carries `m` is on its way from site `src`, or has come and waits to be acted on. -/
def Sent (src : Nat) (m : Msg) (p : Panel) : Prop := ∃ k ∈ allPkts p, k.src = src ∧ k.msg = m

/-- Node `s`, which is a node and takes part, has `k` as the oldest message delivered to it (R285, R294). -/
abbrev Delivered (s : Nat) (k : Pkt) (p : Panel) : Prop := isNode s = true ∧ takesPart p s = true ∧ (p.getNode s).inbox.head? = some k

/-- The panel after node `s` has taken its oldest message: it has left the node's messages, and the node's count has gone up. -/
def taken (s : Nat) (p : Panel) : Panel :=
  p.modNode s fun n => { n with inbox := n.inbox.drop 1, ctr := { n.ctr with received := n.ctr.received + 1 } }

/-- The active hub can flood a multicast: it takes part, a link of its is live, and its next sequence is not recorded yet
(R285, R292). -/
abbrev hubFloods (p : Panel) : Prop :=
  takesPart p p.activeHub = true ∧ livePorts p p.activeHub ≠ []
    ∧ seeMseq (p.getNode p.activeHub) (hubNum p.activeHub) (if p.activeHub = 0 then p.ctl.mseq else p.ctl.mseqB) ≠ none

/-- `x` is the management session that its slot and its ID name. -/
abbrev SessionOf (x : Session) (p : Panel) : Prop :=
  x.slot < 16 ∧ x.id ≠ 0 ∧ x.id < 65536 ∧ sessionAt p x.slot = some x
    ∧ p.od.sessions.find? (fun y => decide (y.slot < 16 ∧ y.id = x.id ∧ x.id ≠ 0)) = some x

/-- The active hub `h` takes the next request, of sequence `n + 1`, of session `x` on segment `g` (R351, R352, R354). -/
abbrev TakesRequest (g h : Nat) (x : Session) (n : Nat) (s : State) : Prop :=
  g < 2 ∧ h < 2 ∧ h = s.p.book.active ∧ segServes s.p h g = true ∧ s.p.od.segDown.contains g = false ∧ SessionOf x s.p
    ∧ s.p.sec.pendingAuth.any (fun a => decide (a.id = x.id)) = false ∧ sessionIdle s.p x = false ∧ x.seq = some n ∧ n + 1 < 2 ^ 32
    ∧ s.p.pwr.writes = []

/-- The session after it has taken request `q`, whose header is `hdr`, from segment `g`. -/
def Session.took (x : Session) (hdr : List Byte) (g : Nat) (q : Req) (now : Nat) : Session :=
  { x with seq := some q.seq, last := now, requests := x.requests + 1, hdr := hdr, seg := g }

/-- The state after segment `g` has been heard and session `x` has taken request `q`. -/
def requested (g : Nat) (x : Session) (q : Req) (s : State) : State :=
  ((s.onP fun p => p.modOd fun o => { o with
    proto := if g = 0 then { o.proto with rxA := o.proto.rxA + 1 } else { o.proto with rxB := o.proto.rxB + 1 } }).onP (segHeard g)).onP
      (modSession x.slot x.id fun _ => x.took (reqHeader s.p q) g q s.p.now)

/-- The hub has answered request `seq` of session `id` with `r`, after the answers of `s`. -/
abbrev Answered (id seq : Nat) (r : Resp) (s t : State) : Prop := t.p.od.out = s.p.od.out ++ [(id, seq, r)]

end Sys2Proof.Machine

namespace Sys2Proof

/-- A state whose memory is in canonical form. -/
def MemCanonical (s : Machine.State) : Prop := s.mem.wf = true

end Sys2Proof
end

