-- ==== Sys2Proof/Certificates/Slice0/Obligations.lean ====
section
/-! DEFINITION. The statements for the provers. -/

open Sys2Proof Sys2Proof.Machine


/-- Where a slot S issues ADD, SUB, AND, OR, XOR, SHL, SHR, SAR, MUL, MULHU, MIN or MAX, the step answers the state in
which the value R44 gives, of the registers read at issue, is in flight to s[DST] with the latency of R44 (1, MUL and
MULHU 3), and nothing else of the panel and no byte of memory has changed but that the bundle stands open at slot S.
-/
def Obligations.ScalarTwoRegisterResults : Prop :=
  ∀ (k : Nat) (w : SlotWord) (s : State), Issues k .s w s →
    let x := rdS (coreA k s) (SlotW.sa w)
    let y := rdS (coreA k s) (SlotW.sb w)
    exec (.add k w) s = .next (issued k .s (launch 1 (.s (SlotW.dst w) (x + y))) s)
    ∧ exec (.sub k w) s = .next (issued k .s (launch 1 (.s (SlotW.dst w) (x - y))) s)
    ∧ exec (.and k w) s = .next (issued k .s (launch 1 (.s (SlotW.dst w) (x &&& y))) s)
    ∧ exec (.or k w) s = .next (issued k .s (launch 1 (.s (SlotW.dst w) (x ||| y))) s)
    ∧ exec (.xor k w) s = .next (issued k .s (launch 1 (.s (SlotW.dst w) (x ^^^ y))) s)
    ∧ exec (.shl k w) s = .next (issued k .s (launch 1 (.s (SlotW.dst w) (x <<< (y.toNat % 64)))) s)
    ∧ exec (.shr k w) s = .next (issued k .s (launch 1 (.s (SlotW.dst w) (x >>> (y.toNat % 64)))) s)
    ∧ exec (.sar k w) s = .next (issued k .s (launch 1 (.s (SlotW.dst w) (x.sshiftRight (y.toNat % 64)))) s)
    ∧ exec (.mul k w) s = .next (issued k .s (launch 3 (.s (SlotW.dst w) (x * y))) s)
    ∧ exec (.mulhu k w) s = .next (issued k .s (launch 3 (.s (SlotW.dst w) (BitVec.ofNat 64 (x.toNat * y.toNat / 2 ^ 64)))) s)
    ∧ exec (.min k w) s = .next (issued k .s (launch 1 (.s (SlotW.dst w) (if y.slt x then y else x))) s)
    ∧ exec (.max k w) s = .next (issued k .s (launch 1 (.s (SlotW.dst w) (if x.slt y then y else x))) s)

/-- Where a slot S issues, ADDI adds the sign-extended IMM; SHLI shifts by IMM[5:0] when IMM[26:6] is zero; LI gives
the sign-extended 45-bit immediate; LIH, when bits [44:19] are zero, puts bits [18:0] above the low 45 bits of s[DST];
MFS of a readable special register (0 to 3, 6, 7) gives it; MTS of 4 to 7 puts s[SA] in flight to the special
register, for RNDMODE a value up to 2. CMPEQ, CMPLT, CMPLTU and CMPLTI, with DST[5:4] zero, put into flight the
equality, the signed, the unsigned and the signed immediate comparison to p[DST]. All with latency 1; nothing else
changes. A NOP of any slot that may issue leaves the core as it was but that the bundle has come to that slot; in slot
C it closes the bundle. -/
def Obligations.ScalarImmediatesComparesAndNop : Prop :=
  ∀ (k : Nat) (w : SlotWord) (s : State), Issues k .s w s →
    let x := rdS (coreA k s) (SlotW.sa w)
    let put (v : Word) : State := issued k .s (launch 1 (.s (SlotW.dst w) v)) s
    exec (.addi k w) s = .next (put (x + w.imm.signExtend 64))
    ∧ (SlotW.imm w 26 6 = 0 → exec (.shli k w) s = .next (put (x <<< SlotW.imm w 5 0)))
    ∧ exec (.li k w) s = .next (put ((w.sa ++ w.sb ++ w.sc ++ w.imm).signExtend 64))
    ∧ ((w.sa ++ w.sb ++ w.sc ++ w.imm).toNat < 2 ^ 19 →
        exec (.lih k w) s = .next (put (w.imm.extractLsb' 0 19 ++ (rdS (coreA k s) (SlotW.dst w)).extractLsb' 0 45)))
    ∧ (SlotW.imm w 4 0 ≤ 3 ∨ SlotW.imm w 4 0 = 6 ∨ SlotW.imm w 4 0 = 7 →
        exec (.mfs k w) s = .next (put (rdSpec (coreA k s) (SlotW.imm w 4 0))))
    ∧ (4 ≤ SlotW.imm w 4 0 ∧ SlotW.imm w 4 0 ≤ 7 ∧ (SlotW.imm w 4 0 = 6 → x.toNat ≤ 2) →
        exec (.mts k w) s = .next (issued k .s (launch 1 (.spec (SlotW.imm w 4 0) x)) s))
    ∧ (SlotW.dst w < 16 →
        let y := rdS (coreA k s) (SlotW.sb w)
        let flag (b : Bool) : State := issued k .s (launch 1 (.p (SlotW.dst w) b)) s
        exec (.cmpeq k w) s = .next (flag (decide (x = y)))
        ∧ exec (.cmplt k w) s = .next (flag (decide (x.toInt < y.toInt)))
        ∧ exec (.cmpltu k w) s = .next (flag (decide (x.toNat < y.toNat)))
        ∧ exec (.cmplti k w) s = .next (flag (decide (x.toInt < (w.imm.signExtend 64).toInt))))
    ∧ (∀ sl : Slot, canIssue k sl s.p = true →
        exec (.nop k sl 0) s = .next (if sl = .c then issuedC k id s else issued k sl id s))

/-- Where a vector slot issues with an element type other than 7, VADD, VSUB, VMUL, VMAX, VMIN, VFMA, VBCAST and VRMAX
put into flight to v[DST], with the latencies of R45 (2, 2, 3, 2, 2, 4, 2, 6), the vector of the lane results of the
registers read at issue; nothing else changes. -/
def Obligations.VectorLaneArithmetic : Prop :=
  ∀ (k : Nat) (u : VUnit) (w : SlotWord) (s : State), Issues k (slotV u) w s → SlotW.et w ≤ 6 →
    let et := SlotW.et w
    let a := vLanes et (rdV (coreA k s) (SlotW.sa w))
    let b := vLanes et (rdV (coreA k s) (SlotW.sb w))
    let c := vLanes et (rdV (coreA k s) (SlotW.sc w))
    let put (lat : Nat) (v : Vec) : State := issued k (slotV u) (launch lat (.v (SlotW.dst w) v)) s
    exec (.vadd k u w) s = .next (put 2 (ofLanes et (List.zipWith (laneAdd et) a b)))
    ∧ exec (.vsub k u w) s = .next (put 2 (ofLanes et (List.zipWith (laneSub et) a b)))
    ∧ exec (.vmul k u w) s = .next (put 3 (ofLanes et (List.zipWith (laneMul et) a b)))
    ∧ exec (.vmax k u w) s = .next (put 2 (ofLanes et (List.zipWith (laneMax et) a b)))
    ∧ exec (.vmin k u w) s = .next (put 2 (ofLanes et (List.zipWith (laneMin et) a b)))
    ∧ exec (.vfma k u w) s = .next (put 4 (ofLanes et (List.zipWith (fun xy z => laneFma et xy.1 xy.2 z) (List.zip a b) c)))
    ∧ exec (.vbcast k u w) s = .next (put 2 (ofLanes et
        (List.replicate (etLanes et) ((rdS (coreA k s) (SlotW.sa w)).toNat % 2 ^ etWidth et))))
    ∧ exec (.vrmax k u w) s = .next (put 6 (ofLanes et (List.replicate (etLanes et) (a.foldl (laneMax et) (a.headD 0)))))

/-- Where a vector slot issues with I32, I16, I8 or U8, VADD, VSUB, VMUL and VFMA put into flight the vector whose
every lane is the sum, difference, product, and product plus addend of the lanes modulo 2 to the lane width (so VMUL
and VFMA keep its low bits); nothing saturates, and no flag nor anything else of the panel changes but the result in
flight. VMAX and VMIN of two lanes are the larger and the smaller by the value of the lane in its type. -/
def Obligations.IntegerVectorArithmeticWraps : Prop :=
  ∀ (k : Nat) (u : VUnit) (w : SlotWord) (s : State), Issues k (slotV u) w s → 3 ≤ SlotW.et w → SlotW.et w ≤ 6 →
    let et := SlotW.et w
    let n := 2 ^ etWidth et
    let a := vLanes et (rdV (coreA k s) (SlotW.sa w))
    let b := vLanes et (rdV (coreA k s) (SlotW.sb w))
    let c := vLanes et (rdV (coreA k s) (SlotW.sc w))
    let put (lat : Nat) (v : List Nat) : State := issued k (slotV u) (launch lat (.v (SlotW.dst w) (ofLanes et v))) s
    exec (.vadd k u w) s = .next (put 2 (List.zipWith (fun x y => (x + y) % n) a b))
    ∧ exec (.vsub k u w) s = .next (put 2 (List.zipWith (fun x y => (x + n - y) % n) a b))
    ∧ exec (.vmul k u w) s = .next (put 3 (List.zipWith (fun x y => x * y % n) a b))
    ∧ exec (.vfma k u w) s = .next (put 4 (List.zipWith (fun xy z => (xy.1 * xy.2 + z) % n) (List.zip a b) c))
    ∧ (∀ x < n, ∀ y < n, laneInt et (laneMax et x y) = max (laneInt et x) (laneInt et y)
        ∧ laneInt et (laneMin et x y) = min (laneInt et x) (laneInt et y))

/-- Where a vector slot issues, VAND, VOR and VXOR put the bitwise result in flight with latency 1; VSHUF one whose
byte i is byte (b byte i) of a, with latency 2; VSEL, with SC below 8, one whose byte i is that of a where bit i of
q[SC] is set and that of b elsewhere, with latency 1; VCMPLT and VCMPEQ, with an element type other than 7 and DST
below 8, the byte-lane mask of the comparison to q[DST], with latency 2. Nothing else changes. -/
def Obligations.VectorBitAndMaskOperations : Prop :=
  ∀ (k : Nat) (u : VUnit) (w : SlotWord) (s : State), Issues k (slotV u) w s →
    let et := SlotW.et w
    let a := rdV (coreA k s) (SlotW.sa w)
    let b := rdV (coreA k s) (SlotW.sb w)
    let put (lat : Nat) (v : Vec) : State := issued k (slotV u) (launch lat (.v (SlotW.dst w) v)) s
    let mask (f : Nat → Nat → Bool) : Wide := laneMask et (List.zipWith f (vLanes et a) (vLanes et b))
    exec (.vand k u w) s = .next (put 1 (a &&& b))
    ∧ exec (.vor k u w) s = .next (put 1 (a ||| b))
    ∧ exec (.vxor k u w) s = .next (put 1 (a ^^^ b))
    ∧ (∃ v : Vec, exec (.vshuf k u w) s = .next (put 2 v)
        ∧ ∀ i < 256, v.extractLsb' (8 * i) 8 = a.extractLsb' (8 * (b.extractLsb' (8 * i) 8).toNat) 8)
    ∧ (SlotW.sc w < 8 → ∃ v : Vec, exec (.vsel k u w) s = .next (put 1 v)
        ∧ ∀ i < 256, v.extractLsb' (8 * i) 8 =
            if (rdQ (coreA k s) (SlotW.sc w)).getLsbD i then a.extractLsb' (8 * i) 8 else b.extractLsb' (8 * i) 8)
    ∧ (et ≤ 6 → SlotW.dst w < 8 →
        exec (.vcmplt k u w) s = .next (issued k (slotV u) (launch 2 (.q (SlotW.dst w) (mask (laneLt et)))) s)
        ∧ exec (.vcmpeq k u w) s = .next (issued k (slotV u) (launch 2 (.q (SlotW.dst w) (mask (laneEq et)))) s))

/-- Where a vector slot issues: with FP32 and at least two cycles after the last such operation of the same unit,
VEXP2, VLOG2, VRSQRT and VRCP put into flight, with latency 8, each lane's function rounded once to nearest even, and
the unit keeps the cycle of the issue (how far 2^a and log2 are computed before the rounding is the model's choice,
log 8); VCVT with a legal pair of types puts the converted vector in flight with latency 3, keeps the generator after
the words it drew, and counts the lanes whose range changed; VRSUM in FP32 puts the pairwise tree sum in every lane
with latency 6; VTOEX80 and VFROMEX80 from a lane start of 0, 8, ..., 40 put the payloads, and the 24 lanes from that
start on, in flight with latency 4, and the range flag with them where a value is NaN, infinite or outside the window.
No byte of memory changes. -/
def Obligations.VectorFunctionsConversionsAndSums : Prop :=
  ∀ (k : Nat) (u : VUnit) (w : SlotWord) (s : State), Issues k (slotV u) w s →
    let x := coreA k s
    let a := vLanes 0 (rdV x (SlotW.sa w))
    (SlotW.et w = 0 → (Tab.get 0 x.lastT (vNum u) = 0 ∨ Tab.get 0 x.lastT (vNum u) + 1 ≤ x.rc) →
      let put (f : Nat → Nat) : State := issued k (slotV u) (fun c =>
        launch 8 (.v (SlotW.dst w) (ofLanes 0 (a.map f))) { c with lastT := Tab.set (vNum u) (c.rc + 1) c.lastT }) s
      exec (.vexp2 k u w) s = .next (put (fun x => fmtFP32.enc .rne (exp2 (fmtFP32.ieee x))))
      ∧ exec (.vlog2 k u w) s = .next (put (fun x => fmtFP32.enc .rne (log2 (fmtFP32.ieee x))))
      ∧ exec (.vrsqrt k u w) s = .next (put (fun x => fmtFP32.enc .rne (rsqrt (fmtFP32.ieee x))))
      ∧ exec (.vrcp k u w) s = .next (put (fun x => fmtFP32.enc .rne (recip (fmtFP32.ieee x)))))
    ∧ (cvtOk w = true → exec (.vcvt k u w) s = .next (issued k (slotV u) (fun c =>
        launch 3 (cvtAll w x).1
          { c with gen := (cvtAll w x).2.2, arith := { c.arith with vcvt := c.arith.vcvt + (cvtAll w x).2.1 } }) s))
    ∧ (SlotW.et w = 0 → exec (.vrsum k u w) s = .next (issued k (slotV u)
        (launch 6 (.v (SlotW.dst w) (ofLanes 0 (List.replicate 64 (treeSum 6 a))))) s))
    ∧ (exStart w = true → ∃ t, exec (.vtoex80 k u w) s = .next t ∧ t.mem = s.mem
        ∧ (let out := ((a.drop (SlotW.imm w 23 16)).take 24).map fun y => toEx80 (exSigma x w) (fmtFP32.ieee y)
           let flags : List InFlight := if (out.filter (·.2)).length = 0 then [] else [⟨x.rc + 3, .exf⟩]
           (coreA k t).inflight = x.inflight ++ [⟨x.rc + 3, .v (SlotW.dst w)
               (BitVec.ofNat 2048 (unlanes 80 (out.map fun o => (wrap 80 o.1).toNat)))⟩] ++ flags))
    ∧ (exStart w = true → ∃ t, exec (.vfromex80 k u w) s = .next t ∧ t.mem = s.mem
        ∧ (let l := SlotW.imm w 23 16
           let ns := lanes 80 24 (rdV x (SlotW.sa w)).toNat
           let flags : List InFlight := if ns.any exOutside then [⟨x.rc + 3, .exf⟩] else []
           (coreA k t).inflight = x.inflight ++ [⟨x.rc + 3, .vlanes (SlotW.dst w) (4 * l) 96
               (BitVec.ofNat 2048 (unlanes 32 (ns.map (fromEx80 (exSigma x w))) * 256 ^ (4 * l)))⟩] ++ flags))

/-- Where slot M issues: MFMT with codes up to 7 puts the formats in flight with latency 1; MSWAP puts the swap of the
masked arrays in flight with latency 1; MMUL, with a row in the feed queue, the interval kept and a usable accumulator
row, pops one A row, remembers its cycle and puts one accumulator update for each masked array in flight with latency
12; MCLR on usable rows puts the clear of every named row of every masked array in flight, not before latency 2. No
byte of memory changes. -/
def Obligations.MatrixOperations : Prop :=
  ∀ (k : Nat) (w : SlotWord) (s : State), Issues k .m w s →
    let x := coreA k s
    (SlotW.imm w 7 4 ≤ 7 → SlotW.imm w 3 0 ≤ 7 →
      exec (.mfmt k w) s = .next (issued k .m (launch 1 (.fmt (SlotW.imm w 7 4) (SlotW.imm w 3 0))) s))
    ∧ exec (.mswap k w) s = .next (issued k .m (launch 1 (.swap (SlotW.imm w 15 8))) s)
    ∧ (mmulOk x w = true → ∃ t, exec (.mmul k w) s = .next t ∧ t.mem = s.mem
        ∧ (coreA k t).feed = x.feed.drop 1 ∧ (coreA k t).lastM = x.rc + 1
        ∧ ∀ arr ∈ bitsSet 8 (SlotW.imm w 15 8), ⟨x.rc + 11, mmulWrite x w arr⟩ ∈ (coreA k t).inflight)
    ∧ (rowsOk x.fmtB (clrRows x w) = true → ∃ t, exec (.mclr k w) s = .next t ∧ t.mem = s.mem
        ∧ ∀ arr ∈ bitsSet 8 (SlotW.imm w 15 8), ∀ r ∈ clrRows x w,
            ∃ n, x.rc + 1 ≤ n ∧ ⟨n, .clr arr r⟩ ∈ (coreA k t).inflight)

/-- Where an L slot issues and s[SA] + sext(IMM) is aligned and inside the scratchpad: LDV, LDQ and LDESC of good
words put the 256, 32 and 32 bytes there, as the slot's rank sees them, in flight to v, q (DST below 8) and d (DST
below 32) with latency 7 and change no byte of memory; STV and STQ (SC below 8) complete, put no register in flight
and leave every other core, and where the core has no other write in this run cycle they make the 256 and 32 bytes
there the bytes of v[SC] and q[SC] and change no other byte. -/
def Obligations.LoadsAndStoresOfTheScratchpad : Prop :=
  ∀ (k : Nat) (u : LUnit) (w : SlotWord) (s : State), Issues k (slotL u) w s →
    let x := lAddr (coreA k s) w
    let ga := gaScratch k x
    let m := seenBy k (rankL u) s
    (lOk x 256 256 = true → ∃ t, exec (.ldv k u w ⟨[], []⟩) s = .next t ∧ t.mem = s.mem
      ∧ (coreA k t).inflight = (coreA k s).inflight
          ++ [⟨(coreA k s).rc + 6, .v (SlotW.dst w) (BitVec.ofNat 2048 (m.num ga 256))⟩])
    ∧ (lOk x 32 32 = true → SlotW.dst w < 8 → ∃ t, exec (.ldq k u w ⟨[], []⟩) s = .next t ∧ t.mem = s.mem
      ∧ (coreA k t).inflight = (coreA k s).inflight
          ++ [⟨(coreA k s).rc + 6, .q (SlotW.dst w) (BitVec.ofNat 256 (m.num ga 32))⟩])
    ∧ (lOk x 32 32 = true → SlotW.dst w < 32 → ∃ t, exec (.ldesc k u w ⟨[], []⟩) s = .next t ∧ t.mem = s.mem
      ∧ (coreA k t).inflight = (coreA k s).inflight
          ++ [⟨(coreA k s).rc + 6, .d (SlotW.dst w) (BitVec.ofNat 256 (m.num ga 32))⟩])
    ∧ (lOk x 256 256 = true → ∃ t, exec (.stv k u w) s = .next t
      ∧ (coreA k t).inflight = (coreA k s).inflight ∧ (∀ j, j ≠ k → t.p.getCore j = s.p.getCore j)
      ∧ ((s.p.getCore k).stores = [] →
          (∀ i < 256, t.mem.read (ga + i) = (rdV (coreA k s) (SlotW.sc w)).extractLsb' (8 * i) 8)
          ∧ ∀ a, a < ga ∨ ga + 256 ≤ a → t.mem.read a = s.mem.read a))
    ∧ (lOk x 32 32 = true → SlotW.sc w < 8 → ∃ t, exec (.stq k u w) s = .next t
      ∧ (coreA k t).inflight = (coreA k s).inflight ∧ (∀ j, j ≠ k → t.p.getCore j = s.p.getCore j)
      ∧ ((s.p.getCore k).stores = [] →
          (∀ i < 32, t.mem.read (ga + i) = (rdQ (coreA k s) (SlotW.sc w)).extractLsb' (8 * i) 8)
          ∧ ∀ a, a < ga ∨ ga + 32 ≤ a → t.mem.read a = s.mem.read a))

/-- Where an L slot issues: SRUN of a legal descriptor starts one stream with source SRC + s[SA] and destination DST +
s[SB] and nothing else changes; SRA of a legal descriptor counts one SRA and leaves its staging slot PENDING, or
POISON where the read breaks its limits; SDROP puts the drop of the slots of s[SA][31:0] in flight with latency 1. LDS
of an offset inside a slot that is FULL at its delivery cycle, on a core with a staging area, marks the slot read,
counts one LDS served and puts its 256 bytes in flight to v[DST] with latency 7; the core goes on. No byte of memory
changes. -/
def Obligations.StreamsStartSlotsDropAndAFullSlotIsRead : Prop :=
  ∀ (k : Nat) (u : LUnit) (w : SlotWord) (s : State), Issues k (slotL u) w s →
    let c := s.p.getCore k
    let a := c.a
    let d := rdD a (SlotW.dst w)
    let g := Tab.get stage0 a.stage (SlotW.sc w)
    (SlotW.dst w < 32 → srunOk s.p k u w = true →
      exec (.srun k u w) s = .next (issued k (slotL u) (fun c =>
        { c with streams := c.streams ++ [newStream a u d (runSrc a w d) (runDst a w d) 0], nextSid := c.nextSid + 1 }) s))
    ∧ (SlotW.dst w < 32 → SlotW.sc w < 32 → sraOk c u w = true →
        ∃ t, exec (.sra k u w) s = .next t ∧ t.mem = s.mem ∧ (coreA k t).ra.issued = a.ra.issued + 1
          ∧ (Tab.get stage0 (coreA k t).stage (SlotW.dst w)).st =
              if sraFits s.p k (rdD a (SlotW.sc w)) (runSrc a w (rdD a (SlotW.sc w))) then .pending else .poison)
    ∧ exec (.sdrop k u w) s = .next (issued k (slotL u) (launch 1 (.drop ((rdS a (SlotW.sa w)).toNat % 2 ^ 32))) s)
    ∧ (SlotW.sc w < 32 → 0 < c.stg → 256 * SlotW.imm w 15 0 + 256 ≤ c.slotBytes → g.st = .full → g.ready ≤ a.rc →
        ∃ t, exec (.lds k u w ⟨[], []⟩) s = .next t ∧ t.mem = s.mem
          ∧ (coreA k t).run = a.run ∧ (coreA k t).ra.served = a.ra.served + 1
          ∧ (Tab.get stage0 (coreA k t).stage (SlotW.sc w)).read = true
          ∧ (coreA k t).inflight = a.inflight ++ [⟨a.rc + 6, .v (SlotW.dst w)
              (BitVec.ofNat 2048 ((seenBy k (rankL u) s).num (gaScratch k (ldsAddr c w)) 256))⟩])

/-- Where slot N issues: NSEND and NRECV of a legal descriptor, with a free one of the 32 entries, add one post and
change nothing else; NRSTC puts zero in flight to c[DST] (DST below 16); NWOPEN of an acceptable descriptor puts the
opening of window DST in flight, and of any other faults the core with event 0x0502; NWCLOSE with IMM[26:5] zero puts
the close in flight with the counter it names. Latency 1; no byte of memory changes. -/
def Obligations.NetworkSlotOperations : Prop :=
  ∀ (k : Nat) (w : SlotWord) (s : State), Issues k .n w s →
    let a := coreA k s
    let d := rdD a (SlotW.dst w)
    let add := rdS a (SlotW.sa w)
    let post (send : Bool) : State := issued k .n (fun c => { c with posts := c.posts ++ [newPost s.p k send d add a.pc] }) s
    (SlotW.dst w < 32 → a.posts.length < 32 → postOk s.p k true d add = true → exec (.nsend k w) s = .next (post true))
    ∧ (SlotW.dst w < 32 → a.posts.length < 32 → postOk s.p k false d add = true → exec (.nrecv k w) s = .next (post false))
    ∧ (SlotW.dst w < 16 → exec (.nrstc k w) s = .next (issued k .n (launch 1 (.c (SlotW.dst w))) s))
    ∧ (SlotW.sc w < 32 → openOk s.p k (SlotW.dst w) (rdD a (SlotW.sc w)) = true →
        exec (.nwopen k w) s = .next (issued k .n (launch 1 (.wopen (SlotW.dst w) (rdD a (SlotW.sc w)))) s))
    ∧ (SlotW.sc w < 32 → openOk s.p k (SlotW.dst w) (rdD a (SlotW.sc w)) = false → a.hasFault = false →
        ∃ t, exec (.nwopen k w) s = .next t ∧ t.mem = s.mem ∧ (coreA k t).run = .faulted ∧ (coreA k t).frec.ev = 0x0502)
    ∧ (SlotW.imm w 26 5 = 0 → exec (.nwclose k w) s = .next (issued k .n
        (launch 1 (.wclose (SlotW.dst w) (if SlotW.imm w 4 4 = 1 then some (SlotW.imm w 3 0) else none))) s))

/-- Where slot C issues BR, BRL or BRX outside a delay bundle and outside the last three bundles of an active loop,
the bundle issues: the next bundle is the following one, two delay bundles remain before the target (IMM[15:0], or
s[SA][15:0] for BRX), one more bundle has issued, and BRL alone puts the index of its bundle + 3 in flight to s63 with
latency 1; no byte of memory changes. Closing the first delay bundle leaves one due and goes on at the next bundle;
closing the second goes on at the target, and no branch is pending. -/
def Obligations.BranchesTakeTwoDelayBundles : Prop :=
  (∀ (k : Nat) (w : SlotWord) (s : State), Issues k .c w s →
    let a := coreA k s
    a.branch = none → a.skip = none → inLoopTail a = false → a.pc + 1 < 65536 →
    ∀ (i : Instr) (target : Nat),
      (i = .br k w ∧ target = SlotW.imm w 15 0) ∨ (i = .brl k w ∧ target = SlotW.imm w 15 0)
        ∨ (i = .brx k w ∧ target = (rdS a (SlotW.sa w)).toNat % 2 ^ 16) →
      ∃ t, exec i s = .next t ∧ t.mem = s.mem ∧ (coreA k t).pc = a.pc + 1 ∧ (coreA k t).branch = some (target, 2)
        ∧ (coreA k t).icc = a.icc + 1
        ∧ (coreA k t).inflight = a.inflight
            ++ (if i = .brl k w then [⟨a.rc, .s 63 (BitVec.ofNat 64 (a.pc + 3))⟩] else []))
  ∧ ∀ (a : CoreA) (target : Nat), a.skip = none → target < 65536 → a.pc + 2 < 65536 →
    (a.branch = some (target, 2) → (closeA a).branch = some (target, 1) ∧ (closeA a).pc = a.pc + 1)
    ∧ (a.branch = some (target, 1) → (closeA a).branch = none ∧ (closeA a).pc = target)

/-- Where slot C issues a legal LOOP in a bundle that ends no active loop: lc[DST] holds the count s[SA][31:0], the
next bundle as start and IMM[15:0] as end; with a count above zero the loop is the innermost active one and issue goes
on at the body; with a count of zero it is not, and issue goes on after the end with the two cycles of R55 counted. No
byte of memory changes. -/
def Obligations.LoopsRunTheirBodyCountTimes : Prop :=
  ∀ (k : Nat) (w : SlotWord) (s : State), Issues k .c w s →
    let a := coreA k s
    let n := (rdS a (SlotW.sa w)).toNat % 2 ^ 32
    let stop := SlotW.imm w 15 0
    a.branch = none → a.skip = none → SlotW.dst w < 4 → a.pc + 1 ≤ stop → stop + 1 < 65536 → loopOk a w = true →
    (∀ i ∈ a.loops, (Tab.get default a.lc i).stop ≠ a.pc) →
      ∃ t, exec (.loop k w) s = .next t ∧ t.mem = s.mem
        ∧ Tab.get default (coreA k t).lc (SlotW.dst w) = ⟨n, a.pc + 1, stop⟩
        ∧ (coreA k t).loops = (if n = 0 then a.loops else SlotW.dst w :: a.loops)
        ∧ (coreA k t).pc = (if n = 0 then stop + 1 else a.pc + 1)
        ∧ (coreA k t).icc = a.icc + (if n = 0 then 3 else 1)

/-- Where slot C of a running core without a fault issues outside a delay bundle: WAITC (DST below 16), WAITS and BAR
make the core wait, from this cycle and with the expected wait IMM[15:0], for the arrival counter to reach
s[SA][31:0], for its sends, for the release of barrier IMM[23:16]; EVT holds event 0x0705 with s[SA] as data for the
bundle's issue; HALT stops issue. The bundle closes. No byte of memory changes. -/
def Obligations.WaitsEventsAndHaltCloseTheBundle : Prop :=
  ∀ (k : Nat) (w : SlotWord) (s : State), Issues k .c w s →
    let a := coreA k s
    a.hasFault = false → a.branch = none → a.run = .running →
      (SlotW.dst w < 16 → exec (.waitc k w) s = .next (issuedC k (fun c => { c with
          run := .waiting, waits := c.waits ++ [⟨.counter (SlotW.dst w) ((rdS a (SlotW.sa w)).toNat % 2 ^ 32), SlotW.imm w 15 0, a.rc⟩] }) s))
      ∧ exec (.waits k w) s = .next (issuedC k (fun c => { c with
          run := .waiting, waits := c.waits ++ [⟨.sends, SlotW.imm w 15 0, a.rc⟩] }) s)
      ∧ exec (.bar k w) s = .next (issuedC k (fun c => { c with
          run := .waiting, waits := c.waits ++ [⟨.barrier (SlotW.imm w 23 16), SlotW.imm w 15 0, a.rc⟩] }) s)
      ∧ exec (.evt k w) s = .next (issuedC k (fun c => { c with evq := c.evq ++ [⟨0x0705, some (rdS a (SlotW.sa w))⟩] }) s)
      ∧ exec (.halt k w) s = .next (issuedC k (fun c => { c with run := .halting }) s)

/-- Where slot S opens a bundle of a core without a fault with a SHLI whose IMM[26:6] is not zero, a CMPEQ with DST
above 15, an MFS of a write-only or unassigned special register or an MTS of a read-only or unassigned one, no
register is written or put in flight: the core is FAULTED with event 0x0701, the PC of the bundle, slot 0, STEP and
ICC recorded, its waits ended, its bundle not issued; no other core and no byte of memory changes. LDS of an offset
inside a slot, on a core with a staging area and no fault: on a PENDING slot whose delivery cycle has come it does not
issue yet (the die stalls until the stack releases the data); on any other slot that is not FULL at its delivery cycle
the core faults with event 0x0702 and its slot, and no register is put in flight. -/
def Obligations.AnIllegalSlotFaultsTheCoreAndUndoesItsBundle : Prop :=
  (∀ (k : Nat) (w : SlotWord) (s : State), Issues k .s w s → (s.p.getCore k).last = none → (coreA k s).hasFault = false →
    ∀ (i : Instr),
      (i = .shli k w ∧ SlotW.imm w 26 6 ≠ 0) ∨ (i = .cmpeq k w ∧ 16 ≤ SlotW.dst w)
        ∨ (i = .mfs k w ∧ (SlotW.imm w 4 0 = 4 ∨ SlotW.imm w 4 0 = 5 ∨ 8 ≤ SlotW.imm w 4 0))
        ∨ (i = .mts k w ∧ (SlotW.imm w 4 0 ≤ 3 ∨ 8 ≤ SlotW.imm w 4 0)) →
      ∃ t, exec i s = .next t ∧ t.mem = s.mem ∧ (t.p.getCore k).last = none
        ∧ coreA k t = { coreA k s with
            run := .faulted, fcode := 0x0701,
            frec := ⟨0x0701, (coreA k s).pc % 65536, 0, (coreA k s).step.toNat % 2 ^ 32, (coreA k s).icc⟩, waits := [] }
        ∧ ∀ j, j ≠ k → t.p.getCore j = s.p.getCore j)
  ∧ ∀ (k : Nat) (u : LUnit) (w : SlotWord) (e : Ecc) (s : State), Issues k (slotL u) w s → (coreA k s).hasFault = false →
    SlotW.sc w < 32 → 0 < (s.p.getCore k).stg → 256 * SlotW.imm w 15 0 + 256 ≤ (s.p.getCore k).slotBytes →
      let g := Tab.get stage0 (coreA k s).stage (SlotW.sc w)
      (g.st = .pending → slotDue s.p k g = true → exec (.lds k u w e) s = .next s)
      ∧ ((g.st = .pending → slotDue s.p k g = false) → ¬ (g.st = .full ∧ g.ready ≤ (coreA k s).rc) →
          ∃ t, exec (.lds k u w e) s = .next t ∧ t.mem = s.mem ∧ (coreA k t).run = .faulted
            ∧ (coreA k t).frec.ev = 0x0702 ∧ (coreA k t).frec.slot = slotRank (slotL u)
            ∧ (coreA k t).inflight = (coreA k s).inflight)

/-- Where the one write in flight of a core is to a scalar register other than s0 and is due in the present cycle,
whose bundle has issued, RESULT_WRITEBACK leaves none in flight; the register reads the value, every other scalar
register, the vector and predicate registers, every other core and every byte of memory are as before. Where two
writes to it land in the same cycle, it holds the value of the operation issued last and the collision counter has
gained one. -/
def Obligations.LandedWritesAreReadByLaterBundles : Prop :=
  ∀ (k : Nat) (s : State) (n : Nat) (v x : Word), isCore k = true → n ≠ 0 → (s.p.getCore k).last = none →
    ((coreA k s).inflight = [⟨(coreA k s).rc, .s n v⟩] → (coreA k s).run = .running → (coreA k s).rc < (coreA k s).issued →
      ∃ t, exec (.resultWriteback k) s = .next t ∧ t.mem = s.mem ∧ (coreA k t).inflight = []
        ∧ rdS (coreA k t) n = v ∧ (∀ m, m ≠ n → rdS (coreA k t) m = rdS (coreA k s) m)
        ∧ (coreA k t).v = (coreA k s).v ∧ (coreA k t).p = (coreA k s).p ∧ ∀ j, j ≠ k → t.p.getCore j = s.p.getCore j)
    ∧ ((coreA k s).inflight = [⟨(coreA k s).rc, .s n v⟩, ⟨(coreA k s).rc, .s n x⟩] → (coreA k s).run = .halting →
      ∃ t, exec (.resultWriteback k) s = .next t ∧ t.mem = s.mem ∧ rdS (coreA k t) n = x
        ∧ (coreA k t).wctr.collisions = (coreA k s).wctr.collisions + 1)

/-- On every core: the due unit of its one live stream is delivered, the stream ending with its last unit (kinds 2 to
4), and of kind 2 its A row joins the feed queue; a kind-4 unit in its bank cycle makes its scratchpad bytes the
accumulator row across the masked arrays and no others, where the core has no other write in the run cycle; a wait for
a counter or for sends that is met, with no register write in flight, ends: the core runs, issues from the next cycle,
and the wait and its slip beyond the expected length are counted; HALT completes once no wait, stream, write, send or
requested row word is left, and the core is HALTED; the scratchpad clear, where no reset of the die is under way, ends
with every scratchpad byte zero, every other byte as before, and the core STOPPED. -/
def Obligations.StreamsDeliverWaitsEndProgramsEnd : Prop :=
  ∀ (k : Nat) (s : State), isCore k = true →
    let a := coreA k s
    (∀ st : Stream, a.streams = [st] → st.dead = false → st.delivered < st.captured → unitCycle st ≤ a.rc →
      (∃ t, exec (.streamUnitDelivery k st.sid ⟨[], []⟩) s = .next t ∧ t.mem = s.mem
        ∧ (2 ≤ Dsc.kind st.desc → ((coreA k t).streams = [] ↔ st.delivered + 1 = Dsc.units st.desc))
        ∧ (Dsc.kind st.desc = 2 → Dsc.unit st.desc = mxRow st.bfmt → 0 < mxRow st.bfmt →
            (coreA k t).feed = a.feed ++ [st.bufs.getD 0 0 % 256 ^ mxRow st.bfmt])))
    ∧ (∀ st : Stream, capturesAt a.rc st = true → Dsc.kind st.desc = 4 → (s.p.getCore k).stores = [] →
        let ga := gaScratch k (captureAddr st)
        let row := drainRow a (Dsc.mask st.desc) ((st.src + st.captured) % 256)
        (∀ i < Dsc.unit st.desc, (captureStream k st s).mem.read (ga + i) = BitVec.ofNat 8 (row / 256 ^ i))
        ∧ ∀ x, x < ga ∨ ga + Dsc.unit st.desc ≤ x → (captureStream k st s).mem.read x = s.mem.read x)
    ∧ (∀ x : Wait, a.run = .waiting → a.waits = [x] → ((∃ c v, x.kind = .counter c v) ∨ x.kind = .sends) →
        waitMet a x.kind = true → (∀ f ∈ a.inflight, isRegWrite f.w = false) →
        ∃ t, exec (.waitEnd k) s = .next t ∧ t.mem = s.mem ∧ (coreA k t).run = .running ∧ (coreA k t).waits = []
          ∧ (coreA k t).issued = a.rc + 1 ∧ (coreA k t).wctr.wait = a.wctr.wait + (a.rc - x.start)
          ∧ (coreA k t).wctr.slip = a.wctr.slip + (a.rc - x.start - x.expect))
    ∧ (a.run = .halting → a.waits = [] → a.streams = [] → a.inflight = [] → (∀ q ∈ a.posts, q.send = false) →
        rowsPending s.p k = false → ∃ t, exec (.haltComplete k) s = .next t ∧ t.mem = s.mem ∧ (coreA k t).run = .halted)
    ∧ (a.run = .resetting → (s.p.getCore k).clearing = 0 → Tab.find? s.p.rst (siteOf k) = none → ∃ t, exec (.scratchpadClearDone k) s = .next t
        ∧ (coreA k t).run = .stopped ∧ (∀ i < scratchBytes, t.mem.read (gaScratch k i) = memDefault)
        ∧ ∀ x, x < gaScratch k 0 ∨ gaScratch k scratchBytes ≤ x → t.mem.read x = s.mem.read x)

/-- On every core that is not being cleared: the part of a window write that wins a free bank writes its bytes and no
others, and its wait is counted; the one part that has waited beyond the starvation threshold is counted once; a span
without an open cycle counts one miss; a window write that passes its checks is taken from the ingress queue, accepted
and in flight; one for a window that is not OPEN or of another generation is taken from the queue, counted late and
recorded with reason 1, and asks for no part; a CLOSING window with nothing in flight is CLOSED, its generation kept,
every other window as before. -/
def Obligations.UnscheduledAccessesAndWindows : Prop :=
  ∀ (k bank w : Nat) (x : UPart) (c : Cell) (s : State), isCore k = true → bank < 256 → w < 64 →
    let o := s.p.getCore k
    let a := o.a
    (a.run ≠ .resetting → bankBusy o bank = false → o.granted = [] →
      (∀ r n ga d, winner o bank = some (x, r) → x.act = .win n ga d → ∃ t, exec (.unscheduledPartGrant k bank ⟨[], []⟩) s = .next t
        ∧ t.mem = s.mem.writeL (gaScratch k ga) d
        ∧ (coreA k t).sctr.parts = a.sctr.parts + 1
        ∧ (coreA k t).sctr.waitCc = a.sctr.waitCc + ((s.p.getClk (siteOf k)).clk - x.asked)))
    ∧ (o.parts = [x] → x.starved = false → x.asked + dieCfg s.p (siteOf k) 0x600C 1 < (s.p.getClk (siteOf k)).clk →
        ∃ t, exec (.unscheduledStarved k) s = .next t ∧ t.mem = s.mem
          ∧ (coreA k t).sctr.starved = a.sctr.starved + 1 ∧ (t.p.getCore k).parts = [{ x with starved := true }])
    ∧ (0 < o.missDue → ∃ t, exec (.openCycleMiss k) s = .next t ∧ t.mem = s.mem
        ∧ (coreA k t).sctr.misses = a.sctr.misses + 1 ∧ (t.p.getCore k).missDue = o.missDue - 1)
    ∧ (o.winq = [c] → winCheck a c = none → ∃ t, exec (.windowIngressCheck k) s = .next t ∧ t.mem = s.mem
        ∧ (t.p.getCore k).winq = [] ∧ (coreA k t).wnctr.accepted = a.wnctr.accepted + 1
        ∧ (Tab.get window0 (coreA k t).win (winPrefix c).win).inflight = (Tab.get window0 a.win (winPrefix c).win).inflight + 1)
    ∧ (o.winq = [c] → winCheck a c = some 1 → ∃ t, exec (.windowIngressCheck k) s = .next t ∧ t.mem = s.mem
        ∧ (t.p.getCore k).winq = [] ∧ (coreA k t).wnctr.late = a.wnctr.late + 1
        ∧ (t.p.getCore k).parts = o.parts ∧ (t.p.getCore k).discard.reason = 1)
    ∧ (let y := Tab.get window0 a.win w
       y.st = .closing → y.inflight = 0 → ∃ t, exec (.windowCloseComplete k w) s = .next t ∧ t.mem = s.mem
        ∧ (Tab.get window0 (coreA k t).win w).st = .closed ∧ (Tab.get window0 (coreA k t).win w).gen = y.gen
        ∧ ∀ v, v ≠ w → Tab.get window0 (coreA k t).win v = Tab.get window0 a.win v)

/-- A write to special register 1 to 7 of a stopped core on an open site, within the range of RNDMODE and EXFLAG,
changes that register and nothing else; while the core is not stopped it changes no core and is counted as refused. A
write to the program store of a stopped core changes exactly its bytes; while the core is not stopped it changes
nothing. A write by global address that passes every check: to a scratchpad, it becomes one general access, a part for
every line, and nothing else changes; to a stack, where no row word written in part is poisoned, its bytes hold the
data, and no byte outside its row words and no core changes. One that does not pass changes no byte, no core (but a
page map's count of refusals) and is counted as refused. -/
def Obligations.ControlSpaceAndProgramWrites : Prop :=
  ∀ (k n off : Nat) (x : Word) (data : List Byte) (b : By) (ga : Nat) (s : State), isCore k = true →
    (siteOpen s.p (siteOf k) = true → coreIdle s.p k = true → 1 ≤ n → n ≤ 7 → (n = 6 → x.toNat ≤ 2) → (n = 7 → x.toNat ≤ 1) →
      exec (.controlSpaceSpecialWrite k n x) s = .next { s with p := s.p.modA k (wrSpec n x) })
    ∧ (siteOpen s.p (siteOf k) = true → coreIdle s.p k = false →
        ∃ t, exec (.controlSpaceSpecialWrite k n x) s = .next t ∧ t.mem = s.mem ∧ t.p.core = s.p.core
          ∧ t.p.gaRefusals = s.p.gaRefusals + 1)
    ∧ (programWritable s.p k off data.length = true → ∃ t, exec (.programStoreWrite k off data) s = .next t
        ∧ (∀ i < data.length, t.mem.read (gaProgram k off + i) = data.getD i 0)
        ∧ (∀ a, a < gaProgram k off ∨ gaProgram k off + data.length ≤ a → t.mem.read a = s.mem.read a)
        ∧ (t.p.getCore k).loaded = true)
    ∧ (siteOpen s.p (siteOf k) = true → off + data.length ≤ programBytes → coreIdle s.p k = false →
        exec (.programStoreWrite k off data) s = .next s)
    ∧ (gaAllowed s.p b ga data.length = true → Ga.space ga = 1 → exec (.registerWrite (.ga b ga []) data) s
        = .next { s with p := askGeneral .posted (Ga.site ga) (Ga.off ga) data.length (some data) s.p })
    ∧ (gaAllowed s.p b ga data.length = true → Ga.space ga = 0 →
        (∀ r ∈ partRows (Ga.off ga) data.length, poisoned (s.p.getStk (Ga.site ga)) r = false) →
        ∃ t, exec (.registerWrite (.ga b ga []) data) s = .next t ∧ t.p.core = s.p.core
          ∧ (∀ i < data.length, t.mem.read (gaStack (Ga.site ga) (Ga.off ga) + i) = data.getD i 0)
          ∧ ∀ x, (∀ r ∈ rowWords (Ga.off ga) data.length, x < gaStack (Ga.site ga) (256 * r) ∨ gaStack (Ga.site ga) (256 * r) + 256 ≤ x) →
              t.mem.read x = s.mem.read x)
    ∧ (gaAllowed s.p b ga data.length = false → ∃ t, exec (.registerWrite (.ga b ga []) data) s = .next t
        ∧ t.mem = s.mem ∧ (Ga.space ga ≠ 4 → t.p.core = s.p.core) ∧ t.p.gaRefusals = s.p.gaRefusals + 1)

/-- On a compute die that does not stall and has had no grant pass in this cycle, the one row word that a stream of
kind 0 presents: where five row words of its channel have been granted in the span, it waits and is counted for its
channel; else, where the bank rule lets it in, it becomes one unchecked request of its core, stream, address, run
cycle and clock, for its scratchpad address. The check of the one request in flight, with no failing lane and no
poison, leaves it clean. A clean request of a core whose release point has come is no longer in flight, and where the
core has no other write in the run cycle its 256 bytes stand at its scratchpad address and no other byte changes. -/
def Obligations.RowWordsAreGrantedCheckedAndReleased : Prop :=
  ∀ (cs : Nat) (s : State), isCompute cs = true →
    let stk := s.p.getStk cs
    let clk := s.p.getClk cs
    (∀ (c : Cand) (st : Stream) (base : Nat), clk.stall = 0 → stk.passAt ≠ some clk.clk → dieCands s.p cs = [c] →
      streamOf s.p (4 * cs + c.core) c.sid = some st → Dsc.kind st.desc = 0 → candBase s.p (4 * cs + c.core) st c.unit = some base →
      let w := base / 256 + c.idx
      let rc := (s.p.getCore (4 * cs + c.core)).a.rc
      let n := ((spanChannels stk rc).filter fun h => decide (h = Row.ch w)).length
      (5 ≤ n → ∃ t, exec (.stackRequestGrant cs) s = .next t ∧ t.mem = s.mem ∧ (t.p.getStk cs).reqs = stk.reqs
          ∧ (t.p.getStk cs).ctr.chan = stk.ctr.chan + 1)
      ∧ (n < 5 → ∀ row, bankRule stk w rc = some row → ∃ t r, exec (.stackRequestGrant cs) s = .next t ∧ t.mem = s.mem
          ∧ (t.p.getStk cs).reqs = stk.reqs ++ [r] ∧ (t.p.getStk cs).passAt = some clk.clk
          ∧ r.core = c.core ∧ r.sid = c.sid ∧ r.addr = 256 * w ∧ r.rc = rc ∧ r.clk = clk.clk ∧ r.out = .unchecked
          ∧ r.dest = ((st.dst : Int) + Dsc.off st.desc c.unit).toNat + 256 * c.idx))
    ∧ (∀ (k : Nat) (r : RowReq), siteOf k = cs → stk.reqs = [r] → r.core = coreOf k → r.out = .unchecked →
        poisoned stk (r.addr / 256) = false →
        ∃ t, exec (.stackReadCheck k r.sid r.unit r.idx []) s = .next t ∧ t.mem = s.mem
          ∧ (t.p.getStk cs).reqs = [{ r with out := .clean }])
    ∧ (∀ (k : Nat) (r : RowReq), siteOf k = cs → stk.reqs = [r] → r.core = coreOf k → r.out = .clean → r.sra = false →
        r.dropped = false → releaseDue s.p k r = true →
        ∃ t, exec (.stackRowWordRelease k r.sid r.unit r.idx) s = .next t ∧ (t.p.getStk cs).reqs = []
          ∧ ((s.p.getCore k).stores = [] →
              (∀ i < 256, t.mem.read (gaScratch k r.dest + i) = BitVec.ofNat 8 (r.data / 256 ^ i))
              ∧ ∀ x, x < gaScratch k r.dest ∨ gaScratch k r.dest + 256 ≤ x → t.mem.read x = s.mem.read x))

/-- On every compute die: a correction write-back takes the oldest waiting row word and changes nothing else; a
refresh advances the refresh position, over all rows of the variant; a scrub that finds no failing lane and no poison
advances the scrub position and counts a pass at its end only, and no error is counted; a completed copy puts the one
retiring row's entry in force, counts a retirement and leaves none retiring; a pending store of the spare map, with
room for the map and another write under way, waits its turn and is pending no more, and with none pending nothing
changes. No byte of memory changes. -/
def Obligations.StackHousekeeping : Prop :=
  ∀ (cs : Nat) (s : State), isCompute cs = true →
    let stk := s.p.getStk cs
    exec (.correctionWriteback cs) s = .next { s with p := s.p.modStk cs fun k => { k with writeback := k.writeback.drop 1 } }
    ∧ (∃ t, exec (.refresh cs) s = .next t ∧ t.mem = s.mem
        ∧ t.p = s.p.modStk cs fun k => { k with refreshPos := (k.refreshPos + 1) % (bankRows s.p.variant * 512) })
    ∧ (poisoned stk stk.scrubPos = false → ∃ t, exec (.scrub cs []) s = .next t ∧ t.mem = s.mem
        ∧ (t.p.getStk cs).scrubPos = (stk.scrubPos + 1) % (stackBytes s.p.variant / 256)
        ∧ (t.p.getStk cs).ctr.corrected = stk.ctr.corrected ∧ (t.p.getStk cs).ctr.uncorr = stk.ctr.uncorr
        ∧ (t.p.getStk cs).ctr.scrubs = stk.ctr.scrubs + (if stk.scrubPos + 1 = stackBytes s.p.variant / 256 then 1 else 0))
    ∧ (∀ (slot : Nat) (e : BitVec 64), stk.retiring = [⟨slot, e, none⟩] → ∃ t, exec (.rowRetired cs slot) s = .next t ∧ t.mem = s.mem
        ∧ Spare.v (Tab.get 0 (t.p.getStk cs).spare slot) = true ∧ (t.p.getStk cs).retiring = []
        ∧ (t.p.getStk cs).ctr.retired = stk.ctr.retired + 1)
    ∧ (stk.mapPending = true → allSpares s.p ≤ 453568 → s.p.pwr.writes ≠ [] → ∃ t w, exec (.spareMapStoreRetry cs) s = .next t
        ∧ t.mem = s.mem ∧ (t.p.getStk cs).mapPending = false ∧ t.p.pwr.writes = s.p.pwr.writes ++ [w] ∧ w.id = recSpare cs)
    ∧ (stk.mapPending = false → exec (.spareMapStoreRetry cs) s = .next s)

/-- COUPLING_SAMPLE on the T128, and COUPLING_LEVEL_SET on the others, keep the DRAM readings; with every reading at
most 92.0 degrees the level is the next one for the junction, with one at 95.0 degrees or above it is forced to 3; on
the other variants each changes nothing. A KV map entry that may be written is the only thing its write changes; one
that may not leaves the map, and is counted as refused. No byte of memory changes. -/
def Obligations.CouplingLevelsAndKvMapEntries : Prop :=
  ∀ (cs k page : Nat) (x : BitVec 32) (j : Int) (dram : List (Option Int)) (s : State), isCompute cs = true → isCore k = true →
    page < 65536 →
    (∀ i : Instr, (i = .couplingSample cs j dram ∧ s.p.variant = 1) ∨ (i = .couplingLevelSet cs j dram ∧ s.p.variant ≠ 1) →
      ∃ t, exec i s = .next t ∧ t.mem = s.mem ∧ (t.p.getStk cs).dram = dram
        ∧ ((∀ y, some y ∈ dram → y ≤ 920) → (t.p.getStk cs).level = nextLevel (s.p.getStk cs).level j ∧ (t.p.getStk cs).hot = false)
        ∧ ((∃ y, some y ∈ dram ∧ 950 ≤ y) → (t.p.getStk cs).level = 3 ∧ (t.p.getStk cs).hot = true))
    ∧ (s.p.variant ≠ 1 → exec (.couplingSample cs j dram) s = .next s)
    ∧ (s.p.variant = 1 → exec (.couplingLevelSet cs j dram) s = .next s)
    ∧ (kvWritable s.p k page x = true → ∃ t, exec (.kvMapEntryWrite k page x) s = .next t ∧ t.mem = s.mem
        ∧ Tab.get 0 (t.p.getCore k).kvmap page = x ∧ coreA k t = coreA k s
        ∧ ∀ q, q ≠ page → Tab.get 0 (t.p.getCore k).kvmap q = Tab.get 0 (s.p.getCore k).kvmap q)
    ∧ (kvWritable s.p k page x = false → ∃ t, exec (.kvMapEntryWrite k page x) s = .next t ∧ t.mem = s.mem
        ∧ (t.p.getCore k).kvmap = (s.p.getCore k).kvmap ∧ (coreA k t).kv.refused = (coreA k s).kv.refused + 1
        ∧ t.p.gaRefusals = s.p.gaRefusals + 1)

/-- On every router: a due MOVE entry between edge tracks, no entry before it able to fire, with its cell at the head
of its input and an output that has credit and an enabled link, fires: the cell leaves the input, its firing and one
credit of the output's track and VC are counted, and it is last among the cells that the link will take, under the
entry's output VC; an entry that may not fire changes nothing. A data cell that an accepted flit brought on a track
that no transit entry names joins its VC queue, but on a compute die of another partition, or of none, it is discarded
and counted and no queue changes. Credits that an accepted flit brought are counted back once, others not at all. The
transit cell that an entry of a compute die holds is put on its output track and enters no queue of the die. No core
and no byte of memory changes. -/
def Obligations.CellsMoveFromRouterToRouter : Prop :=
  ∀ (m : Nat) (s : State), isMesh m = true →
    let r := s.p.getRtr m
    (∀ (e : Nat) (ecc : WordChk) (c : Cell) (q : List Cell), entryDue s.p m e = true → firstEligible s.p m e = true →
      let x := r.entry e
      let out := Hop.out x
      Hop.mode x = 0 → Hop.inp x < 0x80 → out < 0x80 → Tab.get [] r.inq (8 * Hop.inp x + Hop.ivc x) = c :: q →
      canSend s.p m out (Hop.ovc x) = true →
      ∃ t, exec (.hopEntryFire m e ecc) s = .next t ∧ t.mem = s.mem ∧ t.p.core = s.p.core
        ∧ Tab.get [] (t.p.getRtr m).inq (8 * Hop.inp x + Hop.ivc x) = q ∧ (t.p.getRtr m).firedOf e = r.firedOf e + 1
        ∧ sentOf (t.p.getRtr m) out (Hop.ovc x) = sentOf r out (Hop.ovc x) + 1
        ∧ Tab.get [] (t.p.getRtr m).tx (out / 32) = Tab.get [] r.tx (out / 32) ++ [(out % 32, CellF.withVc (Hop.ovc x) c)])
    ∧ (∀ (e : Nat) (ecc : WordChk), eligible s.p m e = false → exec (.hopEntryFire m e ecc) s = .next s)
    ∧ (∀ (code : Nat) (c : Cell) (w : List Cell), code < 0x80 → Tab.get [] r.wire code = c :: w → CellF.typ c ≤ 2 →
        deadDie s.p m = false → transitOf r code = none → packing s.p m = false → (s.p.getDie m).frozen = false →
        let foreign := isCompute m = true ∧ s.p.partOf m ≠ some (CellF.part c)
        ∃ t, exec (.cellArrival m code c) s = .next t ∧ t.mem = s.mem ∧ t.p.core = s.p.core
          ∧ Tab.get [] (t.p.getRtr m).wire code = w
          ∧ (¬ foreign → Tab.get [] (t.p.getRtr m).inq (8 * code + CellF.vc c) = Tab.get [] r.inq (8 * code + CellF.vc c) ++ [c])
          ∧ (foreign → (t.p.getRtr m).inq = r.inq ∧ (t.p.getRtr m).ctr.boundary = r.ctr.boundary + 1))
    ∧ (∀ (out vc n : Nat), out < 0x80 → vc < 8 →
        ((8 * out + vc, n) ∈ r.creditIn → ∃ t, exec (.creditReturn m out vc n) s = .next t ∧ t.mem = s.mem ∧ t.p.core = s.p.core
          ∧ sentOf (t.p.getRtr m) out vc = sentOf r out vc - n ∧ (t.p.getRtr m).creditIn.length + 1 = r.creditIn.length)
        ∧ ((8 * out + vc, n) ∉ r.creditIn → exec (.creditReturn m out vc n) s = .next s))
    ∧ (∀ (i : Nat) (c : Cell), isCompute m = true → i < 32 → r.held = [(i, c)] →
        let out := fld (Tab.get 0 r.transit i) 15 8
        canSend s.p m out (CellF.vc c) = true → ∃ t, exec (.transitForward m i) s = .next t ∧ t.mem = s.mem ∧ t.p.core = s.p.core
          ∧ (t.p.getRtr m).held = [] ∧ (t.p.getRtr m).inq = r.inq ∧ sentOf (t.p.getRtr m) out (CellF.vc c) = sentOf r out (CellF.vc c) + 1
          ∧ Tab.get [] (t.p.getRtr m).tx (out / 32) = Tab.get [] r.tx (out / 32) ++ [(out % 32, c)])

/-- On every router, of a flit that the far die sends on an enabled link whose sender is free again: a good one with
the number expected advances it, ends a replay, and its cells go on to their tracks in order; a bad one, while none is
waited for, is counted and begins one replay with the number expected as before; the sixteenth failure of one number
in a row fails the link; of a bad flit no cell goes on. An unfired entry of the running segment whose lateness has
reached the limit is recorded as stalled, its cells and credits kept. The next payload of a core track with room in
its buffer, whose cycle is past, is counted a late send and asked for line by line at unscheduled rank; before its
cycle nothing changes. No byte of memory changes. -/
def Obligations.LinksStallsAndPayloadReads : Prop :=
  ∀ (m k track e edge seq ns : Nat) (s : State), isMesh m = true → isCore k = true → track < 16 → edge < 4 →
    let r := s.p.getRtr m
    let l := Tab.get link0 r.link edge
    let f := farEdge m edge
    (∀ x : Flit, linkDisabled s.p m (32 * edge) = false → (Tab.get link0 (s.p.getRtr f.1).link f.2).txAt ≤ s.p.clk.vco →
        (flitOf f.1 f.2 seq s.p).1 = some x →
      (x.seq = l.next → ∃ t, exec (.linkFlitReceive m edge seq x.ack true ns) s = .next t ∧ t.mem = s.mem
        ∧ (Tab.get link0 (t.p.getRtr m).link edge).next = (l.next + 1) % 65536
        ∧ (Tab.get link0 (t.p.getRtr m).link edge).flits = l.flits + 1
        ∧ (Tab.get link0 (t.p.getRtr m).link edge).waiting = false
        ∧ (∀ i, Tab.get [] (t.p.getRtr m).wire (32 * edge + i) = Tab.get [] r.wire (32 * edge + i)
            ++ ((x.cells.filter fun c => decide (c.1 = i)).map (·.2))))
      ∧ (l.waiting = false → ∃ t, exec (.linkFlitReceive m edge seq x.ack false ns) s = .next t ∧ t.mem = s.mem
        ∧ (Tab.get link0 (t.p.getRtr m).link edge).next = l.next ∧ (Tab.get link0 (t.p.getRtr m).link edge).crc = l.crc + 1
        ∧ (Tab.get link0 (t.p.getRtr m).link edge).replays = l.replays + 1
        ∧ (Tab.get link0 (t.p.getRtr m).link edge).waiting = true ∧ (t.p.getRtr m).wire = r.wire)
      ∧ (l.waiting = true → x.seq = l.next → 15 ≤ l.fails →
          ∃ t, exec (.linkFlitReceive m edge seq x.ack false ns) s = .next t ∧ t.mem = s.mem
            ∧ (Tab.get link0 (t.p.getRtr m).link edge).failed = true ∧ (t.p.getRtr m).wire = r.wire))
    ∧ (r.running = true → r.has e = true → r.firedOf e < Seg.reps r.desc → r.stalled = none →
        entryCycle r e + dieCfg s.p m 0x7008 0 ≤ r.cyc → ∃ t, exec (.netStalled m e) s = .next t ∧ t.mem = s.mem
          ∧ (t.p.getRtr m).stalled = some (e, r.firedOf e) ∧ (t.p.getRtr m).inq = r.inq ∧ (t.p.getRtr m).sent = r.sent)
    ∧ (∀ (q : Post) (o : Nat), nextRead (coreA k s) track = some (q, o) → bufLoad s.p k track < 16 →
        (s.p.getRtr (siteOf k)).running = true →
        let at_ := (s.p.getRtr (siteOf k)).ordCycle true (trackCode (coreOf k) track) o
        (at_ < (s.p.getRtr (siteOf k)).cyc + 8 → ∃ t, exec (.sendPayloadRead k track ⟨[], []⟩) s = .next t ∧ t.mem = s.mem
          ∧ (t.p.getRtr (siteOf k)).ctr.lateSends = (s.p.getRtr (siteOf k)).ctr.lateSends + 1
          ∧ (t.p.getCore k).parts.length = (s.p.getCore k).parts.length + (lineParts 2 (q.base + 40 * q.read) 40).length)
        ∧ ((s.p.getRtr (siteOf k)).cyc + 8 < at_ → exec (.sendPayloadRead k track ⟨[], []⟩) s = .next s))

/-- The one result being formed in an operator unit enters its queue once its cycle has come and not before, and the
rest of the unit is unchanged. SUM of two payloads adds their four EX80 values modulo 2 to the 80, in either order
alike, and its identity leaves a payload as it was. A pair put among the pairs of a merge keeps them in rank order,
with exactly that pair added. -/
def Obligations.OperatorUnitsFormTheirResults : Prop :=
  (∀ (cs u : Nat) (s : State) (x : OpUnit) (y : OpResult), isCompute cs = true → u < 16 →
    Tab.get opUnit0 (s.p.getRtr cs).unit u = x → x.queue = [y] → y.formed = false →
      (y.ready ≤ (s.p.getRtr cs).cyc → ∃ t, exec (.operatorResultReady cs u) s = .next t ∧ t.mem = s.mem
        ∧ Tab.get opUnit0 (t.p.getRtr cs).unit u = { x with queue := [{ y with formed := true }] })
      ∧ ((s.p.getRtr cs).cyc < y.ready → ∃ t, exec (.operatorResultReady cs u) s = .next t ∧ t.mem = s.mem
        ∧ Tab.get opUnit0 (t.p.getRtr cs).unit u = x))
    ∧ (∀ (et x y : Nat), x < 2 ^ 320 → y < 2 ^ 320 →
        lanes 80 4 (combine 1 et x y) = List.zipWith (fun a b => (a + b) % 2 ^ 80) (lanes 80 4 x) (lanes 80 4 y)
        ∧ combine 1 et x y = combine 1 et y x ∧ combine 1 et x (identity 1 et) = x)
    ∧ (∀ (x : Nat) (l : List Nat), l.Pairwise (fun a b => ranksAbove b a = false) →
        (insertPair x l).Pairwise (fun a b => ranksAbove b a = false) ∧ (insertPair x l).length = l.length + 1
        ∧ ∀ y, y ∈ insertPair x l ↔ y = x ∨ y ∈ l)

/-- On every router: the service cell at the head of VC 7 of an edge input joins the queue of its next output while
that holds fewer than 8, and else stays; one that has arrived goes to the agent while that holds fewer than 16; a cell
that has waited past the threshold is counted once; the agent's one request leaves it: a permitted read of a program
store is answered, status 0, with its bytes; a permitted write to a scratchpad becomes one general access, not yet
answered; an operation other than 1 and 2 is answered with status 3 by either command. At a hub a good response is
taken from the agent and goes to its guest under the guest's own tag, and the last cell of an access ends the request.
No byte of memory changes. -/
def Obligations.ServiceCellsAreQueuedServedAndAnswered : Prop :=
  ∀ (m : Nat) (err : RowErr) (c : Cell) (s : State), isMesh m = true →
    let r := s.p.getRtr m
    (∀ (code : Nat) (q : List Cell), code < 0x80 → Tab.get [] r.inq (8 * code + 7) = c :: q →
      (∀ e, serviceNext s.p m code c = some (some e) →
        ((Tab.get [] r.svcq e).length < 8 → ∃ t, exec (.serviceCellQueue m code) s = .next t ∧ t.mem = s.mem
          ∧ Tab.get [] (t.p.getRtr m).inq (8 * code + 7) = q ∧ Tab.get [] (t.p.getRtr m).svcq e = Tab.get [] r.svcq e ++ [c])
        ∧ (8 ≤ (Tab.get [] r.svcq e).length → exec (.serviceCellQueue m code) s = .next s))
      ∧ (serviceNext s.p m code c = some none → r.agent.length < 16 →
          ∃ t, exec (.serviceCellQueue m code) s = .next t ∧ t.mem = s.mem
            ∧ Tab.get [] (t.p.getRtr m).inq (8 * code + 7) = q ∧ (t.p.getRtr m).agent = r.agent ++ [c]))
    ∧ (serviceHere r = [c] → r.svcWaited = [] →
        Tab.get (s.p.getClk m).clk r.svcSince (svcTag c) + dieCfg s.p m 0x7008 1 < (s.p.getClk m).clk →
        ∃ t, exec (.serviceStarved m) s = .next t ∧ t.mem = s.mem ∧ (t.p.getRtr m).ctr.starved = r.ctr.starved + 1
          ∧ (t.p.getRtr m).svcWaited = [svcTag c])
    ∧ (r.agent = [c] → CellF.typ c = 3 → agentOk s.p m c = true →
        (Svc.op c = 1 → Ga.space (Svc.ga c) = 2 → ∃ t, exec (.serviceRead m err) s = .next t ∧ t.mem = s.mem
          ∧ (t.p.getRtr m).agent = []
          ∧ (t.p.getRtr m).reply = r.reply ++ replyCells s.p m c 0
              (s.mem.readN (gaProgram (Ga.core (Svc.ga c)) (Ga.off (Svc.ga c) % 2 ^ 26)) (Svc.len c)))
        ∧ (Svc.op c = 2 → Ga.space (Svc.ga c) = 1 → ∃ t, exec (.serviceWrite m err) s = .next t ∧ t.mem = s.mem
          ∧ (t.p.getRtr m).agent = [] ∧ (t.p.getRtr m).reply = r.reply
          ∧ ∃ g : GenAcc, t.p.gen = s.p.gen ++ [g] ∧ g.who = .service c))
    ∧ (r.agent = [c] → CellF.typ c = 3 → Svc.op c ≠ 1 → Svc.op c ≠ 2 → ∀ i : Instr, i = .serviceRead m err ∨ i = .serviceWrite m err →
        ∃ t, exec i s = .next t ∧ t.mem = s.mem ∧ (t.p.getRtr m).agent = [] ∧ (t.p.getRtr m).reply = r.reply ++ [replyCell s.p m c 3 0 []])
    ∧ (∀ (hub : Nat) (x : SvcOut), isHub hub = true → (s.p.getRtr hub).agent = [c] → Svc.status c = 0 → s.p.host.svc = [x] →
        x.tag = svcTag c →
        ∃ t, exec (.serviceResponse hub) s = .next t ∧ t.mem = s.mem ∧ (t.p.getRtr hub).agent = []
          ∧ (x.left ≤ 1 → t.p.host.svc = []) ∧ (1 < x.left → t.p.host.svc = [{ x with left := x.left - 1 }])
          ∧ (t.p.getGuest x.guest).answers = (s.p.getGuest x.guest).answers ++ [withTag x.gtag c])

/-- On every router: a segment whose checks all pass is committed, and one that fails a check leaves only the record
of the refusal with its entry, its check and the tick. A write to a hop entry, a segment descriptor or (on compute
dies) a unit descriptor of an open site outside the running segment changes that entry and returns the segments it
belongs to to uncommitted; one inside the running segment changes nothing of the router and is counted as refused. No
byte of memory changes. -/
def Obligations.SegmentsCommitAndDescriptorsAreWritten : Prop :=
  ∀ (m n e : Nat) (x : BitVec 128) (s : State), isMesh m = true → n < 64 → e < 65536 →
    let r := s.p.getRtr m
    (segFail s.p m n = none → ∃ t, exec (.segmentCommit m n) s = .next t ∧ t.mem = s.mem
      ∧ (t.p.getRtr m) = { r with committed := r.committed ||| 2 ^ n })
    ∧ (∀ i c, segFail s.p m n = some (i, c) → ∃ t, exec (.segmentCommit m n) s = .next t ∧ t.mem = s.mem
      ∧ (t.p.getRtr m) = { r with refusal := (n, i, c, s.p.now) })
    ∧ (siteOpen s.p m = true → entryBusy r e = false → ∃ t, exec (.hopTableWrite m e x) s = .next t ∧ t.mem = s.mem
      ∧ (t.p.getRtr m).entry e = BitVec.ofNat 64 x.toNat ∧ (∀ i, i ≠ e → (t.p.getRtr m).entry i = r.entry i)
      ∧ (t.p.getRtr m).seg = r.seg ∧ ∀ i < 64, segHas r i e = true → (t.p.getRtr m).committed.testBit i = false)
    ∧ (siteOpen s.p m = true → segBusy r n = false → ∃ t, exec (.hopTableWrite m (65536 + n) x) s = .next t ∧ t.mem = s.mem
      ∧ (t.p.getRtr m).segDesc n = x ∧ (t.p.getRtr m).hop = r.hop ∧ (t.p.getRtr m).committed.testBit n = false)
    ∧ (siteOpen s.p m = true → entryBusy r e = true → ∃ t, exec (.hopTableWrite m e x) s = .next t ∧ t.mem = s.mem
      ∧ t.p.getRtr m = r ∧ t.p.gaRefusals = s.p.gaRefusals + 1)
    ∧ (∀ (u : Nat) (d : BitVec 256), isCompute m = true → u < 16 → siteOpen s.p m = true →
        (segBusy r n = false → ∃ t, exec (.unitDescriptorWrite m n u d) s = .next t ∧ t.mem = s.mem
          ∧ Tab.get 0 (t.p.getRtr m).udesc (16 * n + u) = d ∧ (t.p.getRtr m).committed.testBit n = false)
        ∧ (segBusy r n = true → ∃ t, exec (.unitDescriptorWrite m n u d) s = .next t ∧ t.mem = s.mem
          ∧ t.p.getRtr m = r ∧ t.p.gaRefusals = s.p.gaRefusals + 1))

/-- For every region: a record that may be defined makes the region DEFINED with its partition, its image and the
members of its rectangle, and any other changes nothing; ARM of a DEFINED region with barrier 0 ready and its windows
quiet makes it ARMED with the same members; START of an ARMED region makes it ACTIVE; FREEZE of an ACTIVE region that
is not freezing makes it freeze and counts it; once its footprint has stopped and no cell of it has come for 100 ticks
it is FROZEN; DISSOLVE of a DEFINED, ARMED, FROZEN or ENDED region makes it FREE with no members. In any other phase
ARM, START, FREEZE and DISSOLVE change nothing. No byte of memory changes, but by START. -/
def Obligations.RegionCommandsMoveThePhase : Prop :=
  ∀ (r : Nat) (s : State), r < 64 →
    let g := s.p.getReg r
    (∀ part row0 col0 row1 col1 image restore : Nat, part < 256 → row0 < 256 → col0 < 256 → row1 < 256 → col1 < 256 →
      image < 2 ^ 64 → restore < 256 →
      let i : Instr := .regionRecordCommit r part row0 col0 row1 col1 image restore
      (regionDefinable s.p r part row0 col0 row1 col1 = true → ∃ t, exec i s = .next t ∧ t.mem = s.mem
        ∧ (t.p.getReg r).phase = .defined ∧ (t.p.getReg r).part = part ∧ (t.p.getReg r).image = image
        ∧ (t.p.getReg r).members = rectMembers s.p row0 col0 row1 col1)
      ∧ (regionDefinable s.p r part row0 col0 row1 col1 = false → exec i s = .next s))
    ∧ (g.phase = .defined → descReady s.p r 0 = true → (∀ k ∈ regionCores s.p r, windowsQuiet (s.p.getCore k) = true) →
        ∃ t, exec (.arm r) s = .next t ∧ t.mem = s.mem ∧ (t.p.getReg r).phase = .armed ∧ (t.p.getReg r).members = g.members)
    ∧ (g.phase ≠ .defined → exec (.arm r) s = .next s)
    ∧ (g.phase = .armed → ∃ t, exec (.start r) s = .next t ∧ (t.p.getReg r).phase = .active)
    ∧ (g.phase ≠ .armed → exec (.start r) s = .next s)
    ∧ (g.phase = .active → g.freezing = false → ∃ t, exec (.freezeCommand r) s = .next t ∧ t.mem = s.mem
        ∧ (t.p.getReg r).phase = .active ∧ (t.p.getReg r).freezing = true ∧ (t.p.getReg r).ctr.freezes = g.ctr.freezes + 1)
    ∧ (g.phase ≠ .active → exec (.freezeCommand r) s = .next s)
    ∧ (g.phase = .active → g.freezing = true → footprintStopped s.p r = true → g.lastCell + 100 ≤ s.p.now →
        ∃ t, exec (.freezeComplete r) s = .next t ∧ t.mem = s.mem ∧ (t.p.getReg r).phase = .frozen)
    ∧ ((g.phase = .defined ∨ g.phase = .armed ∨ g.phase = .frozen ∨ g.phase = .ended) →
        ∃ t, exec (.regionDissolve r) s = .next t ∧ t.mem = s.mem ∧ (t.p.getReg r).phase = .free ∧ (t.p.getReg r).members = [])
    ∧ (g.phase = .free ∨ g.phase = .active → exec (.regionDissolve r) s = .next s)

/-- A member die that meets the conditions of R213 at one barrier keeps its arrival as unanswered, and where its node
takes part the arrival is on its way, alone or merged with others of its block; a compute node sends the arrival
delivered to it on; the active hub takes an arrival for a region that is not ACTIVE and changes nothing of it, and one
for a barrier other than the one it collects freezes the region with event 0x0707. An admitted barrier of an ACTIVE
region that is neither freezing, restarting nor held is released: no barrier is open, the barrier's descriptor is in
force, STEP is one more, and the start tick is now plus the release lead; without a barrier, or while freezing,
nothing changes. A release that answers the die's arrival and is not late arms its start tick; from the die's first
edge at or after that tick the step starts: the release and the arrival are gone and the router is at cycle 0 of the
descriptor's segment; before it nothing changes. No byte of memory changes. -/
def Obligations.BarriersAreArrivedAtAndReleased : Prop :=
  ∀ (cs r d : Nat) (s : State), isCompute cs = true → r < 64 →
    let g := s.p.getReg r
    let x := s.p.getDie cs
    (dieBarriers s.p cs = [d] → dieArrives s.p cs d = true → x.region = some r →
      ∃ t, exec (.dieBarrierArrival cs) s = .next t ∧ t.mem = s.mem ∧ (t.p.getDie cs).sent = some d
        ∧ (takesPart s.p cs = true → ∃ k ∈ allPkts t.p, ∃ m, k.msg = .arrive r d (blockOf cs) m ∧ m.testBit (blockBit cs) = true))
    ∧ (∀ (k : Pkt) (b m : Nat), k.msg = .arrive r d b m → Delivered cs k s.p → unicastTo (s.p.getNode cs) k ≠ cs →
        exec (.arrive cs k) s = .next { s with p := forwardUnicast cs k (taken cs s.p) })
    ∧ (∀ (k : Pkt) (b m : Nat), k.msg = .arrive r d b m → Delivered s.p.activeHub k s.p →
        unicastTo (s.p.getNode s.p.activeHub) k = s.p.activeHub →
        (g.phase ≠ .active → ∃ t, exec (.arrive s.p.activeHub k) s = .next t ∧ t.mem = s.mem ∧ t.p.getReg r = g
          ∧ t.p.ctl = (taken s.p.activeHub s.p).ctl)
        ∧ (∀ e, g.phase = .active → g.freezing = false → g.bar = some e → e ≠ d →
            (∃ y ∈ (bitsSet 9 m).map (blockSite b), barred s.p y = false) →
            ∃ t, exec (.arrive s.p.activeHub k) s = .next t ∧ t.mem = s.mem ∧ Logged 0x0707 t.p
              ∧ (t.p.getReg r).freezing = true ∧ (t.p.getReg r).cause = 0x0707))
    ∧ (g.phase = .active → g.freezing = false → g.bar = some d → g.stage = .admitted → g.starting = false → g.restart = none →
        regionHeld s.p r = false →
        ∃ t, exec (.barrierRelease r) s = .next t ∧ t.mem = s.mem ∧ (t.p.getReg r).bar = none ∧ (t.p.getReg r).cur = d
          ∧ (t.p.getReg r).step = (g.step + 1) % 2 ^ 32 ∧ (t.p.getReg r).relTick = s.p.now + g.lim.2.1)
    ∧ (g.restart = none → g.bar = none ∨ g.freezing = true → exec (.barrierRelease r) s = .next s)
    ∧ (∀ (k : Pkt) (rst : Bool) (tick : Nat), k.msg = .release r d rst tick → Delivered cs k s.p → k.dmode ≠ 1 →
        x.region = some r → x.sent = some d → x.rel = none → x.stopAsked = none → x.frozen = false → s.p.now ≤ tick →
        ∃ t, exec (.release cs k) s = .next t ∧ t.mem = s.mem ∧ (t.p.getDie cs).rel = some (d, rst, tick)
          ∧ (t.p.getDie cs).sent = some d)
    ∧ (∀ (rst : Bool) (tick : Nat), x.rel = some (d, rst, tick) → x.frozen = false → x.region = some r →
        (tick ≤ s.p.now → x.clkT ≤ (s.p.getClk cs).clk → ∃ t, exec (.stepStart cs) s = .next t ∧ t.mem = s.mem ∧ (t.p.getDie cs).rel = none
          ∧ (t.p.getDie cs).sent = none ∧ (t.p.getDie cs).tick = tick ∧ (t.p.getRtr cs).cyc = 0
          ∧ (t.p.getRtr cs).exec = some (Step.seg (stepDesc s.p r d)))
        ∧ (s.p.now < tick → exec (.stepStart cs) s = .next s))

/-- For every ACTIVE region that is not freezing: where a barrier is open, still waiting for arrivals or for its
descriptor, and the barrier timeout from the first arrival has passed, event 0x0706 is logged, the region freezes
immediately with that cause and FREEZE is on its way from a hub that can flood; where none is open and the step
watchdog from the root's decision to release (log 84) has passed, the same with event 0x0709; with a barrier open the
watchdog changes nothing. FREEZE taken at a member die that is not frozen stops it: frozen, its segment abandoned, and
its acknowledgement sent. No byte of memory changes. -/
def Obligations.TimeoutsAndFreezesStopARegion : Prop :=
  ∀ (r : Nat) (s : State), r < 64 →
    let g := s.p.getReg r
    g.phase = .active → g.freezing = false → g.immediate = false →
      (g.bar.isSome = true → g.stage = .arriving → barrierMet s.p r = false → g.firstTick + g.lim.1 ≤ s.p.now →
        ∃ t, exec (.barrierTimeout r) s = .next t ∧ t.mem = s.mem ∧ Logged 0x0706 t.p ∧ (t.p.getReg r).freezing = true
          ∧ (t.p.getReg r).immediate = true ∧ (t.p.getReg r).cause = 0x0706 ∧ (hubFloods s.p → Sent t.p.activeHub (.freeze r 0x0706) t.p))
      ∧ (g.bar = none → g.relTick + g.lim.2.2 ≤ s.p.now + g.lim.2.1 →
        ∃ t, exec (.stepWatchdog r) s = .next t ∧ t.mem = s.mem ∧ Logged 0x0709 t.p ∧ (t.p.getReg r).freezing = true
          ∧ (t.p.getReg r).immediate = true ∧ (t.p.getReg r).cause = 0x0709 ∧ (hubFloods s.p → Sent t.p.activeHub (.freeze r 0x0709) t.p))
      ∧ (g.bar.isSome = true → exec (.stepWatchdog r) s = .next s)
      ∧ (∀ (cs cause : Nat) (k : Pkt), isCompute cs = true → k.msg = .freeze r cause → Delivered cs k s.p → k.dmode ≠ 1 →
          g.members.contains cs = true → (s.p.getDie cs).frozen = false →
          ∃ t, exec (.freeze cs k) s = .next t ∧ t.mem = s.mem ∧ (t.p.getDie cs).frozen = true
            ∧ (t.p.getRtr cs).exec = none ∧ Sent cs (.ack 0 r) t.p)

/-- For every region: RESTART of a FROZEN one with no FAILED member and every moved duty covered by the variant in
force notes the slot that validates and begins the core reset of every core of the region; with no valid slot it logs
0x070D and leaves every region; once the epoch set of a RESTART under way is acknowledged the region is ACTIVE at the
step of its slot; in another phase it changes nothing. The duty of a FAILED member with a HAMPER substitute moves
there when the image lists the variant (0x070B), and no region changes when it does not (0x070C). A variant in force
is accepted only while FROZEN, and then is the only part of the region that its write changes; staged sites are
accepted where no other region has staged them. -/
def Obligations.RestartSubstitutionAndVariants : Prop :=
  ∀ (r site n h : Nat) (l : List (Nat × Nat)) (s : State), r < 64 → isCompute site = true →
    let g := s.p.getReg r
    (g.phase ≠ .frozen → exec (.restart r) s = .next s)
    ∧ (restartable s.p r = true → g.restart = none →
        (∀ (slot : Nat) (gens : List (Nat × List Byte)), pickSlot s r = some (slot, gens) →
          ∃ t, exec (.restart r) s = .next t ∧ t.mem = s.mem ∧ (t.p.getReg r).restart = some ⟨.resets, slot, gens⟩
            ∧ ∀ k ∈ regionCores s.p r, (coreA k t).run = .resetting ∧ (t.p.getCore k).clearing = clearCycles)
        ∧ (pickSlot s r = none → ∃ t, exec (.restart r) s = .next t ∧ t.mem = s.mem ∧ t.p.reg = s.p.reg ∧ Logged 0x070D t.p))
    ∧ (∀ (q slot : Nat) (gens : List (Nat × List Byte)), restartable s.p r = true → g.restart = some ⟨.epochs q, slot, gens⟩ →
        (∀ e ∈ s.p.ctl.epochs, e.seq ≠ q) →
        ∃ t, exec (.barrierRelease r) s = .next t ∧ (t.p.getReg r).phase = .active
          ∧ (t.p.getReg r).step = (Tab.get default g.slots slot).step)
    ∧ (dutyOf s.p r site = some n → substituteOf s.p r site = some h → g.members.contains site = true → s.p.ust site = .failed →
        g.phase ≠ .free →
        (∃ t, exec (.substitution r site true) s = .next t ∧ t.mem = s.mem ∧ Logged 0x070B t.p
          ∧ (t.p.getReg r).members = g.members.filter (fun m => decide (m ≠ site)) ++ [h]
          ∧ Tab.get 0 (t.p.getReg r).duty n = h ∧ (t.p.getReg r).moved = g.moved ++ [(n, h)])
        ∧ ∃ t, exec (.substitution r site false) s = .next t ∧ t.mem = s.mem ∧ t.p.reg = s.p.reg ∧ Logged 0x070C t.p)
    ∧ (l.length ≤ 16 → (putVariant r l s.p).1 = 0 → ∃ t, exec (.variantInForceWrite r l) s = .next t ∧ t.mem = s.mem
        ∧ g.phase = .frozen ∧ (t.p.getReg r).variant = l ∧ (t.p.getReg r).members = g.members)
    ∧ (l.length ≤ 16 → g.phase ≠ .frozen → exec (.variantInForceWrite r l) s = .next s)
    ∧ (l.length ≤ 16 → (∀ e ∈ l, ∀ o ∈ s.p.reg, o.1 ≠ r → ∀ y ∈ o.2.staging, y.2 ≠ e.2) →
        ∃ t, exec (.variantStagingWrite r l) s = .next t ∧ t.mem = s.mem ∧ (t.p.getReg r).staging = l
          ∧ (t.p.getReg r).phase = g.phase)

/-- On every compute die: SIEVE_PASS_GO of an open site holds the descriptor and, with GO set, arms the pass; on a
site that is not open it is refused. At or after tick T an armed pass whose buffer has emptied scans, with the
emissions as before, and with no shards its heaps and mask are empty; one whose buffer still emits is held from this
tick and nothing else of the Sieve changes; earlier, nothing changes. A scan that ends is READY with its error mask,
one pass more, its lists in the pass's buffer and the other buffer next, and its node, where it takes part, reports to
the hub; without a scan nothing changes. The report of the one member of a batch's region, with no errors, moves its
SCANNING query to MERGING. No byte of memory changes. -/
def Obligations.SievePassesRunFromGoToReport : Prop :=
  ∀ (cs : Nat) (s : State), isCompute cs = true →
    let v := s.p.getSve cs
    (∀ x : BitVec 512, (siteOpen s.p cs = true → ∃ t, exec (.sievePassGo cs x) s = .next t ∧ t.mem = s.mem
        ∧ (t.p.getSve cs).pass = x ∧ (t.p.getSve cs).shard = v.shard ∧ (t.p.getSve cs).heaps = v.heaps
        ∧ (t.p.getSve cs).st = v.st ∧ (t.p.getSve cs).armed = (v.armed || bit x 511))
      ∧ (siteOpen s.p cs = false → ∃ t, exec (.sievePassGo cs x) s = .next t ∧ t.mem = s.mem ∧ t.p.sve = s.p.sve
        ∧ t.p.gaRefusals = s.p.gaRefusals + 1))
    ∧ (∀ rows : RowErrs, v.armed = true → v.st ≠ .scanning → Pass.t v.pass ≤ s.p.now →
        (Tab.get [] v.emit v.buffer = [] → ∃ t, exec (.sievePassStart cs rows) s = .next t ∧ t.mem = s.mem
          ∧ (t.p.getSve cs).st = .scanning ∧ (t.p.getSve cs).armed = false ∧ (t.p.getSve cs).heldFrom = none ∧ (t.p.getSve cs).emit = v.emit
          ∧ (Pass.nsh v.pass = 0 → (t.p.getSve cs).heaps = [] ∧ (t.p.getSve cs).mask = 0))
        ∧ (Tab.get [] v.emit v.buffer ≠ [] → v.heldFrom = none → ∃ t, exec (.sievePassStart cs rows) s = .next t ∧ t.mem = s.mem
          ∧ t.p.getSve cs = { v with heldFrom := some s.p.now, ctr := { v.ctr with waits := v.ctr.waits + 1 } }))
    ∧ (∀ rows : RowErrs, v.armed = false ∨ v.st = .scanning ∨ s.p.now < Pass.t v.pass → exec (.sievePassStart cs rows) s = .next s)
    ∧ (v.st = .scanning → ∃ t, exec (.sievePassDone cs) s = .next t ∧ t.mem = s.mem ∧ (t.p.getSve cs).st = .ready
        ∧ (t.p.getSve cs).errMask = v.mask ∧ (t.p.getSve cs).passes = (v.passes + 1) % 2 ^ 32
        ∧ (t.p.getSve cs).buffer = 1 - v.buffer % 2
        ∧ Tab.get [] (t.p.getSve cs).emit v.buffer = (List.range 64).flatMap (laneCells s.p cs v)
        ∧ (takesPart s.p cs = true → Sent cs (.sieveDone ((v.passes + 1) % 2 ^ 32) (BitVec.ofNat 64 v.mask)) t.p))
    ∧ (v.st ≠ .scanning → exec (.sievePassDone cs) s = .next s)
    ∧ (∀ (k : Pkt) (n r e : Nat) (l : Lane), k.msg = .sieveDone n 0 → k.src = cs → Delivered s.p.activeHub k s.p →
        s.p.regionOf cs = some r → (s.p.getReg r).batches = [⟨[l], [], e⟩] → (s.p.getReg r).members = [cs] → (s.p.getQuery l.qid).st = .scanning →
        ∃ t, exec (.sieveDone s.p.activeHub k) s = .next t ∧ t.mem = s.mem ∧ (t.p.getQuery l.qid).st = .merging)

/-- For every function and submission queue: where the hub takes no entry, QUERY, CANCEL and EARLY_EXIT change
nothing. A QUERY taken, with no ground for refusal, its payload whole and below the partition's quota, holds the
lowest FREE entry: QUEUED, under the next epoch, last in submission order, every other query as before; one refused
holds no entry. A CANCEL or EARLY_EXIT of no live query, or with the wrong alive value, changes no query; with the
right one a QUEUED query ends (ENDING or already FREE), and an EARLY_EXIT leaves a RERANKING one ENDING with status 2
and its results to come. No byte of memory changes. -/
def Obligations.QueriesAreAcceptedOrTurnedAway : Prop :=
  ∀ (f n : Nat) (e : BitVec 512) (s : State), f ≤ 16 → n < 16 →
    (canTake s.p f n = false → ∀ d, exec (.query f n e d) s = .next s ∧ exec (.cancel f n e) s = .next s ∧ exec (.earlyExit f n e) s = .next s)
    ∧ (canTake s.p f n = true → Sqe.ok e = true →
      (∀ b : List Byte, Sqe.opc e = 0x10 → queryRefused s.p f n e = false →
        b.length = Qry.plen1 e + Qry.plen2 e → (crcHost b).toNat = Qry.pcrc e →
        ((liveQueries s.p).filter fun q => decide (q.2.part = f - 1)).length < cfg s.p 0x8001 (f - 1) 3 →
        let q := freeQuery s.p
        ∃ t, exec (.query f n e (some b)) s = .next t ∧ t.mem = s.mem ∧ (t.p.getQuery q).st = .queued
          ∧ (t.p.getQuery q).epoch = (queryEpoch s.p q + 1) % 2 ^ 16 ∧ (t.p.getQuery q).part = f - 1
          ∧ (t.p.getQuery q).km1 = Qry.k e - 1 ∧ t.p.ret.order = s.p.ret.order ++ [q]
          ∧ ∀ j, j ≠ q → t.p.getQuery j = s.p.getQuery j)
      ∧ (∀ d, Sqe.opc e = 0x10 → queryRefused s.p f n e = true → ∃ t, exec (.query f n e d) s = .next t ∧ t.mem = s.mem
          ∧ t.p.ret.query = s.p.ret.query ∧ t.p.ret.order = s.p.ret.order)
      ∧ (∀ (i : Instr) (st : Nat), (i = .cancel f n e ∧ Sqe.opc e = 0x11 ∧ st = 1) ∨ (i = .earlyExit f n e ∧ Sqe.opc e = 0x12 ∧ st = 2) →
          (targetQuery s.p f n e = none → ∃ t, exec i s = .next t ∧ t.mem = s.mem ∧ t.p.ret = s.p.ret)
          ∧ (∀ q, targetQuery s.p f n e = some q → (s.p.getQuery q).st = .reranking → fld e 391 384 = ((s.p.getQuery q).alive + 1) % 256 →
              st = 2 → ∃ t, exec i s = .next t ∧ t.mem = s.mem ∧ (t.p.getQuery q).st = .ending ∧ (t.p.getQuery q).status = 2
                ∧ (t.p.getQuery q).alive = fld e 391 384 ∧ (t.p.getQuery q).posted = (s.p.getQuery q).posted)
          ∧ (∀ q, targetQuery s.p f n e = some q → (s.p.getQuery q).st = .queued →
              fld e 391 384 = ((s.p.getQuery q).alive + 1) % 256 →
              ∃ t, exec i s = .next t ∧ t.mem = s.mem ∧ ((t.p.getQuery q).st = .ending ∨ (t.p.getQuery q).st = .free))
          ∧ (∀ q, targetQuery s.p f n e = some q → (s.p.getQuery q).st ≠ .ending → fld e 391 384 ≠ ((s.p.getQuery q).alive + 1) % 256 →
              ∃ t, exec i s = .next t ∧ t.mem = s.mem ∧ t.p.ret = s.p.ret)))

/-- DEADLINE_CHECK always completes: an expired RERANKING query ends with status 3 (DEADLINE), an expired QUEUED one
ends or is FREE already, and a query that has no deadline, has not expired, is FREE or ends already is as before. From
1 microsecond after the completion barrier the oldest batch of a region is completed and unbound, a query still
SCANNING, its completion not written, returning to QUEUED; earlier, or without a batch, nothing changes. A write of a
directory entry of the writer's range whose sites may hold it is EMPTY with length 0, else LOST where its HOME is lost
and VERIFYING elsewhere, with every other entry as before; one with other sites, from another partition, or of an
entry that no partition owns changes nothing. A verification that ends good, with the entry's CRC and header, makes it
USABLE; any other makes it BAD and logs 0x0802. No byte of memory changes. -/
def Obligations.DeadlinesCompletionsAndTheDirectory : Prop :=
  ∀ (r : Nat) (s : State), r < 64 →
    (∃ t, exec .deadlineCheck s = .next t ∧ t.mem = s.mem
      ∧ (∀ q : Nat, let x := s.p.getQuery q
          ((x.deadline = 0 ∨ s.p.now < x.deadline ∨ x.st = .free ∨ x.st = .ending) → t.p.getQuery q = x)
          ∧ (x.deadline ≠ 0 → x.deadline ≤ s.p.now → x.st = .reranking → (t.p.getQuery q).st = .ending ∧ (t.p.getQuery q).status = 3)
          ∧ (x.deadline ≠ 0 → x.deadline ≤ s.p.now → x.st = .queued → (t.p.getQuery q).st = .ending ∨ (t.p.getQuery q).st = .free)))
    ∧ ((s.p.getReg r).batches = [] → exec (.queryCompletion r) s = .next s)
    ∧ (∀ (b : Batch) (rest : List Batch), (s.p.getReg r).batches = b :: rest →
        (b.endAt = 0 ∨ s.p.now < b.endAt → exec (.queryCompletion r) s = .next s)
        ∧ (b.endAt ≠ 0 → b.endAt ≤ s.p.now → ∃ t, exec (.queryCompletion r) s = .next t ∧ t.mem = s.mem ∧ (t.p.getReg r).batches = rest
          ∧ ∀ l : Lane, b.lanes = [l] → (s.p.getQuery l.qid).st = .scanning → (s.p.getQuery l.qid).written = false →
              (t.p.getQuery l.qid).st = .queued))
    ∧ (∀ (part : Option Nat) (i n : Nat) (x : BitVec 128), i < 524288 → dirOwner s.p i = some n → (part = none ∨ part = some n) →
        (dirSitesOk s.p n x = true → ∃ t, exec (.directoryEntryWrite part i x) s = .next t ∧ t.mem = s.mem
          ∧ t.p.getDir i = ⟨x, if DirE.len x = 0 then .empty else if entryLost s.p x = true then .lost else .verifying⟩
          ∧ ∀ j, j ≠ i → t.p.getDir j = s.p.getDir j)
        ∧ (dirSitesOk s.p n x = false → exec (.directoryEntryWrite part i x) s = .next s)
        ∧ (∀ m, m ≠ n → exec (.directoryEntryWrite (some m) i x) s = .next s))
    ∧ (∀ (part : Option Nat) (i : Nat) (x : BitVec 128), 524288 ≤ i ∨ dirOwner s.p i = none →
        exec (.directoryEntryWrite part i x) s = .next s)
    ∧ (∀ (i reason : Nat) (crc : BitVec 64) (l : List Byte), let d := s.p.getDir i
        d.st = .verifying → (s.p.getChk (DirE.home d.bits)).ready = [⟨.shard i d.bits, reason, crc, l⟩] →
        (reason = 0 → crc.toNat = DirE.crc d.bits → shardHeaderOk s i d.bits = true →
          ∃ t, exec (.shardVerifyDone i) s = .next t ∧ t.mem = s.mem ∧ t.p.getDir i = ⟨d.bits, .usable⟩)
        ∧ (reason ≠ 0 ∨ crc.toNat ≠ DirE.crc d.bits ∨ shardHeaderOk s i d.bits = false →
          ∃ t, exec (.shardVerifyDone i) s = .next t ∧ t.mem = s.mem ∧ t.p.getDir i = ⟨d.bits, .bad⟩ ∧ Logged 0x0802 t.p))

/-- For every region: a sequence record that passes its checks, in the DEFINED phase, is held with the derived LIMIT
after its 13 bytes and leaves the ring order; a ring order that passes is held as written; in another phase neither
changes anything. A length within LIMIT, and not below the length in force, is staged behind those staged before while
the region is ACTIVE and changes no core; above LIMIT, or below the length in force while ARMED or ACTIVE, nothing
changes; in the FROZEN, ENDED and FREE phases a length within LIMIT is in force at once and what is staged stays
staged. No byte of memory changes. -/
def Obligations.SequenceRecordsAndLengths : Prop :=
  ∀ (r : Nat) (s : State), r < 64 →
    let g := s.p.getReg r
    (∀ data : List Byte, data.length = 17 → (commitSequence r false data s.p).1 = 0 →
      ∃ t lim, exec (.sequenceRecordCommit r false data) s = .next t ∧ t.mem = s.mem ∧ g.phase = .defined
        ∧ odBytes t.p 0x5060 r = data.take 13 ++ leBytes 4 lim ∧ odBytes t.p 0x5061 r = odBytes s.p 0x5061 r)
    ∧ (∀ data : List Byte, data.length = 128 → (commitSequence r true data s.p).1 = 0 →
      ∃ t, exec (.sequenceRecordCommit r true data) s = .next t ∧ t.mem = s.mem ∧ odBytes t.p 0x5061 r = data)
    ∧ (∀ (ring : Bool) (data : List Byte), data.length = (if ring then 128 else 17) → g.phase ≠ .defined →
      exec (.sequenceRecordCommit r ring data) s = .next s)
    ∧ (∀ x : BitVec 32, let len := g.seq.length
      (g.phase = .active → x.toNat ≤ Sq.limit s.p r → len ≤ x.toNat → ∃ t, exec (.sequenceLengthWrite r x) s = .next t ∧ t.mem = s.mem
        ∧ (t.p.getReg r).seq = { g.seq with staged := g.seq.staged ++ [x.toNat] } ∧ t.p.core = s.p.core)
      ∧ (g.phase ≠ .defined → Sq.limit s.p r < x.toNat → exec (.sequenceLengthWrite r x) s = .next s)
      ∧ (g.phase = .active ∨ g.phase = .armed → x.toNat < len → exec (.sequenceLengthWrite r x) s = .next s)
      ∧ (g.phase = .frozen ∨ g.phase = .ended ∨ g.phase = .free → x.toNat ≤ Sq.limit s.p r →
          ∃ t, exec (.sequenceLengthWrite r x) s = .next t ∧ t.mem = s.mem ∧ (t.p.getReg r).seq.length = x.toNat
            ∧ (t.p.getReg r).seq.staged = g.seq.staged))

/-- On every control node that takes part and every live port: a corrected flit is counted; the first good flit of a
message is noted and the second delivers a unicast for the node, its word read as R289 lays it out, or counts and
discards a word with a reserved bit set; an uncorrectable flit begins the message anew and the sixteenth in a row
takes the link down, as CTL_LINK_DOWN does at once. At a node that takes no part or a dead port nothing changes, but
that a valid flit over a link that is down between two nodes that take part and are not fenced, the hub's probe, is
remembered (the model's choice, log 85). The next message of a port crosses its live link as its word and stands among
the last 16 for replay; a unicast that found no port goes on by the route table, or, with no live route, is counted
and an UNDELIVERABLE goes to its source unless it was one; with nothing waiting nothing changes. A link-down report
has the routes rewritten and logs 0x0612, a probed link is up again, and with neither nothing changes. The urgent
queue sends its oldest once 100 ticks have passed and nothing before. A late notice is counted by the core it names,
an UNDELIVERABLE by its node. No byte of memory changes. -/
def Obligations.ControlLinksRoutesAndForwarding : Prop :=
  ∀ (n port : Nat) (s : State), isNode n = true → port < 5 →
    let x := s.p.getNode n
    (takesPart s.p n = true → ctlUp s.p n port = true →
      (∃ t, exec (.ctlFlitReceive n port .corrected) s = .next t ∧ t.mem = s.mem ∧ (t.p.getNode n).ctr.corrected = x.ctr.corrected + 1
        ∧ (t.p.getNode n).errs = x.errs + 1)
      ∧ (∀ w l, Tab.get [] x.wire port = w :: l →
          (Tab.get 0 x.rx port = 0 → ∃ t, exec (.ctlFlitReceive n port .ok) s = .next t ∧ t.mem = s.mem ∧ Tab.get 0 (t.p.getNode n).rx port = 1
            ∧ (t.p.getNode n).inbox = x.inbox ∧ Tab.get [] (t.p.getNode n).wire port = w :: l)
          ∧ (Tab.get 0 x.rx port ≠ 0 → reservedZero w = true → (pktOf w).dmode ≤ 1 → unicastTo x (pktOf w) = n →
              (∀ c d, (pktOf w).msg ≠ .reserved c d) →
              ∃ t, exec (.ctlFlitReceive n port .ok) s = .next t ∧ t.mem = s.mem ∧ (t.p.getNode n).inbox = x.inbox ++ [pktOf w]
                ∧ Tab.get [] (t.p.getNode n).wire port = l ∧ Tab.get 0 (t.p.getNode n).rx port = 0 ∧ Tab.get 0 (t.p.getNode n).fails port = 0)
          ∧ (Tab.get 0 x.rx port ≠ 0 → reservedZero w = false → ∃ t, exec (.ctlFlitReceive n port .ok) s = .next t ∧ t.mem = s.mem
              ∧ (t.p.getNode n).inbox = x.inbox ∧ (t.p.getNode n).ctr.reserved = x.ctr.reserved + 1 ∧ Tab.get [] (t.p.getNode n).wire port = l)
          ∧ ∃ t, exec (.ctlFlitReceive n port .uncorrectable) s = .next t ∧ t.mem = s.mem
              ∧ (Tab.get 0 x.fails port < 15 → (t.p.getNode n).ctr.replays = x.ctr.replays + 1 ∧ Tab.get 0 (t.p.getNode n).fails port = Tab.get 0 x.fails port + 1
                  ∧ Tab.get 0 (t.p.getNode n).rx port = 0 ∧ Tab.get [] (t.p.getNode n).wire port = w :: l)
              ∧ (15 ≤ Tab.get 0 x.fails port → ctlUp t.p n port = false))
      ∧ (∃ t, exec (.ctlLinkDown n port) s = .next t ∧ t.mem = s.mem ∧ ctlUp t.p n port = false))
    ∧ (takesPart s.p n = false ∨ ctlUp s.p n port = false → exec (.ctlLinkDown n port) s = .next s
        ∧ (probeable s.p n port = false → ∀ c, exec (.ctlFlitReceive n port c) s = .next s))
    ∧ (probeable s.p n port = true → (∀ c, c ≠ .uncorrectable → ∃ t, exec (.ctlFlitReceive n port c) s = .next t ∧ t.mem = s.mem
          ∧ port ∈ (t.p.getNode n).probed ∧ (t.p.getNode n).inbox = x.inbox)
        ∧ exec (.ctlFlitReceive n port .uncorrectable) s = .next s)
    ∧ (takesPart s.p n = true →
        (∀ i, i ≤ 5 → nextOut x i = none → exec (.ctlMessageForward n i) s = .next s)
        ∧ (∀ (k : Pkt) (since f r : Nat), nextOut x port = some (k, since) → ctlUp s.p n port = true → ctlFar n port = some f → portTo f n = some r →
          ∃ t, exec (.ctlMessageForward n port) s = .next t ∧ t.mem = s.mem
            ∧ Tab.get [] (t.p.getNode f).wire r = Tab.get [] (s.p.getNode f).wire r ++ [pktWord k]
            ∧ k ∈ Tab.get [] (t.p.getNode n).replay port ∧ (Tab.get [] (t.p.getNode n).replay port).length ≤ 16)
        ∧ (∀ (k : Pkt) (since : Nat), nextOut x 5 = some (k, since) → k.dmode = 0 → x.route ≠ [] →
          (routePort s.p n k.dst = none → ∃ t, exec (.ctlMessageForward n 5) s = .next t ∧ t.mem = s.mem
            ∧ (t.p.getNode n).ctr.undeliverable = x.ctr.undeliverable + 1
            ∧ ((∀ a b c, k.msg ≠ .undeliverable a b c) → Sent n (.undeliverable (msgCode k.msg).1 (msgCode k.msg).2 k.dst) t.p))
          ∧ (∀ r, routePort s.p n k.dst = some r → ∃ t, exec (.ctlMessageForward n 5) s = .next t ∧ t.mem = s.mem
            ∧ (t.p.getNode n).ctr.undeliverable = x.ctr.undeliverable
            ∧ ∃ y ∈ Tab.get [] (t.p.getNode n).out (8 * r + (msgCode k.msg).1), y.1.dst = k.dst ∧ y.1.dmode = 0 ∧ msgCode y.1.msg = msgCode k.msg)))
    ∧ (s.p.ctl.linkReport.isSome = true → ∃ t, exec .routeTableRewrite s = .next t ∧ t.mem = s.mem ∧ t.p.ctl.linkReport = none
        ∧ Logged 0x0612 t.p)
    ∧ (∀ f q, probedLinks s.p = [(n, port)] → ctlFar n port = some f → portTo f n = some q → takesPart s.p f = true →
        ∃ t, exec .routeTableRewrite s = .next t ∧ t.mem = s.mem ∧ ctlUp t.p n port = true)
    ∧ (s.p.ctl.linkReport = none → probedLinks s.p = [] → exec .routeTableRewrite s = .next s)
    ∧ (∀ (k : Pkt) (u : Nat), x.urgent = [k] → x.lastUrgent = some u →
        (u + 100 ≤ s.p.now → ∃ t, exec (.urgentQueuePace n) s = .next t ∧ t.mem = s.mem ∧ (t.p.getNode n).urgent = []
          ∧ (t.p.getNode n).lastUrgent = some s.p.now
          ∧ (k.src = n → k.dmode ≤ 1 → takesPart s.p n = true → (∀ r d b m, k.msg ≠ .arrive r d b m) → Sent n k.msg t.p))
        ∧ (s.p.now < u + 100 → exec (.urgentQueuePace n) s = .next s))
    ∧ (∀ k : Pkt, Delivered n k s.p → idleHub s.p n k = false →
        (∀ a b c, k.msg = .undeliverable a b c → ∃ t, exec (.undeliverable n k) s = .next t ∧ t.mem = s.mem
          ∧ (t.p.getNode n).ctr.undeliverable = x.ctr.undeliverable + 1)
        ∧ (∀ oc sc w rn g cur off, isCompute n = true → sc < 4 → k.msg = .lateNotice oc sc w rn g cur off →
          ∃ t, exec (.lateNotice n k) s = .next t ∧ t.mem = s.mem
            ∧ (coreA (4 * n + sc) t).wnctr.received = (coreA (4 * n + sc) s).wnctr.received + 1))

/-- For a message delivered to a control node that acts on it: CFG_WRITE of table 0 sets the route entry, of table 2
the active-hub register only; CFG_READ returns the table's value, and CFG_DATA is kept with its tag; a configuration
or bulk message that the active hub itself sends by its row (log 24) is on its way. HUB_BEAT from an active hub whose
generation is 1 to 127 ahead sets the node's hub and generation, any other leaves them, and hub B notes hub A's beat.
NODE_BEAT of a unit that is not barred notes its time and ends its misses; of a barred unit it is counted as a sign of
health and changes neither its state nor the beats. A node that takes part sends its errors every node beat period and
clears them; a hub that runs sends its generation and role every hub beat period, where it can flood; between the
periods nothing changes. Another node beat period without a beat is counted, and at the set count is evidence; hub B
decides to take over when the hub loss timeout has passed and it has a live link; before the periods nothing changes.
No byte of memory changes. -/
def Obligations.ConfigurationMessagesAndBeats : Prop :=
  ∀ (n : Nat) (k : Pkt) (s : State), isNode n = true →
    let x := s.p.getNode n
    (Delivered n k s.p → idleHub s.p n k = false → ∀ (i : Nat) (v : BitVec 64),
      (k.msg = .cfgWrite 0 i v → ∃ t, exec (.cfgWrite n k) s = .next t ∧ t.mem = s.mem ∧ routeEntry (t.p.getNode n) (i % 256) = fld v 7 0)
      ∧ (k.msg = .cfgWrite 2 i v → ∃ t, exec (.cfgWrite n k) s = .next t ∧ t.mem = s.mem ∧ (t.p.getNode n).hub = fld v 8 8
          ∧ (t.p.getNode n).gen = fld v 7 0 ∧ (t.p.getNode n).route = x.route)
      ∧ (∀ table, k.msg = .cfgRead table i → ∃ t, exec (.cfgRead n k) s = .next t ∧ t.mem = s.mem
          ∧ Sent n (.cfgData table i (BitVec.ofNat 64 (cfgValue s.p n table i))) t.p))
    ∧ (n = s.p.activeHub → k.src = n → x.inbox.head? ≠ some k → takesPart s.p n = true → k.dmode ≤ 1 → (∀ r d b m, k.msg ≠ .arrive r d b m) →
        ∀ i : Instr, i = .cfgWrite n k ∨ i = .cfgRead n k ∨ i = .bulkOpen n k ∨ i = .bulkData n k ∨ i = .bulkClose n k →
          ∃ t, exec i s = .next t ∧ t.mem = s.mem ∧ Sent n k.msg t.p)
    ∧ (Delivered n k s.p → idleHub s.p n k = false →
        (∀ (table i : Nat) (v : BitVec 64), k.msg = .cfgData table i v → table ≠ 3 → ∃ t, exec (.cfgData n k) s = .next t ∧ t.mem = s.mem
          ∧ (k.src * 64 + k.tag, table, i, some v) ∈ t.p.ctl.reads)
        ∧ (∀ (gen tick : Nat) (active : Bool), k.msg = .hubBeat gen active tick →
            let ahead := (gen + 256 - x.gen) % 256
            ∃ t, exec (.hubBeat n k) s = .next t ∧ t.mem = s.mem
              ∧ (active = true ∧ 1 ≤ ahead ∧ ahead ≤ 127 → (t.p.getNode n).hub = hubNum k.src ∧ (t.p.getNode n).gen = gen)
              ∧ (¬ (active = true ∧ 1 ≤ ahead ∧ ahead ≤ 127) → (t.p.getNode n).hub = x.hub ∧ (t.p.getNode n).gen = x.gen)
              ∧ (n = 0xDD → k.src = 0x00 → t.p.ctl.hubBeatA = s.p.now ∧ t.p.ctl.hubMissed = 0))
        ∧ (∀ errs tick : Nat, k.msg = .nodeBeat errs tick → ∃ t, exec (.nodeBeat n k) s = .next t ∧ t.mem = s.mem
            ∧ (barred s.p k.src = false → Tab.get 0 t.p.ctl.lastBeat k.src = s.p.now ∧ Tab.get 0 t.p.ctl.missed k.src = 0)
            ∧ (barred s.p k.src = true → t.p.ctl.lastBeat = s.p.ctl.lastBeat
                ∧ (t.p.unit k.src).evid = (s.p.unit k.src).evid + 1 ∧ t.p.ust k.src = s.p.ust k.src)))
    ∧ (takesPart s.p n = true → isHub n = false →
        (beatDue s.p n (cfg s.p 0x7024 0 3) = true → ∃ t, exec (.nodeBeatSend n) s = .next t ∧ t.mem = s.mem
          ∧ Sent n (.nodeBeat (x.errs % 2 ^ 32) s.p.now) t.p ∧ (t.p.getNode n).errs = 0 ∧ (t.p.getNode n).beatAt = some s.p.now)
        ∧ (beatDue s.p n (cfg s.p 0x7024 0 3) = false → exec (.nodeBeatSend n) s = .next s))
    ∧ (isHub n = true → hubRuns s.p n = true →
        (beatDue s.p n (cfg s.p 0x7024 0 1) = true → ∃ t, exec (.hubBeatSend n) s = .next t ∧ t.mem = s.mem
          ∧ (t.p.getNode n).beatAt = some s.p.now
          ∧ (livePorts s.p n ≠ [] → seeMseq x (hubNum n) (if n = 0 then s.p.ctl.mseq else s.p.ctl.mseqB) ≠ none →
              Sent n (.hubBeat s.p.book.tgen (decide (n = s.p.activeHub)) s.p.now) t.p))
        ∧ (beatDue s.p n (cfg s.p 0x7024 0 1) = false → exec (.hubBeatSend n) s = .next s))
    ∧ (let m := Tab.get 0 s.p.ctl.missed n
       (takesPart s.p n = true → Tab.get 0 s.p.ctl.lastBeat n + cfg s.p 0x7024 0 3 * (m + 1) < s.p.now →
         ∃ t, exec (.nodeBeatMissed n) s = .next t ∧ t.mem = s.mem ∧ Tab.get 0 t.p.ctl.missed n = m + 1
           ∧ t.p.book.pendingEvid = s.p.book.pendingEvid ++ (if m + 1 = cfg s.p 0x7024 0 4 then [(n, 0x0E02)] else []))
       ∧ (s.p.now ≤ Tab.get 0 s.p.ctl.lastBeat n + cfg s.p 0x7024 0 3 * (m + 1) → exec (.nodeBeatMissed n) s = .next s))
    ∧ (s.p.book.active = 0 → s.p.book.standbyLost = false → hubRuns s.p 0xDD = true →
        (cfg s.p 0x7024 0 1 ≤ s.p.now - s.p.ctl.hubBeatA → cfg s.p 0x7024 0 2 ≤ s.p.now - s.p.ctl.hubBeatA →
          (∃ q < 3, ctlUp s.p 0xDD q = true) → ∃ t, exec .hubLossTimeout s = .next t ∧ t.mem = s.mem ∧ t.p.book.takeDue = true)
        ∧ (s.p.now - s.p.ctl.hubBeatA < cfg s.p 0x7024 0 1 → exec .hubLossTimeout s = .next s))

/-- For a message delivered to a node that acts on it: FENCE of another site disables the node's links into it; EVENT,
and FAULT_REPORT but of 0x0101, 0x0102 and 0x0D01, are logged with their code, site, core and data, 0x0D01 fails its
site, 0x0303 is evidence against its site, and 0x0610 asks for new routes; EPOCH_SET is applied when its sequence is 1
to 32,767 ahead, changes nothing of the router otherwise, and is acknowledged either way; the last acknowledgement of
a query's epoch set ends it and enters the epoch in the ledger; NACK has the set sent again; LIVE_WRITE is staged
under its tag, a repeat in the place of the first, and not in force; LIVE_COMMIT with the wrong count is refused and
the set discarded, and one complete value of 8 bytes is in force and acknowledged; BULK_RESULT with status 0 marks the
target done. No byte of memory changes. -/
def Obligations.ReportsSetsAndBulkSessions : Prop :=
  ∀ (n : Nat) (k : Pkt) (s : State), isNode n = true → Delivered n k s.p → idleHub s.p n k = false →
    (∀ (num ep rn : Nat), k.msg = .fence 1 num ep rn → num ≠ n → ∃ t, exec (.fence n k) s = .next t ∧ t.mem = s.mem
      ∧ ∀ p < 5, ctlFar n p = some num → p ∈ (t.p.getNode n).linkDown)
    ∧ (∀ (ev core : Nat) (d : BitVec 64), k.msg = .faultReport ev core d → ∃ t, exec (.faultReport n k) s = .next t ∧ t.mem = s.mem
      ∧ (ev ≠ 0x0101 → ev ≠ 0x0102 → ev ≠ 0x0D01 → ∃ x ∈ t.p.book.log, x.ev = ev ∧ x.site = k.src ∧ x.core = core ∧ x.data = d ∧ x.tick = s.p.now)
      ∧ (ev = 0x0D01 → USt.rank (s.p.ust k.src) < 3 → t.p.ust k.src = .failed)
      ∧ (ev = 0x0303 → t.p.book.pendingEvid = s.p.book.pendingEvid ++ [(k.src, ev)]))
    ∧ (∀ (ev core supp : Nat) (d : BitVec 64), k.msg = .event ev core supp d → ∃ t, exec (.event n k) s = .next t ∧ t.mem = s.mem
      ∧ (∃ x ∈ t.p.book.log, x.ev = ev ∧ x.site = k.src ∧ x.core = core ∧ x.data = d ∧ x.supp = supp)
      ∧ (ev = 0x0610 → t.p.ctl.linkReport = some s.p.now) ∧ (ev ≠ 0x0610 → t.p.ctl.linkReport = s.p.ctl.linkReport))
    ∧ (∀ (seq part tqid ep : Nat) (trun : Bool), k.msg = .epochSet seq part trun tqid ep →
        let newer := match (s.p.getRtr n).lastEpochSeq with
          | none => True
          | some l => 1 ≤ (seq + 2 ^ 16 - l) % 2 ^ 16 ∧ (seq + 2 ^ 16 - l) % 2 ^ 16 ≤ 32767
        ∃ t, exec (.epochSet n k) s = .next t ∧ t.mem = s.mem ∧ Sent n (.ack seq 0) t.p
          ∧ (newer → (t.p.getRtr n).lastEpochSeq = some seq)
          ∧ (¬ newer → t.p.getRtr n = s.p.getRtr n))
    ∧ (∀ (seq r : Nat) (e : EpochOut), k.msg = .ack seq r → k.tag = 1 → barred s.p k.src = false → s.p.ctl.epochs = [e] → e.seq = seq →
        e.trun = false → e.missing = [k.src] → (∀ g, (s.p.getReg g).restart = none) →
        ∃ t, exec (.ack n k) s = .next t ∧ t.mem = s.mem ∧ t.p.ctl.epochs = [] ∧ (t.p.getQuery e.tqid).epoch = e.epoch)
    ∧ (∀ (seq r : Nat) (l : LiveOut), k.msg = .nack seq r → k.tag = 2 → s.p.ctl.lives = [l] → l.num = seq → l.site = k.src → l.writes = [] →
        ∃ t, exec (.nack n k) s = .next t ∧ t.mem = s.mem ∧ t.p.ctl.lives = [l]
          ∧ (takesPart s.p s.p.activeHub = true → Sent s.p.activeHub (.liveCommit seq 0) t.p))
    ∧ (∀ (i sub off : Nat) (d : BitVec 64), k.msg = .liveWrite i sub off d →
        let old := Tab.get [] (s.p.getDie n).liveSet k.tag
        ∃ t, exec (.liveWrite n k) s = .next t ∧ t.mem = s.mem ∧ (t.p.getDie n).live = (s.p.getDie n).live
        ∧ (i, sub, off, d) ∈ Tab.get [] (t.p.getDie n).liveSet k.tag
        ∧ ((∀ w ∈ old, (w.1, w.2.1, w.2.2.1) ≠ (i, sub, off)) → Tab.get [] (t.p.getDie n).liveSet k.tag = old ++ [(i, sub, off, d)]))
    ∧ (∀ num count : Nat, k.msg = .liveCommit num count →
        let ws := Tab.get [] (s.p.getDie n).liveSet k.tag
        (ws.length ≠ count → ∃ t, exec (.liveCommit n k) s = .next t ∧ t.mem = s.mem ∧ Sent n (.nack num 0) t.p
          ∧ (t.p.getDie n).live = (s.p.getDie n).live ∧ Tab.get [] (t.p.getDie n).liveSet k.tag = [])
        ∧ (∀ (i sub : Nat) (d : BitVec 64) (r : ORow), i ≠ planIndex → ws = [(i, sub, 0, d)] → count = 1 → odRow s.p.variant i sub = some r →
            r.len = 8 → sub < 256 → ∃ t, exec (.liveCommit n k) s = .next t ∧ t.mem = s.mem ∧ Sent n (.ack num 0) t.p
              ∧ Tab.find? (t.p.getDie n).live (256 * i + sub) = some (leBytes 8 d.toNat)))
    ∧ (∀ (sess status missing first : Nat) (b : BulkOut), k.msg = .bulkResult sess status missing first → s.p.ctl.bulks = [b] → b.sess = sess →
        status = 0 → b.done = [] → ∃ t, exec (.bulkResult n k) s = .next t ∧ t.mem = s.mem ∧ t.p.ctl.bulks = [{ b with done := [k.src] }])

/-- An epoch set that waits for one READY router, no RESTART being under way, is not sent again before 100
microseconds, then counted and sent again by a hub that can flood, and after the third attempt is evidence against the
router. A BULK_OPEN delivered begins a session at the target, refused for any space but 2 and 4 and where a masked
core is not stopped, not refused for space 4 with no mask; BULK_DATA in range of a session of space 2 for one core
whose program store may be written writes exactly its 8 bytes to it and notes the unit; BULK_CLOSE answers with the
status the target finds, 3 when it refused. But for BULK_DATA no byte of memory changes. -/
def Obligations.RetriesAndBulkWrites : Prop :=
  ∀ (n : Nat) (s : State), isNode n = true →
    (∀ e : EpochOut, s.p.ctl.epochs = [e] → (∀ g, (s.p.getReg g).restart = none) →
      (s.p.now < e.sentAt + 10000 → exec (.epochSetRetry e.seq) s = .next s)
      ∧ (e.sentAt + 10000 ≤ s.p.now → ∀ m, e.missing = [m] → s.p.ust m = .ready → e.tries < 3 →
          ∃ t, exec (.epochSetRetry e.seq) s = .next t ∧ t.mem = s.mem ∧ t.p.ctl.epochs = [{ e with sentAt := s.p.now, tries := e.tries + 1 }]
            ∧ (hubFloods s.p → Sent s.p.activeHub (.epochSet e.seq e.part e.trun e.tqid e.epoch) t.p))
      ∧ (e.sentAt + 10000 ≤ s.p.now → ∀ m, e.missing = [m] → s.p.ust m = .ready → e.tries = 3 →
          ∃ t, exec (.epochSetRetry e.seq) s = .next t ∧ t.mem = s.mem
            ∧ t.p.book.pendingEvid = s.p.book.pendingEvid ++ [(m, 0x0E02)]))
    ∧ (∀ k : Pkt, Delivered n k s.p → idleHub s.p n k = false →
        (∀ sess space mask base len : Nat, k.msg = .bulkOpen sess space mask base len → (s.p.getNode n).bulk = [] →
          ∃ t b, exec (.bulkOpen n k) s = .next t ∧ t.mem = s.mem ∧ (t.p.getNode n).bulk = [b] ∧ b.sess = sess ∧ b.len = len ∧ b.units = []
            ∧ (space ≠ 2 → space ≠ 4 → b.refused = true)
            ∧ (∀ c < 4, isCompute n = true → mask.testBit c = true → coreIdle s.p (4 * n + c) = false → b.refused = true)
            ∧ (space = 4 → mask = 0 → b.refused = false))
        ∧ (∀ (sess i c : Nat) (d : BitVec 64) (b : BulkIn), k.msg = .bulkData sess i d → (s.p.getNode n).bulk = [b] → b.sess = sess →
            b.refused = false → i < b.len → b.space = 2 → c < 4 → (List.range 4).filter b.mask.testBit = [c] →
            programFree s.p (4 * n + c) = true → b.base + 8 * i + 8 ≤ programBytes →
            ∃ t, exec (.bulkData n k) s = .next t
              ∧ t.mem = s.mem.writeL (gaProgram (4 * n + c) (b.base + 8 * i)) (leBytes 8 d.toNat)
              ∧ (t.p.getNode n).bulk = [{ b with units := Tab.set i d b.units }])
        ∧ (∀ (sess : Nat) (crc : BitVec 64) (b : BulkIn), k.msg = .bulkClose sess crc → (s.p.getNode n).bulk = [b] → b.sess = sess →
            ∃ t, exec (.bulkClose n k) s = .next t ∧ t.mem = s.mem
              ∧ Sent n (.bulkResult sess (bulkAnswer b crc).1 ((bulkAnswer b crc).2.1 % 2 ^ 20) (bulkAnswer b crc).2.2) t.p
              ∧ (b.refused = true → (bulkAnswer b crc).1 = 3)))

/-- For every function of the active port whose accesses arrive: a valid tail doorbell of an enabled submission queue
sets its tail and changes nothing else; one beyond the queue is dropped and the queue enters the error state; valid
head doorbells set the head of a completion queue with nothing held, and of an event ring that has dropped nothing. A
disabled queue with an aligned base, a size of 2^4 to 2^16 and, for a submission queue, an enabled completion queue is
enabled with indices 0, phase 1 and sequence 0; an enabled one disabled is draining, and disabled once its commands
have ended, not before. A NOP entry that the hub takes moves the head, and its completion of status 0 is written at
the tail of an enabled, unfilled completion queue; one it cannot take changes nothing. After the coalescing time the
entries waiting are signalled by the vector, where the host has enabled MSI-X and the vector is not masked, not
before. ICAUSE loses the bits written as ones. No byte of memory changes. -/
def Obligations.HostQueuesAndInterrupts : Prop :=
  ∀ (hp f n : Nat) (x : BitVec 32) (s : State), hp < 2 → f ≤ 16 → n < 16 →
    (arrives s.p hp f = true → hp = activePort s.p →
      (((s.p.getFn f).sqOf n).st = .enabled → fld x 31 16 = 0 → fld x 15 0 < ((s.p.getFn f).sqOf n).size →
        exec (.sqTailDoorbell hp f n x) s
          = .next (if fld x 15 0 = ((s.p.getFn f).sqOf n).tail then s else s.onP (modSq f n fun q => { q with tail := fld x 15 0 })))
      ∧ (((s.p.getFn f).sqOf n).st = .enabled → ((s.p.getFn f).sqOf n).size ≤ fld x 15 0 →
        ∃ t, exec (.sqTailDoorbell hp f n x) s = .next t ∧ t.mem = s.mem ∧ ((t.p.getFn f).sqOf n).st = .error
          ∧ ((t.p.getFn f).sqOf n).tail = ((s.p.getFn f).sqOf n).tail)
      ∧ (((s.p.getFn f).cqOf n).st = .enabled → fld x 31 16 = 0 → fld x 15 0 < ((s.p.getFn f).cqOf n).size → (s.p.getFn f).held = [] →
        ∃ t, exec (.cqHeadDoorbell hp f n x) s = .next t ∧ t.mem = s.mem
          ∧ (t.p.getFn f).cqOf n = { (s.p.getFn f).cqOf n with head := fld x 15 0 })
      ∧ ((s.p.getFn f).ring.st = .enabled → fld x 31 16 = 0 → fld x 15 0 < (s.p.getFn f).ring.size → (s.p.getFn f).ring.dropped = 0 →
        ∃ t, exec (.eventRingDoorbell hp f x) s = .next t ∧ t.mem = s.mem
          ∧ (t.p.getFn f).ring = { (s.p.getFn f).ring with head := fld x 15 0 })
      ∧ (∀ (q : Nat) (y : BitVec 64), q < 33 →
        ((getQ s.p f q).st = .disabled → (getQ s.p f q).en = false → (getQ s.p f q).base % 4096 = 0 → 4 ≤ fld y 20 16 → fld y 20 16 ≤ 16 →
            (q < 16 → (getQ s.p f (16 + fld y 11 8)).st = .enabled) →
          ∃ t, exec (.queueEnable hp f q y) s = .next t ∧ t.mem = s.mem ∧ (getQ t.p f q).st = .enabled ∧ (getQ t.p f q).en = true
            ∧ (getQ t.p f q).log2n = fld y 20 16 ∧ (getQ t.p f q).head = 0 ∧ (getQ t.p f q).tail = 0 ∧ (getQ t.p f q).phase = true
            ∧ (getQ t.p f q).seq = 0)
        ∧ ((getQ s.p f q).en = true → (getQ s.p f q).st = .enabled →
          ∃ t, exec (.queueDisable hp f q y) s = .next t ∧ t.mem = s.mem ∧ (getQ t.p f q).st = .draining ∧ (getQ t.p f q).en = false))
      ∧ (∀ y : BitVec 64, exec (.icauseClear hp f y) s = .next (s.onP fun p =>
          p.modFn f fun z => { z with icause := ofBits ((bitsSet 4 z.icause).filter fun i => !bit y i) })))
    ∧ (∀ q < 33, (getQ s.p f q).st = .draining →
        (drainedQ s.p f q = true → ∃ t, exec (.queueDrained f q) s = .next t ∧ t.mem = s.mem ∧ (getQ t.p f q).st = .disabled)
        ∧ (drainedQ s.p f q = false → exec (.queueDrained f q) s = .next s))
    ∧ (∀ e : BitVec 512,
        let y := (s.p.getFn f).sqOf n
        let c := (s.p.getFn f).cqOf y.cq;
        (canTake s.p f n = true → Sqe.ok e = true → Sqe.opc e = 0x00 → c.st = .enabled → c.full = false → (s.p.getFn f).held = [] →
            hostServed s.p = true →
          ∃ t, exec (.hostNop f n e) s = .next t ∧ t.mem = s.mem
            ∧ ((t.p.getFn f).sqOf n).head = (y.head + 1) % y.size
            ∧ HostOut.write (c.base + 32 * c.tail)
                (leBytes 32 (completionBits ⟨y.cq, n, 0, 0, Sqe.cid e, 0, 0, 0, none⟩ c.phase c.seq ((y.head + 1) % y.size))) ∈ t.p.host.out
            ∧ ((t.p.getFn f).cqOf y.cq).tail = (c.tail + 1) % c.size ∧ ((t.p.getFn f).cqOf y.cq).seq = (c.seq + 1) % 2 ^ 32)
        ∧ (canTake s.p f n = false → exec (.hostNop f n e) s = .next s))
    ∧ (let q := (s.p.getFn f).cqOf n;
        (q.time ≠ 0 → 0 < q.unsig → q.oldest + q.time ≤ s.p.now → ∃ t, exec (.cqCoalesceTimeout f n) s = .next t ∧ t.mem = s.mem
          ∧ (t.p.getFn f).cqOf n = { q with unsig := 0 }
          ∧ ((s.p.getHPort (activePort s.p)).enumd = true → bit (msixVec s.p f (activePort s.p) q.vec) 96 = false →
              t.p.host.out = s.p.host.out ++ [.msix (activePort s.p) f q.vec]))
        ∧ (q.unsig = 0 ∨ s.p.now < q.oldest + q.time → exec (.cqCoalesceTimeout f n) s = .next s))

/-- For every host port and function: a port whose PERST is released trains to the highest rate and width within the
settings and what comes, and its link is up where its hub has power; PERST asserted leaves the port at reset; a link
lost is down and logged, and one already down changes nothing. An FLR is logged; on the active port it empties the
function's queues, slices and copies, on the standby port its MSI-X table only, and of the PF it clears VF Enable. On
the active port: a HELLO in the mailbox is answered, its cause bit set; a slice register takes its base and enable; an
allowed read through an enabled slice answers a program store's bytes at once and asks for a scratchpad's in parts, an
allowed write writes exactly a stopped core's program store and asks for a scratchpad's parts. A COPY_IN of one good
block makes its queue busy and asks for the parts of a scratchpad or for the check of what it wrote to a stack; a
COPY_OUT asks for the check of its block. The last block of a copy whose CRC agrees is counted and ends the copy, for
COPY_OUT with the bytes its check read written to the host. A descriptor with the next alive value is accepted on its
channel, a repeated one counted; a scan that ends gives its channel state 3 or 5, the reason, the CRC where it is
good, the bytes and the tick, and one whose parts are not all read, or of another channel, changes nothing. -/
def Obligations.PortsAperturesCopiesAndChecks : Prop :=
  ∀ (hp f n : Nat) (s : State), hp < 2 → f ≤ 16 → n < 16 →
    ((s.p.getHPort hp).perst = true → ∀ (rate width vfs : Nat) (flit enumd : Bool),
        ∃ t, exec (.perstRelease hp rate width flit enumd vfs) s = .next t ∧ t.mem = s.mem ∧ (t.p.getHPort hp).perst = false
          ∧ (t.p.getHPort hp).rate = trainedTo [25, 50, 80, 160, 320, 640] (min (10 * cfg s.p 0x9003 0 1) (if flit then rate else min rate 320))
          ∧ (t.p.getHPort hp).width = trainedTo [1, 2, 4, 8, 16] (min width (cfg s.p 0x9003 0 2)) ∧ (t.p.getHPort hp).vfs = min vfs 16
          ∧ ((s.p.getBlk (if hp = 0 then 16 else 18)).st = .up → (t.p.getHPort hp).up = true))
    ∧ ((s.p.getHPort hp).perst = false → ∀ (rate width vfs : Nat) (flit enumd : Bool), exec (.perstRelease hp rate width flit enumd vfs) s = .next s)
    ∧ (∃ t, exec (.perstAssert hp) s = .next t ∧ t.mem = s.mem ∧ t.p.getHPort hp = port0)
    ∧ ((s.p.getHPort hp).up = true → (s.p.getHPort hp).perst = false → ∃ t, exec (.hostLinkDown hp) s = .next t ∧ t.mem = s.mem
        ∧ (t.p.getHPort hp).up = false ∧ Logged 0x0908 t.p)
    ∧ ((s.p.getHPort hp).up = false → exec (.hostLinkDown hp) s = .next s)
    ∧ (arrives s.p hp f = true → ∃ t, exec (.flr hp f) s = .next t ∧ t.mem = s.mem ∧ Logged 0x0909 t.p
        ∧ (hp = activePort s.p → (t.p.getFn f).slices = [] ∧ (t.p.getFn f).sqOf n = queue0 ∧ (t.p.getFn f).cqOf n = queue0
            ∧ ∀ c ∈ t.p.host.copies, c.fn ≠ f)
        ∧ (f = 0 → (t.p.getHPort hp).vfs = 0)
        ∧ (f ≠ 0 → hp ≠ activePort s.p → (t.p.getFn f).sq = (s.p.getFn f).sq ∧ Tab.get [] (t.p.getFn f).msix hp = []))
    ∧ (arrives s.p hp f = true → hp = activePort s.p →
      (∀ (q : Req) (len : Nat), len < 2 ^ 17 → (s.p.getFn f).busy = false → 3 ≤ s.p.boot.phase →
          parseFrame (padTo len (s.p.getFn f).req) = some q → q.op = 0x10 →
          ∃ t, exec (.mailboxGo hp f len) s = .next t ∧ t.mem = s.mem ∧ (t.p.getFn f).busy = false
            ∧ (t.p.getFn f).icause.testBit 1 = true
            ∧ (t.p.getFn f).rsp = respHeader (padTo 32 (s.p.getFn f).req) false (helloResp s.p.book.active s.p)
                ++ (helloResp s.p.book.active s.p).data)
      ∧ (∀ x : BitVec 64, fld x 63 52 = 0 → ∃ t, exec (.apertureSliceWrite hp f n x) s = .next t ∧ t.mem = s.mem
          ∧ Tab.get 0 (t.p.getFn f).slices n = BitVec.ofNat 64 (fld x 63 32 * 2 ^ 32 + (if bit x 0 then 1 else 0))
          ∧ ∀ j, j ≠ n → Tab.get 0 (t.p.getFn f).slices j = Tab.get 0 (s.p.getFn f).slices j)
      ∧ (∀ (off a len : Nat) (rows : RowErrs) (d : List Byte), off < 2 ^ 32 → sliceGa s.p f n off = some a → hubPath s.p (Ga.site a) = true →
          (gaAllowed s.p ⟨false, fnPart f⟩ a len = true →
            (Ga.space a = 1 → ∃ t g, exec (.apertureRead hp f n off len rows) s = .next t ∧ t.mem = s.mem
              ∧ t.p.gen = s.p.gen ++ [g] ∧ g.who = .aperture hp f ∧ g.data = List.replicate len 0)
            ∧ (Ga.space a = 2 → exec (.apertureRead hp f n off len rows) s = .next (s.onP (answerRead (.readData hp f
                (s.mem.readN (gaProgram (Ga.core a) (Ga.off a % 2 ^ 26)) len))))))
          ∧ (gaAllowed s.p ⟨false, fnPart f⟩ a d.length = true →
            (Ga.space a = 1 → ∃ t g, exec (.apertureWrite hp f n off d rows) s = .next t ∧ t.mem = s.mem
              ∧ t.p.gen = s.p.gen ++ [g] ∧ g.who = .posted)
            ∧ (Ga.space a = 2 → programFree s.p (Ga.core a) = true → ∃ t, exec (.apertureWrite hp f n off d rows) s = .next t
              ∧ t.mem = s.mem.writeL (gaProgram (Ga.core a) (Ga.off a % 2 ^ 26)) d))))
    ∧ (∀ e : BitVec 512, canTake s.p f n = true → Sqe.ok e = true → (∀ c ∈ s.p.host.copies, c.id < s.p.host.nextCopy) →
        copyOk (takeEntry f n s.p) f e = true → periphOn s.p 8 = true → (s.p.getChk (Ga.site (Cpy.ga e))).queue0 = [] →
        (∀ b : List Byte, Sqe.opc e = 0x01 → b.length = Cpy.len e → Cpy.len e ≤ 4096 →
          (Ga.space (Cpy.ga e) = 1 ∨ (Cpy.ga e % 256 = 0 ∧ Cpy.len e % 256 = 0)) →
          ∃ t, exec (.copyIn f n e ⟨[some (b, crcHost b)], []⟩) s = .next t
            ∧ ((t.p.getFn f).sqOf n).busy = true
            ∧ (∃ c ∈ t.p.host.copies, c.id = s.p.host.nextCopy ∧ c.fn = f ∧ c.sq = n ∧ c.copyIn = true
                ∧ (Ga.space (Cpy.ga e) = 0 → c.asked = true) ∧ (Ga.space (Cpy.ga e) = 1 → c.writing = true))
            ∧ (Ga.space (Cpy.ga e) = 1 → t.mem = s.mem ∧ ∃ g ∈ t.p.gen, g.who = .copyIn s.p.host.nextCopy))
        ∧ (Sqe.opc e = 0x02 → ∃ t, exec (.copyOut f n e) s = .next t ∧ t.mem = s.mem
            ∧ ((t.p.getFn f).sqOf n).busy = true
            ∧ ∃ c ∈ t.p.host.copies, c.id = s.p.host.nextCopy ∧ c.fn = f ∧ c.sq = n ∧ c.copyIn = false ∧ c.asked = true))
    ∧ (∀ (c : Copy) (crc : BitVec 64) (b : List Byte), s.p.host.copies = [c] → c.fn = f → c.sq = n → c.len ≤ 4096 * (c.block + 1) → c.caddr = 0 →
        ((s.p.getChk (Ga.site c.ga)).ready = [⟨.ingress c.id c.block, 0, crc, b⟩] → crc = crc64 0 c.block_ →
          ∃ t, exec (.ingressReadbackDone f n) s = .next t ∧ t.mem = s.mem ∧ t.p.host.copies = []
            ∧ t.p.chain.inBlocks = s.p.chain.inBlocks + 1 ∧ ((t.p.getFn f).sqOf n).busy = false)
        ∧ ((s.p.getChk (Ga.site c.ga)).ready = [⟨.egress c.id c.block, 0, crc, b⟩] → crc = crc64 0 b →
          ∃ t, exec (.egressBlockDone f n true) s = .next t ∧ t.mem = s.mem ∧ t.p.host.copies = []
            ∧ t.p.chain.outBlocks = s.p.chain.outBlocks + 1 ∧ HostOut.write (c.haddr + 4096 * c.block) b ∈ t.p.host.out
            ∧ ((t.p.getFn f).sqOf n).busy = false))
    ∧ (∀ (cs : Nat) (part : Option Nat), isCompute cs = true → periphOn s.p 8 = true → siteOpen s.p cs = true →
        (∀ x : BitVec 256, Chk.chan x ≠ 0 → let r := (s.p.getChk cs).result (Chk.chan x);
          r.state ≠ 1 → r.state ≠ 2 →
          (Chk.alive x = (r.last + 1) % 256 → ∃ t, exec (.checkDescriptorWrite cs part x) s = .next t ∧ t.mem = s.mem
            ∧ (t.p.getChk cs).accepted = (s.p.getChk cs).accepted + 1 ∧ ((t.p.getChk cs).result (Chk.chan x)).last = Chk.alive x
            ∧ Tab.find? (t.p.getChk cs).chan (Chk.chan x) = some ⟨x, .user part⟩)
          ∧ (Chk.alive x = r.last → Chk.alive x ≠ (r.last + 1) % 256 →
            ∃ t, exec (.checkDescriptorWrite cs part x) s = .next t ∧ t.mem = s.mem
              ∧ (t.p.getChk cs).repeats = (s.p.getChk cs).repeats + 1 ∧ (t.p.getChk cs).chan = (s.p.getChk cs).chan))
        ∧ (∀ (c : Nat) (d : CheckDesc) (rows : RowErrs), (s.p.getChk cs).running = some c → c ≠ 0 → c < 16 →
            Tab.find? (s.p.getChk cs).chan c = some d →
            (scanEnd cs d rows s = none → exec (.checkScanDone cs c rows) s = .next s)
            ∧ (∀ c' < 16, c' ≠ c → exec (.checkScanDone cs c' rows) s = .next s)
            ∧ (∀ e : ScanEnd, scanEnd cs d rows s = some e → ∃ t, exec (.checkScanDone cs c rows) s = .next t ∧ t.mem = s.mem
              ∧ ((t.p.getChk cs).result c).state = (if e.reason = 0 then 3 else 5) ∧ ((t.p.getChk cs).result c).reason = e.reason
              ∧ ((t.p.getChk cs).result c).bytes = e.data.length ∧ ((t.p.getChk cs).result c).tick = s.p.now
              ∧ (e.reason = 0 → ((t.p.getChk cs).result c).crc = (Chk.crc d.desc e.data).toNat))))

/-- For a session whose next request, its frame sound under its keys, the active hub takes on a served segment with no
store waiting: READ of an object that level, scope, access and state allow answers its value, if it fits a frame;
WRITE with STAGE of a value that passes its checks stages it and puts nothing in force; COMMIT of a staged report
threshold puts it in force and empties the stage. In an open transfer without a gap SEG_READ answers the next bytes of
the snapshot and whether more follow, SEG_WRITE adds its bytes to a write not yet whole, and END_TRANSFER ends it.
DESCRIBE answers the object's type, access, level, persistence and length; READ_STAGED answers the staged value;
DISCARD empties the stage; KEEPALIVE renews the session; SESSION_CLOSE ends it, its ID recorded as closed. A frame
that is not sound, its tag being another than its session's keys give, is discarded and counted, answers nothing and
changes no session. No byte of memory changes. -/
def Obligations.ManagementRequestsAreAnswered : Prop :=
  ∀ (g h n i sub : Nat) (x : Session) (tag : Option (BitVec 128)) (s : State), TakesRequest g h x n s → i < 65536 → sub < 256 →
    (∀ (r : ORow) (pend : Bool), odFind s.p.variant i sub = .obj r →
        let q : Req := { req0 1 x.id (n + 1) with index := i, sub := sub, field := 0, pending := pend }
        let z := requested g x q s
        let y := x.took (reqHeader s.p q) g q s.p.now
        frameSound s.p tag q = true → readAllowed z.p y r sub = 0 → readStop z.p y r i sub = 0 → (readValue z.p y r i sub pend).length ≤ 1024 →
        ∃ t, exec (.read g h tag x.id (n + 1) i sub 0 pend) s = .next t ∧ t.mem = s.mem
          ∧ Answered x.id (n + 1) ⟨0, readValue z.p y r i sub pend, (readValue z.p y r i sub pend).length, false,
              commitsOf z.p (r.block sub)⟩ s t)
    ∧ (∀ (r : ORow) (d : List Byte), odFind s.p.variant i sub = .obj r → x.stage = [] → d.length ≤ 1024 →
        let q : Req := { req0 2 x.id (n + 1) with index := i, sub := sub, field := 0, stage := true, total := d.length, data := d }
        let z := requested g x q s
        let y := x.took (reqHeader s.p q) g q s.p.now
        frameSound s.p tag q = true → writeAllowed z.p y r sub 0 true = 0 →
        gateCheck r z.p = (0, z.p) → typeCheck r 0 d = 0 → fieldRange z.p r sub 0 d (laidOver z.p y r i sub) = 0 →
        ∃ t, exec (.write g h tag x.id (n + 1) i sub 0 true d.length d) s = .next t ∧ t.mem = s.mem
          ∧ Answered x.id (n + 1) (respOf 0 (commitsOf z.p (r.block sub))) s t ∧ t.p.od.val = s.p.od.val
          ∧ ∃ w, sessionAt t.p x.slot = some w ∧ w.stage = [⟨i, sub, 0, d⟩])
    ∧ (∀ v : Byte, v.toNat ≤ 3 → x.stage = [⟨0x1023, 0, 0, [v]⟩] → x.recorded = [] →
        frameSound s.p tag { req0 2 x.id (n + 1) with index := 0x1023, sub := 0xFE, total := 1, data := leBytes 1 0 } = true →
        ∃ t, exec (.commit g h tag x.id (n + 1) 0x1023 0) s = .next t ∧ t.mem = s.mem
          ∧ ∃ w, sessionAt t.p x.slot = some w ∧ w.threshold = v.toNat ∧ w.stage = [])
    ∧ (∀ (f : Transfer), x.xfer = some f → gapOver f s.p.now = false → f.moved < 2 ^ 32 →
        (f.write = false → f.data ≠ [] → frameSound s.p tag { req0 3 x.id (n + 1) with offset := f.moved } = true →
          ∃ t, exec (.segRead g h tag x.id (n + 1) f.moved) s = .next t ∧ t.mem = s.mem
            ∧ ∃ r, Answered x.id (n + 1) r s t ∧ r.abort = 0
            ∧ r.data = padTo (min 1024 (f.total - f.moved)) (f.data.drop f.moved) ∧ (r.more = true ↔ 1024 < f.total - f.moved))
        ∧ (∀ d : List Byte, f.write = true → piecewise f.index = false → f.data.length + d.length < f.total → d.length ≤ 1024 →
          frameSound s.p tag { req0 4 x.id (n + 1) with offset := f.moved, data := d } = true →
          ∃ t, exec (.segWrite g h tag x.id (n + 1) f.moved d) s = .next t ∧ t.mem = s.mem ∧ t.p.od.val = s.p.od.val
            ∧ ∃ w, sessionAt t.p x.slot = some w ∧ w.xfer = some { f with data := f.data ++ d, moved := f.data.length + d.length, last := s.p.now })
        ∧ (frameSound s.p tag (req0 5 x.id (n + 1)) = true → ∃ t, exec (.endTransfer g h tag x.id (n + 1)) s = .next t ∧ t.mem = s.mem
            ∧ Answered x.id (n + 1) (respOf 0 0) s t ∧ ∃ w, sessionAt t.p x.slot = some w ∧ w.xfer = none))
    ∧ (∀ r : ORow, odFind s.p.variant i sub = .obj r → frameSound s.p tag { req0 6 x.id (n + 1) with index := i, sub := sub } = true →
        ∃ t, exec (.describe g h tag x.id (n + 1) i sub) s = .next t ∧ t.mem = s.mem
        ∧ ∃ a, Answered x.id (n + 1) a s t ∧ a.abort = 0
          ∧ a.data = describeBytes r.ty.code r.acc.code r.level.code (b2n r.pers) (if r.ty = .str ∨ r.var = true then 0 else r.len))
    ∧ (∀ (r : ORow) (d : List Byte), odFind s.p.variant i sub = .obj r → x.level.reaches r.level = true → x.stage = [⟨i, sub, 0, d⟩] →
        d.length ≤ 1024 →
        let q : Req := { req0 7 x.id (n + 1) with index := i, sub := sub, field := 0 }
        frameSound s.p tag q = true → ∃ t, exec (.readStaged g h tag x.id (n + 1) i sub 0) s = .next t ∧ t.mem = s.mem
          ∧ Answered x.id (n + 1) ⟨0, d, d.length, false, commitsOf s.p (r.block sub)⟩ s t)
    ∧ (frameSound s.p tag (req0 8 x.id (n + 1)) = true →
        ∃ t, exec (.discard g h tag x.id (n + 1)) s = .next t ∧ t.mem = s.mem ∧ Answered x.id (n + 1) (respOf 0 0) s t
        ∧ ∃ w, sessionAt t.p x.slot = some w ∧ w.stage = [] ∧ w.xfer = x.xfer)
    ∧ (frameSound s.p tag (req0 0x13 x.id (n + 1)) = true →
        ∃ t, exec (.keepalive g h tag x.id (n + 1)) s = .next t ∧ t.mem = s.mem ∧ Answered x.id (n + 1) (respOf 0 0) s t
        ∧ ∃ w, sessionAt t.p x.slot = some w ∧ w.last = s.p.now ∧ w.seq = some (n + 1) ∧ w.stage = x.stage)
    ∧ (frameSound s.p tag (req0 0x12 x.id (n + 1)) = true →
        ∃ t, exec (.sessionClose g h tag x.id (n + 1)) s = .next t ∧ t.mem = s.mem ∧ Answered x.id (n + 1) (respOf 0 0) s t
        ∧ sessionAt t.p x.slot = none ∧ (x.id, endedClose) ∈ t.p.od.ended)
    ∧ (frameSound s.p tag (req0 0x13 x.id (n + 1)) = false →
        ∃ t, exec (.keepalive g h tag x.id (n + 1)) s = .next t ∧ t.mem = s.mem ∧ t.p.od.out = s.p.od.out
        ∧ t.p.od.sessions = s.p.od.sessions ∧ t.p.od.proto.discarded = s.p.od.proto.discarded + 1)

/-- On every served segment: HELLO is answered by either hub, by a boot ROM where both hubs' images have failed (its
form is log 79), and opens nothing; step 3 of an exchange within 5 s, its signature verifying under the credential's
key, opens the pending session in its slot with its level and scope, and a bad one discards it and is counted; an
acknowledged report is no longer owed. In a management slot: a due report is sent and kept, one unacknowledged for 50
ms is sent again, and after 8 times is lost, not before 50 ms; with none due nothing is sent. An idle session ends,
its ID recorded, and one not idle does not; a gap ends its transfer, not before. A session pending for 5 s is
discarded, not before; a lockout ends at its tick, not before. An enabled segment silent for 1 s is down and logged,
not before, and heard again returns. Neighbor discovery and an echo to an address of the attachment are answered, to
another address not. No byte of memory changes. -/
def Obligations.SessionsReportsAndSegmentsFollowTheirTimes : Prop :=
  ∀ (g h slot : Nat) (x : Session) (s : State), g < 2 → h < 2 → slot < 16 →
    (∀ seq < 2 ^ 32, bothFailed s.p = true → ∃ t, exec (.hello g h seq) s = .next t ∧ t.mem = s.mem ∧ Answered 0 seq (helloFailed h) s t)
    ∧ (∀ seq < 2 ^ 32, bothFailed s.p = false → segServes s.p h g = true → s.p.od.segDown.contains g = false →
        ∃ t, exec (.hello g h seq) s = .next t ∧ t.mem = s.mem ∧ Answered 0 seq (helloResp h s.p) s t ∧ t.p.od.sessions = s.p.od.sessions)
    ∧ (∀ (a : PendingAuth) (seq level scope : Nat) (d : List Byte), seq < 2 ^ 32 → segServes s.p h g = true →
        s.p.od.segDown.contains g = false → h = s.p.book.active → s.p.sec.pendingAuth = [a] → a.mailbox = false → a.id ≠ 0 → a.id < 65536 →
        s.p.now ≤ a.since + 5 * ticksPerSecond → healthy s.p = true → d.length = 96 →
        let q : Req := { req0 0x11 a.id seq with data := leBytes 1 level ++ leBytes 1 scope ++ 3 :: d }
        ∀ tag : Option (BitVec 128), frameSound s.p tag q = true →
        (ecVerify ((odBytes s.p 0xB030 a.cred).drop 15) d a.said = true →
          ∃ t, exec (.sessionOpen g h tag a.id seq level scope 3 d) s = .next t ∧ t.mem = s.mem ∧ t.p.sec.pendingAuth = []
          ∧ t.p.sec.authed = s.p.sec.authed + 1
          ∧ ∃ z, sessionAt t.p a.slot = some z ∧ z.id = a.id ∧ z.level = levelNamed a.level ∧ z.scope = a.scope ∧ z.seq = some seq)
        ∧ (ecVerify ((odBytes s.p 0xB030 a.cred).drop 15) d a.said = false →
          ∃ t, exec (.sessionOpen g h tag a.id seq level scope 3 d) s = .next t ∧ t.mem = s.mem ∧ t.p.sec.pendingAuth = []
          ∧ t.p.od.sessions.map (·.id) = s.p.od.sessions.map (·.id) ∧ t.p.sec.authFails = s.p.sec.authFails + 1))
    ∧ (∀ (n : Nat) (u : Unacked) (tag : Option (BitVec 128)), TakesRequest g h x n s → x.unacked = [u] → u.entry.eseq < 2 ^ 32 →
        frameSound s.p tag { req0 0x21 x.id 0 with data := leBytes 4 u.entry.eseq } = true →
        ∃ t, exec (.reportAck g h tag x.id u.entry.eseq) s = .next t ∧ t.mem = s.mem
          ∧ ∃ z, sessionAt t.p x.slot = some z ∧ z.unacked = [])
    ∧ (sessionAt s.p slot = some x →
      (∀ e : Entry, x.due = [e] → x.unacked = [] → ∃ t, exec (.reportSend slot) s = .next t ∧ t.mem = s.mem
        ∧ t.p.od.reports = s.p.od.reports ++ [(x.id, e)] ∧ ∃ z, sessionAt t.p slot = some z ∧ z.due = [] ∧ z.unacked = [⟨e, s.p.now, 0⟩])
      ∧ (x.due = [] → exec (.reportSend slot) s = .next s)
      ∧ (∀ u : Unacked, x.unacked = [u] →
        (s.p.now < u.sentAt + 5000000 → exec (.reportResend slot) s = .next s)
        ∧ (u.sentAt + 5000000 ≤ s.p.now → u.resends < 8 → ∃ t, exec (.reportResend slot) s = .next t ∧ t.mem = s.mem
            ∧ t.p.od.reports = s.p.od.reports ++ [(x.id, u.entry)]
            ∧ ∃ z, sessionAt t.p slot = some z ∧ z.unacked = [⟨u.entry, s.p.now, u.resends + 1⟩])
        ∧ (u.sentAt + 5000000 ≤ s.p.now → 8 ≤ u.resends → ∃ t, exec (.reportResend slot) s = .next t ∧ t.mem = s.mem
            ∧ t.p.od.proto.lost = s.p.od.proto.lost + 1 ∧ ∃ z, sessionAt t.p slot = some z ∧ z.unacked = [] ∧ z.lost = true))
      ∧ (sessionIdle s.p x = true → ∃ t, exec (.sessionIdleTimeout slot) s = .next t ∧ t.mem = s.mem
          ∧ sessionAt t.p slot = none ∧ (x.id, endedIdle) ∈ t.p.od.ended)
      ∧ (sessionIdle s.p x = false → exec (.sessionIdleTimeout slot) s = .next s)
      ∧ (∀ f : Transfer, x.xfer = some f →
        (gapOver f s.p.now = true → ∃ t, exec (.transferGapTimeout slot) s = .next t ∧ t.mem = s.mem
          ∧ ∃ z, sessionAt t.p slot = some z ∧ z.xfer = none)
        ∧ (gapOver f s.p.now = false → exec (.transferGapTimeout slot) s = .next s)))
    ∧ (∀ a : PendingAuth, s.p.sec.pendingAuth = [a] → a.since + 5 * ticksPerSecond ≤ s.p.now →
        ∃ t, exec (.authPendingTimeout a.id) s = .next t ∧ t.mem = s.mem ∧ t.p.sec.pendingAuth = [])
    ∧ (∀ a : PendingAuth, s.p.sec.pendingAuth = [a] → s.p.now < a.since + 5 * ticksPerSecond →
        exec (.authPendingTimeout a.id) s = .next s)
    ∧ (∀ (c : CredLock) (b n : Nat), n < 32 → Tab.find? s.p.sec.lock n = some c → c.until_ = some b →
        (b ≤ s.p.now → ∃ t, exec (.credentialLockoutEnd n) s = .next t ∧ t.mem = s.mem ∧ credLocked t.p n = false
          ∧ Tab.find? t.p.sec.lock n = none)
        ∧ (s.p.now < b → exec (.credentialLockoutEnd n) s = .next s))
    ∧ (cfg s.p 0x1010 0 (1 + g) = 1 → s.p.od.segDown.contains g = false →
        (Tab.get 0 s.p.od.lastFrame g + ticksPerSecond ≤ s.p.now → ∃ t, exec (.mgmtSegmentDown g) s = .next t ∧ t.mem = s.mem
          ∧ g ∈ t.p.od.segDown ∧ Logged 0x0E22 t.p)
        ∧ (s.p.now < Tab.get 0 s.p.od.lastFrame g + ticksPerSecond → exec (.mgmtSegmentDown g) s = .next s))
    ∧ (s.p.od.segDown.contains g = true → ∃ t, exec (.mgmtSegmentReturn g) s = .next t ∧ t.mem = s.mem ∧ g ∉ t.p.od.segDown
        ∧ Logged 0x0E22 t.p)
    ∧ (∀ (a : BitVec 128) (d : List Byte), segServes s.p h g = true → s.p.od.segDown.contains g = false →
        ((addressesOf s.p h g).contains (leBytes 16 a.toNat).reverse = true →
          (∃ t, exec (.neighborDiscovery h g a) s = .next t ∧ t.mem = s.mem
            ∧ t.p.od.net = s.p.od.net ++ [(2 * h + g, (leBytes 16 a.toNat).reverse ++ macOf h g)])
          ∧ (∃ t, exec (.icmpv6Echo h g a d) s = .next t ∧ t.mem = s.mem ∧ t.p.od.net = s.p.od.net ++ [(2 * h + g, d)]))
        ∧ ((addressesOf s.p h g).contains (leBytes 16 a.toNat).reverse = false →
          ∃ t, exec (.icmpv6Echo h g a d) s = .next t ∧ t.mem = s.mem ∧ t.p.od.net = s.p.od.net))

/-- Under the stored manager epoch: FENCE moves a compute site that is in service or SUSPECT to FENCED, EXPEL fences
every such port of the panel and closes the open latch, REINSTATE moves a site that a manager FENCED to SUSPECT and
asks for its probe, and each is accepted. Under a stale epoch none of them changes the state of a unit; it is counted.
The oldest evidence moves a unit in service to SUSPECT, or to FAILED where it was probed the limit of times within the
window, a conflict counted; of a unit ABSENT or FAILED it is only counted; without evidence nothing changes. A probe
that is due starts and is counted, one not due does not; one that fails moves its unit to FAILED and is counted; one
of a port that is UP in time returns it to READY, logged. No byte of memory changes. -/
def Obligations.ManagersFenceAndReinstateEvidenceAndProbesDecide : Prop :=
  ∀ (u ep reason mgr : Nat) (id : UnitId) (s : State),
    let key := UnitId.key id
    (ep % 65536 = s.p.od.hme →
      (isCompute u = true → USt.rank (s.p.ust u) < 2 → ∃ t, exec (.managerFence 1 u ep reason mgr) s = .next t ∧ t.mem = s.mem
        ∧ t.p.ust u = .fenced ∧ t.p.od.mgr.accepted = s.p.od.mgr.accepted + 1)
      ∧ (∃ t, exec (.expel ep reason mgr) s = .next t ∧ t.mem = s.mem ∧ t.p.book.expelled = true ∧ t.p.fab.mer.openLatch = false
        ∧ ∀ n < 12, portFused s.p.variant n = false → USt.rank (s.p.ust (keyPort n)) < 2 → t.p.ust (keyPort n) = .fenced)
      ∧ (isCompute u = true → s.p.ust u = .fenced → (s.p.unit u).own = true → (s.p.unit u).takeover = false →
        ∃ t, exec (.reinstate 1 u ep reason mgr) s = .next t ∧ t.mem = s.mem ∧ t.p.ust u = .suspect ∧ u ∈ t.p.book.asked))
    ∧ (isCompute u = true → 32768 ≤ (ep % 65536 + 65536 - s.p.od.hme) % 65536 →
        ∀ i : Instr, i = .managerFence 1 u ep reason mgr ∨ i = .expel ep reason mgr ∨ i = .reinstate 1 u ep reason mgr →
          ∃ t, exec i s = .next t ∧ t.mem = s.mem ∧ t.p.book.unit = s.p.book.unit ∧ t.p.od.mgr.stale = s.p.od.mgr.stale + 1)
    ∧ (∀ (k cause : Nat) (l : List (Nat × Nat)), s.p.book.pendingEvid = (k, cause) :: l →
        (USt.rank (s.p.ust k) = 0 → ∃ t, exec .stateEvidence s = .next t ∧ t.mem = s.mem ∧ t.p.book.pendingEvid = l
          ∧ t.p.ust k = (if cfg s.p 0xE020 0 2 ≤ (probesIn s.p k).length then .failed else .suspect)
          ∧ t.p.book.conflicts = s.p.book.conflicts + 1)
        ∧ (3 ≤ USt.rank (s.p.ust k) → ∃ t, exec .stateEvidence s = .next t ∧ t.mem = s.mem ∧ t.p.book.pendingEvid = l
          ∧ t.p.ust k = s.p.ust k ∧ (t.p.unit k).evid = (s.p.unit k).evid + 1))
    ∧ (s.p.book.pendingEvid = [] → exec .stateEvidence s = .next s)
    ∧ (probeDue s.p key = true → ∃ t, exec (.probeStart id) s = .next t ∧ t.mem = s.mem
        ∧ t.p.book.probes = s.p.book.probes ++ [⟨key, s.p.now⟩] ∧ t.p.book.probesRun = s.p.book.probesRun + 1 ∧ key ∉ t.p.book.asked)
    ∧ (probeDue s.p key = false → exec (.probeStart id) s = .next s)
    ∧ (∀ pr : Probe, s.p.book.probes = [pr] → pr.key = key → s.p.ust key = .suspect →
        (∀ ev, ∃ t, exec (.probeComplete id (some ev)) s = .next t ∧ t.mem = s.mem ∧ t.p.book.probes = [] ∧ t.p.ust key = .failed
          ∧ t.p.book.probesFailed = s.p.book.probesFailed + 1)
        ∧ (∀ n < 12, key = keyPort n → s.p.now ≤ pr.started + 10000000 → (s.p.getPort n).phase = 8 → (s.p.unit key).prior = .ready →
          ∃ t, exec (.probeComplete id none) s = .next t ∧ t.mem = s.mem ∧ t.p.book.probes = [] ∧ t.p.ust key = .ready ∧ Logged 0x0E04 t.p))
    ∧ (s.p.book.probes = [] → ∀ fail, exec (.probeComplete id fail) s = .next s)

/-- Where hub B has decided to take over from an active hub A, runs, and no store or copy is in progress, TAKEOVER
makes it active under the next generation: the event host interface is taken, port H0 down, every session but the
mailboxes' own ended, pending and bulk sessions gone, and hub A FENCED unless it was FENCED, FAILED or ABSENT. Where
it has not decided, nothing changes. An active hub A that has had no beat of hub B for the loss timeout declares it
lost and FENCED, logged, and not before. The limit of an event limited per second ends in another second than its own,
its count of suppressed repeats kept, and lasts in its own. No byte of memory changes. -/
def Obligations.HubBTakesOverAndRatesAreLimitedBySpans : Prop :=
  ∀ (stored : Bool) (s : State),
    (s.p.book.takeDue = true → s.p.book.active = 0 → s.p.book.tookOver = false → hubRuns s.p 0xDD = true → s.p.pwr.writes = [] →
        s.p.host.copies = [] → ∃ t, exec (.takeover stored) s = .next t ∧ t.mem = s.mem ∧ t.p.book.active = 1
          ∧ t.p.book.tookOver = true ∧ t.p.book.takeDue = false ∧ t.p.book.tgen = (s.p.book.tgen + 1) % 256 ∧ t.p.host.taken = true
          ∧ t.p.host.takeovers = s.p.host.takeovers + 1 ∧ (t.p.getHPort 0).up = false
          ∧ (∀ x ∈ t.p.od.sessions, x.id = 0) ∧ t.p.sec.pendingAuth = [] ∧ t.p.ctl.bulks = []
          ∧ (USt.rank (s.p.ust 0x00) < 2 → t.p.ust 0x00 = .fenced))
    ∧ (s.p.book.takeDue = false → exec (.takeover stored) s = .next s)
    ∧ (s.p.book.active = 0 → s.p.book.standbyLost = false →
        (Tab.get 0 s.p.ctl.lastBeat 0xDD + cfg s.p 0x7024 0 2 ≤ s.p.now → ∃ t, exec .hubBBeatsMissed s = .next t ∧ t.mem = s.mem
          ∧ t.p.book.standbyLost = true ∧ t.p.book.takeDue = false ∧ Logged 0x0E08 t.p
          ∧ (USt.rank (s.p.ust 0xDD) < 2 → t.p.ust 0xDD = .fenced))
        ∧ (s.p.now < Tab.get 0 s.p.ctl.lastBeat 0xDD + cfg s.p 0x7024 0 2 → exec .hubBBeatsMissed s = .next s))
    ∧ (∀ l : Latch, s.p.book.latch = [l] → evSpan l.ev = .second →
        (l.idx ≠ s.p.now / ticksPerSecond → exec .rateSpanEnd s = .next (s.onP fun p => p.modBook fun b => { b with latch := [{ l with live := false }] }))
        ∧ (l.idx = s.p.now / ticksPerSecond → exec .rateSpanEnd s = .next s))

/-- On every panel and control node: the end of the settle delay checks the references, once, and a recheck while none
is valid checks them again; losing REFA in use moves to REFB, or to holdover, logged; a measurement outside 100 MHz +-
0.1 % loses REFB and one within counts for it. A marker, which comes every 65,536 ticks and at no other, that agrees
with a die's copy leaves it; one that does not makes the copy the count's bits [63:16] over zeros, a mismatch counted.
A lost lock stops the die's clock. At its deadline a plan is judged: a die in service that has not acknowledged has
missed it, counted and logged; 100 ticks after T the hub reads back those, not before. A die raises its regulator from
T - 1,000 ticks for a higher step, not before, and applies the plan at T: its step, SYNC mode, the spread, every other
die as before; not before T. No byte of memory changes. -/
def Obligations.ReferencesTimebaseAndPlansAreFollowed : Prop :=
  ∀ (n num : Nat) (x y : Plan) (s : State), isNode n = true →
    let c := s.p.getClk n
    let k := s.p.clk
    (∀ a b : Bool, (k.settled = false → s.p.boot.porDone = true → ∃ t, exec (.oscSettleExpiry a b) s = .next t ∧ t.mem = s.mem
          ∧ t.p.clk.settled = true ∧ t.p.clk.refA = (if a then goodRef k.refA else k.refA)
          ∧ t.p.clk.refB = (if b then goodRef k.refB else k.refB)
          ∧ (t.p.boot.refFrom.isSome = true ↔ t.p.clk.refA.valid = false ∧ t.p.clk.refB.valid = false))
        ∧ (k.settled = true → exec (.oscSettleExpiry a b) s = .next s)
        ∧ (k.settled = true → k.refA.valid = false → k.refB.valid = false → s.p.boot.refFrom.isSome = true →
          ∃ t, exec (.refRecheck a b) s = .next t ∧ t.mem = s.mem ∧ t.p.clk.refA = (if a then goodRef k.refA else k.refA)
            ∧ t.p.clk.refB = (if b then goodRef k.refB else k.refB))
        ∧ (k.refA.valid = true → k.settled = true → exec (.refRecheck a b) s = .next s))
    ∧ (k.settled = true → k.use = 0 →
        (k.refB.valid = true → ∃ t, exec (.refEdgeLoss 0) s = .next t ∧ t.mem = s.mem ∧ t.p.clk.refA.valid = false ∧ t.p.clk.use = 1
          ∧ t.p.clk.failovers = k.failovers + 1 ∧ Logged 0x0201 t.p)
        ∧ (k.refB.valid = false → ∃ t, exec (.refEdgeLoss 0) s = .next t ∧ t.mem = s.mem ∧ t.p.clk.refA.valid = false ∧ t.p.clk.use = 2
          ∧ t.p.clk.holdFrom = some s.p.now ∧ Logged 0x0202 t.p))
    ∧ (∀ hz : Nat, (hz < 99900000 ∨ 100100000 < hz → ∃ t, exec (.refMeasurement 1 hz) s = .next t ∧ t.mem = s.mem
          ∧ t.p.clk.refB.valid = false ∧ t.p.clk.refA = k.refA)
        ∧ (99900000 ≤ hz → hz ≤ 100100000 → k.settled = true → ∃ t, exec (.refMeasurement 1 hz) s = .next t ∧ t.mem = s.mem
          ∧ t.p.clk.refB = goodRef k.refB ∧ t.p.clk.refA = k.refA))
    ∧ (∀ d : BitVec 64, let off := c.tbOff + d
        (s.p.now % 65536 ≠ 0 → exec (.tbAlignmentMarker n d) s = .next s)
        ∧ (s.p.now % 65536 = 0 → fld (BitVec.ofNat 64 s.p.now + off) 63 16 = s.p.now % 2 ^ 64 / 2 ^ 16 →
          exec (.tbAlignmentMarker n d) s = .next (s.onP fun p => p.modClk n fun c => { c with tbOff := off }))
        ∧ (s.p.now % 65536 = 0 → fld (BitVec.ofNat 64 s.p.now + off) 63 16 ≠ s.p.now % 2 ^ 64 / 2 ^ 16 → ∃ t, exec (.tbAlignmentMarker n d) s = .next t
          ∧ t.mem = s.mem ∧ (t.p.getClk n).mism = c.mism + 1
          ∧ BitVec.ofNat 64 s.p.now + (t.p.getClk n).tbOff = BitVec.ofNat 64 (s.p.now / 2 ^ 16 * 2 ^ 16)))
    ∧ (c.locked = true → ∃ t, exec (.pllUnlock n) s = .next t ∧ t.mem = s.mem ∧ (t.p.getClk n).locked = false)
    ∧ (c.locked = false → exec (.pllUnlock n) s = .next s)
    ∧ (∀ (m : Nat) (acked : List Nat), k.plans = [⟨x, [m], acked, [], [], false⟩] → x.num = num → x.t ≤ s.p.now + 1000 →
        dieOn s.p m = true → barred s.p m = false →
        (acked = [] → ∃ t, exec (.stepPlanDeadline num) s = .next t ∧ t.mem = s.mem ∧ t.p.clk.missedPlans = k.missedPlans + 1
          ∧ t.p.clk.plans = [⟨x, [m], acked, [m], [], true⟩] ∧ Logged 0x0206 t.p)
        ∧ (acked = [m] → ∃ t, exec (.stepPlanDeadline num) s = .next t ∧ t.mem = s.mem ∧ t.p.clk.missedPlans = k.missedPlans
          ∧ t.p.clk.plans = [⟨x, [m], acked, [], [], true⟩]))
    ∧ (∀ m : Nat, k.plans = [⟨x, [m], [], [m], [], true⟩] → x.num = num →
        (x.t + 100 ≤ s.p.now → ∃ t, exec (.stepPlanReadback num) s = .next t ∧ t.mem = s.mem
          ∧ (takesPart s.p s.p.activeHub = true → Sent s.p.activeHub (.cfgRead 3 0) t.p))
        ∧ (s.p.now < x.t + 100 → exec (.stepPlanReadback num) s = .next s))
    ∧ (c.armed = some y →
        (y.t ≤ s.p.now + 1000 → c.step < y.step →
          exec (.regulatorRaise n) s = .next (s.onP fun p => p.modClk n fun c => { c with raised := true }))
        ∧ (s.p.now + 1000 < y.t → exec (.regulatorRaise n) s = .next s)
        ∧ (y.t ≤ s.p.now → c.emergAt = none → ∃ t, exec (.stepPlanApply n) s = .next t ∧ t.mem = s.mem ∧ (t.p.getClk n).step = y.step
          ∧ (t.p.getClk n).armed = none ∧ (t.p.getClk n).localMode = false ∧ (t.p.getClk n).plans = c.plans + 1
          ∧ t.p.clk.spread = y.spread ∧ ∀ m, m ≠ n → t.p.getClk m = s.p.getClk m)
        ∧ (s.p.now < y.t → exec (.stepPlanApply n) s = .next s))

/-- On every compute die a droop stretches the cycle by half its length, rounded up, drawing on the budget of 32 in
1,024 cycles except in stall cycles; with the budget spent the die steps down by one, counted, and asks the hub; an
unlocked die or a cycle already stretched is left. A step request makes the hub plan the panel at that step or lower,
within the limits; without one nothing changes. On every control node a die in no region enters LOCAL mode at a step
up to the ceiling, one in a region does not; SYNC is asked for by a plan to that die alone, which stays LOCAL until it
applies. Hub A's peripheral enables take a word that clears only what may be cleared, without bit 11 closing the open
latch, and no other. No byte of memory changes. -/
def Obligations.StretchesStepsModesAndPeripherals : Prop :=
  ∀ (cs n x : Nat) (s : State), isCompute cs = true → isNode n = true →
    let c := s.p.getClk cs
    let recent := c.budget.filter fun m => decide (c.clk < m + 1024)
    (c.locked = true → c.stretch = false →
        (recent.length < 32 → c.stall = 0 → ∃ t, exec (.droopStretch cs) s = .next t ∧ t.mem = s.mem ∧ t.p.getClk cs =
          { c with stretch := true, left := c.left + ceilDiv (stepN c.step) 2, stretched := c.stretched + 1, budget := c.clk :: recent })
        ∧ (0 < c.stall → ∃ t, exec (.droopStretch cs) s = .next t ∧ t.mem = s.mem ∧ (t.p.getClk cs).stretch = true
          ∧ (t.p.getClk cs).budget = recent ∧ (t.p.getClk cs).step = c.step)
        ∧ (32 ≤ recent.length → c.stall = 0 → 0 < c.step → ∃ t, exec (.droopStretch cs) s = .next t ∧ t.mem = s.mem
          ∧ (t.p.getClk cs).step = c.step - 1 ∧ (t.p.getClk cs).emerg = c.emerg + 1 ∧ (t.p.getClk cs).asked = some (c.step - 1)))
    ∧ (c.locked = false ∨ c.stretch = true → exec (.droopStretch cs) s = .next s)
    ∧ (∀ f, c.asked = some f → ∃ t, exec (.stepRequest cs) s = .next t ∧ t.mem = s.mem ∧ (t.p.getClk cs).asked = none
        ∧ t.p.clk.planNum = s.p.clk.planNum + 1 ∧ t.p.clk.issued = s.p.clk.issued + 1
        ∧ (t.p.clk.plans.getLast?.map fun o => o.plan.step) = some (boundStep s.p (min (panelStep s.p) f)))
    ∧ (c.asked = none → exec (.stepRequest cs) s = .next s)
    ∧ (s.p.regionOf n = none → ∃ t, exec (.dieClockModeWrite n 1) s = .next t ∧ t.mem = s.mem ∧ (t.p.getClk n).localMode = true
        ∧ ((s.p.getClk n).localMode = false → (t.p.getClk n).step ≤ cfg s.p 0x2015 0 1))
    ∧ ((s.p.regionOf n).isSome = true → exec (.dieClockModeWrite n 1) s = .next s)
    ∧ ((s.p.getClk n).localMode = true → ∃ t, exec (.dieClockModeWrite n 0) s = .next t ∧ t.mem = s.mem
        ∧ (t.p.getClk n).localMode = true ∧ t.p.clk.planNum = s.p.clk.planNum + 1
        ∧ (t.p.clk.plans.getLast?.map fun o => o.targets) = some [n])
    ∧ ((s.p.getClk n).localMode = false ∨ 1 < x → exec (.dieClockModeWrite n (if (s.p.getClk n).localMode then x else 0)) s
        = .next s)
    ∧ (∀ w : BitVec 32, let old := Tab.get 0 s.p.clk.periph 0
        (fld w 31 12 = 0 → (∀ i < 12, bit old i = true → bit w i = false → mayClear s.p i = true) → bit w 8 = false →
          ∃ t, exec (.peripheralEnableWrite 0x00 w) s = .next t ∧ t.mem = s.mem ∧ Tab.get 0 t.p.clk.periph 0 = w
            ∧ Tab.get 0 t.p.clk.periph 1 = Tab.get 0 s.p.clk.periph 1
            ∧ (bit w 11 = false → s.p.book.active = 0 → t.p.fab.mer.openLatch = false))
        ∧ (fld w 31 12 ≠ 0 ∨ (∃ i < 12, bit old i = true ∧ bit w i = false ∧ mayClear s.p i = false) →
          exec (.peripheralEnableWrite 0x00 w) s = .next s))

/-- On every block: a window whose VIR is within range is framed by the driving die and changes no state; below 1.20 V
the block collapses; with no driver the duty moves. A collapse of a block that is up fails it, counted; one that is
not up is left. 1 ms after it the current is read, above 10 % of the rating logged, not before. A poll that reads well
takes voltage, current, temperature and energy; an alert counts a fault of the group it names alone; without the
peripheral nothing is polled. A block being enabled is up when its frames are valid and within 25 mV of the setpoint,
and fails after 20 ms, logged, not before. A calibration divides the energy by the counts, one with a failed poll
falls back. Standby power below 10.8 V is noted and logged once; below 9.0 V every block is off, not above; the hold-
up bank is read with it. No byte of memory changes. -/
def Obligations.BlocksAndPowerReadingsActOnTheirBlock : Prop :=
  ∀ (b v d bank : Nat) (s : State), b < 20 →
    let x := s.p.getBlk b
    (x.driver = some d → canDrive s.p d = true → x.st = .up →
        (2600 ≤ v → v ≤ 3300 → ∃ t, exec (.vminFrame b v) s = .next t ∧ t.mem = s.mem ∧ (t.p.getBlk b).vcode = v
          ∧ (t.p.getBlk b).frames = x.frames + 1 ∧ (t.p.getBlk b).lowFor = 0 ∧ (t.p.getBlk b).highFor = 0 ∧ (t.p.getBlk b).st = .up
          ∧ (t.p.getBlk b).frame = vminFrame x.frames b v false ((blockDies b).any (canDrive s.p)))
        ∧ (v < 2400 → ∃ t, exec (.vminFrame b v) s = .next t ∧ t.mem = s.mem ∧ (t.p.getBlk b).st = .failed
          ∧ (t.p.getBlk b).collapses = x.collapses + 1))
    ∧ (x.driver = none → ∃ t, exec (.vminFrame b v) s = .next t ∧ t.mem = s.mem ∧ (t.p.getBlk b).driver = driverOf s.p b
        ∧ (t.p.getBlk b).vmin = false)
    ∧ (x.st = .up → ∃ t, exec (.blockCollapse b) s = .next t ∧ t.mem = s.mem ∧ (t.p.getBlk b).st = .failed
        ∧ (t.p.getBlk b).collapses = x.collapses + 1 ∧ (t.p.getBlk b).collapsedAt = some s.p.now)
    ∧ (x.st ≠ .up → exec (.blockCollapse b) s = .next s)
    ∧ (∀ at_ : Nat, x.collapsedAt = some at_ → (at_ + 100000 ≤ s.p.now → ∃ t, exec (.fuseNotTripped b v) s = .next t ∧ t.mem = s.mem
          ∧ (t.p.getBlk b).iout = v ∧ ((if b < 16 then 900 else 200) < v → Logged 0x0103 t.p))
        ∧ (s.p.now < at_ + 100000 → exec (.fuseNotTripped b v) s = .next s))
    ∧ (∀ (i : Nat) (tmp : Int), liveBlocks s.p = [b] → periphOn s.p 3 = true →
        (∃ t, exec (.pmbusPoll [(b, some ⟨v, i, tmp, true, false⟩)]) s = .next t ∧ t.mem = s.mem ∧ (t.p.getBlk b).vout = v
          ∧ (t.p.getBlk b).iout = i ∧ (t.p.getBlk b).temp = tmp ∧ (t.p.getBlk b).e10 = x.e10 + v * i ∧ (t.p.getBlk b).faults = x.faults)
        ∧ (∃ t, exec (.pmbAlert [b]) s = .next t ∧ t.mem = s.mem ∧ (t.p.getBlk b).faults = x.faults + 1)
        ∧ (b < 19 → exec (.pmbAlert [b + 1]) s = .next s))
    ∧ (periphOn s.p 3 = false → ∀ l, exec (.pmbusPoll l) s = .next s)
    ∧ (x.st = .enabling → x.since ≤ s.p.now → x.vmin = true → 2 * s.p.pwr.setpoint ≤ x.vcode + 50 → x.vcode ≤ 2 * s.p.pwr.setpoint + 50 →
        ∃ t, exec (.blockPowerGood b) s = .next t ∧ t.mem = s.mem ∧ (t.p.getBlk b).st = .up ∧ (t.p.getBlk b).since = s.p.now)
    ∧ (x.vmin = false → exec (.blockPowerGood b) s = .next s)
    ∧ (x.st = .enabling → (x.since + 2000000 ≤ s.p.now → ∃ t, exec (.blockEnableTimeout b) s = .next t ∧ t.mem = s.mem
          ∧ (t.p.getBlk b).st = .failed ∧ Logged 0x0102 t.p)
        ∧ (s.p.now < x.since + 2000000 → exec (.blockEnableTimeout b) s = .next s))
    ∧ (x.st = .up → x.badPoll = false → 0 < x.c10 → ∃ t, exec (.calibrationFactorUpdate b) s = .next t ∧ t.mem = s.mem
        ∧ t.p.getBlk b = { x with e10 := 0, c10 := 0, calOk := true, factor := Q.mk' x.e10 (x.c10 * 1000000 : Nat) })
    ∧ (x.st = .up → x.badPoll = true → ∃ t, exec (.calibrationFactorUpdate b) s = .next t ∧ t.mem = s.mem
        ∧ (t.p.getBlk b).calOk = false ∧ (t.p.getBlk b).badPoll = false)
    ∧ (x.st ≠ .up → exec (.calibrationFactorUpdate b) s = .next s)
    ∧ (v < 10800 → ∃ t, exec (.vsb12Low ⟨v, bank⟩) s = .next t ∧ t.mem = s.mem ∧ t.p.pwr.vsb12 = v ∧ t.p.pwr.bank = bank
        ∧ (10800 ≤ s.p.pwr.vsb12 → Logged 0x0106 t.p))
    ∧ (v < 9000 → ∃ t, exec (.vsb12Loss ⟨v, bank⟩) s = .next t ∧ t.mem = s.mem ∧ t.p.pwr.holdOnly = true
        ∧ ∀ c < 20, (t.p.getBlk c).st ≠ .up ∧ (t.p.getBlk c).st ≠ .enabling)
    ∧ (9000 ≤ v → exec (.vsb12Loss ⟨v, bank⟩) s = .next (s.onP fun p => p.modPwr fun w => { w with bank := bank }))

/-- In every state a window start takes the cap and guard settings in force, the effective cap being the lesser of cap
and thermal cap, adds the energy of the dies' counts to the total, and closes each account's debits; with one account
its balance is corrected by the difference of debits and measured energy, refilled with its share of what is left
after the common energy, and clamped to its depth. The first waiting step of a partition whose balance covers it is
admitted, its energy debited; another is not and nothing changes. A record write that is done and that nothing waits
for leaves the newest valid slot as it was and fills the other, under its header where its read-back agreed and
without one where not; with no write only the bank is read. No byte of memory changes. -/
def Obligations.WindowsAdmissionsAndRecordsKeepTheirAccounts : Prop :=
  ∀ (r bank : Nat) (ok : Bool) (acts : List (Nat × Nat)) (s : State), r < 64 →
    (∃ t, exec (.ledgerWindowStart acts) s = .next t ∧ t.mem = s.mem ∧ t.p.pwr.cap = cfg s.p 0x3002 0 1
        ∧ t.p.pwr.effCap = min (cfg s.p 0x3002 0 1) t.p.pwr.thermalCap ∧ t.p.pwr.guard = cfg s.p 0x3013 0 1
        ∧ t.p.pwr.total = s.p.pwr.total + ((acts.filter fun e => isDie e.1).map fun e => countUJ s.p e.1 e.2).sum
        ∧ (∀ n ∈ accounts s.p, (t.p.getAcct n).debits = 0 ∧ (t.p.getAcct n).lastDebits = (s.p.getAcct n).debits)
        ∧ (∀ n, accounts s.p = [n] → s.p.pwr.skip = false → (t.p.getAcct n).balance =
            min ((s.p.getAcct n).balance + (s.p.getAcct n).debits - (t.p.getAcct n).measured
              + ((refill t.p - t.p.pwr.common) * shareOf t.p n / max 1 (shareSum t.p) : Nat)) (depthOf t.p n)))
    ∧ (let n := (s.p.getReg r).part
       let e := waitEnergy s.p r
       ((waiting4 s.p n).head? = some r → covers s.p n e = true → ∃ t, exec (.stepAdmission r) s = .next t ∧ t.mem = s.mem
          ∧ (t.p.getReg r).stage = .admitted ∧ (t.p.getAcct n).balance = (s.p.getAcct n).balance - e
          ∧ (t.p.getAcct n).debits = (s.p.getAcct n).debits + e ∧ (t.p.getAcct n).admitted = (s.p.getAcct n).admitted + 1)
       ∧ ((waiting4 s.p n).head? ≠ some r ∨ covers s.p n e = false → exec (.stepAdmission r) s = .next s))
    ∧ (∀ w : NvWrite, s.p.pwr.writes = [w] → w.begun = true → w.job = job0 → let x := nvSlots s.p w.id
        let y : NvSlot := ⟨if ok then nvHeader w.id w.seq w.body else [], w.body⟩
        ∃ t, exec (.nvRecordWrite ⟨ok, bank⟩) s = .next t ∧ t.mem = s.mem ∧ t.p.pwr.writes = [] ∧ t.p.pwr.bank = bank
          ∧ nvSlots t.p w.id = (if newer w.id x.1 x.2 then (x.1, y) else (y, x.2)))
    ∧ (s.p.pwr.writes = [] → exec (.nvRecordWrite ⟨ok, bank⟩) s = .next (s.onP fun p => p.modPwr fun w => { w with bank := bank }))

/-- On every die and block: a running die at Tj max above F0 steps down by one, counted, and asks the hub; at F0
nothing. A trip stops it once, counted. A report whose readings all count gives the hottest of each kind; one with no
junction reading takes Tj max and is evidence. With one live block, an estimate takes its sums away and leaves its
resistance unless its power counts, when it moves by the rule towards (T - coolant) / power; a forecast is kept, with
its sums, and at 105 C or more holds the block from this tick. A block held for the limit lowers the ceiling by one,
or at the lowest step has the waiting steps admitted; not before. A coolant poll that reads both takes them, and no
rise unless 15 C apart; an inlet that fails is counted and, the third time, not used; without the peripheral nothing
is polled. No byte of memory changes. -/
def Obligations.TemperaturesStepTripHoldAndForecast : Prop :=
  ∀ (d b : Nat) (s : State), isDie d = true → b < 20 →
    let c := s.p.getClk d
    let x := s.p.getBlk b
    (0 < c.step → c.locked = true → c.tripped = false → ∃ t, exec (.tjLimit d) s = .next t ∧ t.mem = s.mem ∧ t.p.getClk d =
        { c with step := c.step - 1, emerg := c.emerg + 1, emergAt := some (s.p.now, c.step - 1), asked := some (c.step - 1), tjDowns := c.tjDowns + 1 })
    ∧ (c.step = 0 → exec (.tjLimit d) s = .next s)
    ∧ (c.tripped = false → ∃ t, exec (.thermalTrip d) s = .next t ∧ t.mem = s.mem ∧ t.p.getClk d = { c with tripped := true, trips := c.trips + 1 }
        ∧ t.p.pwr.trips = s.p.pwr.trips + 1)
    ∧ (c.tripped = true → exec (.thermalTrip d) s = .next s)
    ∧ (∀ j q : List Int, goodReadings j = j → goodReadings q = q →
        (j ≠ [] → ∃ t, exec (.thermalReport d j q) s = .next t ∧ t.mem = s.mem ∧ (t.p.getClk d).junction = hottest j
          ∧ (t.p.getClk d).dram = hottest q ∧ (t.p.getClk d).excluded = 0 ∧ t.p.book.pendingEvid = s.p.book.pendingEvid)
        ∧ (j = [] → ∃ t, exec (.thermalReport d j q) s = .next t ∧ t.mem = s.mem ∧ (t.p.getClk d).junction = some 1050
          ∧ t.p.book.pendingEvid = s.p.book.pendingEvid ++ [(d, 0x0303)]))
    ∧ (liveBlocks s.p = [b] → ∃ t, exec .rthEstimate s = .next t ∧ t.mem = s.mem ∧ t.p.pwr.sumC = 0 ∧ t.p.pwr.cntC = 0
        ∧ (t.p.getBlk b).sumJ = 0 ∧ (t.p.getBlk b).cntJ = 0 ∧ (t.p.getBlk b).eSec = 0
        ∧ (qLe (qOf (if b < 16 then 135 else 30)) (Q.mk' x.eSec 1000000) = false → (t.p.getBlk b).rthJ = x.rthJ ∧ (t.p.getBlk b).estJ = x.estJ)
        ∧ (qLe (qOf (if b < 16 then 135 else 30)) (Q.mk' x.eSec 1000000) = true → 0 < x.cntJ → 0 < s.p.pwr.cntC →
            (t.p.getBlk b).estJ = true ∧ (t.p.getBlk b).rthJ = (moveRth (rthJOf s.p b)
              (qDiv (qSub (Q.mk' x.sumJ (10 * x.cntJ : Nat)) (Q.mk' s.p.pwr.sumC (100 * s.p.pwr.cntC : Nat))) (Q.mk' x.eSec 1000000))).1))
    ∧ (∀ T : Int, liveBlocks s.p = [b] → blockHot s.p b (·.junction) = some T → ∃ t, exec .thermalForecast s = .next t ∧ t.mem = s.mem
        ∧ t.p.pwr.allHeld = false ∧ (t.p.getBlk b).fJ = qFloor (forecast s.p b T (rthJOf s.p b))
        ∧ (qLe (qOf 1050) (forecast s.p b T (rthJOf s.p b)) = true → (t.p.getBlk b).held = true
            ∧ (t.p.getBlk b).heldAt = if x.held then x.heldAt else s.p.now)
        ∧ (t.p.getBlk b).sumJ = x.sumJ + T ∧ (t.p.getBlk b).cntJ = x.cntJ + 1)
    ∧ (x.held = true → x.heldAt + 100000 * s.p.pwr.holdLimit ≤ s.p.now →
        (cfg s.p 0x2011 0 1 < s.p.pwr.ceiling → ∃ t, exec (.holdLimitExpiry b) s = .next t ∧ t.mem = s.mem
          ∧ t.p.pwr.ceiling = s.p.pwr.ceiling - 1 ∧ (t.p.getBlk b).heldAt = s.p.now)
        ∧ (s.p.pwr.ceiling ≤ cfg s.p 0x2011 0 1 → waiting5 s.p b ≠ [] → ∃ t, exec (.holdLimitExpiry b) s = .next t ∧ t.mem = s.mem
          ∧ t.p.pwr.forced = s.p.pwr.forced + 1 ∧ ∀ r ∈ waiting5 s.p b, (t.p.getReg r).forced = true))
    ∧ (x.held = false ∨ s.p.now < x.heldAt + 100000 * s.p.pwr.holdLimit → exec (.holdLimitExpiry b) s = .next s)
    ∧ (∀ i o : Int, periphOn s.p 4 = true →
        (2000 ≤ i → i ≤ 4000 → o ≤ i + 1500 → ∃ t, exec (.coolantPoll (some i) (some o)) s = .next t ∧ t.mem = s.mem ∧ t.p.pwr.inlet = i
          ∧ t.p.pwr.outlet = o ∧ t.p.pwr.inletOk = true ∧ t.p.pwr.outletOk = true ∧ t.p.pwr.rise = 0
          ∧ t.p.pwr.sumC = s.p.pwr.sumC + i ∧ t.p.pwr.cntC = s.p.pwr.cntC + 1 ∧ t.p.pwr.inletHeld = (s.p.pwr.inletHeld && decide (4300 < i)))
        ∧ (∃ t, exec (.coolantPoll none (some o)) s = .next t ∧ t.mem = s.mem ∧ t.p.pwr.inFail = s.p.pwr.inFail + 1
          ∧ t.p.pwr.inlet = s.p.pwr.inlet ∧ t.p.pwr.failed = s.p.pwr.failed + 1 ∧ (2 ≤ s.p.pwr.inFail → t.p.pwr.inletOk = false)))
    ∧ (periphOn s.p 4 = false → ∀ i o, exec (.coolantPoll i o) s = .next s)

/-- The power-on reset and a panel reset leave no byte listed, no region and no partition, keep the stored records
where no write is in progress, and hold the panel or, released, begin phase 1 with the timebase at 0 and running; a
bank below 90 % is logged. Phase 1 ends with a valid reference after the settle delay, phase 4 with every block
settled, phase 10, with every die in SYNC, in READY, logged, and not before; a phase beyond its limit is late, once
and logged, and not before. Hub B boots alone 1 s after the origin where hub A has not started, with generation 1, and
not before. The wait for the coolant is counted. A released die whose straps and fuses pass runs, one whose straps do
not is held and reports it (a guest is FAILED at once). Pending training records and the changed map join the waiting
writes; where none is owed nothing changes. Only the resets change memory. -/
def Obligations.ResetsAndBringUpRunTheirPhases : Prop :=
  ∀ (n die ms : Nat) (s : State), isDie die = true →
    let b := s.p.boot
    (n < 8 → ∃ t, exec (.vsb12PorRelease n) s = .next t ∧ t.mem = [] ∧ t.p.boot.porDone = true ∧ t.p.clk.settle = n ∧ t.p.reg = []
        ∧ t.p.part = [] ∧ (b.held = false → t.p.boot.phase = 1 ∧ t.p.clk.tb = 0 ∧ t.p.clk.tbRun = true)
        ∧ (s.p.pwr.writes = [] → t.p.pwr.nv = s.p.pwr.nv))
    ∧ (∃ t, exec (.panelReset n) s = .next t ∧ t.mem = [] ∧ t.p.boot.held = true ∧ t.p.boot.porDone = b.porDone ∧ t.p.pwr.bankC = n
        ∧ t.p.core = [] ∧ t.p.reg = [] ∧ t.p.part = [] ∧ t.p.od.sessions = [] ∧ (s.p.pwr.writes = [] → t.p.pwr.nv = s.p.pwr.nv)
        ∧ (n < 10800 → Logged 0x0108 t.p))
    ∧ (b.held = true → ∃ t, exec .panelResetRelease s = .next t ∧ t.mem = s.mem ∧ t.p.boot.held = false
        ∧ (b.porDone = true → t.p.boot.phase = 1 ∧ t.p.clk.tb = 0 ∧ t.p.clk.tbRun = true))
    ∧ (b.held = false → exec .panelResetRelease s = .next s)
    ∧ (b.phase = 1 → s.p.clk.settled = true → s.p.clk.refA.valid = true → exec (.bringupPhaseAdvance .go) s = .next (s.onP (toPhase 2)))
    ∧ (b.phase = 4 → blocksDone s.p = true → exec (.bringupPhaseAdvance .go) s = .next (s.onP (toPhase 5)))
    ∧ (b.phase = 10 → allSync s.p = true → b.trainPending = [] → ∃ t, exec (.bringupPhaseAdvance .go) s = .next t ∧ t.mem = s.mem
        ∧ t.p.boot.phase = 11 ∧ t.p.boot.ready = true ∧ t.p.boot.since = s.p.now ∧ Logged 0x0D0E t.p)
    ∧ (b.phase = 10 → allSync s.p = false → exec (.bringupPhaseAdvance .go) s = .next s)
    ∧ (1 ≤ b.phase → b.phase ≤ 10 → b.late.testBit b.phase = false →
        (b.since + phaseLimit b.phase b.trainFull < s.p.now → ∃ t, exec .bringupLate s = .next t ∧ t.mem = s.mem
          ∧ t.p.boot.late.testBit b.phase = true ∧ t.p.boot.phase = b.phase ∧ Logged 0x0D0C t.p)
        ∧ (s.p.now ≤ b.since + phaseLimit b.phase b.trainFull → exec .bringupLate s = .next s))
    ∧ (b.phase ≤ 2 → b.bootHub = 0 → imageRuns s.p 0 = false → ∀ readB : Bool,
        (s.p.clk.origin + ticksPerSecond ≤ s.p.now → imageOk s.p 0 = true → ∃ t, exec (.hubBBootTimeout true readB ms) s = .next t
          ∧ t.mem = s.mem ∧ t.p.boot.phase = 3 ∧ t.p.book.active = 1 ∧ t.p.book.tgen = 1 ∧ t.p.boot.bootHub = 1 ∧ Logged 0x0D06 t.p)
        ∧ (s.p.now < s.p.clk.origin + ticksPerSecond → exec (.hubBBootTimeout true readB ms) s = .next s))
    ∧ (∀ c : Nat, b.coolFrom = some c → coolantOk s.p = false → ∃ t, exec .coolantWaitRetry s = .next t ∧ t.mem = s.mem
        ∧ t.p.boot.coolWait = b.coolWait + (s.p.now - c) ∧ t.p.boot.coolFrom = some s.p.now)
    ∧ (b.coolFrom = none → exec .coolantWaitRetry s = .next s)
    ∧ (∀ w : BitVec 17, (Tab.get .off b.dieUp die = .released →
          (strapOk die w = true → fuseWord s.p die = fuseOwed s.p.variant die → ∃ t, exec (.strapCheck die w) s = .next t ∧ t.mem = s.mem
            ∧ Tab.get .off t.p.boot.dieUp die = .running ∧ t.p.book.unit = s.p.book.unit)
          ∧ (strapOk die w = false → ∃ t, exec (.strapCheck die w) s = .next t ∧ t.mem = s.mem
            ∧ Tab.get .off t.p.boot.dieUp die = .held
            ∧ (takesPart s.p die = true → ∃ d, Sent die (.faultReport 0x0D01 0 d) t.p)
            ∧ (isNode die = false → USt.rank (s.p.ust die) < 3 → t.p.ust die = .failed)))
        ∧ (Tab.get .off b.dieUp die ≠ .released → exec (.strapCheck die w) s = .next s))
    ∧ (∀ e : Nat × Nat, b.ready = true → b.trainPending = [e] → s.p.pwr.writes ≠ [] → ∃ t, exec .trainingStoreRetry s = .next t
        ∧ t.mem = s.mem ∧ t.p.boot.trainPending = [] ∧ t.p.pwr.writes.length = s.p.pwr.writes.length + 1)
    ∧ (b.ready = false → exec .trainingStoreRetry s = .next s)
    ∧ (b.mapPending = true → s.p.pwr.writes ≠ [] → ∃ t, exec .mapWriteRetry s = .next t ∧ t.mem = s.mem ∧ t.p.boot.mapPending = false
        ∧ t.p.pwr.writes = s.p.pwr.writes ++ [⟨recMap, 0, mapBody s.p, false, job0⟩])
    ∧ (b.mapPending = false → exec .mapWriteRetry s = .next s)

/-- In every state and for every site: writing 1 to the clearance object of a site with FSTATE 3 or 4 sets its FSTATE
to 6, changes the state of no unit in the book and the map entry of no other site, and the state that the next bring-
up gives the site, where it is not fused off, is the SUSPECT of a die that is tested. Writing 1 for a site with FSTATE
0, 1, 2 or 5 (a factory failure among them) changes nothing and is refused with abort class 0x09. No byte of memory
changes. -/
def Obligations.ClearanceOfASiteFollowsItsState : Prop :=
  ∀ (site : Nat) (s : State), isSite site = true →
    (fstate s.p site = 3 ∨ fstate s.p site = 4 → ∃ t, exec (.floorplanClearance site 1) s = .next t ∧ t.mem = s.mem
        ∧ fstate t.p site = 6 ∧ (∀ k, t.p.ust k = s.p.ust k) ∧ (fusedDie t.p.variant site = false → bookState t.p site = .suspect)
        ∧ ∀ o, o ≠ site → mapEntry t.p o = mapEntry s.p o)
    ∧ (fstate s.p site = 0 ∨ fstate s.p site = 1 ∨ fstate s.p site = 2 ∨ fstate s.p site = 5 →
        exec (.floorplanClearance site 1) s = .next s ∧ (writeClearance site 1 s.p).1 / 2 ^ 24 = 0x09)

/-- A record that names READY, unassigned compute sites forms a FREE partition with a new key, those members and its
sealed setting, each member ASSIGNED; a partition packing up takes none. A removed die whose stack is erased is READY,
its stack reading zero and every other byte as before. RESET and DISSOLVE of a FORMED partition begin step 1, of
another they change nothing; step 1 waits for the cores, the drain ends at its limit, step 5 names the dies to
zeroise, and a RESET whose new key is loaded ends FORMED, counted. A die that acknowledges a zeroise or a key load not
within 10 us is FAILED, not before. A core reset resets the masked cores and no other, a die reset all four, where not
refused; a finished die reset leaves the cores STOPPED, their scratchpads zero, every other byte as before, counted.
Otherwise memory is unchanged. -/
def Obligations.PartitionsFormPackUpAndResetTheirDies : Prop :=
  ∀ (n cs : Nat) (s : State), n < 16 → isCompute cs = true →
    let x := s.p.getPart n
    (∀ (sealed : Bool) (m : BitVec 256), x.phase = .free → x.members = [] → m ≠ 0 → badField m = none → healthy s.p = true →
        (∀ c ∈ bitSites m, s.p.ust c = .ready ∧ s.p.partOf c = none ∧ Tab.find? s.p.rst c = none) →
        ∃ t, exec (.partitionRecordCommit n sealed m) s = .next t ∧ t.mem = s.mem ∧ (t.p.getPart n).phase = .formed
          ∧ (t.p.getPart n).members = bitSites m ∧ (t.p.getPart n).sealed = sealed ∧ (t.p.getPart n).keyGen = x.keyGen + 1
          ∧ (t.p.getPart n).key = some (drawStackKey n (x.keyGen + 1) 64 s.p).1
          ∧ ∀ c ∈ bitSites m, t.p.ust c = .assigned)
    ∧ (∀ (sealed : Bool) (m : BitVec 256), x.phase = .packing → exec (.partitionRecordCommit n sealed m) s = .next s)
    ∧ (∀ (y : Part), s.p.part = [(n, y)] → y.removing = [cs] → Tab.find? s.p.rst cs = none → usable s.p cs = true →
        ∃ t, exec (.memberEraseDone cs) s = .next t ∧ (t.p.getPart n).removing = [] ∧ t.p.ust cs = .ready
          ∧ (∀ i < stackBytes s.p.variant, t.mem.read (gaStack cs 0 + i) = memDefault)
          ∧ ∀ a, a < gaStack cs 0 ∨ gaStack cs (stackBytes s.p.variant) ≤ a → t.mem.read a = s.mem.read a)
    ∧ (∀ i : Instr, (i = .partitionReset n ∨ i = .partitionDissolve n) →
        (x.phase = .formed → ∃ t u, exec i s = .next t ∧ t.mem = s.mem ∧ (t.p.getPart n).phase = .packing
          ∧ (t.p.getPart n).members = x.members ∧ (t.p.getPart n).pack = some u ∧ u.step = 1 ∧ u.start = s.p.now
          ∧ u.dissolve = decide (i = .partitionDissolve n))
        ∧ (x.phase ≠ .formed → exec i s = .next s))
    ∧ (∀ u : PackUp, x.pack = some u →
        (u.step = 4 → ∃ t, exec (.packupStepDone n) s = .next t ∧ t.mem = s.mem
          ∧ (t.p.getPart n).pack = some { u with step := 5, since := s.p.now, zeroise := zeroiseDies n s.p })
        ∧ (u.step = 1 → (∃ m ∈ liveMembers n s.p, ∃ k ∈ coresOf m, coreIdle s.p k = false) → exec (.packupStepDone n) s = .next s)
        ∧ (u.step = 7 → u.dissolve = false → x.key.isSome = true → ∃ t, exec (.packupStepDone n) s = .next t ∧ t.mem = s.mem
          ∧ (t.p.getPart n).phase = .formed ∧ (t.p.getPart n).pack = none ∧ (t.p.getPart n).key = x.key
          ∧ (t.p.getPart n).stat.resets = x.stat.resets + 1)
        ∧ (u.step = 3 → (u.since + u.limit ≤ s.p.now → ∃ t, exec (.packupDrainLimit n) s = .next t ∧ t.mem = s.mem
            ∧ (t.p.getPart n).pack = some { u with step := 4, since := s.p.now } ∧ (t.p.getPart n).stat.drain = s.p.now - u.since)
          ∧ (s.p.now < u.since + u.limit → exec (.packupDrainLimit n) s = .next s))
        ∧ (u.step = 5 → u.zeroise = [cs] → USt.rank (s.p.ust cs) < 3 →
          (u.since + 1000 ≤ s.p.now → ∃ t, exec (.keyZeroiseTimeout n cs) s = .next t ∧ t.mem = s.mem ∧ t.p.ust cs = .failed
            ∧ (t.p.getPart n).pack = some { u with zeroise := [] })
          ∧ (s.p.now < u.since + 1000 → exec (.keyZeroiseTimeout n cs) s = .next s)))
    ∧ (∀ at_ : Nat, x.loading = [(cs, at_)] → USt.rank (s.p.ust cs) < 3 →
        (at_ + 1000 ≤ s.p.now → ∃ t, exec (.keyLoadTimeout n cs) s = .next t ∧ t.mem = s.mem ∧ t.p.ust cs = .failed
          ∧ (t.p.getPart n).loading = [])
        ∧ (s.p.now < at_ + 1000 → exec (.keyLoadTimeout n cs) s = .next s))
    ∧ (∀ mask : Nat, 0 < mask → mask < 16 →
        (resetRefused s.p cs = 0 → ∃ t, exec (.coreResetCommand cs mask) s = .next t ∧ t.mem = s.mem
          ∧ (∀ c < 4, mask.testBit c = true → (coreA (4 * cs + c) t).run = .resetting ∧ (t.p.getCore (4 * cs + c)).clearing = clearCycles)
          ∧ ∀ j, (∀ c < 4, mask.testBit c = true → j ≠ 4 * cs + c) → t.p.getCore j = s.p.getCore j)
        ∧ (resetRefused s.p cs ≠ 0 → exec (.coreResetCommand cs mask) s = .next s))
    ∧ (resetRefused s.p cs = 0 → Tab.find? s.p.rst cs = none → ∃ t, exec (.dieResetCommand cs) s = .next t ∧ t.mem = s.mem
        ∧ (Tab.find? t.p.rst cs).isSome = true ∧ ∀ c < 4, (coreA (4 * cs + c) t).run = .resetting)
    ∧ (resetRefused s.p cs ≠ 0 → exec (.dieResetCommand cs) s = .next s)
    ∧ (∀ y : DieReset, Tab.find? s.p.rst cs = some y → y.part = none → y.removal = none → ∃ t, exec (.dieResetDone cs false) s = .next t
        ∧ Tab.find? t.p.rst cs = none ∧ (t.p.getRctr cs).die = (s.p.getRctr cs).die + 1
        ∧ (∀ k ∈ coresOf cs, (coreA k t).run = .stopped ∧ ∀ i < scratchBytes, t.mem.read (gaScratch k i) = memDefault)
        ∧ ∀ a, (∀ k ∈ coresOf cs, a < gaScratch k 0 ∨ gaScratch k scratchBytes ≤ a) → t.mem.read a = s.mem.read a)
    ∧ (Tab.find? s.p.rst cs = none → exec (.dieResetDone cs false) s = .next s)

/-- A nonce of an open session gives it a signed report, counted. A failed entropy source is unhealthy, logged, and
one retested well is healthy again. A credential or panel ID that its session may write and that passes its checks
joins the writes of records, in force with none; one it may not write changes nothing. An image of one sector written
to a slot no hub runs is valid as its checks find, else logged; to one in use nothing happens. The minimum SVN rises
to the running image's, where both images hold it; a signing slot no valid image uses is revoked, another not. M5 to
M7 are extended by the digest, M0 to M4 not. A guest's request in its windows and allowed is admitted against its
bucket, or held for it and released in its turn; any other is refused, answered with status 1 and counted. A guest
link that comes up is measured in M4. No byte of memory changes. -/
def Obligations.SecurityCommandsAndGuestsAreChecked : Prop :=
  ∀ (slot n g : Nat) (s : State), n < 32 → g < 2 →
    (∀ (x : Session) (v : BitVec 384), s.p.od.sessions.find? (fun y => decide (y.slot = slot)) = some x →
        ∃ t, exec (.reportNonceWrite slot v) s = .next t ∧ t.mem = s.mem
          ∧ Tab.get 0 t.p.sec.reports s.p.book.active = Tab.get 0 s.p.sec.reports s.p.book.active + 1
          ∧ Tab.get [] t.p.sec.report slot = reportOf s.p x (leBytes 48 v.toNat) (freeBytes 56 s.p).1)
    ∧ (∃ t, exec (.entropyFailed 0x00) s = .next t ∧ t.mem = s.mem ∧ Tab.get true t.p.sec.healthy 0 = false ∧ Logged 0x0B01 t.p)
    ∧ (Tab.get true s.p.sec.healthy 1 = false → exec (.entropyRetest 0xDD false) s = .next s
        ∧ (s.p.book.active = 0 → ∃ t, exec (.entropyRetest 0xDD true) s = .next t ∧ t.mem = s.mem ∧ Tab.get true t.p.sec.healthy 1 = true))
    ∧ (∀ (i : Instr) (idx sub : Nat) (b : List Byte) (id : BitVec 16) (x : Session) (r : ORow) (w : NvWrite), slot ≤ 32 →
        (i = .credentialWrite slot n b ∧ idx = 0xB030 ∧ sub = n)
          ∨ (i = .panelIdWrite slot id ∧ idx = 0xA000 ∧ sub = 0 ∧ b = leBytes 2 id.toNat) →
        liveSession s.p slot = some x → odRow s.p.variant idx sub = some r →
        (writeAllowed s.p x r sub 0 false = 0 → gateCheck r s.p = (0, s.p) → typeCheck r 0 b = 0 → rangeCheck s.p r sub b = 0 →
            stateCheck s.p idx sub b = 0 → odBytes s.p idx sub ≠ b → s.p.pwr.writes = [w] →
          ∃ t, exec i s = .next t ∧ t.mem = s.mem ∧ t.p.od.val = s.p.od.val ∧ t.p.pwr.writes =
            [w, ⟨recOf (256 * idx + sub), 0, [], false, { job0 with puts := [(256 * idx + sub, b)], blocks := [r.block sub] }⟩])
        ∧ (writeAllowed s.p x r sub 0 false ≠ 0 → exec i s = .next s))
    ∧ (∀ (i : Nat) (d : List Byte), i < 2 → d ≠ [] → d.length ≤ 65536 →
        (imageInUse s.p i = false → holdupOk s.p estNor = true → ∃ t, exec (.bootImageWrite i slot d) s = .next t ∧ t.mem = s.mem
          ∧ t.p.sec.imgWrite = none ∧ (imageOf t.p i).valid = imageChecks s.p d ∧ (imageOf t.p i).svn = leNat ((d.drop 8).take 2)
          ∧ (imageOf t.p i).slot = leNat ((d.drop 10).take 1) ∧ (imageChecks s.p d = false → Logged 0x0B02 t.p))
        ∧ (imageInUse s.p i = true → exec (.bootImageWrite i slot d) s = .next s))
    ∧ (let run := Tab.get 0xFE s.p.boot.image s.p.book.active
       let svn := (imageOf s.p run).svn
       (run < 2 → (∀ i < 2, (imageOf s.p i).valid = true ∧ svn ≤ (imageOf s.p i).svn) → s.p.sec.imgWrite = none →
          ∃ t, exec .raiseMinSvn s = .next t ∧ t.mem = s.mem ∧ t.p.sec.minSvn = max s.p.sec.minSvn svn ∧ Logged 0x0B0A t.p)
       ∧ (2 ≤ run ∨ (imageOf s.p 0).valid = false ∨ (imageOf s.p 1).valid = false → exec .raiseMinSvn s = .next s))
    ∧ (∀ q < 4, ((∀ i < 2, (imageOf s.p i).valid = true → (imageOf s.p i).slot ≠ q) → ∃ t, exec (.revokeSigningSlot q) s = .next t
          ∧ t.mem = s.mem ∧ t.p.sec.revoked = s.p.sec.revoked ||| 2 ^ q ∧ Logged 0x0B0B t.p)
        ∧ (∀ i < 2, (imageOf s.p i).valid = true → (imageOf s.p i).slot = q → exec (.revokeSigningSlot q) s = .next s))
    ∧ (∀ (i : Nat) (d : BitVec 384), (5 ≤ i → i < 8 → ∃ t, exec (.measurementExtend i d) s = .next t ∧ t.mem = s.mem
          ∧ measOf t.p s.p.book.active i = sha384 (measOf s.p s.p.book.active i ++ leBytes 48 d.toNat)
          ∧ ∀ j, j ≠ i → measOf t.p s.p.book.active j = measOf s.p s.p.book.active j)
        ∧ (i < 5 → exec (.measurementExtend i d) s = .next s))
    ∧ (∀ c : Cell, let x := s.p.getGuest g
        let b := odBytes s.p 0xB040 g
        let ok : Bool := decide (s.p.ust (guestSite g) ≠ .fenced) && decide (Bind.part b < 16) && Bind.grants b (Svc.op c) (Svc.ga c) (Svc.len c)
          && gaAllowed s.p ⟨false, some (Bind.part b)⟩ (Svc.ga c) (Svc.len c)
        (CellF.typ c = 3 → x.linkUp = true →
          (ok = true → x.held = [] → admits s.p g c = true → ∃ t, exec (.guestRequest g c) s = .next t ∧ t.mem = s.mem
            ∧ (t.p.getGuest g).admitted = x.admitted + 1 ∧ (t.p.getGuest g).bytes = x.bytes + Svc.len c
            ∧ (t.p.getGuest g).bucket = bucketNow s.p g - Svc.len c ∧ (t.p.getGuest g).held = [])
          ∧ (ok = true → x.held = [] → admits s.p g c = false → ∃ t, exec (.guestRequest g c) s = .next t ∧ t.mem = s.mem
            ∧ t.p.getGuest g = { x with held := [⟨c, s.p.now⟩] })
          ∧ (ok = false → ∃ t, exec (.guestRequest g c) s = .next t ∧ t.mem = s.mem ∧ (t.p.getGuest g).refusals = x.refusals + 1
            ∧ (t.p.getGuest g).answers = x.answers ++ [refuseCell g c] ∧ (t.p.getGuest g).admitted = x.admitted))
        ∧ (∀ at_ : Nat, x.held = [⟨c, at_⟩] →
          (admits s.p g c = true → ∃ t, exec (.guestRequestRelease g) s = .next t ∧ t.mem = s.mem ∧ (t.p.getGuest g).held = []
            ∧ (t.p.getGuest g).admitted = x.admitted + 1 ∧ (t.p.getGuest g).heldTicks = x.heldTicks + (s.p.now - at_))
          ∧ (admits s.p g c = false → exec (.guestRequestRelease g) s = .next s)))
    ∧ (∀ (adv : Bool) (b : List Byte), (s.p.getGuest g).linkUp = false → siteReachable s.p (guestSite g) = true →
        ∃ t, exec (.guestLinkUp g 16 adv b) s = .next t ∧ t.mem = s.mem ∧ (t.p.getGuest g).linkUp = true ∧ (t.p.getGuest g).rate = 16
          ∧ measOf t.p s.p.book.active 4 = sha384 (measOf s.p s.p.book.active 4 ++ b))
    ∧ (∀ (adv : Bool) (b : List Byte), (s.p.getGuest g).linkUp = true → exec (.guestLinkUp g 16 adv b) s = .next s)

/-- On every port that may run: training enters phase 2 with an attempt counted, goes on with the lane groups that
pass, and reaches UP from phase 7 with a session, not without; a phase beyond its limit goes back to 1 without a
signal and to 2 with one, not before. A listed peer that verifies gives the session and its derived keys, one that
does not is tried again after 10 s, and not before. A hello is kept as the peer. At UP a pair whose tag holds and that
is in sequence is taken and acknowledges the replay buffer, one whose tag fails is counted and asks for replay; a
frame is sent in training, from the replay, or new with the next SEQ and kept, the second of a pair sealed with the
first. A port that may not run does none of it. A cable removed leaves the port in phase 1 with its frames held, and
they are discarded, counted, after 10 s and not before. No byte of memory changes. -/
def Obligations.PortsTrainAuthenticateAndExchangeFrames : Prop :=
  ∀ (n g : Nat) (s : State), n < 12 →
    let x := s.p.getPort n
    let peer := x.peer.take 16
    let theirs := (x.peer.drop 32).take 8 ++ x.peerNonce
    let low := decide (blockNat serial16 < blockNat peer)
    let z := (freeBytes 48 s.p).1
    let keys := if low then fabricKeys z x.nonce theirs serial16 peer n else fabricKeys z theirs x.nonce peer serial16 n
    (portRuns s.p n = true →
      (x.phase = 1 → g % 4 ≠ 0 → ∃ t, exec (.portTrainingPhase n g) s = .next t ∧ t.mem = s.mem ∧ (t.p.getPort n).phase = 2
        ∧ (t.p.getPort n).since = s.p.now ∧ (t.p.getPort n).groups = 3 ∧ (t.p.getPort n).ctr.attempts = x.ctr.attempts + 1)
      ∧ (2 ≤ x.phase → x.phase ≤ 4 → x.groups &&& g ≠ 0 → ∃ t, exec (.portTrainingPhase n g) s = .next t ∧ t.mem = s.mem
        ∧ (t.p.getPort n).phase = x.phase + 1 ∧ (t.p.getPort n).groups = x.groups &&& g)
      ∧ (x.phase = 7 → x.session = true → ∃ t, exec (.portTrainingPhase n g) s = .next t ∧ t.mem = s.mem ∧ (t.p.getPort n).phase = 8
        ∧ (t.p.getPort n).session = true ∧ (t.p.getPort n).counter = 0)
      ∧ (x.phase = 7 → x.session = false → exec (.portTrainingPhase n g) s = .next s)
      ∧ (2 ≤ x.phase → x.phase ≤ 7 → x.held = false → x.authAt = none → x.since + trainLimit x.phase ≤ s.p.now →
        (∃ t, exec (.portTrainingTimeout n false) s = .next t ∧ t.mem = s.mem ∧ (t.p.getPort n).phase = 1)
        ∧ (x.fails = [] → probing s.p (keyPort n) = false → ∃ t, exec (.portTrainingTimeout n true) s = .next t ∧ t.mem = s.mem
          ∧ (t.p.getPort n).phase = 2 ∧ (t.p.getPort n).fails = [s.p.now]))
      ∧ (s.p.now < x.since + trainLimit x.phase → ∀ b, exec (.portTrainingTimeout n b) s = .next s)
      ∧ (x.phase = 7 ∨ x.phase = 8 → x.authAt = none → healthy s.p = true →
        (peerListed s.p (x.peer.take 16) = true → ∃ t, exec (.fabricLinkSession n true) s = .next t ∧ t.mem = s.mem
          ∧ t.p.getPort n = { x with
              session := true, counter := 0, seen := 0, authAt := none,
              sendKey := if low then keys.take 36 else keys.drop 36, recvKey := if low then keys.drop 36 else keys.take 36 })
        ∧ (∃ t, exec (.fabricLinkSession n false) s = .next t ∧ t.mem = s.mem ∧ (t.p.getPort n).phase = 7
          ∧ (t.p.getPort n).session = (x.session && decide (x.phase = 7)) ∧ (t.p.getPort n).authAt = some (s.p.now + 10 * ticksPerSecond)))
      ∧ (∀ at_, x.authAt = some at_ → healthy s.p = true →
        (at_ ≤ s.p.now → peerListed s.p (x.peer.take 16) = true → ∃ t, exec (.fabricAuthRetry n true) s = .next t ∧ t.mem = s.mem
          ∧ (t.p.getPort n).session = true ∧ (t.p.getPort n).authAt = none)
        ∧ (s.p.now < at_ → exec (.fabricAuthRetry n true) s = .next s))
      ∧ (∀ b : BitVec 320, 6 ≤ x.phase → x.pulled = none → expectedSerial s.p n = none → ∃ t, exec (.fabricHello n b) s = .next t
          ∧ t.mem = s.mem ∧ (t.p.getPort n).peer = leBytes 40 b.toNat ∧ (t.p.getPort n).helloed = true ∧ (t.p.getPort n).held = false)
      ∧ (∀ a b : List Byte, x.phase = 8 → a.length = 976 → b.length = 976 →
        (∀ f h : LinkFrame, openPair x.recvKey x.seen a b = some (f, h) → (∀ c ∈ f.cells ++ h.cells, CellF.typ c ≠ 5) → f.nak = false → h.nak = false →
          (x.recvSeq = none ∨ x.recvSeq = some ((f.seq + 2047) % 2048)) → f.seq < 2048 → h.seq = (f.seq + 1) % 2048 →
            ∃ t, exec (.fabricFrameReceive n true a b) s = .next t ∧ t.mem = s.mem ∧ (t.p.getPort n).recvSeq = some h.seq
              ∧ (t.p.getPort n).nak = false ∧ (t.p.getPort n).seen = x.seen + 2 ∧ (t.p.getPort n).ctr.received = x.ctr.received + 2
              ∧ (t.p.getPort n).replay = after h.ack (after f.ack x.replay))
        ∧ (openPair x.recvKey x.seen a b = none → ∃ t, exec (.fabricFrameReceive n true a b) s = .next t ∧ t.mem = s.mem
            ∧ (t.p.getPort n).recvSeq = x.recvSeq ∧ (t.p.getPort n).seen = x.seen + 2
            ∧ (t.p.getPort n).ctr.checkFail = x.ctr.checkFail + 2 ∧ (t.p.getPort n).nak = true))
      ∧ (x.counter + 1 < 2 ^ 48 →
        (5 ≤ x.phase → x.phase < 8 → ∃ t, exec (.fabricFrameSend n) s = .next t ∧ t.mem = s.mem
          ∧ (t.p.getPort n).ctr.sent = x.ctr.sent + 1 ∧ (t.p.getPort n).trainSeq = (x.trainSeq + 1) % 2048)
        ∧ (∀ f l, x.phase = 8 → x.resend = f :: l → ∃ t, exec (.fabricFrameSend n) s = .next t ∧ t.mem = s.mem
          ∧ (t.p.getPort n).ctr.sent = x.ctr.sent + 1 ∧ (t.p.getPort n).resend = l ∧ (t.p.getPort n).sendSeq = x.sendSeq)
        ∧ (x.phase = 8 → x.resend = [] → x.replay.length < 1024 → ∃ t, exec (.fabricFrameSend n) s = .next t ∧ t.mem = s.mem
          ∧ (t.p.getPort n).sendSeq = (x.sendSeq + 1) % 2048 ∧ ∃ y : LinkFrame, y.seq = x.sendSeq % 2048
            ∧ (t.p.getPort n).replay = x.replay ++ [y]
            ∧ (x.half = none → (t.p.getPort n).half = some y ∧ (t.p.getPort n).counter = x.counter)
            ∧ (∀ e, x.half = some e → (t.p.getPort n).half = none ∧ (t.p.getPort n).counter = x.counter + 2
              ∧ (t.p.getPort n).sent = sealPair x.sendKey x.counter e y))))
    ∧ (portRuns s.p n = false → exec (.portTrainingPhase n g) s = .next s ∧ exec (.fabricFrameSend n) s = .next s
        ∧ ∀ ok, exec (.fabricLinkSession n ok) s = .next s)
    ∧ (x.phase = 8 → ∃ t, exec (.cableRemoval n) s = .next t ∧ t.mem = s.mem ∧ (t.p.getPort n).phase = 1
        ∧ (t.p.getPort n).pulled = some s.p.now ∧ (t.p.getPort n).width = 0 ∧ (t.p.getPort n).replay = x.replay)
    ∧ (∀ at_, x.pulled = some at_ → x.phase ≠ 8 →
        (at_ + 10 * ticksPerSecond ≤ s.p.now → ∃ t, exec (.cableHoldExpiry n) s = .next t ∧ t.mem = s.mem ∧ (t.p.getPort n).pulled = none
          ∧ (t.p.getPort n).replay = [] ∧ (t.p.getPort n).egr = [] ∧ (t.p.getPort n).ctr.discards =
            x.ctr.discards + (portCells x + (s.p.fab.transit.filter fun y => decide (y.owes = some n)).length))
        ∧ (s.p.now < at_ + 10 * ticksPerSecond → exec (.cableHoldExpiry n) s = .next s))

/-- At every ring member a transit cell goes on to the next member, or is discarded where its way is broken, its
ingress credit returned, or enters its port's egress queue with room. A locked follower takes a valid frame that
agrees with its count: lock, hops, schedule epoch, and the frame sent on with one hop more while the latch is open; an
invalid or missing one is counted, and the sixteenth in a row loses the chain, logged; a head takes none, and sends
its own frame at every multiple of 128 ticks and at no other tick. A second after a conflict the count is loaded where
it may be, logged, else checked again later; not before. A switch takes bank and period at its tick, its epoch one
more, logged, and not before. A schedule is taken by a panel outside a chain, by a head at least 10,000 ticks ahead
(its tick rounded up to a frame, the model's choice, log 33), and otherwise changes nothing. No byte of memory
changes. -/
def Obligations.RingMeridianAndScheduleMoveOn : Prop :=
  ∀ (site per bank tick : Nat) (f : BitVec 128) (s : State), isEdge site = true ∨ isHub site = true →
    let m := s.p.fab.mer
    (∀ (v : RingCell), s.p.fab.transit = [v] → v.site = site →
        (portMaster v.port ≠ site → ∃ t, exec (.ringTransit site) s = .next t ∧ t.mem = s.mem
          ∧ t.p.fab.transit = (if wayBroken s.p v then [] else [{ v with site := if v.clockwise then ringNext site else ringPrev site, owes := none }])
          ∧ (∀ m, v.owes = some m → Tab.get 0 (t.p.getPort m).ret (CellF.vc v.cell) = Tab.get 0 (s.p.getPort m).ret (CellF.vc v.cell) + 1))
        ∧ (portMaster v.port = site → ((s.p.getPort v.port).vcOut (CellF.vc v.cell)).length < 256 → (s.p.getPort v.port).cut = false →
            s.p.ust (keyPort v.port) = .ready → ∃ t, exec (.ringTransit site) s = .next t ∧ t.mem = s.mem ∧ t.p.fab.transit = []
              ∧ Tab.get [] (t.p.getPort v.port).egr (CellF.vc v.cell) = Tab.get [] (s.p.getPort v.port).egr (CellF.vc v.cell) ++ [v.cell]))
    ∧ (s.p.fab.transit = [] → exec (.ringTransit site) s = .next s)
    ∧ (isHead s.p = false → merValid f = true → m.locked = true → m.conflict = none → fld f 111 48 + 128 = s.p.now →
        ∃ t, exec (.meridianFrameReceive (some f)) s = .next t ∧ t.mem = s.mem ∧ t.p.now = s.p.now ∧ t.p.fab.mer.locked = true
          ∧ t.p.fab.mer.bad = 0 ∧ t.p.fab.mer.lastHops = fld f 119 114 ∧ t.p.fab.sepoch = fld f 47 32
          ∧ (m.openLatch = true → fld f 119 114 < 63 → t.p.fab.mer.out = some (merFrame (fld f 119 114 + 1) (fld f 113 113) (fld f 112 112)
              (fld f 111 48) (fld f 47 32) (fld f 31 16))))
    ∧ (isHead s.p = false → (m.bad + 1 < 16 → ∃ t, exec (.meridianFrameReceive none) s = .next t ∧ t.mem = s.mem ∧ t.p.fab.mer.bad = m.bad + 1
          ∧ t.p.fab.mer.locked = m.locked ∧ t.p.fab.mer.invalid = m.invalid + 1)
        ∧ (m.locked = true → 16 ≤ m.bad + 1 → ∃ t, exec (.meridianFrameReceive none) s = .next t ∧ t.mem = s.mem
          ∧ t.p.fab.mer.locked = false ∧ Logged 0x0A09 t.p))
    ∧ (isHead s.p = true → exec (.meridianFrameReceive none) s = .next s)
    ∧ (isHead s.p = true → s.p.now % 128 = 0 → m.openLatch = true → s.p.fab.switch = none →
        ∃ t, exec .meridianFrameEmit s = .next t ∧ t.mem = s.mem
          ∧ t.p.fab.mer.out = some (merFrame 0 0 s.p.fab.bank s.p.now s.p.fab.sepoch 0))
    ∧ (isHead s.p = false ∨ s.p.now % 128 ≠ 0 → exec .meridianFrameEmit s = .next s)
    ∧ (∀ at_, m.conflict = some at_ → m.locked = true →
        (at_ + ticksPerSecond ≤ s.p.now → tbBusy s.p = false → ∃ t, exec .meridianRecheck s = .next t ∧ t.mem = s.mem
          ∧ t.p.now = m.lastTb + 128 + (s.p.now - m.lastAt) ∧ t.p.fab.mer.conflict = none ∧ Logged 0x0A08 t.p)
        ∧ (at_ + ticksPerSecond ≤ s.p.now → tbBusy s.p = true → ∃ t, exec .meridianRecheck s = .next t ∧ t.mem = s.mem
          ∧ t.p.now = s.p.now ∧ t.p.fab.mer.conflict = some s.p.now)
        ∧ (s.p.now < at_ + ticksPerSecond → exec .meridianRecheck s = .next s))
    ∧ (∀ at_ b q, s.p.fab.switch = some (at_, b, q) →
        (at_ ≤ s.p.now → ∃ t, exec .scheduleSwitch s = .next t ∧ t.mem = s.mem ∧ t.p.fab.bank = b ∧ t.p.fab.per = q
          ∧ t.p.fab.sepoch = (s.p.fab.sepoch + 1) % 2 ^ 16 ∧ t.p.fab.switch = none ∧ Logged 0x0A0B t.p)
        ∧ (s.p.now < at_ → exec .scheduleSwitch s = .next s))
    ∧ (1 ≤ per → per ≤ 65536 → bank ≤ 1 →
        (isHead s.p = false → m.locked = false → ∃ t, exec (.fabricScheduleCommit per bank tick) s = .next t ∧ t.mem = s.mem
          ∧ t.p.fab.switch = some (tick, bank, per) ∧ t.p.fab.bank = s.p.fab.bank)
        ∧ (isHead s.p = false → m.locked = true → exec (.fabricScheduleCommit per bank tick) s = .next s)
        ∧ (isHead s.p = true → tick < s.p.now + 10000 → exec (.fabricScheduleCommit per bank tick) s = .next s)
        ∧ (isHead s.p = true → s.p.now + 10000 ≤ tick → ∃ t, exec (.fabricScheduleCommit per bank tick) s = .next t ∧ t.mem = s.mem
          ∧ t.p.fab.switch = some (roundUp tick 128, bank, per)))
    ∧ (per = 0 ∨ 65536 < per → exec (.fabricScheduleCommit per bank tick) s = .next s)

/-- With command c at the front of the queue a step of the machine is exec of c on the state with the rest of the
queue; with nothing waiting one VCO period passes. -/
def Obligations.StepRunsFrontCommand : Prop :=
  (∀ (c : Instr) (rest : List Instr) (s : State), s.pending = c :: rest → step s = exec c { s with pending := rest })
  ∧ (∀ s : State, s.pending = [] → step s = .next (clockEdge s))

/-- Right after reset the timebase reads 0, bring-up is in phase 1 and not READY, hub A is active; every core is
stopped at PC 0 with its counters, registers, formats, flags and counters of arrival 0, p0 set, the generator at 1,
slots EMPTY, windows CLOSED, nothing in flight; every query, region and partition is FREE and every port in training
phase 1. The memory lists nothing, in canonical form, and reads 0 (a byte that nothing has written: the model's
choice, log 6), and no command waits. -/
def Obligations.ResetLeavesThePanelAtTheOriginOfBringUp : Prop :=
  State.reset.pending = [] ∧ MemCanonical State.reset ∧ (∀ a, Mem.read State.reset.mem a = 0)
  ∧ State.reset.p.now = 0 ∧ State.reset.p.boot.phase = 1 ∧ State.reset.p.boot.ready = false ∧ State.reset.p.book.active = 0
  ∧ (∀ k, let a := coreA k State.reset
      a.run = .stopped ∧ a.pc = 0 ∧ a.rc = 0 ∧ a.icc = 0 ∧ a.gen = 1 ∧ a.rnd = 0 ∧ a.exf = 0 ∧ a.step = 0 ∧ a.fmtA = 0 ∧ a.fmtB = 0
      ∧ a.feed = [] ∧ a.streams = [] ∧ a.posts = []
      ∧ (∀ n, rdS a n = 0 ∧ rdP a n = decide (n = 0) ∧ rdV a n = 0 ∧ rdQ a n = 0 ∧ rdD a n = 0 ∧ rdC a n = 0)
      ∧ (∀ n, (Tab.get stage0 a.stage n).st = .empty ∧ (Tab.get window0 a.win n).st = .closed))
  ∧ (∀ q, (State.reset.p.getQuery q).st = .free) ∧ (∀ r, (State.reset.p.getReg r).phase = .free)
  ∧ (∀ n, (State.reset.p.getPart n).phase = .free) ∧ (∀ n, (State.reset.p.getPort n).phase = 1)

/-- For every command and every state exec answers a next state, neither fault nor refusal; a command that is not
well-formed (a site, core, region, partition, port, block or channel it names does not exist, or an operand is wider
than its field) leaves the state as it is (the model's choice, log 47). A slot word with an opcode that its slot lists
spells the command whose core, slot and word are its own, every field at every value; one with any other opcode spells
NOP with that opcode; and the word of a slot command spells that command again, where the command brings no failed
check (the model's choice, log 1: the table gives no command bits). -/
def Obligations.EveryWellFormedCommandRuns : Prop :=
  (∀ (c : Instr) (s : State), ∃ t, exec c s = .next t ∧ (wellFormed c = false → t = s))
  ∧ (∀ (k : Nat) (sl : Slot) (x : Word), listedOpc sl (opcOf x).toNat = true → encodeSlot (slotCommand k sl x) = some (k, sl, x))
  ∧ (∀ (k : Nat) (sl : Slot) (x : Word), listedOpc sl (opcOf x).toNat = false → slotCommand k sl x = .nop k sl (opcOf x))
  ∧ (∀ (i : Instr) (k : Nat) (sl : Slot) (x : Word), encodeSlot i = some (k, sl, x) →
      (∀ (u : LUnit) (w : SlotWord) (e : Ecc), i = .ldv k u w e ∨ i = .ldq k u w e ∨ i = .ldesc k u w e ∨ i = .lds k u w e → e = default) →
      slotCommand k sl x = i)

/-- Whatever command runs, the commands that wait are unchanged by its effect; a step removes the one at the front and
nothing else. -/
def Obligations.CommandsLeaveTheQueue : Prop :=
  (∀ (c : Instr) (s t : State), exec c s = .next t → t.pending = s.pending)
  ∧ (∀ (s t : State), step s = .next t → t.pending = s.pending.drop 1)

/-- From any state whose memory lists rising addresses and no zero byte, a step, be it any command of the table or a
clock edge, gives a state whose memory does so too: equal memories stay equal data. -/
def Obligations.EveryStepKeepsTheMemoryCanonical : Prop :=
  ∀ (s t : State), MemCanonical s → step s = .next t → MemCanonical t
end

