-- ==== Sys2Proof/Laws/Tab.lean ====
section
/-! SUPPORT. Reading a sparse table after a change. -/

namespace Sys2Proof.Machine

variable {α : Type}

@[simp] theorem Tab.get_nil (d : α) (k : Nat) : Tab.get d [] k = d := rfl

@[simp] theorem Tab.get_set_same (d v : α) (k : Nat) (t : Tab α) : Tab.get d (Tab.set k v t) k = v := by
  induction t with
  | nil => simp [Tab.set, Tab.get]
  | cons e t ih =>
    obtain ⟨j, x⟩ := e
    by_cases h : j = k
    · simp [Tab.set, Tab.get, h]
    · by_cases h' : k < j <;> simp [Tab.set, Tab.get, h, h', ih]

theorem Tab.get_set_ne (d v : α) {k j : Nat} (h : j ≠ k) (t : Tab α) : Tab.get d (Tab.set k v t) j = Tab.get d t j := by
  induction t with
  | nil => simp [Tab.set, Tab.get, Ne.symm h]
  | cons e t ih =>
    obtain ⟨i, x⟩ := e
    by_cases h1 : i = k
    · subst h1; simp [Tab.set, Tab.get, Ne.symm h]
    · by_cases h2 : k < i <;> simp [Tab.set, Tab.get, h1, h2, ih, Ne.symm h]

/-- A changed table reads the new value at its key, the old one elsewhere. -/
theorem Tab.get_set (d v : α) (k j : Nat) (t : Tab α) :
    Tab.get d (Tab.set k v t) j = if j = k then v else Tab.get d t j := by
  by_cases h : j = k
  · simp [h]
  · simp [h, Tab.get_set_ne]

@[simp] theorem Tab.get_upd_same (d : α) (k : Nat) (f : α → α) (t : Tab α) :
    Tab.get d (Tab.upd d k f t) k = f (Tab.get d t k) := Tab.get_set_same ..

theorem Tab.get_upd_ne (d : α) {k j : Nat} (h : j ≠ k) (f : α → α) (t : Tab α) :
    Tab.get d (Tab.upd d k f t) j = Tab.get d t j := Tab.get_set_ne d _ h t

@[simp] theorem Tab.get_del_same (d : α) (k : Nat) (t : Tab α) : Tab.get d (Tab.del k t) k = d := by
  induction t with
  | nil => rfl
  | cons e t ih =>
    obtain ⟨j, x⟩ := e
    by_cases h : j = k
    · simpa [Tab.del, h] using ih
    · simpa [Tab.del, Tab.get, h] using ih

theorem Tab.get_del_ne (d : α) {k j : Nat} (h : j ≠ k) (t : Tab α) : Tab.get d (Tab.del k t) j = Tab.get d t j := by
  induction t with
  | nil => rfl
  | cons e t ih =>
    obtain ⟨i, x⟩ := e
    by_cases h1 : i = k
    · subst h1; simpa [Tab.del, Tab.get, Ne.symm h] using ih
    · by_cases h2 : i = j
      · simp [Tab.del, Tab.get, h2, h]
      · simpa [Tab.del, Tab.get, h1, h2] using ih

end Sys2Proof.Machine
end

