-- ==== Sys2Proof/Laws/State.lean ====
section
/-! SUPPORT. The fields of a state after each of the updates of Ops: the changed one reads what the update gives it, the
others as before. -/

namespace Sys2Proof.Machine

variable (s : State) (p : Panel) (k j : Nat)

@[simp] theorem State.onP_p (f : Panel → Panel) : (s.onP f).p = f s.p := rfl
@[simp] theorem State.onP_mem (f : Panel → Panel) : (s.onP f).mem = s.mem := rfl
@[simp] theorem State.onP_pending (f : Panel → Panel) : (s.onP f).pending = s.pending := rfl
@[simp] theorem State.onM_p (f : Mem → Mem) : (s.onM f).p = s.p := rfl
@[simp] theorem State.onM_mem (f : Mem → Mem) : (s.onM f).mem = f s.mem := rfl
@[simp] theorem State.onM_pending (f : Mem → Mem) : (s.onM f).pending = s.pending := rfl

@[simp] theorem Panel.setCore_same (c : Core) : (p.setCore k c).getCore k = c := Tab.get_set_same ..
theorem Panel.setCore_ne (c : Core) {k j : Nat} (h : j ≠ k) : (p.setCore k c).getCore j = p.getCore j :=
  Tab.get_set_ne _ _ h _
@[simp] theorem Panel.modA_same (f : CoreA → CoreA) : ((p.modA k f).getCore k).a = f (p.getCore k).a := by
  simp [Panel.modA, Panel.modCore]

@[simp] theorem Panel.modCore_same (f : Core → Core) : (p.modCore k f).getCore k = f (p.getCore k) := Tab.get_set_same ..
theorem Panel.modCore_ne (f : Core → Core) {k j : Nat} (h : j ≠ k) : (p.modCore k f).getCore j = p.getCore j := Tab.get_set_ne _ _ h _

@[simp] theorem Panel.modRtr_same (f : Router → Router) : (p.modRtr k f).getRtr k = f (p.getRtr k) := Tab.get_set_same ..
theorem Panel.modRtr_ne (f : Router → Router) {k j : Nat} (h : j ≠ k) : (p.modRtr k f).getRtr j = p.getRtr j := Tab.get_set_ne _ _ h _

@[simp] theorem Panel.modStk_same (f : Stack → Stack) : (p.modStk k f).getStk k = f (p.getStk k) := Tab.get_set_same ..
theorem Panel.modStk_ne (f : Stack → Stack) {k j : Nat} (h : j ≠ k) : (p.modStk k f).getStk j = p.getStk j := Tab.get_set_ne _ _ h _

@[simp] theorem Panel.modSve_same (f : Sieve → Sieve) : (p.modSve k f).getSve k = f (p.getSve k) := Tab.get_set_same ..
theorem Panel.modSve_ne (f : Sieve → Sieve) {k j : Nat} (h : j ≠ k) : (p.modSve k f).getSve j = p.getSve j := Tab.get_set_ne _ _ h _

@[simp] theorem Panel.modDie_same (f : DieRun → DieRun) : (p.modDie k f).getDie k = f (p.getDie k) := Tab.get_set_same ..
theorem Panel.modDie_ne (f : DieRun → DieRun) {k j : Nat} (h : j ≠ k) : (p.modDie k f).getDie j = p.getDie j := Tab.get_set_ne _ _ h _

@[simp] theorem Panel.modReg_same (f : Region → Region) : (p.modReg k f).getReg k = f (p.getReg k) := Tab.get_set_same ..
theorem Panel.modReg_ne (f : Region → Region) {k j : Nat} (h : j ≠ k) : (p.modReg k f).getReg j = p.getReg j := Tab.get_set_ne _ _ h _

@[simp] theorem Panel.modPart_same (f : Part → Part) : (p.modPart k f).getPart k = f (p.getPart k) := Tab.get_set_same ..
theorem Panel.modPart_ne (f : Part → Part) {k j : Nat} (h : j ≠ k) : (p.modPart k f).getPart j = p.getPart j := Tab.get_set_ne _ _ h _

@[simp] theorem Panel.modChk_same (f : CheckEng → CheckEng) : (p.modChk k f).getChk k = f (p.getChk k) := Tab.get_set_same ..
theorem Panel.modChk_ne (f : CheckEng → CheckEng) {k j : Nat} (h : j ≠ k) : (p.modChk k f).getChk j = p.getChk j := Tab.get_set_ne _ _ h _

@[simp] theorem Panel.modRctr_same (f : ResetCtr → ResetCtr) : (p.modRctr k f).getRctr k = f (p.getRctr k) := Tab.get_set_same ..
theorem Panel.modRctr_ne (f : ResetCtr → ResetCtr) {k j : Nat} (h : j ≠ k) : (p.modRctr k f).getRctr j = p.getRctr j := Tab.get_set_ne _ _ h _

@[simp] theorem Panel.modClk_same (f : DieClk → DieClk) : (p.modClk k f).getClk k = f (p.getClk k) := Tab.get_set_same ..
theorem Panel.modClk_ne (f : DieClk → DieClk) {k j : Nat} (h : j ≠ k) : (p.modClk k f).getClk j = p.getClk j := Tab.get_set_ne _ _ h _

@[simp] theorem Panel.modNode_same (f : Node → Node) : (p.modNode k f).getNode k = f (p.getNode k) := Tab.get_set_same ..
theorem Panel.modNode_ne (f : Node → Node) {k j : Nat} (h : j ≠ k) : (p.modNode k f).getNode j = p.getNode j := Tab.get_set_ne _ _ h _

@[simp] theorem Panel.modFn_same (f : Fn → Fn) : (p.modFn k f).getFn k = f (p.getFn k) := Tab.get_set_same ..
theorem Panel.modFn_ne (f : Fn → Fn) {k j : Nat} (h : j ≠ k) : (p.modFn k f).getFn j = p.getFn j := Tab.get_set_ne _ _ h _

@[simp] theorem Panel.modBlk_same (f : Blk → Blk) : (p.modBlk k f).getBlk k = f (p.getBlk k) := Tab.get_set_same ..
theorem Panel.modBlk_ne (f : Blk → Blk) {k j : Nat} (h : j ≠ k) : (p.modBlk k f).getBlk j = p.getBlk j := Tab.get_set_ne _ _ h _

@[simp] theorem Panel.modAcct_same (f : Acct → Acct) : (p.modAcct k f).getAcct k = f (p.getAcct k) := Tab.get_set_same ..
theorem Panel.modAcct_ne (f : Acct → Acct) {k j : Nat} (h : j ≠ k) : (p.modAcct k f).getAcct j = p.getAcct j := Tab.get_set_ne _ _ h _

@[simp] theorem Panel.modQuery_same (f : Query → Query) : (p.modQuery k f).getQuery k = f (p.getQuery k) := Tab.get_set_same ..
theorem Panel.modQuery_ne (f : Query → Query) {k j : Nat} (h : j ≠ k) : (p.modQuery k f).getQuery j = p.getQuery j := Tab.get_set_ne _ _ h _

@[simp] theorem Panel.modDir_same (f : DirEntry → DirEntry) : (p.modDir k f).getDir k = f (p.getDir k) := Tab.get_set_same ..
theorem Panel.modDir_ne (f : DirEntry → DirEntry) {k j : Nat} (h : j ≠ k) : (p.modDir k f).getDir j = p.getDir j := Tab.get_set_ne _ _ h _

@[simp] theorem Panel.modPort_same (f : FPort → FPort) : (p.modPort k f).getPort k = f (p.getPort k) := Tab.get_set_same ..
theorem Panel.modPort_ne (f : FPort → FPort) {k j : Nat} (h : j ≠ k) : (p.modPort k f).getPort j = p.getPort j := Tab.get_set_ne _ _ h _

@[simp] theorem Panel.modHPort_same (f : Port → Port) : (p.modHPort k f).getHPort k = f (p.getHPort k) := Tab.get_set_same ..
theorem Panel.modHPort_ne (f : Port → Port) {k j : Nat} (h : j ≠ k) : (p.modHPort k f).getHPort j = p.getHPort j := Tab.get_set_ne _ _ h _

@[simp] theorem Panel.modGuest_same (f : Guest → Guest) : (p.modGuest k f).getGuest k = f (p.getGuest k) := Tab.get_set_same ..
theorem Panel.modGuest_ne (f : Guest → Guest) {k j : Nat} (h : j ≠ k) : (p.modGuest k f).getGuest j = p.getGuest j := Tab.get_set_ne _ _ h _

/-! Fields that an update leaves. -/

@[simp] theorem Panel.setCore_variant (c : Core) : (p.setCore k c).variant = p.variant := rfl
@[simp] theorem Panel.setCore_free (c : Core) : (p.setCore k c).free = p.free := rfl
@[simp] theorem Panel.setCore_clk (c : Core) : (p.setCore k c).clk = p.clk := rfl
@[simp] theorem Panel.setCore_rtr (c : Core) : (p.setCore k c).rtr = p.rtr := rfl
@[simp] theorem Panel.setCore_stk (c : Core) : (p.setCore k c).stk = p.stk := rfl
@[simp] theorem Panel.setCore_sve (c : Core) : (p.setCore k c).sve = p.sve := rfl
@[simp] theorem Panel.setCore_die (c : Core) : (p.setCore k c).die = p.die := rfl
@[simp] theorem Panel.setCore_reg (c : Core) : (p.setCore k c).reg = p.reg := rfl
@[simp] theorem Panel.setCore_part (c : Core) : (p.setCore k c).part = p.part := rfl
@[simp] theorem Panel.setCore_chk (c : Core) : (p.setCore k c).chk = p.chk := rfl
@[simp] theorem Panel.setCore_rctr (c : Core) : (p.setCore k c).rctr = p.rctr := rfl
@[simp] theorem Panel.setCore_rst (c : Core) : (p.setCore k c).rst = p.rst := rfl
@[simp] theorem Panel.setCore_book (c : Core) : (p.setCore k c).book = p.book := rfl
@[simp] theorem Panel.setCore_ctl (c : Core) : (p.setCore k c).ctl = p.ctl := rfl
@[simp] theorem Panel.setCore_od (c : Core) : (p.setCore k c).od = p.od := rfl
@[simp] theorem Panel.setCore_ret (c : Core) : (p.setCore k c).ret = p.ret := rfl
@[simp] theorem Panel.setCore_host (c : Core) : (p.setCore k c).host = p.host := rfl
@[simp] theorem Panel.setCore_pwr (c : Core) : (p.setCore k c).pwr = p.pwr := rfl
@[simp] theorem Panel.setCore_boot (c : Core) : (p.setCore k c).boot = p.boot := rfl
@[simp] theorem Panel.setCore_sec (c : Core) : (p.setCore k c).sec = p.sec := rfl
@[simp] theorem Panel.setCore_chain (c : Core) : (p.setCore k c).chain = p.chain := rfl
@[simp] theorem Panel.setCore_fab (c : Core) : (p.setCore k c).fab = p.fab := rfl
@[simp] theorem Panel.setCore_gaRefusals (c : Core) : (p.setCore k c).gaRefusals = p.gaRefusals := rfl
@[simp] theorem Panel.modCore_variant (f : Core → Core) : (p.modCore k f).variant = p.variant := rfl
@[simp] theorem Panel.modCore_free (f : Core → Core) : (p.modCore k f).free = p.free := rfl
@[simp] theorem Panel.modCore_clk (f : Core → Core) : (p.modCore k f).clk = p.clk := rfl
@[simp] theorem Panel.modCore_rtr (f : Core → Core) : (p.modCore k f).rtr = p.rtr := rfl
@[simp] theorem Panel.modCore_stk (f : Core → Core) : (p.modCore k f).stk = p.stk := rfl
@[simp] theorem Panel.modCore_sve (f : Core → Core) : (p.modCore k f).sve = p.sve := rfl
@[simp] theorem Panel.modCore_die (f : Core → Core) : (p.modCore k f).die = p.die := rfl
@[simp] theorem Panel.modCore_reg (f : Core → Core) : (p.modCore k f).reg = p.reg := rfl
@[simp] theorem Panel.modCore_part (f : Core → Core) : (p.modCore k f).part = p.part := rfl
@[simp] theorem Panel.modCore_chk (f : Core → Core) : (p.modCore k f).chk = p.chk := rfl
@[simp] theorem Panel.modCore_rctr (f : Core → Core) : (p.modCore k f).rctr = p.rctr := rfl
@[simp] theorem Panel.modCore_rst (f : Core → Core) : (p.modCore k f).rst = p.rst := rfl
@[simp] theorem Panel.modCore_book (f : Core → Core) : (p.modCore k f).book = p.book := rfl
@[simp] theorem Panel.modCore_ctl (f : Core → Core) : (p.modCore k f).ctl = p.ctl := rfl
@[simp] theorem Panel.modCore_od (f : Core → Core) : (p.modCore k f).od = p.od := rfl
@[simp] theorem Panel.modCore_ret (f : Core → Core) : (p.modCore k f).ret = p.ret := rfl
@[simp] theorem Panel.modCore_host (f : Core → Core) : (p.modCore k f).host = p.host := rfl
@[simp] theorem Panel.modCore_pwr (f : Core → Core) : (p.modCore k f).pwr = p.pwr := rfl
@[simp] theorem Panel.modCore_boot (f : Core → Core) : (p.modCore k f).boot = p.boot := rfl
@[simp] theorem Panel.modCore_sec (f : Core → Core) : (p.modCore k f).sec = p.sec := rfl
@[simp] theorem Panel.modCore_chain (f : Core → Core) : (p.modCore k f).chain = p.chain := rfl
@[simp] theorem Panel.modCore_fab (f : Core → Core) : (p.modCore k f).fab = p.fab := rfl
@[simp] theorem Panel.modCore_gaRefusals (f : Core → Core) : (p.modCore k f).gaRefusals = p.gaRefusals := rfl
@[simp] theorem Panel.modA_variant (f : CoreA → CoreA) : (p.modA k f).variant = p.variant := rfl
@[simp] theorem Panel.modA_free (f : CoreA → CoreA) : (p.modA k f).free = p.free := rfl
@[simp] theorem Panel.modA_clk (f : CoreA → CoreA) : (p.modA k f).clk = p.clk := rfl
@[simp] theorem Panel.modA_rtr (f : CoreA → CoreA) : (p.modA k f).rtr = p.rtr := rfl
@[simp] theorem Panel.modA_stk (f : CoreA → CoreA) : (p.modA k f).stk = p.stk := rfl
@[simp] theorem Panel.modA_sve (f : CoreA → CoreA) : (p.modA k f).sve = p.sve := rfl
@[simp] theorem Panel.modA_die (f : CoreA → CoreA) : (p.modA k f).die = p.die := rfl
@[simp] theorem Panel.modA_reg (f : CoreA → CoreA) : (p.modA k f).reg = p.reg := rfl
@[simp] theorem Panel.modA_part (f : CoreA → CoreA) : (p.modA k f).part = p.part := rfl
@[simp] theorem Panel.modA_chk (f : CoreA → CoreA) : (p.modA k f).chk = p.chk := rfl
@[simp] theorem Panel.modA_rctr (f : CoreA → CoreA) : (p.modA k f).rctr = p.rctr := rfl
@[simp] theorem Panel.modA_rst (f : CoreA → CoreA) : (p.modA k f).rst = p.rst := rfl
@[simp] theorem Panel.modA_book (f : CoreA → CoreA) : (p.modA k f).book = p.book := rfl
@[simp] theorem Panel.modA_ctl (f : CoreA → CoreA) : (p.modA k f).ctl = p.ctl := rfl
@[simp] theorem Panel.modA_od (f : CoreA → CoreA) : (p.modA k f).od = p.od := rfl
@[simp] theorem Panel.modA_ret (f : CoreA → CoreA) : (p.modA k f).ret = p.ret := rfl
@[simp] theorem Panel.modA_host (f : CoreA → CoreA) : (p.modA k f).host = p.host := rfl
@[simp] theorem Panel.modA_pwr (f : CoreA → CoreA) : (p.modA k f).pwr = p.pwr := rfl
@[simp] theorem Panel.modA_boot (f : CoreA → CoreA) : (p.modA k f).boot = p.boot := rfl
@[simp] theorem Panel.modA_sec (f : CoreA → CoreA) : (p.modA k f).sec = p.sec := rfl
@[simp] theorem Panel.modA_chain (f : CoreA → CoreA) : (p.modA k f).chain = p.chain := rfl
@[simp] theorem Panel.modA_fab (f : CoreA → CoreA) : (p.modA k f).fab = p.fab := rfl
@[simp] theorem Panel.modA_gaRefusals (f : CoreA → CoreA) : (p.modA k f).gaRefusals = p.gaRefusals := rfl
@[simp] theorem Panel.modRtr_variant (f : Router → Router) : (p.modRtr k f).variant = p.variant := rfl
@[simp] theorem Panel.modRtr_free (f : Router → Router) : (p.modRtr k f).free = p.free := rfl
@[simp] theorem Panel.modRtr_clk (f : Router → Router) : (p.modRtr k f).clk = p.clk := rfl
@[simp] theorem Panel.modRtr_core (f : Router → Router) : (p.modRtr k f).core = p.core := rfl
@[simp] theorem Panel.modRtr_stk (f : Router → Router) : (p.modRtr k f).stk = p.stk := rfl
@[simp] theorem Panel.modRtr_sve (f : Router → Router) : (p.modRtr k f).sve = p.sve := rfl
@[simp] theorem Panel.modRtr_die (f : Router → Router) : (p.modRtr k f).die = p.die := rfl
@[simp] theorem Panel.modRtr_reg (f : Router → Router) : (p.modRtr k f).reg = p.reg := rfl
@[simp] theorem Panel.modRtr_part (f : Router → Router) : (p.modRtr k f).part = p.part := rfl
@[simp] theorem Panel.modRtr_chk (f : Router → Router) : (p.modRtr k f).chk = p.chk := rfl
@[simp] theorem Panel.modRtr_rctr (f : Router → Router) : (p.modRtr k f).rctr = p.rctr := rfl
@[simp] theorem Panel.modRtr_rst (f : Router → Router) : (p.modRtr k f).rst = p.rst := rfl
@[simp] theorem Panel.modRtr_book (f : Router → Router) : (p.modRtr k f).book = p.book := rfl
@[simp] theorem Panel.modRtr_ctl (f : Router → Router) : (p.modRtr k f).ctl = p.ctl := rfl
@[simp] theorem Panel.modRtr_od (f : Router → Router) : (p.modRtr k f).od = p.od := rfl
@[simp] theorem Panel.modRtr_ret (f : Router → Router) : (p.modRtr k f).ret = p.ret := rfl
@[simp] theorem Panel.modRtr_host (f : Router → Router) : (p.modRtr k f).host = p.host := rfl
@[simp] theorem Panel.modRtr_pwr (f : Router → Router) : (p.modRtr k f).pwr = p.pwr := rfl
@[simp] theorem Panel.modRtr_boot (f : Router → Router) : (p.modRtr k f).boot = p.boot := rfl
@[simp] theorem Panel.modRtr_sec (f : Router → Router) : (p.modRtr k f).sec = p.sec := rfl
@[simp] theorem Panel.modRtr_chain (f : Router → Router) : (p.modRtr k f).chain = p.chain := rfl
@[simp] theorem Panel.modRtr_fab (f : Router → Router) : (p.modRtr k f).fab = p.fab := rfl
@[simp] theorem Panel.modRtr_gaRefusals (f : Router → Router) : (p.modRtr k f).gaRefusals = p.gaRefusals := rfl
@[simp] theorem Panel.modStk_variant (f : Stack → Stack) : (p.modStk k f).variant = p.variant := rfl
@[simp] theorem Panel.modStk_free (f : Stack → Stack) : (p.modStk k f).free = p.free := rfl
@[simp] theorem Panel.modStk_clk (f : Stack → Stack) : (p.modStk k f).clk = p.clk := rfl
@[simp] theorem Panel.modStk_core (f : Stack → Stack) : (p.modStk k f).core = p.core := rfl
@[simp] theorem Panel.modStk_rtr (f : Stack → Stack) : (p.modStk k f).rtr = p.rtr := rfl
@[simp] theorem Panel.modStk_sve (f : Stack → Stack) : (p.modStk k f).sve = p.sve := rfl
@[simp] theorem Panel.modStk_die (f : Stack → Stack) : (p.modStk k f).die = p.die := rfl
@[simp] theorem Panel.modStk_reg (f : Stack → Stack) : (p.modStk k f).reg = p.reg := rfl
@[simp] theorem Panel.modStk_part (f : Stack → Stack) : (p.modStk k f).part = p.part := rfl
@[simp] theorem Panel.modStk_chk (f : Stack → Stack) : (p.modStk k f).chk = p.chk := rfl
@[simp] theorem Panel.modStk_rctr (f : Stack → Stack) : (p.modStk k f).rctr = p.rctr := rfl
@[simp] theorem Panel.modStk_rst (f : Stack → Stack) : (p.modStk k f).rst = p.rst := rfl
@[simp] theorem Panel.modStk_book (f : Stack → Stack) : (p.modStk k f).book = p.book := rfl
@[simp] theorem Panel.modStk_ctl (f : Stack → Stack) : (p.modStk k f).ctl = p.ctl := rfl
@[simp] theorem Panel.modStk_od (f : Stack → Stack) : (p.modStk k f).od = p.od := rfl
@[simp] theorem Panel.modStk_ret (f : Stack → Stack) : (p.modStk k f).ret = p.ret := rfl
@[simp] theorem Panel.modStk_host (f : Stack → Stack) : (p.modStk k f).host = p.host := rfl
@[simp] theorem Panel.modStk_pwr (f : Stack → Stack) : (p.modStk k f).pwr = p.pwr := rfl
@[simp] theorem Panel.modStk_boot (f : Stack → Stack) : (p.modStk k f).boot = p.boot := rfl
@[simp] theorem Panel.modStk_sec (f : Stack → Stack) : (p.modStk k f).sec = p.sec := rfl
@[simp] theorem Panel.modStk_chain (f : Stack → Stack) : (p.modStk k f).chain = p.chain := rfl
@[simp] theorem Panel.modStk_fab (f : Stack → Stack) : (p.modStk k f).fab = p.fab := rfl
@[simp] theorem Panel.modStk_gaRefusals (f : Stack → Stack) : (p.modStk k f).gaRefusals = p.gaRefusals := rfl
@[simp] theorem Panel.modSve_variant (f : Sieve → Sieve) : (p.modSve k f).variant = p.variant := rfl
@[simp] theorem Panel.modSve_free (f : Sieve → Sieve) : (p.modSve k f).free = p.free := rfl
@[simp] theorem Panel.modSve_clk (f : Sieve → Sieve) : (p.modSve k f).clk = p.clk := rfl
@[simp] theorem Panel.modSve_core (f : Sieve → Sieve) : (p.modSve k f).core = p.core := rfl
@[simp] theorem Panel.modSve_rtr (f : Sieve → Sieve) : (p.modSve k f).rtr = p.rtr := rfl
@[simp] theorem Panel.modSve_stk (f : Sieve → Sieve) : (p.modSve k f).stk = p.stk := rfl
@[simp] theorem Panel.modSve_die (f : Sieve → Sieve) : (p.modSve k f).die = p.die := rfl
@[simp] theorem Panel.modSve_reg (f : Sieve → Sieve) : (p.modSve k f).reg = p.reg := rfl
@[simp] theorem Panel.modSve_part (f : Sieve → Sieve) : (p.modSve k f).part = p.part := rfl
@[simp] theorem Panel.modSve_chk (f : Sieve → Sieve) : (p.modSve k f).chk = p.chk := rfl
@[simp] theorem Panel.modSve_rctr (f : Sieve → Sieve) : (p.modSve k f).rctr = p.rctr := rfl
@[simp] theorem Panel.modSve_rst (f : Sieve → Sieve) : (p.modSve k f).rst = p.rst := rfl
@[simp] theorem Panel.modSve_book (f : Sieve → Sieve) : (p.modSve k f).book = p.book := rfl
@[simp] theorem Panel.modSve_ctl (f : Sieve → Sieve) : (p.modSve k f).ctl = p.ctl := rfl
@[simp] theorem Panel.modSve_od (f : Sieve → Sieve) : (p.modSve k f).od = p.od := rfl
@[simp] theorem Panel.modSve_ret (f : Sieve → Sieve) : (p.modSve k f).ret = p.ret := rfl
@[simp] theorem Panel.modSve_host (f : Sieve → Sieve) : (p.modSve k f).host = p.host := rfl
@[simp] theorem Panel.modSve_pwr (f : Sieve → Sieve) : (p.modSve k f).pwr = p.pwr := rfl
@[simp] theorem Panel.modSve_boot (f : Sieve → Sieve) : (p.modSve k f).boot = p.boot := rfl
@[simp] theorem Panel.modSve_sec (f : Sieve → Sieve) : (p.modSve k f).sec = p.sec := rfl
@[simp] theorem Panel.modSve_chain (f : Sieve → Sieve) : (p.modSve k f).chain = p.chain := rfl
@[simp] theorem Panel.modSve_fab (f : Sieve → Sieve) : (p.modSve k f).fab = p.fab := rfl
@[simp] theorem Panel.modSve_gaRefusals (f : Sieve → Sieve) : (p.modSve k f).gaRefusals = p.gaRefusals := rfl
@[simp] theorem Panel.modDie_variant (f : DieRun → DieRun) : (p.modDie k f).variant = p.variant := rfl
@[simp] theorem Panel.modDie_free (f : DieRun → DieRun) : (p.modDie k f).free = p.free := rfl
@[simp] theorem Panel.modDie_clk (f : DieRun → DieRun) : (p.modDie k f).clk = p.clk := rfl
@[simp] theorem Panel.modDie_core (f : DieRun → DieRun) : (p.modDie k f).core = p.core := rfl
@[simp] theorem Panel.modDie_rtr (f : DieRun → DieRun) : (p.modDie k f).rtr = p.rtr := rfl
@[simp] theorem Panel.modDie_stk (f : DieRun → DieRun) : (p.modDie k f).stk = p.stk := rfl
@[simp] theorem Panel.modDie_sve (f : DieRun → DieRun) : (p.modDie k f).sve = p.sve := rfl
@[simp] theorem Panel.modDie_reg (f : DieRun → DieRun) : (p.modDie k f).reg = p.reg := rfl
@[simp] theorem Panel.modDie_part (f : DieRun → DieRun) : (p.modDie k f).part = p.part := rfl
@[simp] theorem Panel.modDie_chk (f : DieRun → DieRun) : (p.modDie k f).chk = p.chk := rfl
@[simp] theorem Panel.modDie_rctr (f : DieRun → DieRun) : (p.modDie k f).rctr = p.rctr := rfl
@[simp] theorem Panel.modDie_rst (f : DieRun → DieRun) : (p.modDie k f).rst = p.rst := rfl
@[simp] theorem Panel.modDie_book (f : DieRun → DieRun) : (p.modDie k f).book = p.book := rfl
@[simp] theorem Panel.modDie_ctl (f : DieRun → DieRun) : (p.modDie k f).ctl = p.ctl := rfl
@[simp] theorem Panel.modDie_od (f : DieRun → DieRun) : (p.modDie k f).od = p.od := rfl
@[simp] theorem Panel.modDie_ret (f : DieRun → DieRun) : (p.modDie k f).ret = p.ret := rfl
@[simp] theorem Panel.modDie_host (f : DieRun → DieRun) : (p.modDie k f).host = p.host := rfl
@[simp] theorem Panel.modDie_pwr (f : DieRun → DieRun) : (p.modDie k f).pwr = p.pwr := rfl
@[simp] theorem Panel.modDie_boot (f : DieRun → DieRun) : (p.modDie k f).boot = p.boot := rfl
@[simp] theorem Panel.modDie_sec (f : DieRun → DieRun) : (p.modDie k f).sec = p.sec := rfl
@[simp] theorem Panel.modDie_chain (f : DieRun → DieRun) : (p.modDie k f).chain = p.chain := rfl
@[simp] theorem Panel.modDie_fab (f : DieRun → DieRun) : (p.modDie k f).fab = p.fab := rfl
@[simp] theorem Panel.modDie_gaRefusals (f : DieRun → DieRun) : (p.modDie k f).gaRefusals = p.gaRefusals := rfl
@[simp] theorem Panel.modReg_variant (f : Region → Region) : (p.modReg k f).variant = p.variant := rfl
@[simp] theorem Panel.modReg_free (f : Region → Region) : (p.modReg k f).free = p.free := rfl
@[simp] theorem Panel.modReg_clk (f : Region → Region) : (p.modReg k f).clk = p.clk := rfl
@[simp] theorem Panel.modReg_core (f : Region → Region) : (p.modReg k f).core = p.core := rfl
@[simp] theorem Panel.modReg_rtr (f : Region → Region) : (p.modReg k f).rtr = p.rtr := rfl
@[simp] theorem Panel.modReg_stk (f : Region → Region) : (p.modReg k f).stk = p.stk := rfl
@[simp] theorem Panel.modReg_sve (f : Region → Region) : (p.modReg k f).sve = p.sve := rfl
@[simp] theorem Panel.modReg_die (f : Region → Region) : (p.modReg k f).die = p.die := rfl
@[simp] theorem Panel.modReg_part (f : Region → Region) : (p.modReg k f).part = p.part := rfl
@[simp] theorem Panel.modReg_chk (f : Region → Region) : (p.modReg k f).chk = p.chk := rfl
@[simp] theorem Panel.modReg_rctr (f : Region → Region) : (p.modReg k f).rctr = p.rctr := rfl
@[simp] theorem Panel.modReg_rst (f : Region → Region) : (p.modReg k f).rst = p.rst := rfl
@[simp] theorem Panel.modReg_book (f : Region → Region) : (p.modReg k f).book = p.book := rfl
@[simp] theorem Panel.modReg_ctl (f : Region → Region) : (p.modReg k f).ctl = p.ctl := rfl
@[simp] theorem Panel.modReg_od (f : Region → Region) : (p.modReg k f).od = p.od := rfl
@[simp] theorem Panel.modReg_ret (f : Region → Region) : (p.modReg k f).ret = p.ret := rfl
@[simp] theorem Panel.modReg_host (f : Region → Region) : (p.modReg k f).host = p.host := rfl
@[simp] theorem Panel.modReg_pwr (f : Region → Region) : (p.modReg k f).pwr = p.pwr := rfl
@[simp] theorem Panel.modReg_boot (f : Region → Region) : (p.modReg k f).boot = p.boot := rfl
@[simp] theorem Panel.modReg_sec (f : Region → Region) : (p.modReg k f).sec = p.sec := rfl
@[simp] theorem Panel.modReg_chain (f : Region → Region) : (p.modReg k f).chain = p.chain := rfl
@[simp] theorem Panel.modReg_fab (f : Region → Region) : (p.modReg k f).fab = p.fab := rfl
@[simp] theorem Panel.modReg_gaRefusals (f : Region → Region) : (p.modReg k f).gaRefusals = p.gaRefusals := rfl
@[simp] theorem Panel.modPart_variant (f : Part → Part) : (p.modPart k f).variant = p.variant := rfl
@[simp] theorem Panel.modPart_free (f : Part → Part) : (p.modPart k f).free = p.free := rfl
@[simp] theorem Panel.modPart_clk (f : Part → Part) : (p.modPart k f).clk = p.clk := rfl
@[simp] theorem Panel.modPart_core (f : Part → Part) : (p.modPart k f).core = p.core := rfl
@[simp] theorem Panel.modPart_rtr (f : Part → Part) : (p.modPart k f).rtr = p.rtr := rfl
@[simp] theorem Panel.modPart_stk (f : Part → Part) : (p.modPart k f).stk = p.stk := rfl
@[simp] theorem Panel.modPart_sve (f : Part → Part) : (p.modPart k f).sve = p.sve := rfl
@[simp] theorem Panel.modPart_die (f : Part → Part) : (p.modPart k f).die = p.die := rfl
@[simp] theorem Panel.modPart_reg (f : Part → Part) : (p.modPart k f).reg = p.reg := rfl
@[simp] theorem Panel.modPart_chk (f : Part → Part) : (p.modPart k f).chk = p.chk := rfl
@[simp] theorem Panel.modPart_rctr (f : Part → Part) : (p.modPart k f).rctr = p.rctr := rfl
@[simp] theorem Panel.modPart_rst (f : Part → Part) : (p.modPart k f).rst = p.rst := rfl
@[simp] theorem Panel.modPart_book (f : Part → Part) : (p.modPart k f).book = p.book := rfl
@[simp] theorem Panel.modPart_ctl (f : Part → Part) : (p.modPart k f).ctl = p.ctl := rfl
@[simp] theorem Panel.modPart_od (f : Part → Part) : (p.modPart k f).od = p.od := rfl
@[simp] theorem Panel.modPart_ret (f : Part → Part) : (p.modPart k f).ret = p.ret := rfl
@[simp] theorem Panel.modPart_host (f : Part → Part) : (p.modPart k f).host = p.host := rfl
@[simp] theorem Panel.modPart_pwr (f : Part → Part) : (p.modPart k f).pwr = p.pwr := rfl
@[simp] theorem Panel.modPart_boot (f : Part → Part) : (p.modPart k f).boot = p.boot := rfl
@[simp] theorem Panel.modPart_sec (f : Part → Part) : (p.modPart k f).sec = p.sec := rfl
@[simp] theorem Panel.modPart_chain (f : Part → Part) : (p.modPart k f).chain = p.chain := rfl
@[simp] theorem Panel.modPart_fab (f : Part → Part) : (p.modPart k f).fab = p.fab := rfl
@[simp] theorem Panel.modPart_gaRefusals (f : Part → Part) : (p.modPart k f).gaRefusals = p.gaRefusals := rfl
@[simp] theorem Panel.modChk_variant (f : CheckEng → CheckEng) : (p.modChk k f).variant = p.variant := rfl
@[simp] theorem Panel.modChk_free (f : CheckEng → CheckEng) : (p.modChk k f).free = p.free := rfl
@[simp] theorem Panel.modChk_clk (f : CheckEng → CheckEng) : (p.modChk k f).clk = p.clk := rfl
@[simp] theorem Panel.modChk_core (f : CheckEng → CheckEng) : (p.modChk k f).core = p.core := rfl
@[simp] theorem Panel.modChk_rtr (f : CheckEng → CheckEng) : (p.modChk k f).rtr = p.rtr := rfl
@[simp] theorem Panel.modChk_stk (f : CheckEng → CheckEng) : (p.modChk k f).stk = p.stk := rfl
@[simp] theorem Panel.modChk_sve (f : CheckEng → CheckEng) : (p.modChk k f).sve = p.sve := rfl
@[simp] theorem Panel.modChk_die (f : CheckEng → CheckEng) : (p.modChk k f).die = p.die := rfl
@[simp] theorem Panel.modChk_reg (f : CheckEng → CheckEng) : (p.modChk k f).reg = p.reg := rfl
@[simp] theorem Panel.modChk_part (f : CheckEng → CheckEng) : (p.modChk k f).part = p.part := rfl
@[simp] theorem Panel.modChk_rctr (f : CheckEng → CheckEng) : (p.modChk k f).rctr = p.rctr := rfl
@[simp] theorem Panel.modChk_rst (f : CheckEng → CheckEng) : (p.modChk k f).rst = p.rst := rfl
@[simp] theorem Panel.modChk_book (f : CheckEng → CheckEng) : (p.modChk k f).book = p.book := rfl
@[simp] theorem Panel.modChk_ctl (f : CheckEng → CheckEng) : (p.modChk k f).ctl = p.ctl := rfl
@[simp] theorem Panel.modChk_od (f : CheckEng → CheckEng) : (p.modChk k f).od = p.od := rfl
@[simp] theorem Panel.modChk_ret (f : CheckEng → CheckEng) : (p.modChk k f).ret = p.ret := rfl
@[simp] theorem Panel.modChk_host (f : CheckEng → CheckEng) : (p.modChk k f).host = p.host := rfl
@[simp] theorem Panel.modChk_pwr (f : CheckEng → CheckEng) : (p.modChk k f).pwr = p.pwr := rfl
@[simp] theorem Panel.modChk_boot (f : CheckEng → CheckEng) : (p.modChk k f).boot = p.boot := rfl
@[simp] theorem Panel.modChk_sec (f : CheckEng → CheckEng) : (p.modChk k f).sec = p.sec := rfl
@[simp] theorem Panel.modChk_chain (f : CheckEng → CheckEng) : (p.modChk k f).chain = p.chain := rfl
@[simp] theorem Panel.modChk_fab (f : CheckEng → CheckEng) : (p.modChk k f).fab = p.fab := rfl
@[simp] theorem Panel.modChk_gaRefusals (f : CheckEng → CheckEng) : (p.modChk k f).gaRefusals = p.gaRefusals := rfl
@[simp] theorem Panel.modRctr_variant (f : ResetCtr → ResetCtr) : (p.modRctr k f).variant = p.variant := rfl
@[simp] theorem Panel.modRctr_free (f : ResetCtr → ResetCtr) : (p.modRctr k f).free = p.free := rfl
@[simp] theorem Panel.modRctr_clk (f : ResetCtr → ResetCtr) : (p.modRctr k f).clk = p.clk := rfl
@[simp] theorem Panel.modRctr_core (f : ResetCtr → ResetCtr) : (p.modRctr k f).core = p.core := rfl
@[simp] theorem Panel.modRctr_rtr (f : ResetCtr → ResetCtr) : (p.modRctr k f).rtr = p.rtr := rfl
@[simp] theorem Panel.modRctr_stk (f : ResetCtr → ResetCtr) : (p.modRctr k f).stk = p.stk := rfl
@[simp] theorem Panel.modRctr_sve (f : ResetCtr → ResetCtr) : (p.modRctr k f).sve = p.sve := rfl
@[simp] theorem Panel.modRctr_die (f : ResetCtr → ResetCtr) : (p.modRctr k f).die = p.die := rfl
@[simp] theorem Panel.modRctr_reg (f : ResetCtr → ResetCtr) : (p.modRctr k f).reg = p.reg := rfl
@[simp] theorem Panel.modRctr_part (f : ResetCtr → ResetCtr) : (p.modRctr k f).part = p.part := rfl
@[simp] theorem Panel.modRctr_chk (f : ResetCtr → ResetCtr) : (p.modRctr k f).chk = p.chk := rfl
@[simp] theorem Panel.modRctr_rst (f : ResetCtr → ResetCtr) : (p.modRctr k f).rst = p.rst := rfl
@[simp] theorem Panel.modRctr_book (f : ResetCtr → ResetCtr) : (p.modRctr k f).book = p.book := rfl
@[simp] theorem Panel.modRctr_ctl (f : ResetCtr → ResetCtr) : (p.modRctr k f).ctl = p.ctl := rfl
@[simp] theorem Panel.modRctr_od (f : ResetCtr → ResetCtr) : (p.modRctr k f).od = p.od := rfl
@[simp] theorem Panel.modRctr_ret (f : ResetCtr → ResetCtr) : (p.modRctr k f).ret = p.ret := rfl
@[simp] theorem Panel.modRctr_host (f : ResetCtr → ResetCtr) : (p.modRctr k f).host = p.host := rfl
@[simp] theorem Panel.modRctr_pwr (f : ResetCtr → ResetCtr) : (p.modRctr k f).pwr = p.pwr := rfl
@[simp] theorem Panel.modRctr_boot (f : ResetCtr → ResetCtr) : (p.modRctr k f).boot = p.boot := rfl
@[simp] theorem Panel.modRctr_sec (f : ResetCtr → ResetCtr) : (p.modRctr k f).sec = p.sec := rfl
@[simp] theorem Panel.modRctr_chain (f : ResetCtr → ResetCtr) : (p.modRctr k f).chain = p.chain := rfl
@[simp] theorem Panel.modRctr_fab (f : ResetCtr → ResetCtr) : (p.modRctr k f).fab = p.fab := rfl
@[simp] theorem Panel.modRctr_gaRefusals (f : ResetCtr → ResetCtr) : (p.modRctr k f).gaRefusals = p.gaRefusals := rfl
@[simp] theorem Panel.modClk_variant (f : DieClk → DieClk) : (p.modClk k f).variant = p.variant := rfl
@[simp] theorem Panel.modClk_free (f : DieClk → DieClk) : (p.modClk k f).free = p.free := rfl
@[simp] theorem Panel.modClk_core (f : DieClk → DieClk) : (p.modClk k f).core = p.core := rfl
@[simp] theorem Panel.modClk_rtr (f : DieClk → DieClk) : (p.modClk k f).rtr = p.rtr := rfl
@[simp] theorem Panel.modClk_stk (f : DieClk → DieClk) : (p.modClk k f).stk = p.stk := rfl
@[simp] theorem Panel.modClk_sve (f : DieClk → DieClk) : (p.modClk k f).sve = p.sve := rfl
@[simp] theorem Panel.modClk_die (f : DieClk → DieClk) : (p.modClk k f).die = p.die := rfl
@[simp] theorem Panel.modClk_reg (f : DieClk → DieClk) : (p.modClk k f).reg = p.reg := rfl
@[simp] theorem Panel.modClk_part (f : DieClk → DieClk) : (p.modClk k f).part = p.part := rfl
@[simp] theorem Panel.modClk_chk (f : DieClk → DieClk) : (p.modClk k f).chk = p.chk := rfl
@[simp] theorem Panel.modClk_rctr (f : DieClk → DieClk) : (p.modClk k f).rctr = p.rctr := rfl
@[simp] theorem Panel.modClk_rst (f : DieClk → DieClk) : (p.modClk k f).rst = p.rst := rfl
@[simp] theorem Panel.modClk_book (f : DieClk → DieClk) : (p.modClk k f).book = p.book := rfl
@[simp] theorem Panel.modClk_ctl (f : DieClk → DieClk) : (p.modClk k f).ctl = p.ctl := rfl
@[simp] theorem Panel.modClk_od (f : DieClk → DieClk) : (p.modClk k f).od = p.od := rfl
@[simp] theorem Panel.modClk_ret (f : DieClk → DieClk) : (p.modClk k f).ret = p.ret := rfl
@[simp] theorem Panel.modClk_host (f : DieClk → DieClk) : (p.modClk k f).host = p.host := rfl
@[simp] theorem Panel.modClk_pwr (f : DieClk → DieClk) : (p.modClk k f).pwr = p.pwr := rfl
@[simp] theorem Panel.modClk_boot (f : DieClk → DieClk) : (p.modClk k f).boot = p.boot := rfl
@[simp] theorem Panel.modClk_sec (f : DieClk → DieClk) : (p.modClk k f).sec = p.sec := rfl
@[simp] theorem Panel.modClk_chain (f : DieClk → DieClk) : (p.modClk k f).chain = p.chain := rfl
@[simp] theorem Panel.modClk_fab (f : DieClk → DieClk) : (p.modClk k f).fab = p.fab := rfl
@[simp] theorem Panel.modClk_gaRefusals (f : DieClk → DieClk) : (p.modClk k f).gaRefusals = p.gaRefusals := rfl
@[simp] theorem Panel.modNode_variant (f : Node → Node) : (p.modNode k f).variant = p.variant := rfl
@[simp] theorem Panel.modNode_free (f : Node → Node) : (p.modNode k f).free = p.free := rfl
@[simp] theorem Panel.modNode_clk (f : Node → Node) : (p.modNode k f).clk = p.clk := rfl
@[simp] theorem Panel.modNode_core (f : Node → Node) : (p.modNode k f).core = p.core := rfl
@[simp] theorem Panel.modNode_rtr (f : Node → Node) : (p.modNode k f).rtr = p.rtr := rfl
@[simp] theorem Panel.modNode_stk (f : Node → Node) : (p.modNode k f).stk = p.stk := rfl
@[simp] theorem Panel.modNode_sve (f : Node → Node) : (p.modNode k f).sve = p.sve := rfl
@[simp] theorem Panel.modNode_die (f : Node → Node) : (p.modNode k f).die = p.die := rfl
@[simp] theorem Panel.modNode_reg (f : Node → Node) : (p.modNode k f).reg = p.reg := rfl
@[simp] theorem Panel.modNode_part (f : Node → Node) : (p.modNode k f).part = p.part := rfl
@[simp] theorem Panel.modNode_chk (f : Node → Node) : (p.modNode k f).chk = p.chk := rfl
@[simp] theorem Panel.modNode_rctr (f : Node → Node) : (p.modNode k f).rctr = p.rctr := rfl
@[simp] theorem Panel.modNode_rst (f : Node → Node) : (p.modNode k f).rst = p.rst := rfl
@[simp] theorem Panel.modNode_book (f : Node → Node) : (p.modNode k f).book = p.book := rfl
@[simp] theorem Panel.modNode_od (f : Node → Node) : (p.modNode k f).od = p.od := rfl
@[simp] theorem Panel.modNode_ret (f : Node → Node) : (p.modNode k f).ret = p.ret := rfl
@[simp] theorem Panel.modNode_host (f : Node → Node) : (p.modNode k f).host = p.host := rfl
@[simp] theorem Panel.modNode_pwr (f : Node → Node) : (p.modNode k f).pwr = p.pwr := rfl
@[simp] theorem Panel.modNode_boot (f : Node → Node) : (p.modNode k f).boot = p.boot := rfl
@[simp] theorem Panel.modNode_sec (f : Node → Node) : (p.modNode k f).sec = p.sec := rfl
@[simp] theorem Panel.modNode_chain (f : Node → Node) : (p.modNode k f).chain = p.chain := rfl
@[simp] theorem Panel.modNode_fab (f : Node → Node) : (p.modNode k f).fab = p.fab := rfl
@[simp] theorem Panel.modNode_gaRefusals (f : Node → Node) : (p.modNode k f).gaRefusals = p.gaRefusals := rfl
@[simp] theorem Panel.modFn_variant (f : Fn → Fn) : (p.modFn k f).variant = p.variant := rfl
@[simp] theorem Panel.modFn_free (f : Fn → Fn) : (p.modFn k f).free = p.free := rfl
@[simp] theorem Panel.modFn_clk (f : Fn → Fn) : (p.modFn k f).clk = p.clk := rfl
@[simp] theorem Panel.modFn_core (f : Fn → Fn) : (p.modFn k f).core = p.core := rfl
@[simp] theorem Panel.modFn_rtr (f : Fn → Fn) : (p.modFn k f).rtr = p.rtr := rfl
@[simp] theorem Panel.modFn_stk (f : Fn → Fn) : (p.modFn k f).stk = p.stk := rfl
@[simp] theorem Panel.modFn_sve (f : Fn → Fn) : (p.modFn k f).sve = p.sve := rfl
@[simp] theorem Panel.modFn_die (f : Fn → Fn) : (p.modFn k f).die = p.die := rfl
@[simp] theorem Panel.modFn_reg (f : Fn → Fn) : (p.modFn k f).reg = p.reg := rfl
@[simp] theorem Panel.modFn_part (f : Fn → Fn) : (p.modFn k f).part = p.part := rfl
@[simp] theorem Panel.modFn_chk (f : Fn → Fn) : (p.modFn k f).chk = p.chk := rfl
@[simp] theorem Panel.modFn_rctr (f : Fn → Fn) : (p.modFn k f).rctr = p.rctr := rfl
@[simp] theorem Panel.modFn_rst (f : Fn → Fn) : (p.modFn k f).rst = p.rst := rfl
@[simp] theorem Panel.modFn_book (f : Fn → Fn) : (p.modFn k f).book = p.book := rfl
@[simp] theorem Panel.modFn_ctl (f : Fn → Fn) : (p.modFn k f).ctl = p.ctl := rfl
@[simp] theorem Panel.modFn_od (f : Fn → Fn) : (p.modFn k f).od = p.od := rfl
@[simp] theorem Panel.modFn_ret (f : Fn → Fn) : (p.modFn k f).ret = p.ret := rfl
@[simp] theorem Panel.modFn_pwr (f : Fn → Fn) : (p.modFn k f).pwr = p.pwr := rfl
@[simp] theorem Panel.modFn_boot (f : Fn → Fn) : (p.modFn k f).boot = p.boot := rfl
@[simp] theorem Panel.modFn_sec (f : Fn → Fn) : (p.modFn k f).sec = p.sec := rfl
@[simp] theorem Panel.modFn_chain (f : Fn → Fn) : (p.modFn k f).chain = p.chain := rfl
@[simp] theorem Panel.modFn_fab (f : Fn → Fn) : (p.modFn k f).fab = p.fab := rfl
@[simp] theorem Panel.modFn_gaRefusals (f : Fn → Fn) : (p.modFn k f).gaRefusals = p.gaRefusals := rfl
@[simp] theorem Panel.modBlk_variant (f : Blk → Blk) : (p.modBlk k f).variant = p.variant := rfl
@[simp] theorem Panel.modBlk_free (f : Blk → Blk) : (p.modBlk k f).free = p.free := rfl
@[simp] theorem Panel.modBlk_clk (f : Blk → Blk) : (p.modBlk k f).clk = p.clk := rfl
@[simp] theorem Panel.modBlk_core (f : Blk → Blk) : (p.modBlk k f).core = p.core := rfl
@[simp] theorem Panel.modBlk_rtr (f : Blk → Blk) : (p.modBlk k f).rtr = p.rtr := rfl
@[simp] theorem Panel.modBlk_stk (f : Blk → Blk) : (p.modBlk k f).stk = p.stk := rfl
@[simp] theorem Panel.modBlk_sve (f : Blk → Blk) : (p.modBlk k f).sve = p.sve := rfl
@[simp] theorem Panel.modBlk_die (f : Blk → Blk) : (p.modBlk k f).die = p.die := rfl
@[simp] theorem Panel.modBlk_reg (f : Blk → Blk) : (p.modBlk k f).reg = p.reg := rfl
@[simp] theorem Panel.modBlk_part (f : Blk → Blk) : (p.modBlk k f).part = p.part := rfl
@[simp] theorem Panel.modBlk_chk (f : Blk → Blk) : (p.modBlk k f).chk = p.chk := rfl
@[simp] theorem Panel.modBlk_rctr (f : Blk → Blk) : (p.modBlk k f).rctr = p.rctr := rfl
@[simp] theorem Panel.modBlk_rst (f : Blk → Blk) : (p.modBlk k f).rst = p.rst := rfl
@[simp] theorem Panel.modBlk_book (f : Blk → Blk) : (p.modBlk k f).book = p.book := rfl
@[simp] theorem Panel.modBlk_ctl (f : Blk → Blk) : (p.modBlk k f).ctl = p.ctl := rfl
@[simp] theorem Panel.modBlk_od (f : Blk → Blk) : (p.modBlk k f).od = p.od := rfl
@[simp] theorem Panel.modBlk_ret (f : Blk → Blk) : (p.modBlk k f).ret = p.ret := rfl
@[simp] theorem Panel.modBlk_host (f : Blk → Blk) : (p.modBlk k f).host = p.host := rfl
@[simp] theorem Panel.modBlk_boot (f : Blk → Blk) : (p.modBlk k f).boot = p.boot := rfl
@[simp] theorem Panel.modBlk_sec (f : Blk → Blk) : (p.modBlk k f).sec = p.sec := rfl
@[simp] theorem Panel.modBlk_chain (f : Blk → Blk) : (p.modBlk k f).chain = p.chain := rfl
@[simp] theorem Panel.modBlk_fab (f : Blk → Blk) : (p.modBlk k f).fab = p.fab := rfl
@[simp] theorem Panel.modBlk_gaRefusals (f : Blk → Blk) : (p.modBlk k f).gaRefusals = p.gaRefusals := rfl
@[simp] theorem Panel.modAcct_variant (f : Acct → Acct) : (p.modAcct k f).variant = p.variant := rfl
@[simp] theorem Panel.modAcct_free (f : Acct → Acct) : (p.modAcct k f).free = p.free := rfl
@[simp] theorem Panel.modAcct_clk (f : Acct → Acct) : (p.modAcct k f).clk = p.clk := rfl
@[simp] theorem Panel.modAcct_core (f : Acct → Acct) : (p.modAcct k f).core = p.core := rfl
@[simp] theorem Panel.modAcct_rtr (f : Acct → Acct) : (p.modAcct k f).rtr = p.rtr := rfl
@[simp] theorem Panel.modAcct_stk (f : Acct → Acct) : (p.modAcct k f).stk = p.stk := rfl
@[simp] theorem Panel.modAcct_sve (f : Acct → Acct) : (p.modAcct k f).sve = p.sve := rfl
@[simp] theorem Panel.modAcct_die (f : Acct → Acct) : (p.modAcct k f).die = p.die := rfl
@[simp] theorem Panel.modAcct_reg (f : Acct → Acct) : (p.modAcct k f).reg = p.reg := rfl
@[simp] theorem Panel.modAcct_part (f : Acct → Acct) : (p.modAcct k f).part = p.part := rfl
@[simp] theorem Panel.modAcct_chk (f : Acct → Acct) : (p.modAcct k f).chk = p.chk := rfl
@[simp] theorem Panel.modAcct_rctr (f : Acct → Acct) : (p.modAcct k f).rctr = p.rctr := rfl
@[simp] theorem Panel.modAcct_rst (f : Acct → Acct) : (p.modAcct k f).rst = p.rst := rfl
@[simp] theorem Panel.modAcct_book (f : Acct → Acct) : (p.modAcct k f).book = p.book := rfl
@[simp] theorem Panel.modAcct_ctl (f : Acct → Acct) : (p.modAcct k f).ctl = p.ctl := rfl
@[simp] theorem Panel.modAcct_od (f : Acct → Acct) : (p.modAcct k f).od = p.od := rfl
@[simp] theorem Panel.modAcct_ret (f : Acct → Acct) : (p.modAcct k f).ret = p.ret := rfl
@[simp] theorem Panel.modAcct_host (f : Acct → Acct) : (p.modAcct k f).host = p.host := rfl
@[simp] theorem Panel.modAcct_boot (f : Acct → Acct) : (p.modAcct k f).boot = p.boot := rfl
@[simp] theorem Panel.modAcct_sec (f : Acct → Acct) : (p.modAcct k f).sec = p.sec := rfl
@[simp] theorem Panel.modAcct_chain (f : Acct → Acct) : (p.modAcct k f).chain = p.chain := rfl
@[simp] theorem Panel.modAcct_fab (f : Acct → Acct) : (p.modAcct k f).fab = p.fab := rfl
@[simp] theorem Panel.modAcct_gaRefusals (f : Acct → Acct) : (p.modAcct k f).gaRefusals = p.gaRefusals := rfl
@[simp] theorem Panel.modQuery_variant (f : Query → Query) : (p.modQuery k f).variant = p.variant := rfl
@[simp] theorem Panel.modQuery_free (f : Query → Query) : (p.modQuery k f).free = p.free := rfl
@[simp] theorem Panel.modQuery_clk (f : Query → Query) : (p.modQuery k f).clk = p.clk := rfl
@[simp] theorem Panel.modQuery_core (f : Query → Query) : (p.modQuery k f).core = p.core := rfl
@[simp] theorem Panel.modQuery_rtr (f : Query → Query) : (p.modQuery k f).rtr = p.rtr := rfl
@[simp] theorem Panel.modQuery_stk (f : Query → Query) : (p.modQuery k f).stk = p.stk := rfl
@[simp] theorem Panel.modQuery_sve (f : Query → Query) : (p.modQuery k f).sve = p.sve := rfl
@[simp] theorem Panel.modQuery_die (f : Query → Query) : (p.modQuery k f).die = p.die := rfl
@[simp] theorem Panel.modQuery_reg (f : Query → Query) : (p.modQuery k f).reg = p.reg := rfl
@[simp] theorem Panel.modQuery_part (f : Query → Query) : (p.modQuery k f).part = p.part := rfl
@[simp] theorem Panel.modQuery_chk (f : Query → Query) : (p.modQuery k f).chk = p.chk := rfl
@[simp] theorem Panel.modQuery_rctr (f : Query → Query) : (p.modQuery k f).rctr = p.rctr := rfl
@[simp] theorem Panel.modQuery_rst (f : Query → Query) : (p.modQuery k f).rst = p.rst := rfl
@[simp] theorem Panel.modQuery_book (f : Query → Query) : (p.modQuery k f).book = p.book := rfl
@[simp] theorem Panel.modQuery_ctl (f : Query → Query) : (p.modQuery k f).ctl = p.ctl := rfl
@[simp] theorem Panel.modQuery_od (f : Query → Query) : (p.modQuery k f).od = p.od := rfl
@[simp] theorem Panel.modQuery_host (f : Query → Query) : (p.modQuery k f).host = p.host := rfl
@[simp] theorem Panel.modQuery_pwr (f : Query → Query) : (p.modQuery k f).pwr = p.pwr := rfl
@[simp] theorem Panel.modQuery_boot (f : Query → Query) : (p.modQuery k f).boot = p.boot := rfl
@[simp] theorem Panel.modQuery_sec (f : Query → Query) : (p.modQuery k f).sec = p.sec := rfl
@[simp] theorem Panel.modQuery_chain (f : Query → Query) : (p.modQuery k f).chain = p.chain := rfl
@[simp] theorem Panel.modQuery_fab (f : Query → Query) : (p.modQuery k f).fab = p.fab := rfl
@[simp] theorem Panel.modQuery_gaRefusals (f : Query → Query) : (p.modQuery k f).gaRefusals = p.gaRefusals := rfl
@[simp] theorem Panel.modDir_variant (f : DirEntry → DirEntry) : (p.modDir k f).variant = p.variant := rfl
@[simp] theorem Panel.modDir_free (f : DirEntry → DirEntry) : (p.modDir k f).free = p.free := rfl
@[simp] theorem Panel.modDir_clk (f : DirEntry → DirEntry) : (p.modDir k f).clk = p.clk := rfl
@[simp] theorem Panel.modDir_core (f : DirEntry → DirEntry) : (p.modDir k f).core = p.core := rfl
@[simp] theorem Panel.modDir_rtr (f : DirEntry → DirEntry) : (p.modDir k f).rtr = p.rtr := rfl
@[simp] theorem Panel.modDir_stk (f : DirEntry → DirEntry) : (p.modDir k f).stk = p.stk := rfl
@[simp] theorem Panel.modDir_sve (f : DirEntry → DirEntry) : (p.modDir k f).sve = p.sve := rfl
@[simp] theorem Panel.modDir_die (f : DirEntry → DirEntry) : (p.modDir k f).die = p.die := rfl
@[simp] theorem Panel.modDir_reg (f : DirEntry → DirEntry) : (p.modDir k f).reg = p.reg := rfl
@[simp] theorem Panel.modDir_part (f : DirEntry → DirEntry) : (p.modDir k f).part = p.part := rfl
@[simp] theorem Panel.modDir_chk (f : DirEntry → DirEntry) : (p.modDir k f).chk = p.chk := rfl
@[simp] theorem Panel.modDir_rctr (f : DirEntry → DirEntry) : (p.modDir k f).rctr = p.rctr := rfl
@[simp] theorem Panel.modDir_rst (f : DirEntry → DirEntry) : (p.modDir k f).rst = p.rst := rfl
@[simp] theorem Panel.modDir_book (f : DirEntry → DirEntry) : (p.modDir k f).book = p.book := rfl
@[simp] theorem Panel.modDir_ctl (f : DirEntry → DirEntry) : (p.modDir k f).ctl = p.ctl := rfl
@[simp] theorem Panel.modDir_od (f : DirEntry → DirEntry) : (p.modDir k f).od = p.od := rfl
@[simp] theorem Panel.modDir_host (f : DirEntry → DirEntry) : (p.modDir k f).host = p.host := rfl
@[simp] theorem Panel.modDir_pwr (f : DirEntry → DirEntry) : (p.modDir k f).pwr = p.pwr := rfl
@[simp] theorem Panel.modDir_boot (f : DirEntry → DirEntry) : (p.modDir k f).boot = p.boot := rfl
@[simp] theorem Panel.modDir_sec (f : DirEntry → DirEntry) : (p.modDir k f).sec = p.sec := rfl
@[simp] theorem Panel.modDir_chain (f : DirEntry → DirEntry) : (p.modDir k f).chain = p.chain := rfl
@[simp] theorem Panel.modDir_fab (f : DirEntry → DirEntry) : (p.modDir k f).fab = p.fab := rfl
@[simp] theorem Panel.modDir_gaRefusals (f : DirEntry → DirEntry) : (p.modDir k f).gaRefusals = p.gaRefusals := rfl
@[simp] theorem Panel.modPort_variant (f : FPort → FPort) : (p.modPort k f).variant = p.variant := rfl
@[simp] theorem Panel.modPort_free (f : FPort → FPort) : (p.modPort k f).free = p.free := rfl
@[simp] theorem Panel.modPort_clk (f : FPort → FPort) : (p.modPort k f).clk = p.clk := rfl
@[simp] theorem Panel.modPort_core (f : FPort → FPort) : (p.modPort k f).core = p.core := rfl
@[simp] theorem Panel.modPort_rtr (f : FPort → FPort) : (p.modPort k f).rtr = p.rtr := rfl
@[simp] theorem Panel.modPort_stk (f : FPort → FPort) : (p.modPort k f).stk = p.stk := rfl
@[simp] theorem Panel.modPort_sve (f : FPort → FPort) : (p.modPort k f).sve = p.sve := rfl
@[simp] theorem Panel.modPort_die (f : FPort → FPort) : (p.modPort k f).die = p.die := rfl
@[simp] theorem Panel.modPort_reg (f : FPort → FPort) : (p.modPort k f).reg = p.reg := rfl
@[simp] theorem Panel.modPort_part (f : FPort → FPort) : (p.modPort k f).part = p.part := rfl
@[simp] theorem Panel.modPort_chk (f : FPort → FPort) : (p.modPort k f).chk = p.chk := rfl
@[simp] theorem Panel.modPort_rctr (f : FPort → FPort) : (p.modPort k f).rctr = p.rctr := rfl
@[simp] theorem Panel.modPort_rst (f : FPort → FPort) : (p.modPort k f).rst = p.rst := rfl
@[simp] theorem Panel.modPort_book (f : FPort → FPort) : (p.modPort k f).book = p.book := rfl
@[simp] theorem Panel.modPort_ctl (f : FPort → FPort) : (p.modPort k f).ctl = p.ctl := rfl
@[simp] theorem Panel.modPort_od (f : FPort → FPort) : (p.modPort k f).od = p.od := rfl
@[simp] theorem Panel.modPort_ret (f : FPort → FPort) : (p.modPort k f).ret = p.ret := rfl
@[simp] theorem Panel.modPort_host (f : FPort → FPort) : (p.modPort k f).host = p.host := rfl
@[simp] theorem Panel.modPort_pwr (f : FPort → FPort) : (p.modPort k f).pwr = p.pwr := rfl
@[simp] theorem Panel.modPort_boot (f : FPort → FPort) : (p.modPort k f).boot = p.boot := rfl
@[simp] theorem Panel.modPort_sec (f : FPort → FPort) : (p.modPort k f).sec = p.sec := rfl
@[simp] theorem Panel.modPort_chain (f : FPort → FPort) : (p.modPort k f).chain = p.chain := rfl
@[simp] theorem Panel.modPort_gaRefusals (f : FPort → FPort) : (p.modPort k f).gaRefusals = p.gaRefusals := rfl
@[simp] theorem Panel.modHPort_variant (f : Port → Port) : (p.modHPort k f).variant = p.variant := rfl
@[simp] theorem Panel.modHPort_free (f : Port → Port) : (p.modHPort k f).free = p.free := rfl
@[simp] theorem Panel.modHPort_clk (f : Port → Port) : (p.modHPort k f).clk = p.clk := rfl
@[simp] theorem Panel.modHPort_core (f : Port → Port) : (p.modHPort k f).core = p.core := rfl
@[simp] theorem Panel.modHPort_rtr (f : Port → Port) : (p.modHPort k f).rtr = p.rtr := rfl
@[simp] theorem Panel.modHPort_stk (f : Port → Port) : (p.modHPort k f).stk = p.stk := rfl
@[simp] theorem Panel.modHPort_sve (f : Port → Port) : (p.modHPort k f).sve = p.sve := rfl
@[simp] theorem Panel.modHPort_die (f : Port → Port) : (p.modHPort k f).die = p.die := rfl
@[simp] theorem Panel.modHPort_reg (f : Port → Port) : (p.modHPort k f).reg = p.reg := rfl
@[simp] theorem Panel.modHPort_part (f : Port → Port) : (p.modHPort k f).part = p.part := rfl
@[simp] theorem Panel.modHPort_chk (f : Port → Port) : (p.modHPort k f).chk = p.chk := rfl
@[simp] theorem Panel.modHPort_rctr (f : Port → Port) : (p.modHPort k f).rctr = p.rctr := rfl
@[simp] theorem Panel.modHPort_rst (f : Port → Port) : (p.modHPort k f).rst = p.rst := rfl
@[simp] theorem Panel.modHPort_book (f : Port → Port) : (p.modHPort k f).book = p.book := rfl
@[simp] theorem Panel.modHPort_ctl (f : Port → Port) : (p.modHPort k f).ctl = p.ctl := rfl
@[simp] theorem Panel.modHPort_od (f : Port → Port) : (p.modHPort k f).od = p.od := rfl
@[simp] theorem Panel.modHPort_ret (f : Port → Port) : (p.modHPort k f).ret = p.ret := rfl
@[simp] theorem Panel.modHPort_pwr (f : Port → Port) : (p.modHPort k f).pwr = p.pwr := rfl
@[simp] theorem Panel.modHPort_boot (f : Port → Port) : (p.modHPort k f).boot = p.boot := rfl
@[simp] theorem Panel.modHPort_sec (f : Port → Port) : (p.modHPort k f).sec = p.sec := rfl
@[simp] theorem Panel.modHPort_chain (f : Port → Port) : (p.modHPort k f).chain = p.chain := rfl
@[simp] theorem Panel.modHPort_fab (f : Port → Port) : (p.modHPort k f).fab = p.fab := rfl
@[simp] theorem Panel.modHPort_gaRefusals (f : Port → Port) : (p.modHPort k f).gaRefusals = p.gaRefusals := rfl
@[simp] theorem Panel.modGuest_variant (f : Guest → Guest) : (p.modGuest k f).variant = p.variant := rfl
@[simp] theorem Panel.modGuest_free (f : Guest → Guest) : (p.modGuest k f).free = p.free := rfl
@[simp] theorem Panel.modGuest_clk (f : Guest → Guest) : (p.modGuest k f).clk = p.clk := rfl
@[simp] theorem Panel.modGuest_core (f : Guest → Guest) : (p.modGuest k f).core = p.core := rfl
@[simp] theorem Panel.modGuest_rtr (f : Guest → Guest) : (p.modGuest k f).rtr = p.rtr := rfl
@[simp] theorem Panel.modGuest_stk (f : Guest → Guest) : (p.modGuest k f).stk = p.stk := rfl
@[simp] theorem Panel.modGuest_sve (f : Guest → Guest) : (p.modGuest k f).sve = p.sve := rfl
@[simp] theorem Panel.modGuest_die (f : Guest → Guest) : (p.modGuest k f).die = p.die := rfl
@[simp] theorem Panel.modGuest_reg (f : Guest → Guest) : (p.modGuest k f).reg = p.reg := rfl
@[simp] theorem Panel.modGuest_part (f : Guest → Guest) : (p.modGuest k f).part = p.part := rfl
@[simp] theorem Panel.modGuest_chk (f : Guest → Guest) : (p.modGuest k f).chk = p.chk := rfl
@[simp] theorem Panel.modGuest_rctr (f : Guest → Guest) : (p.modGuest k f).rctr = p.rctr := rfl
@[simp] theorem Panel.modGuest_rst (f : Guest → Guest) : (p.modGuest k f).rst = p.rst := rfl
@[simp] theorem Panel.modGuest_book (f : Guest → Guest) : (p.modGuest k f).book = p.book := rfl
@[simp] theorem Panel.modGuest_ctl (f : Guest → Guest) : (p.modGuest k f).ctl = p.ctl := rfl
@[simp] theorem Panel.modGuest_od (f : Guest → Guest) : (p.modGuest k f).od = p.od := rfl
@[simp] theorem Panel.modGuest_ret (f : Guest → Guest) : (p.modGuest k f).ret = p.ret := rfl
@[simp] theorem Panel.modGuest_host (f : Guest → Guest) : (p.modGuest k f).host = p.host := rfl
@[simp] theorem Panel.modGuest_pwr (f : Guest → Guest) : (p.modGuest k f).pwr = p.pwr := rfl
@[simp] theorem Panel.modGuest_boot (f : Guest → Guest) : (p.modGuest k f).boot = p.boot := rfl
@[simp] theorem Panel.modGuest_chain (f : Guest → Guest) : (p.modGuest k f).chain = p.chain := rfl
@[simp] theorem Panel.modGuest_fab (f : Guest → Guest) : (p.modGuest k f).fab = p.fab := rfl
@[simp] theorem Panel.modGuest_gaRefusals (f : Guest → Guest) : (p.modGuest k f).gaRefusals = p.gaRefusals := rfl
@[simp] theorem Panel.modBook_book (f : Book → Book) : (p.modBook f).book = f p.book := rfl
@[simp] theorem Panel.modBook_variant (f : Book → Book) : (p.modBook f).variant = p.variant := rfl
@[simp] theorem Panel.modBook_free (f : Book → Book) : (p.modBook f).free = p.free := rfl
@[simp] theorem Panel.modBook_clk (f : Book → Book) : (p.modBook f).clk = p.clk := rfl
@[simp] theorem Panel.modBook_core (f : Book → Book) : (p.modBook f).core = p.core := rfl
@[simp] theorem Panel.modBook_rtr (f : Book → Book) : (p.modBook f).rtr = p.rtr := rfl
@[simp] theorem Panel.modBook_stk (f : Book → Book) : (p.modBook f).stk = p.stk := rfl
@[simp] theorem Panel.modBook_sve (f : Book → Book) : (p.modBook f).sve = p.sve := rfl
@[simp] theorem Panel.modBook_die (f : Book → Book) : (p.modBook f).die = p.die := rfl
@[simp] theorem Panel.modBook_reg (f : Book → Book) : (p.modBook f).reg = p.reg := rfl
@[simp] theorem Panel.modBook_part (f : Book → Book) : (p.modBook f).part = p.part := rfl
@[simp] theorem Panel.modBook_chk (f : Book → Book) : (p.modBook f).chk = p.chk := rfl
@[simp] theorem Panel.modBook_rctr (f : Book → Book) : (p.modBook f).rctr = p.rctr := rfl
@[simp] theorem Panel.modBook_rst (f : Book → Book) : (p.modBook f).rst = p.rst := rfl
@[simp] theorem Panel.modBook_ctl (f : Book → Book) : (p.modBook f).ctl = p.ctl := rfl
@[simp] theorem Panel.modBook_od (f : Book → Book) : (p.modBook f).od = p.od := rfl
@[simp] theorem Panel.modBook_ret (f : Book → Book) : (p.modBook f).ret = p.ret := rfl
@[simp] theorem Panel.modBook_host (f : Book → Book) : (p.modBook f).host = p.host := rfl
@[simp] theorem Panel.modBook_pwr (f : Book → Book) : (p.modBook f).pwr = p.pwr := rfl
@[simp] theorem Panel.modBook_boot (f : Book → Book) : (p.modBook f).boot = p.boot := rfl
@[simp] theorem Panel.modBook_sec (f : Book → Book) : (p.modBook f).sec = p.sec := rfl
@[simp] theorem Panel.modBook_chain (f : Book → Book) : (p.modBook f).chain = p.chain := rfl
@[simp] theorem Panel.modBook_fab (f : Book → Book) : (p.modBook f).fab = p.fab := rfl
@[simp] theorem Panel.modBook_gaRefusals (f : Book → Book) : (p.modBook f).gaRefusals = p.gaRefusals := rfl
@[simp] theorem Panel.modCtl_ctl (f : Ctl → Ctl) : (p.modCtl f).ctl = f p.ctl := rfl
@[simp] theorem Panel.modCtl_variant (f : Ctl → Ctl) : (p.modCtl f).variant = p.variant := rfl
@[simp] theorem Panel.modCtl_free (f : Ctl → Ctl) : (p.modCtl f).free = p.free := rfl
@[simp] theorem Panel.modCtl_clk (f : Ctl → Ctl) : (p.modCtl f).clk = p.clk := rfl
@[simp] theorem Panel.modCtl_core (f : Ctl → Ctl) : (p.modCtl f).core = p.core := rfl
@[simp] theorem Panel.modCtl_rtr (f : Ctl → Ctl) : (p.modCtl f).rtr = p.rtr := rfl
@[simp] theorem Panel.modCtl_stk (f : Ctl → Ctl) : (p.modCtl f).stk = p.stk := rfl
@[simp] theorem Panel.modCtl_sve (f : Ctl → Ctl) : (p.modCtl f).sve = p.sve := rfl
@[simp] theorem Panel.modCtl_die (f : Ctl → Ctl) : (p.modCtl f).die = p.die := rfl
@[simp] theorem Panel.modCtl_reg (f : Ctl → Ctl) : (p.modCtl f).reg = p.reg := rfl
@[simp] theorem Panel.modCtl_part (f : Ctl → Ctl) : (p.modCtl f).part = p.part := rfl
@[simp] theorem Panel.modCtl_chk (f : Ctl → Ctl) : (p.modCtl f).chk = p.chk := rfl
@[simp] theorem Panel.modCtl_rctr (f : Ctl → Ctl) : (p.modCtl f).rctr = p.rctr := rfl
@[simp] theorem Panel.modCtl_rst (f : Ctl → Ctl) : (p.modCtl f).rst = p.rst := rfl
@[simp] theorem Panel.modCtl_book (f : Ctl → Ctl) : (p.modCtl f).book = p.book := rfl
@[simp] theorem Panel.modCtl_od (f : Ctl → Ctl) : (p.modCtl f).od = p.od := rfl
@[simp] theorem Panel.modCtl_ret (f : Ctl → Ctl) : (p.modCtl f).ret = p.ret := rfl
@[simp] theorem Panel.modCtl_host (f : Ctl → Ctl) : (p.modCtl f).host = p.host := rfl
@[simp] theorem Panel.modCtl_pwr (f : Ctl → Ctl) : (p.modCtl f).pwr = p.pwr := rfl
@[simp] theorem Panel.modCtl_boot (f : Ctl → Ctl) : (p.modCtl f).boot = p.boot := rfl
@[simp] theorem Panel.modCtl_sec (f : Ctl → Ctl) : (p.modCtl f).sec = p.sec := rfl
@[simp] theorem Panel.modCtl_chain (f : Ctl → Ctl) : (p.modCtl f).chain = p.chain := rfl
@[simp] theorem Panel.modCtl_fab (f : Ctl → Ctl) : (p.modCtl f).fab = p.fab := rfl
@[simp] theorem Panel.modCtl_gaRefusals (f : Ctl → Ctl) : (p.modCtl f).gaRefusals = p.gaRefusals := rfl
@[simp] theorem Panel.modOd_od (f : Od → Od) : (p.modOd f).od = f p.od := rfl
@[simp] theorem Panel.modOd_variant (f : Od → Od) : (p.modOd f).variant = p.variant := rfl
@[simp] theorem Panel.modOd_free (f : Od → Od) : (p.modOd f).free = p.free := rfl
@[simp] theorem Panel.modOd_clk (f : Od → Od) : (p.modOd f).clk = p.clk := rfl
@[simp] theorem Panel.modOd_core (f : Od → Od) : (p.modOd f).core = p.core := rfl
@[simp] theorem Panel.modOd_rtr (f : Od → Od) : (p.modOd f).rtr = p.rtr := rfl
@[simp] theorem Panel.modOd_stk (f : Od → Od) : (p.modOd f).stk = p.stk := rfl
@[simp] theorem Panel.modOd_sve (f : Od → Od) : (p.modOd f).sve = p.sve := rfl
@[simp] theorem Panel.modOd_die (f : Od → Od) : (p.modOd f).die = p.die := rfl
@[simp] theorem Panel.modOd_reg (f : Od → Od) : (p.modOd f).reg = p.reg := rfl
@[simp] theorem Panel.modOd_part (f : Od → Od) : (p.modOd f).part = p.part := rfl
@[simp] theorem Panel.modOd_chk (f : Od → Od) : (p.modOd f).chk = p.chk := rfl
@[simp] theorem Panel.modOd_rctr (f : Od → Od) : (p.modOd f).rctr = p.rctr := rfl
@[simp] theorem Panel.modOd_rst (f : Od → Od) : (p.modOd f).rst = p.rst := rfl
@[simp] theorem Panel.modOd_book (f : Od → Od) : (p.modOd f).book = p.book := rfl
@[simp] theorem Panel.modOd_ctl (f : Od → Od) : (p.modOd f).ctl = p.ctl := rfl
@[simp] theorem Panel.modOd_ret (f : Od → Od) : (p.modOd f).ret = p.ret := rfl
@[simp] theorem Panel.modOd_host (f : Od → Od) : (p.modOd f).host = p.host := rfl
@[simp] theorem Panel.modOd_pwr (f : Od → Od) : (p.modOd f).pwr = p.pwr := rfl
@[simp] theorem Panel.modOd_boot (f : Od → Od) : (p.modOd f).boot = p.boot := rfl
@[simp] theorem Panel.modOd_sec (f : Od → Od) : (p.modOd f).sec = p.sec := rfl
@[simp] theorem Panel.modOd_chain (f : Od → Od) : (p.modOd f).chain = p.chain := rfl
@[simp] theorem Panel.modOd_fab (f : Od → Od) : (p.modOd f).fab = p.fab := rfl
@[simp] theorem Panel.modOd_gaRefusals (f : Od → Od) : (p.modOd f).gaRefusals = p.gaRefusals := rfl
@[simp] theorem Panel.modHost_host (f : HostIf → HostIf) : (p.modHost f).host = f p.host := rfl
@[simp] theorem Panel.modHost_variant (f : HostIf → HostIf) : (p.modHost f).variant = p.variant := rfl
@[simp] theorem Panel.modHost_free (f : HostIf → HostIf) : (p.modHost f).free = p.free := rfl
@[simp] theorem Panel.modHost_clk (f : HostIf → HostIf) : (p.modHost f).clk = p.clk := rfl
@[simp] theorem Panel.modHost_core (f : HostIf → HostIf) : (p.modHost f).core = p.core := rfl
@[simp] theorem Panel.modHost_rtr (f : HostIf → HostIf) : (p.modHost f).rtr = p.rtr := rfl
@[simp] theorem Panel.modHost_stk (f : HostIf → HostIf) : (p.modHost f).stk = p.stk := rfl
@[simp] theorem Panel.modHost_sve (f : HostIf → HostIf) : (p.modHost f).sve = p.sve := rfl
@[simp] theorem Panel.modHost_die (f : HostIf → HostIf) : (p.modHost f).die = p.die := rfl
@[simp] theorem Panel.modHost_reg (f : HostIf → HostIf) : (p.modHost f).reg = p.reg := rfl
@[simp] theorem Panel.modHost_part (f : HostIf → HostIf) : (p.modHost f).part = p.part := rfl
@[simp] theorem Panel.modHost_chk (f : HostIf → HostIf) : (p.modHost f).chk = p.chk := rfl
@[simp] theorem Panel.modHost_rctr (f : HostIf → HostIf) : (p.modHost f).rctr = p.rctr := rfl
@[simp] theorem Panel.modHost_rst (f : HostIf → HostIf) : (p.modHost f).rst = p.rst := rfl
@[simp] theorem Panel.modHost_book (f : HostIf → HostIf) : (p.modHost f).book = p.book := rfl
@[simp] theorem Panel.modHost_ctl (f : HostIf → HostIf) : (p.modHost f).ctl = p.ctl := rfl
@[simp] theorem Panel.modHost_od (f : HostIf → HostIf) : (p.modHost f).od = p.od := rfl
@[simp] theorem Panel.modHost_ret (f : HostIf → HostIf) : (p.modHost f).ret = p.ret := rfl
@[simp] theorem Panel.modHost_pwr (f : HostIf → HostIf) : (p.modHost f).pwr = p.pwr := rfl
@[simp] theorem Panel.modHost_boot (f : HostIf → HostIf) : (p.modHost f).boot = p.boot := rfl
@[simp] theorem Panel.modHost_sec (f : HostIf → HostIf) : (p.modHost f).sec = p.sec := rfl
@[simp] theorem Panel.modHost_chain (f : HostIf → HostIf) : (p.modHost f).chain = p.chain := rfl
@[simp] theorem Panel.modHost_fab (f : HostIf → HostIf) : (p.modHost f).fab = p.fab := rfl
@[simp] theorem Panel.modHost_gaRefusals (f : HostIf → HostIf) : (p.modHost f).gaRefusals = p.gaRefusals := rfl
@[simp] theorem Panel.modPwr_pwr (f : Power → Power) : (p.modPwr f).pwr = f p.pwr := rfl
@[simp] theorem Panel.modPwr_variant (f : Power → Power) : (p.modPwr f).variant = p.variant := rfl
@[simp] theorem Panel.modPwr_free (f : Power → Power) : (p.modPwr f).free = p.free := rfl
@[simp] theorem Panel.modPwr_clk (f : Power → Power) : (p.modPwr f).clk = p.clk := rfl
@[simp] theorem Panel.modPwr_core (f : Power → Power) : (p.modPwr f).core = p.core := rfl
@[simp] theorem Panel.modPwr_rtr (f : Power → Power) : (p.modPwr f).rtr = p.rtr := rfl
@[simp] theorem Panel.modPwr_stk (f : Power → Power) : (p.modPwr f).stk = p.stk := rfl
@[simp] theorem Panel.modPwr_sve (f : Power → Power) : (p.modPwr f).sve = p.sve := rfl
@[simp] theorem Panel.modPwr_die (f : Power → Power) : (p.modPwr f).die = p.die := rfl
@[simp] theorem Panel.modPwr_reg (f : Power → Power) : (p.modPwr f).reg = p.reg := rfl
@[simp] theorem Panel.modPwr_part (f : Power → Power) : (p.modPwr f).part = p.part := rfl
@[simp] theorem Panel.modPwr_chk (f : Power → Power) : (p.modPwr f).chk = p.chk := rfl
@[simp] theorem Panel.modPwr_rctr (f : Power → Power) : (p.modPwr f).rctr = p.rctr := rfl
@[simp] theorem Panel.modPwr_rst (f : Power → Power) : (p.modPwr f).rst = p.rst := rfl
@[simp] theorem Panel.modPwr_book (f : Power → Power) : (p.modPwr f).book = p.book := rfl
@[simp] theorem Panel.modPwr_ctl (f : Power → Power) : (p.modPwr f).ctl = p.ctl := rfl
@[simp] theorem Panel.modPwr_od (f : Power → Power) : (p.modPwr f).od = p.od := rfl
@[simp] theorem Panel.modPwr_ret (f : Power → Power) : (p.modPwr f).ret = p.ret := rfl
@[simp] theorem Panel.modPwr_host (f : Power → Power) : (p.modPwr f).host = p.host := rfl
@[simp] theorem Panel.modPwr_boot (f : Power → Power) : (p.modPwr f).boot = p.boot := rfl
@[simp] theorem Panel.modPwr_sec (f : Power → Power) : (p.modPwr f).sec = p.sec := rfl
@[simp] theorem Panel.modPwr_chain (f : Power → Power) : (p.modPwr f).chain = p.chain := rfl
@[simp] theorem Panel.modPwr_fab (f : Power → Power) : (p.modPwr f).fab = p.fab := rfl
@[simp] theorem Panel.modPwr_gaRefusals (f : Power → Power) : (p.modPwr f).gaRefusals = p.gaRefusals := rfl
@[simp] theorem Panel.modBoot_boot (f : Boot → Boot) : (p.modBoot f).boot = f p.boot := rfl
@[simp] theorem Panel.modBoot_variant (f : Boot → Boot) : (p.modBoot f).variant = p.variant := rfl
@[simp] theorem Panel.modBoot_free (f : Boot → Boot) : (p.modBoot f).free = p.free := rfl
@[simp] theorem Panel.modBoot_clk (f : Boot → Boot) : (p.modBoot f).clk = p.clk := rfl
@[simp] theorem Panel.modBoot_core (f : Boot → Boot) : (p.modBoot f).core = p.core := rfl
@[simp] theorem Panel.modBoot_rtr (f : Boot → Boot) : (p.modBoot f).rtr = p.rtr := rfl
@[simp] theorem Panel.modBoot_stk (f : Boot → Boot) : (p.modBoot f).stk = p.stk := rfl
@[simp] theorem Panel.modBoot_sve (f : Boot → Boot) : (p.modBoot f).sve = p.sve := rfl
@[simp] theorem Panel.modBoot_die (f : Boot → Boot) : (p.modBoot f).die = p.die := rfl
@[simp] theorem Panel.modBoot_reg (f : Boot → Boot) : (p.modBoot f).reg = p.reg := rfl
@[simp] theorem Panel.modBoot_part (f : Boot → Boot) : (p.modBoot f).part = p.part := rfl
@[simp] theorem Panel.modBoot_chk (f : Boot → Boot) : (p.modBoot f).chk = p.chk := rfl
@[simp] theorem Panel.modBoot_rctr (f : Boot → Boot) : (p.modBoot f).rctr = p.rctr := rfl
@[simp] theorem Panel.modBoot_rst (f : Boot → Boot) : (p.modBoot f).rst = p.rst := rfl
@[simp] theorem Panel.modBoot_book (f : Boot → Boot) : (p.modBoot f).book = p.book := rfl
@[simp] theorem Panel.modBoot_ctl (f : Boot → Boot) : (p.modBoot f).ctl = p.ctl := rfl
@[simp] theorem Panel.modBoot_od (f : Boot → Boot) : (p.modBoot f).od = p.od := rfl
@[simp] theorem Panel.modBoot_ret (f : Boot → Boot) : (p.modBoot f).ret = p.ret := rfl
@[simp] theorem Panel.modBoot_host (f : Boot → Boot) : (p.modBoot f).host = p.host := rfl
@[simp] theorem Panel.modBoot_pwr (f : Boot → Boot) : (p.modBoot f).pwr = p.pwr := rfl
@[simp] theorem Panel.modBoot_sec (f : Boot → Boot) : (p.modBoot f).sec = p.sec := rfl
@[simp] theorem Panel.modBoot_chain (f : Boot → Boot) : (p.modBoot f).chain = p.chain := rfl
@[simp] theorem Panel.modBoot_fab (f : Boot → Boot) : (p.modBoot f).fab = p.fab := rfl
@[simp] theorem Panel.modBoot_gaRefusals (f : Boot → Boot) : (p.modBoot f).gaRefusals = p.gaRefusals := rfl
@[simp] theorem Panel.modSec_sec (f : Sec → Sec) : (p.modSec f).sec = f p.sec := rfl
@[simp] theorem Panel.modSec_variant (f : Sec → Sec) : (p.modSec f).variant = p.variant := rfl
@[simp] theorem Panel.modSec_free (f : Sec → Sec) : (p.modSec f).free = p.free := rfl
@[simp] theorem Panel.modSec_clk (f : Sec → Sec) : (p.modSec f).clk = p.clk := rfl
@[simp] theorem Panel.modSec_core (f : Sec → Sec) : (p.modSec f).core = p.core := rfl
@[simp] theorem Panel.modSec_rtr (f : Sec → Sec) : (p.modSec f).rtr = p.rtr := rfl
@[simp] theorem Panel.modSec_stk (f : Sec → Sec) : (p.modSec f).stk = p.stk := rfl
@[simp] theorem Panel.modSec_sve (f : Sec → Sec) : (p.modSec f).sve = p.sve := rfl
@[simp] theorem Panel.modSec_die (f : Sec → Sec) : (p.modSec f).die = p.die := rfl
@[simp] theorem Panel.modSec_reg (f : Sec → Sec) : (p.modSec f).reg = p.reg := rfl
@[simp] theorem Panel.modSec_part (f : Sec → Sec) : (p.modSec f).part = p.part := rfl
@[simp] theorem Panel.modSec_chk (f : Sec → Sec) : (p.modSec f).chk = p.chk := rfl
@[simp] theorem Panel.modSec_rctr (f : Sec → Sec) : (p.modSec f).rctr = p.rctr := rfl
@[simp] theorem Panel.modSec_rst (f : Sec → Sec) : (p.modSec f).rst = p.rst := rfl
@[simp] theorem Panel.modSec_book (f : Sec → Sec) : (p.modSec f).book = p.book := rfl
@[simp] theorem Panel.modSec_ctl (f : Sec → Sec) : (p.modSec f).ctl = p.ctl := rfl
@[simp] theorem Panel.modSec_od (f : Sec → Sec) : (p.modSec f).od = p.od := rfl
@[simp] theorem Panel.modSec_ret (f : Sec → Sec) : (p.modSec f).ret = p.ret := rfl
@[simp] theorem Panel.modSec_host (f : Sec → Sec) : (p.modSec f).host = p.host := rfl
@[simp] theorem Panel.modSec_pwr (f : Sec → Sec) : (p.modSec f).pwr = p.pwr := rfl
@[simp] theorem Panel.modSec_boot (f : Sec → Sec) : (p.modSec f).boot = p.boot := rfl
@[simp] theorem Panel.modSec_chain (f : Sec → Sec) : (p.modSec f).chain = p.chain := rfl
@[simp] theorem Panel.modSec_fab (f : Sec → Sec) : (p.modSec f).fab = p.fab := rfl
@[simp] theorem Panel.modSec_gaRefusals (f : Sec → Sec) : (p.modSec f).gaRefusals = p.gaRefusals := rfl
@[simp] theorem Panel.modFab_fab (f : Fabric → Fabric) : (p.modFab f).fab = f p.fab := rfl
@[simp] theorem Panel.modFab_variant (f : Fabric → Fabric) : (p.modFab f).variant = p.variant := rfl
@[simp] theorem Panel.modFab_free (f : Fabric → Fabric) : (p.modFab f).free = p.free := rfl
@[simp] theorem Panel.modFab_clk (f : Fabric → Fabric) : (p.modFab f).clk = p.clk := rfl
@[simp] theorem Panel.modFab_core (f : Fabric → Fabric) : (p.modFab f).core = p.core := rfl
@[simp] theorem Panel.modFab_rtr (f : Fabric → Fabric) : (p.modFab f).rtr = p.rtr := rfl
@[simp] theorem Panel.modFab_stk (f : Fabric → Fabric) : (p.modFab f).stk = p.stk := rfl
@[simp] theorem Panel.modFab_sve (f : Fabric → Fabric) : (p.modFab f).sve = p.sve := rfl
@[simp] theorem Panel.modFab_die (f : Fabric → Fabric) : (p.modFab f).die = p.die := rfl
@[simp] theorem Panel.modFab_reg (f : Fabric → Fabric) : (p.modFab f).reg = p.reg := rfl
@[simp] theorem Panel.modFab_part (f : Fabric → Fabric) : (p.modFab f).part = p.part := rfl
@[simp] theorem Panel.modFab_chk (f : Fabric → Fabric) : (p.modFab f).chk = p.chk := rfl
@[simp] theorem Panel.modFab_rctr (f : Fabric → Fabric) : (p.modFab f).rctr = p.rctr := rfl
@[simp] theorem Panel.modFab_rst (f : Fabric → Fabric) : (p.modFab f).rst = p.rst := rfl
@[simp] theorem Panel.modFab_book (f : Fabric → Fabric) : (p.modFab f).book = p.book := rfl
@[simp] theorem Panel.modFab_ctl (f : Fabric → Fabric) : (p.modFab f).ctl = p.ctl := rfl
@[simp] theorem Panel.modFab_od (f : Fabric → Fabric) : (p.modFab f).od = p.od := rfl
@[simp] theorem Panel.modFab_ret (f : Fabric → Fabric) : (p.modFab f).ret = p.ret := rfl
@[simp] theorem Panel.modFab_host (f : Fabric → Fabric) : (p.modFab f).host = p.host := rfl
@[simp] theorem Panel.modFab_pwr (f : Fabric → Fabric) : (p.modFab f).pwr = p.pwr := rfl
@[simp] theorem Panel.modFab_boot (f : Fabric → Fabric) : (p.modFab f).boot = p.boot := rfl
@[simp] theorem Panel.modFab_sec (f : Fabric → Fabric) : (p.modFab f).sec = p.sec := rfl
@[simp] theorem Panel.modFab_chain (f : Fabric → Fabric) : (p.modFab f).chain = p.chain := rfl
@[simp] theorem Panel.modFab_gaRefusals (f : Fabric → Fabric) : (p.modFab f).gaRefusals = p.gaRefusals := rfl
@[simp] theorem Panel.modClocks_clk (f : Clocks → Clocks) : (p.modClocks f).clk = f p.clk := rfl
@[simp] theorem Panel.modClocks_variant (f : Clocks → Clocks) : (p.modClocks f).variant = p.variant := rfl
@[simp] theorem Panel.modClocks_free (f : Clocks → Clocks) : (p.modClocks f).free = p.free := rfl
@[simp] theorem Panel.modClocks_core (f : Clocks → Clocks) : (p.modClocks f).core = p.core := rfl
@[simp] theorem Panel.modClocks_rtr (f : Clocks → Clocks) : (p.modClocks f).rtr = p.rtr := rfl
@[simp] theorem Panel.modClocks_stk (f : Clocks → Clocks) : (p.modClocks f).stk = p.stk := rfl
@[simp] theorem Panel.modClocks_sve (f : Clocks → Clocks) : (p.modClocks f).sve = p.sve := rfl
@[simp] theorem Panel.modClocks_die (f : Clocks → Clocks) : (p.modClocks f).die = p.die := rfl
@[simp] theorem Panel.modClocks_reg (f : Clocks → Clocks) : (p.modClocks f).reg = p.reg := rfl
@[simp] theorem Panel.modClocks_part (f : Clocks → Clocks) : (p.modClocks f).part = p.part := rfl
@[simp] theorem Panel.modClocks_chk (f : Clocks → Clocks) : (p.modClocks f).chk = p.chk := rfl
@[simp] theorem Panel.modClocks_rctr (f : Clocks → Clocks) : (p.modClocks f).rctr = p.rctr := rfl
@[simp] theorem Panel.modClocks_rst (f : Clocks → Clocks) : (p.modClocks f).rst = p.rst := rfl
@[simp] theorem Panel.modClocks_book (f : Clocks → Clocks) : (p.modClocks f).book = p.book := rfl
@[simp] theorem Panel.modClocks_ctl (f : Clocks → Clocks) : (p.modClocks f).ctl = p.ctl := rfl
@[simp] theorem Panel.modClocks_od (f : Clocks → Clocks) : (p.modClocks f).od = p.od := rfl
@[simp] theorem Panel.modClocks_ret (f : Clocks → Clocks) : (p.modClocks f).ret = p.ret := rfl
@[simp] theorem Panel.modClocks_host (f : Clocks → Clocks) : (p.modClocks f).host = p.host := rfl
@[simp] theorem Panel.modClocks_pwr (f : Clocks → Clocks) : (p.modClocks f).pwr = p.pwr := rfl
@[simp] theorem Panel.modClocks_boot (f : Clocks → Clocks) : (p.modClocks f).boot = p.boot := rfl
@[simp] theorem Panel.modClocks_sec (f : Clocks → Clocks) : (p.modClocks f).sec = p.sec := rfl
@[simp] theorem Panel.modClocks_chain (f : Clocks → Clocks) : (p.modClocks f).chain = p.chain := rfl
@[simp] theorem Panel.modClocks_fab (f : Clocks → Clocks) : (p.modClocks f).fab = p.fab := rfl
@[simp] theorem Panel.modClocks_gaRefusals (f : Clocks → Clocks) : (p.modClocks f).gaRefusals = p.gaRefusals := rfl
@[simp] theorem Panel.modRet_ret (f : Retrieval → Retrieval) : (p.modRet f).ret = f p.ret := rfl
@[simp] theorem Panel.modRet_variant (f : Retrieval → Retrieval) : (p.modRet f).variant = p.variant := rfl
@[simp] theorem Panel.modRet_free (f : Retrieval → Retrieval) : (p.modRet f).free = p.free := rfl
@[simp] theorem Panel.modRet_clk (f : Retrieval → Retrieval) : (p.modRet f).clk = p.clk := rfl
@[simp] theorem Panel.modRet_core (f : Retrieval → Retrieval) : (p.modRet f).core = p.core := rfl
@[simp] theorem Panel.modRet_rtr (f : Retrieval → Retrieval) : (p.modRet f).rtr = p.rtr := rfl
@[simp] theorem Panel.modRet_stk (f : Retrieval → Retrieval) : (p.modRet f).stk = p.stk := rfl
@[simp] theorem Panel.modRet_sve (f : Retrieval → Retrieval) : (p.modRet f).sve = p.sve := rfl
@[simp] theorem Panel.modRet_die (f : Retrieval → Retrieval) : (p.modRet f).die = p.die := rfl
@[simp] theorem Panel.modRet_reg (f : Retrieval → Retrieval) : (p.modRet f).reg = p.reg := rfl
@[simp] theorem Panel.modRet_part (f : Retrieval → Retrieval) : (p.modRet f).part = p.part := rfl
@[simp] theorem Panel.modRet_chk (f : Retrieval → Retrieval) : (p.modRet f).chk = p.chk := rfl
@[simp] theorem Panel.modRet_rctr (f : Retrieval → Retrieval) : (p.modRet f).rctr = p.rctr := rfl
@[simp] theorem Panel.modRet_rst (f : Retrieval → Retrieval) : (p.modRet f).rst = p.rst := rfl
@[simp] theorem Panel.modRet_book (f : Retrieval → Retrieval) : (p.modRet f).book = p.book := rfl
@[simp] theorem Panel.modRet_ctl (f : Retrieval → Retrieval) : (p.modRet f).ctl = p.ctl := rfl
@[simp] theorem Panel.modRet_od (f : Retrieval → Retrieval) : (p.modRet f).od = p.od := rfl
@[simp] theorem Panel.modRet_host (f : Retrieval → Retrieval) : (p.modRet f).host = p.host := rfl
@[simp] theorem Panel.modRet_pwr (f : Retrieval → Retrieval) : (p.modRet f).pwr = p.pwr := rfl
@[simp] theorem Panel.modRet_boot (f : Retrieval → Retrieval) : (p.modRet f).boot = p.boot := rfl
@[simp] theorem Panel.modRet_sec (f : Retrieval → Retrieval) : (p.modRet f).sec = p.sec := rfl
@[simp] theorem Panel.modRet_chain (f : Retrieval → Retrieval) : (p.modRet f).chain = p.chain := rfl
@[simp] theorem Panel.modRet_fab (f : Retrieval → Retrieval) : (p.modRet f).fab = p.fab := rfl
@[simp] theorem Panel.modRet_gaRefusals (f : Retrieval → Retrieval) : (p.modRet f).gaRefusals = p.gaRefusals := rfl

end Sys2Proof.Machine
end

