-- ==== Sys2Proof/Laws/Event.lean ====
section
/-! SUPPORT. What raising an event or sending a message can change, said once: the event log and its limits, the event
rings of the functions, what sessions are owed, messages in flight with the counts of the node that sends, and the count
of free values taken. -/

namespace Sys2Proof.Machine

/-- `q` is `p` after events and messages: all but logs, rings, reports owed, messages and free values is as before. -/
structure Reported (p q : Panel) : Prop where
  variant : q.variant = p.variant
  clk : q.clk = p.clk
  core : q.core = p.core
  rtr : q.rtr = p.rtr
  stk : q.stk = p.stk
  sve : q.sve = p.sve
  die : q.die = p.die
  reg : q.reg = p.reg
  part : q.part = p.part
  chk : q.chk = p.chk
  rctr : q.rctr = p.rctr
  rst : q.rst = p.rst
  ret : q.ret = p.ret
  pwr : q.pwr = p.pwr
  boot : q.boot = p.boot
  sec : q.sec = p.sec
  chain : q.chain = p.chain
  fab : q.fab = p.fab
  gaRefusals : q.gaRefusals = p.gaRefusals
  book_unit : q.book.unit = p.book.unit
  book_pendingEvid : q.book.pendingEvid = p.book.pendingEvid
  book_planMiss : q.book.planMiss = p.book.planMiss
  book_readTo : q.book.readTo = p.book.readTo
  book_conflicts : q.book.conflicts = p.book.conflicts
  book_probesRun : q.book.probesRun = p.book.probesRun
  book_probesFailed : q.book.probesFailed = p.book.probesFailed
  book_probes : q.book.probes = p.book.probes
  book_asked : q.book.asked = p.book.asked
  book_expelPorts : q.book.expelPorts = p.book.expelPorts
  book_expelled : q.book.expelled = p.book.expelled
  book_active : q.book.active = p.book.active
  book_tgen : q.book.tgen = p.book.tgen
  book_tookOver : q.book.tookOver = p.book.tookOver
  book_takeDue : q.book.takeDue = p.book.takeDue
  book_standbyLost : q.book.standbyLost = p.book.standbyLost
  host_port : q.host.port = p.host.port
  host_copies : q.host.copies = p.host.copies
  host_nextCopy : q.host.nextCopy = p.host.nextCopy
  host_taken : q.host.taken = p.host.taken
  host_takeovers : q.host.takeovers = p.host.takeovers
  host_svc : q.host.svc = p.host.svc
  host_svcTag : q.host.svcTag = p.host.svcTag
  od_val : q.od.val = p.od.val
  od_pendingLive : q.od.pendingLive = p.od.pendingLive
  od_commits : q.od.commits = p.od.commits
  od_nextId : q.od.nextId = p.od.nextId
  od_ended : q.od.ended = p.od.ended
  od_hme : q.od.hme = p.od.hme
  od_mgr : q.od.mgr = p.od.mgr
  od_proto : q.od.proto = p.od.proto
  od_segDown : q.od.segDown = p.od.segDown
  od_lastFrame : q.od.lastFrame = p.od.lastFrame
  od_out : q.od.out = p.od.out
  od_reports : q.od.reports = p.od.reports
  od_net : q.od.net = p.od.net
  ctl_setSeq : q.ctl.setSeq = p.ctl.setSeq
  ctl_epochs : q.ctl.epochs = p.ctl.epochs
  ctl_lives : q.ctl.lives = p.ctl.lives
  ctl_liveNum : q.ctl.liveNum = p.ctl.liveNum
  ctl_bulks : q.ctl.bulks = p.ctl.bulks
  ctl_lastBulk : q.ctl.lastBulk = p.ctl.lastBulk
  ctl_lastBeat : q.ctl.lastBeat = p.ctl.lastBeat
  ctl_missed : q.ctl.missed = p.ctl.missed
  ctl_hubBeatA : q.ctl.hubBeatA = p.ctl.hubBeatA
  ctl_hubMissed : q.ctl.hubMissed = p.ctl.hubMissed
  ctl_linkReport : q.ctl.linkReport = p.ctl.linkReport
  ctl_reads : q.ctl.reads = p.ctl.reads

theorem Reported.refl (p : Panel) : Reported p p := by constructor <;> rfl

theorem Reported.trans {p q r : Panel} (h : Reported p q) (g : Reported q r) : Reported p r where
  variant := g.variant.trans h.variant
  clk := g.clk.trans h.clk
  core := g.core.trans h.core
  rtr := g.rtr.trans h.rtr
  stk := g.stk.trans h.stk
  sve := g.sve.trans h.sve
  die := g.die.trans h.die
  reg := g.reg.trans h.reg
  part := g.part.trans h.part
  chk := g.chk.trans h.chk
  rctr := g.rctr.trans h.rctr
  rst := g.rst.trans h.rst
  ret := g.ret.trans h.ret
  pwr := g.pwr.trans h.pwr
  boot := g.boot.trans h.boot
  sec := g.sec.trans h.sec
  chain := g.chain.trans h.chain
  fab := g.fab.trans h.fab
  gaRefusals := g.gaRefusals.trans h.gaRefusals
  book_unit := g.book_unit.trans h.book_unit
  book_pendingEvid := g.book_pendingEvid.trans h.book_pendingEvid
  book_planMiss := g.book_planMiss.trans h.book_planMiss
  book_readTo := g.book_readTo.trans h.book_readTo
  book_conflicts := g.book_conflicts.trans h.book_conflicts
  book_probesRun := g.book_probesRun.trans h.book_probesRun
  book_probesFailed := g.book_probesFailed.trans h.book_probesFailed
  book_probes := g.book_probes.trans h.book_probes
  book_asked := g.book_asked.trans h.book_asked
  book_expelPorts := g.book_expelPorts.trans h.book_expelPorts
  book_expelled := g.book_expelled.trans h.book_expelled
  book_active := g.book_active.trans h.book_active
  book_tgen := g.book_tgen.trans h.book_tgen
  book_tookOver := g.book_tookOver.trans h.book_tookOver
  book_takeDue := g.book_takeDue.trans h.book_takeDue
  book_standbyLost := g.book_standbyLost.trans h.book_standbyLost
  host_port := g.host_port.trans h.host_port
  host_copies := g.host_copies.trans h.host_copies
  host_nextCopy := g.host_nextCopy.trans h.host_nextCopy
  host_taken := g.host_taken.trans h.host_taken
  host_takeovers := g.host_takeovers.trans h.host_takeovers
  host_svc := g.host_svc.trans h.host_svc
  host_svcTag := g.host_svcTag.trans h.host_svcTag
  od_val := g.od_val.trans h.od_val
  od_pendingLive := g.od_pendingLive.trans h.od_pendingLive
  od_commits := g.od_commits.trans h.od_commits
  od_nextId := g.od_nextId.trans h.od_nextId
  od_ended := g.od_ended.trans h.od_ended
  od_hme := g.od_hme.trans h.od_hme
  od_mgr := g.od_mgr.trans h.od_mgr
  od_proto := g.od_proto.trans h.od_proto
  od_segDown := g.od_segDown.trans h.od_segDown
  od_lastFrame := g.od_lastFrame.trans h.od_lastFrame
  od_out := g.od_out.trans h.od_out
  od_reports := g.od_reports.trans h.od_reports
  od_net := g.od_net.trans h.od_net
  ctl_setSeq := g.ctl_setSeq.trans h.ctl_setSeq
  ctl_epochs := g.ctl_epochs.trans h.ctl_epochs
  ctl_lives := g.ctl_lives.trans h.ctl_lives
  ctl_liveNum := g.ctl_liveNum.trans h.ctl_liveNum
  ctl_bulks := g.ctl_bulks.trans h.ctl_bulks
  ctl_lastBulk := g.ctl_lastBulk.trans h.ctl_lastBulk
  ctl_lastBeat := g.ctl_lastBeat.trans h.ctl_lastBeat
  ctl_missed := g.ctl_missed.trans h.ctl_missed
  ctl_hubBeatA := g.ctl_hubBeatA.trans h.ctl_hubBeatA
  ctl_hubMissed := g.ctl_hubMissed.trans h.ctl_hubMissed
  ctl_linkReport := g.ctl_linkReport.trans h.ctl_linkReport
  ctl_reads := g.ctl_reads.trans h.ctl_reads

theorem Reported.each {α : Type} (l : List α) (f : α → Panel → Panel) (h : ∀ a p, Reported p (f a p)) (p : Panel) :
    Reported p (each l f p) := by
  induction l generalizing p with
  | nil => exact .refl p
  | cons a l ih => exact (h a p).trans (ih (f a p))

theorem Reported.ite {c : Prop} [Decidable c] {p q r : Panel} (hq : Reported p q) (hr : Reported p r) : Reported p (if c then q else r) := by
  split
  · exact hq
  · exact hr

theorem Reported.modNode (k : Nat) (f : Node → Node) (p : Panel) : Reported p (p.modNode k f) := by constructor <;> rfl
theorem Reported.modFn (k : Nat) (f : Fn → Fn) (p : Panel) : Reported p (p.modFn k f) := by constructor <;> rfl

theorem latch_reported (sp : Span) (ev key : Nat) (p : Panel) : Reported p (latch sp ev key p).2 := by
  unfold latch
  split
  · exact .refl p
  · dsimp only
    split
    · constructor <;> rfl
    · split <;> constructor <;> rfl

theorem takeData_reported (d : Dat) (p : Panel) : Reported p (takeData d p).2 := by
  cases d <;> constructor <;> rfl

theorem raiseVector_reported (f port v : Nat) (p : Panel) : Reported p (raiseVector f port v p) := by
  unfold raiseVector
  repeat' split
  all_goals constructor <;> rfl

theorem setIcause_reported (f b : Nat) (p : Panel) : Reported p (setIcause f b p) := by
  unfold setIcause
  split
  · exact .refl p
  · exact (Reported.modFn ..).trans (raiseVector_reported ..)

theorem hostWrite_reported (f q addr : Nat) (b : List Byte) (p : Panel) : Reported p (hostWrite f q addr b p) := by
  constructor <;> rfl

theorem ringPut_reported (f : Nat) (e : Entry) (p : Panel) : Reported p (ringPut f e p) :=
  ((hostWrite_reported ..).trans (Reported.modFn ..)).trans (setIcause_reported ..)

theorem ringEvent_reported (f : Nat) (e : Entry) (p : Panel) : Reported p (ringEvent f e p) := by
  unfold ringEvent
  dsimp only
  split
  · exact .refl p
  · split
    · exact Reported.modFn ..
    · exact ringPut_reported ..

theorem hubEnter_reported (ev site core key : Nat) (data : BitVec 64) (supp : Nat) (p : Panel) :
    Reported p (hubEnter ev site core key data supp p) := by
  let e : Entry := ⟨ev, evSev ev, site, core, p.now, data, supp, 0⟩
  let q := p.modBook (logEvent e)
  let r := ringEvent 0 e q
  let u := each (evParts p key site) (fun n => ringEvent (n + 1) e) r
  have h1 : Reported p q := by constructor <;> rfl
  have h2 : Reported q r := ringEvent_reported ..
  have h3 : Reported r u := Reported.each _ _ (fun n p => ringEvent_reported (n + 1) e p) r
  have h4 : Reported u (u.modOd fun o => { o with sessions := o.sessions.map (oweReport (evParts p key site) e) }) := by
    constructor <;> rfl
  exact ((h1.trans h2).trans h3).trans h4

/-- Raising an event of the hub under a limit. -/
theorem raiseAs_reported (sp : Span) (ev site key : Nat) (d : Dat) (p : Panel) : Reported p (raiseAs sp ev site key d p) := by
  have h := latch_reported sp ev key p
  unfold raiseAs
  split
  · next supp q e => rw [e] at h; exact (h.trans (takeData_reported d q)).trans (hubEnter_reported ..)
  · next q e => rw [e] at h; exact h

/-- Raising an event of the hub. -/
theorem raise_reported (ev site key : Nat) (d : Dat) (p : Panel) : Reported p (raise ev site key d p) := raiseAs_reported ..

theorem enqueue_reported (s port : Nat) (k : Pkt) (p : Panel) : Reported p (enqueue s port k p) := Reported.modNode ..
theorem deliverTo_reported (s : Nat) (k : Pkt) (p : Panel) : Reported p (deliverTo s k p) := Reported.modNode ..

/-- What a message that stands at a node can change. -/
theorem routeOn_reported (s : Nat) (via : Option Nat) (k : Pkt) (p : Panel) : Reported p (routeOn s via k p) := by
  unfold routeOn
  split
  · dsimp only
    repeat' split
    all_goals first | exact deliverTo_reported .. | exact enqueue_reported ..
  · split
    · exact Reported.modNode ..
    · dsimp only
      split
      · exact ((Reported.modNode ..).trans (Reported.each _ _ (fun _ _ => enqueue_reported ..) _)).trans (deliverTo_reported ..)
      · exact (Reported.modNode ..).trans (Reported.each _ _ (fun _ _ => enqueue_reported ..) _)

theorem sendPkt_reported (k : Pkt) (p : Panel) : Reported p (sendPkt k p) := by
  unfold sendPkt
  split
  · exact (Reported.modNode ..).trans (routeOn_reported ..)
  · exact .refl p
theorem toHub_reported (s tag : Nat) (m : Msg) (p : Panel) : Reported p (toHub s tag m p) := sendPkt_reported ..
theorem toSite_reported (s tag : Nat) (m : Msg) (p : Panel) : Reported p (toSite s tag m p) := sendPkt_reported ..
theorem fromHub_reported (hub dmode g : Nat) (m : Msg) (p : Panel) : Reported p (fromHub hub dmode g m p) := by
  unfold fromHub
  split
  all_goals exact Reported.trans (by constructor <;> rfl) (sendPkt_reported ..)
theorem toGroup_reported (dmode g : Nat) (m : Msg) (p : Panel) : Reported p (toGroup dmode g m p) := fromHub_reported ..

theorem plainEvent_reported (s core key ev : Nat) (d : Dat) (p : Panel) : Reported p (plainEvent s core key ev d p) := by
  have h := latch_reported (evSpan ev) ev key p
  unfold plainEvent
  split
  · next supp q e => rw [e] at h; exact (h.trans (takeData_reported d q)).trans (toHub_reported ..)
  · next q e => rw [e] at h; exact h

theorem sendUrgent_reported (s : Nat) (m : Msg) (p : Panel) : Reported p (sendUrgent s m p) := by
  unfold sendUrgent
  exact .ite (toHub_reported ..) (.ite ((Reported.modNode ..).trans (toHub_reported ..))
    (.ite (Reported.modNode ..) ((Reported.modNode ..).trans (plainEvent_reported ..))))

/-- Raising an event of a die or of a core of it. -/
theorem dieRaise_reported (s core key ev : Nat) (d : Dat) (p : Panel) : Reported p (dieRaise s core key ev d p) := by
  unfold dieRaise
  split
  · exact (takeData_reported ..).trans (sendUrgent_reported ..)
  · exact plainEvent_reported ..

theorem coreRaise_reported (k ev : Nat) (d : Dat) (p : Panel) : Reported p (coreRaise k ev d p) := dieRaise_reported ..

/-! The fields that commands' effects are stated in, after an event or a message. -/

@[simp] theorem raise_variant (ev site key : Nat) (d : Dat) (p : Panel) : (raise ev site key d p).variant = p.variant := (raise_reported ..).variant
@[simp] theorem raise_clk (ev site key : Nat) (d : Dat) (p : Panel) : (raise ev site key d p).clk = p.clk := (raise_reported ..).clk
@[simp] theorem raise_core (ev site key : Nat) (d : Dat) (p : Panel) : (raise ev site key d p).core = p.core := (raise_reported ..).core
@[simp] theorem raise_rtr (ev site key : Nat) (d : Dat) (p : Panel) : (raise ev site key d p).rtr = p.rtr := (raise_reported ..).rtr
@[simp] theorem raise_stk (ev site key : Nat) (d : Dat) (p : Panel) : (raise ev site key d p).stk = p.stk := (raise_reported ..).stk
@[simp] theorem raise_sve (ev site key : Nat) (d : Dat) (p : Panel) : (raise ev site key d p).sve = p.sve := (raise_reported ..).sve
@[simp] theorem raise_die (ev site key : Nat) (d : Dat) (p : Panel) : (raise ev site key d p).die = p.die := (raise_reported ..).die
@[simp] theorem raise_reg (ev site key : Nat) (d : Dat) (p : Panel) : (raise ev site key d p).reg = p.reg := (raise_reported ..).reg
@[simp] theorem raise_part (ev site key : Nat) (d : Dat) (p : Panel) : (raise ev site key d p).part = p.part := (raise_reported ..).part
@[simp] theorem raise_chk (ev site key : Nat) (d : Dat) (p : Panel) : (raise ev site key d p).chk = p.chk := (raise_reported ..).chk
@[simp] theorem raise_rctr (ev site key : Nat) (d : Dat) (p : Panel) : (raise ev site key d p).rctr = p.rctr := (raise_reported ..).rctr
@[simp] theorem raise_rst (ev site key : Nat) (d : Dat) (p : Panel) : (raise ev site key d p).rst = p.rst := (raise_reported ..).rst
@[simp] theorem raise_ret (ev site key : Nat) (d : Dat) (p : Panel) : (raise ev site key d p).ret = p.ret := (raise_reported ..).ret
@[simp] theorem raise_pwr (ev site key : Nat) (d : Dat) (p : Panel) : (raise ev site key d p).pwr = p.pwr := (raise_reported ..).pwr
@[simp] theorem raise_boot (ev site key : Nat) (d : Dat) (p : Panel) : (raise ev site key d p).boot = p.boot := (raise_reported ..).boot
@[simp] theorem raise_sec (ev site key : Nat) (d : Dat) (p : Panel) : (raise ev site key d p).sec = p.sec := (raise_reported ..).sec
@[simp] theorem raise_chain (ev site key : Nat) (d : Dat) (p : Panel) : (raise ev site key d p).chain = p.chain := (raise_reported ..).chain
@[simp] theorem raise_fab (ev site key : Nat) (d : Dat) (p : Panel) : (raise ev site key d p).fab = p.fab := (raise_reported ..).fab
@[simp] theorem raise_gaRefusals (ev site key : Nat) (d : Dat) (p : Panel) : (raise ev site key d p).gaRefusals = p.gaRefusals := (raise_reported ..).gaRefusals
@[simp] theorem raise_book_unit (ev site key : Nat) (d : Dat) (p : Panel) : (raise ev site key d p).book.unit = p.book.unit := (raise_reported ..).book_unit
@[simp] theorem raise_book_active (ev site key : Nat) (d : Dat) (p : Panel) : (raise ev site key d p).book.active = p.book.active := (raise_reported ..).book_active
@[simp] theorem raise_od_val (ev site key : Nat) (d : Dat) (p : Panel) : (raise ev site key d p).od.val = p.od.val := (raise_reported ..).od_val
@[simp] theorem raise_host_copies (ev site key : Nat) (d : Dat) (p : Panel) : (raise ev site key d p).host.copies = p.host.copies := (raise_reported ..).host_copies
@[simp] theorem dieRaise_variant (s core key ev : Nat) (d : Dat) (p : Panel) : (dieRaise s core key ev d p).variant = p.variant := (dieRaise_reported ..).variant
@[simp] theorem dieRaise_clk (s core key ev : Nat) (d : Dat) (p : Panel) : (dieRaise s core key ev d p).clk = p.clk := (dieRaise_reported ..).clk
@[simp] theorem dieRaise_core (s core key ev : Nat) (d : Dat) (p : Panel) : (dieRaise s core key ev d p).core = p.core := (dieRaise_reported ..).core
@[simp] theorem dieRaise_rtr (s core key ev : Nat) (d : Dat) (p : Panel) : (dieRaise s core key ev d p).rtr = p.rtr := (dieRaise_reported ..).rtr
@[simp] theorem dieRaise_stk (s core key ev : Nat) (d : Dat) (p : Panel) : (dieRaise s core key ev d p).stk = p.stk := (dieRaise_reported ..).stk
@[simp] theorem dieRaise_sve (s core key ev : Nat) (d : Dat) (p : Panel) : (dieRaise s core key ev d p).sve = p.sve := (dieRaise_reported ..).sve
@[simp] theorem dieRaise_die (s core key ev : Nat) (d : Dat) (p : Panel) : (dieRaise s core key ev d p).die = p.die := (dieRaise_reported ..).die
@[simp] theorem dieRaise_reg (s core key ev : Nat) (d : Dat) (p : Panel) : (dieRaise s core key ev d p).reg = p.reg := (dieRaise_reported ..).reg
@[simp] theorem dieRaise_part (s core key ev : Nat) (d : Dat) (p : Panel) : (dieRaise s core key ev d p).part = p.part := (dieRaise_reported ..).part
@[simp] theorem dieRaise_chk (s core key ev : Nat) (d : Dat) (p : Panel) : (dieRaise s core key ev d p).chk = p.chk := (dieRaise_reported ..).chk
@[simp] theorem dieRaise_rctr (s core key ev : Nat) (d : Dat) (p : Panel) : (dieRaise s core key ev d p).rctr = p.rctr := (dieRaise_reported ..).rctr
@[simp] theorem dieRaise_rst (s core key ev : Nat) (d : Dat) (p : Panel) : (dieRaise s core key ev d p).rst = p.rst := (dieRaise_reported ..).rst
@[simp] theorem dieRaise_ret (s core key ev : Nat) (d : Dat) (p : Panel) : (dieRaise s core key ev d p).ret = p.ret := (dieRaise_reported ..).ret
@[simp] theorem dieRaise_pwr (s core key ev : Nat) (d : Dat) (p : Panel) : (dieRaise s core key ev d p).pwr = p.pwr := (dieRaise_reported ..).pwr
@[simp] theorem dieRaise_boot (s core key ev : Nat) (d : Dat) (p : Panel) : (dieRaise s core key ev d p).boot = p.boot := (dieRaise_reported ..).boot
@[simp] theorem dieRaise_sec (s core key ev : Nat) (d : Dat) (p : Panel) : (dieRaise s core key ev d p).sec = p.sec := (dieRaise_reported ..).sec
@[simp] theorem dieRaise_chain (s core key ev : Nat) (d : Dat) (p : Panel) : (dieRaise s core key ev d p).chain = p.chain := (dieRaise_reported ..).chain
@[simp] theorem dieRaise_fab (s core key ev : Nat) (d : Dat) (p : Panel) : (dieRaise s core key ev d p).fab = p.fab := (dieRaise_reported ..).fab
@[simp] theorem dieRaise_gaRefusals (s core key ev : Nat) (d : Dat) (p : Panel) : (dieRaise s core key ev d p).gaRefusals = p.gaRefusals := (dieRaise_reported ..).gaRefusals
@[simp] theorem dieRaise_book_unit (s core key ev : Nat) (d : Dat) (p : Panel) : (dieRaise s core key ev d p).book.unit = p.book.unit := (dieRaise_reported ..).book_unit
@[simp] theorem dieRaise_book_active (s core key ev : Nat) (d : Dat) (p : Panel) : (dieRaise s core key ev d p).book.active = p.book.active := (dieRaise_reported ..).book_active
@[simp] theorem dieRaise_od_val (s core key ev : Nat) (d : Dat) (p : Panel) : (dieRaise s core key ev d p).od.val = p.od.val := (dieRaise_reported ..).od_val
@[simp] theorem dieRaise_host_copies (s core key ev : Nat) (d : Dat) (p : Panel) : (dieRaise s core key ev d p).host.copies = p.host.copies := (dieRaise_reported ..).host_copies
@[simp] theorem coreRaise_variant (k ev : Nat) (d : Dat) (p : Panel) : (coreRaise k ev d p).variant = p.variant := (coreRaise_reported ..).variant
@[simp] theorem coreRaise_clk (k ev : Nat) (d : Dat) (p : Panel) : (coreRaise k ev d p).clk = p.clk := (coreRaise_reported ..).clk
@[simp] theorem coreRaise_core (k ev : Nat) (d : Dat) (p : Panel) : (coreRaise k ev d p).core = p.core := (coreRaise_reported ..).core
@[simp] theorem coreRaise_rtr (k ev : Nat) (d : Dat) (p : Panel) : (coreRaise k ev d p).rtr = p.rtr := (coreRaise_reported ..).rtr
@[simp] theorem coreRaise_stk (k ev : Nat) (d : Dat) (p : Panel) : (coreRaise k ev d p).stk = p.stk := (coreRaise_reported ..).stk
@[simp] theorem coreRaise_sve (k ev : Nat) (d : Dat) (p : Panel) : (coreRaise k ev d p).sve = p.sve := (coreRaise_reported ..).sve
@[simp] theorem coreRaise_die (k ev : Nat) (d : Dat) (p : Panel) : (coreRaise k ev d p).die = p.die := (coreRaise_reported ..).die
@[simp] theorem coreRaise_reg (k ev : Nat) (d : Dat) (p : Panel) : (coreRaise k ev d p).reg = p.reg := (coreRaise_reported ..).reg
@[simp] theorem coreRaise_part (k ev : Nat) (d : Dat) (p : Panel) : (coreRaise k ev d p).part = p.part := (coreRaise_reported ..).part
@[simp] theorem coreRaise_chk (k ev : Nat) (d : Dat) (p : Panel) : (coreRaise k ev d p).chk = p.chk := (coreRaise_reported ..).chk
@[simp] theorem coreRaise_rctr (k ev : Nat) (d : Dat) (p : Panel) : (coreRaise k ev d p).rctr = p.rctr := (coreRaise_reported ..).rctr
@[simp] theorem coreRaise_rst (k ev : Nat) (d : Dat) (p : Panel) : (coreRaise k ev d p).rst = p.rst := (coreRaise_reported ..).rst
@[simp] theorem coreRaise_ret (k ev : Nat) (d : Dat) (p : Panel) : (coreRaise k ev d p).ret = p.ret := (coreRaise_reported ..).ret
@[simp] theorem coreRaise_pwr (k ev : Nat) (d : Dat) (p : Panel) : (coreRaise k ev d p).pwr = p.pwr := (coreRaise_reported ..).pwr
@[simp] theorem coreRaise_boot (k ev : Nat) (d : Dat) (p : Panel) : (coreRaise k ev d p).boot = p.boot := (coreRaise_reported ..).boot
@[simp] theorem coreRaise_sec (k ev : Nat) (d : Dat) (p : Panel) : (coreRaise k ev d p).sec = p.sec := (coreRaise_reported ..).sec
@[simp] theorem coreRaise_chain (k ev : Nat) (d : Dat) (p : Panel) : (coreRaise k ev d p).chain = p.chain := (coreRaise_reported ..).chain
@[simp] theorem coreRaise_fab (k ev : Nat) (d : Dat) (p : Panel) : (coreRaise k ev d p).fab = p.fab := (coreRaise_reported ..).fab
@[simp] theorem coreRaise_gaRefusals (k ev : Nat) (d : Dat) (p : Panel) : (coreRaise k ev d p).gaRefusals = p.gaRefusals := (coreRaise_reported ..).gaRefusals
@[simp] theorem coreRaise_book_unit (k ev : Nat) (d : Dat) (p : Panel) : (coreRaise k ev d p).book.unit = p.book.unit := (coreRaise_reported ..).book_unit
@[simp] theorem coreRaise_book_active (k ev : Nat) (d : Dat) (p : Panel) : (coreRaise k ev d p).book.active = p.book.active := (coreRaise_reported ..).book_active
@[simp] theorem coreRaise_od_val (k ev : Nat) (d : Dat) (p : Panel) : (coreRaise k ev d p).od.val = p.od.val := (coreRaise_reported ..).od_val
@[simp] theorem coreRaise_host_copies (k ev : Nat) (d : Dat) (p : Panel) : (coreRaise k ev d p).host.copies = p.host.copies := (coreRaise_reported ..).host_copies
@[simp] theorem toHub_variant (s tag : Nat) (m : Msg) (p : Panel) : (toHub s tag m p).variant = p.variant := (toHub_reported ..).variant
@[simp] theorem toHub_clk (s tag : Nat) (m : Msg) (p : Panel) : (toHub s tag m p).clk = p.clk := (toHub_reported ..).clk
@[simp] theorem toHub_core (s tag : Nat) (m : Msg) (p : Panel) : (toHub s tag m p).core = p.core := (toHub_reported ..).core
@[simp] theorem toHub_rtr (s tag : Nat) (m : Msg) (p : Panel) : (toHub s tag m p).rtr = p.rtr := (toHub_reported ..).rtr
@[simp] theorem toHub_stk (s tag : Nat) (m : Msg) (p : Panel) : (toHub s tag m p).stk = p.stk := (toHub_reported ..).stk
@[simp] theorem toHub_sve (s tag : Nat) (m : Msg) (p : Panel) : (toHub s tag m p).sve = p.sve := (toHub_reported ..).sve
@[simp] theorem toHub_die (s tag : Nat) (m : Msg) (p : Panel) : (toHub s tag m p).die = p.die := (toHub_reported ..).die
@[simp] theorem toHub_reg (s tag : Nat) (m : Msg) (p : Panel) : (toHub s tag m p).reg = p.reg := (toHub_reported ..).reg
@[simp] theorem toHub_part (s tag : Nat) (m : Msg) (p : Panel) : (toHub s tag m p).part = p.part := (toHub_reported ..).part
@[simp] theorem toHub_chk (s tag : Nat) (m : Msg) (p : Panel) : (toHub s tag m p).chk = p.chk := (toHub_reported ..).chk
@[simp] theorem toHub_rctr (s tag : Nat) (m : Msg) (p : Panel) : (toHub s tag m p).rctr = p.rctr := (toHub_reported ..).rctr
@[simp] theorem toHub_rst (s tag : Nat) (m : Msg) (p : Panel) : (toHub s tag m p).rst = p.rst := (toHub_reported ..).rst
@[simp] theorem toHub_ret (s tag : Nat) (m : Msg) (p : Panel) : (toHub s tag m p).ret = p.ret := (toHub_reported ..).ret
@[simp] theorem toHub_pwr (s tag : Nat) (m : Msg) (p : Panel) : (toHub s tag m p).pwr = p.pwr := (toHub_reported ..).pwr
@[simp] theorem toHub_boot (s tag : Nat) (m : Msg) (p : Panel) : (toHub s tag m p).boot = p.boot := (toHub_reported ..).boot
@[simp] theorem toHub_sec (s tag : Nat) (m : Msg) (p : Panel) : (toHub s tag m p).sec = p.sec := (toHub_reported ..).sec
@[simp] theorem toHub_chain (s tag : Nat) (m : Msg) (p : Panel) : (toHub s tag m p).chain = p.chain := (toHub_reported ..).chain
@[simp] theorem toHub_fab (s tag : Nat) (m : Msg) (p : Panel) : (toHub s tag m p).fab = p.fab := (toHub_reported ..).fab
@[simp] theorem toHub_gaRefusals (s tag : Nat) (m : Msg) (p : Panel) : (toHub s tag m p).gaRefusals = p.gaRefusals := (toHub_reported ..).gaRefusals
@[simp] theorem toHub_book_unit (s tag : Nat) (m : Msg) (p : Panel) : (toHub s tag m p).book.unit = p.book.unit := (toHub_reported ..).book_unit
@[simp] theorem toHub_book_active (s tag : Nat) (m : Msg) (p : Panel) : (toHub s tag m p).book.active = p.book.active := (toHub_reported ..).book_active
@[simp] theorem toHub_od_val (s tag : Nat) (m : Msg) (p : Panel) : (toHub s tag m p).od.val = p.od.val := (toHub_reported ..).od_val
@[simp] theorem toHub_host_copies (s tag : Nat) (m : Msg) (p : Panel) : (toHub s tag m p).host.copies = p.host.copies := (toHub_reported ..).host_copies
@[simp] theorem toSite_variant (s tag : Nat) (m : Msg) (p : Panel) : (toSite s tag m p).variant = p.variant := (toSite_reported ..).variant
@[simp] theorem toSite_clk (s tag : Nat) (m : Msg) (p : Panel) : (toSite s tag m p).clk = p.clk := (toSite_reported ..).clk
@[simp] theorem toSite_core (s tag : Nat) (m : Msg) (p : Panel) : (toSite s tag m p).core = p.core := (toSite_reported ..).core
@[simp] theorem toSite_rtr (s tag : Nat) (m : Msg) (p : Panel) : (toSite s tag m p).rtr = p.rtr := (toSite_reported ..).rtr
@[simp] theorem toSite_stk (s tag : Nat) (m : Msg) (p : Panel) : (toSite s tag m p).stk = p.stk := (toSite_reported ..).stk
@[simp] theorem toSite_sve (s tag : Nat) (m : Msg) (p : Panel) : (toSite s tag m p).sve = p.sve := (toSite_reported ..).sve
@[simp] theorem toSite_die (s tag : Nat) (m : Msg) (p : Panel) : (toSite s tag m p).die = p.die := (toSite_reported ..).die
@[simp] theorem toSite_reg (s tag : Nat) (m : Msg) (p : Panel) : (toSite s tag m p).reg = p.reg := (toSite_reported ..).reg
@[simp] theorem toSite_part (s tag : Nat) (m : Msg) (p : Panel) : (toSite s tag m p).part = p.part := (toSite_reported ..).part
@[simp] theorem toSite_chk (s tag : Nat) (m : Msg) (p : Panel) : (toSite s tag m p).chk = p.chk := (toSite_reported ..).chk
@[simp] theorem toSite_rctr (s tag : Nat) (m : Msg) (p : Panel) : (toSite s tag m p).rctr = p.rctr := (toSite_reported ..).rctr
@[simp] theorem toSite_rst (s tag : Nat) (m : Msg) (p : Panel) : (toSite s tag m p).rst = p.rst := (toSite_reported ..).rst
@[simp] theorem toSite_ret (s tag : Nat) (m : Msg) (p : Panel) : (toSite s tag m p).ret = p.ret := (toSite_reported ..).ret
@[simp] theorem toSite_pwr (s tag : Nat) (m : Msg) (p : Panel) : (toSite s tag m p).pwr = p.pwr := (toSite_reported ..).pwr
@[simp] theorem toSite_boot (s tag : Nat) (m : Msg) (p : Panel) : (toSite s tag m p).boot = p.boot := (toSite_reported ..).boot
@[simp] theorem toSite_sec (s tag : Nat) (m : Msg) (p : Panel) : (toSite s tag m p).sec = p.sec := (toSite_reported ..).sec
@[simp] theorem toSite_chain (s tag : Nat) (m : Msg) (p : Panel) : (toSite s tag m p).chain = p.chain := (toSite_reported ..).chain
@[simp] theorem toSite_fab (s tag : Nat) (m : Msg) (p : Panel) : (toSite s tag m p).fab = p.fab := (toSite_reported ..).fab
@[simp] theorem toSite_gaRefusals (s tag : Nat) (m : Msg) (p : Panel) : (toSite s tag m p).gaRefusals = p.gaRefusals := (toSite_reported ..).gaRefusals
@[simp] theorem toSite_book_unit (s tag : Nat) (m : Msg) (p : Panel) : (toSite s tag m p).book.unit = p.book.unit := (toSite_reported ..).book_unit
@[simp] theorem toSite_book_active (s tag : Nat) (m : Msg) (p : Panel) : (toSite s tag m p).book.active = p.book.active := (toSite_reported ..).book_active
@[simp] theorem toSite_od_val (s tag : Nat) (m : Msg) (p : Panel) : (toSite s tag m p).od.val = p.od.val := (toSite_reported ..).od_val
@[simp] theorem toSite_host_copies (s tag : Nat) (m : Msg) (p : Panel) : (toSite s tag m p).host.copies = p.host.copies := (toSite_reported ..).host_copies
@[simp] theorem toGroup_variant (dmode g : Nat) (m : Msg) (p : Panel) : (toGroup dmode g m p).variant = p.variant := (toGroup_reported ..).variant
@[simp] theorem toGroup_clk (dmode g : Nat) (m : Msg) (p : Panel) : (toGroup dmode g m p).clk = p.clk := (toGroup_reported ..).clk
@[simp] theorem toGroup_core (dmode g : Nat) (m : Msg) (p : Panel) : (toGroup dmode g m p).core = p.core := (toGroup_reported ..).core
@[simp] theorem toGroup_rtr (dmode g : Nat) (m : Msg) (p : Panel) : (toGroup dmode g m p).rtr = p.rtr := (toGroup_reported ..).rtr
@[simp] theorem toGroup_stk (dmode g : Nat) (m : Msg) (p : Panel) : (toGroup dmode g m p).stk = p.stk := (toGroup_reported ..).stk
@[simp] theorem toGroup_sve (dmode g : Nat) (m : Msg) (p : Panel) : (toGroup dmode g m p).sve = p.sve := (toGroup_reported ..).sve
@[simp] theorem toGroup_die (dmode g : Nat) (m : Msg) (p : Panel) : (toGroup dmode g m p).die = p.die := (toGroup_reported ..).die
@[simp] theorem toGroup_reg (dmode g : Nat) (m : Msg) (p : Panel) : (toGroup dmode g m p).reg = p.reg := (toGroup_reported ..).reg
@[simp] theorem toGroup_part (dmode g : Nat) (m : Msg) (p : Panel) : (toGroup dmode g m p).part = p.part := (toGroup_reported ..).part
@[simp] theorem toGroup_chk (dmode g : Nat) (m : Msg) (p : Panel) : (toGroup dmode g m p).chk = p.chk := (toGroup_reported ..).chk
@[simp] theorem toGroup_rctr (dmode g : Nat) (m : Msg) (p : Panel) : (toGroup dmode g m p).rctr = p.rctr := (toGroup_reported ..).rctr
@[simp] theorem toGroup_rst (dmode g : Nat) (m : Msg) (p : Panel) : (toGroup dmode g m p).rst = p.rst := (toGroup_reported ..).rst
@[simp] theorem toGroup_ret (dmode g : Nat) (m : Msg) (p : Panel) : (toGroup dmode g m p).ret = p.ret := (toGroup_reported ..).ret
@[simp] theorem toGroup_pwr (dmode g : Nat) (m : Msg) (p : Panel) : (toGroup dmode g m p).pwr = p.pwr := (toGroup_reported ..).pwr
@[simp] theorem toGroup_boot (dmode g : Nat) (m : Msg) (p : Panel) : (toGroup dmode g m p).boot = p.boot := (toGroup_reported ..).boot
@[simp] theorem toGroup_sec (dmode g : Nat) (m : Msg) (p : Panel) : (toGroup dmode g m p).sec = p.sec := (toGroup_reported ..).sec
@[simp] theorem toGroup_chain (dmode g : Nat) (m : Msg) (p : Panel) : (toGroup dmode g m p).chain = p.chain := (toGroup_reported ..).chain
@[simp] theorem toGroup_fab (dmode g : Nat) (m : Msg) (p : Panel) : (toGroup dmode g m p).fab = p.fab := (toGroup_reported ..).fab
@[simp] theorem toGroup_gaRefusals (dmode g : Nat) (m : Msg) (p : Panel) : (toGroup dmode g m p).gaRefusals = p.gaRefusals := (toGroup_reported ..).gaRefusals
@[simp] theorem toGroup_book_unit (dmode g : Nat) (m : Msg) (p : Panel) : (toGroup dmode g m p).book.unit = p.book.unit := (toGroup_reported ..).book_unit
@[simp] theorem toGroup_book_active (dmode g : Nat) (m : Msg) (p : Panel) : (toGroup dmode g m p).book.active = p.book.active := (toGroup_reported ..).book_active
@[simp] theorem toGroup_od_val (dmode g : Nat) (m : Msg) (p : Panel) : (toGroup dmode g m p).od.val = p.od.val := (toGroup_reported ..).od_val
@[simp] theorem toGroup_host_copies (dmode g : Nat) (m : Msg) (p : Panel) : (toGroup dmode g m p).host.copies = p.host.copies := (toGroup_reported ..).host_copies

end Sys2Proof.Machine
end

