-- ==== Sys2Proof/Laws/Mem.lean ====
section
/-! SUPPORT. The byte memory: reading after writing, and its canonical form, which every operation of it keeps. -/

namespace Sys2Proof.Machine

/-- The canonical form as a property of the list of cells. -/
theorem Mem.wf_iff (m : Mem) :
    m.wf = true ↔ m.Pairwise (fun c d => c.1 < d.1) ∧ ∀ c ∈ m, c.2 ≠ memDefault := by
  induction m with
  | nil => simp [Mem.wf]
  | cons c t ih =>
    cases t with
    | nil => simp [Mem.wf]
    | cons d t =>
      simp only [Mem.wf, Bool.and_eq_true, decide_eq_true_eq, ih, List.pairwise_cons, List.mem_cons, forall_eq_or_imp]
      constructor
      · rintro ⟨⟨h1, h2⟩, ⟨h3, h4⟩, h5, h6⟩
        exact ⟨⟨⟨h2, fun e he => Nat.lt_trans h2 (h3 e he)⟩, h3, h4⟩, h1, h5, h6⟩
      · rintro ⟨⟨⟨h2, _⟩, h3, h4⟩, h1, h5, h6⟩
        exact ⟨⟨h1, h2⟩, ⟨h3, h4⟩, h5, h6⟩

@[simp] theorem Mem.wf_nil : Mem.wf [] = true := rfl

/-- Cells taken out leave the form canonical. -/
theorem Mem.wf_filter (f : Host.Cell → Bool) {m : Mem} (h : m.wf = true) : Mem.wf (m.filter f) = true := by
  rw [Mem.wf_iff] at h ⊢
  exact ⟨h.1.filter f, fun c hc => h.2 c ((List.mem_filter.mp hc).1)⟩

theorem Mem.mem_insert {a : Nat} {b : Byte} {m : Mem} {c : Host.Cell} : c ∈ Mem.insert a b m ↔ c = (a, b) ∨ c ∈ m := by
  induction m with
  | nil => simp [Mem.insert]
  | cons e t ih =>
    obtain ⟨j, x⟩ := e
    by_cases h : a < j
    · simp [Mem.insert, h]
    · simp [Mem.insert, h, ih, or_left_comm]

theorem Mem.wf_insert {a : Nat} {b : Byte} {m : Mem} (hb : b ≠ memDefault) (ha : ∀ c ∈ m, c.1 ≠ a) (h : m.wf = true) :
    Mem.wf (Mem.insert a b m) = true := by
  rw [Mem.wf_iff] at h ⊢
  refine ⟨?_, fun c hc => ?_⟩
  · obtain ⟨h, -⟩ := h
    induction m with
    | nil => simp [Mem.insert]
    | cons e t ih =>
      obtain ⟨j, x⟩ := e
      rw [List.pairwise_cons] at h
      by_cases hj : a < j
      · simp only [Mem.insert, if_pos hj, List.pairwise_cons, List.mem_cons, forall_eq_or_imp]
        exact ⟨⟨hj, fun c hc => Nat.lt_trans hj (h.1 c hc)⟩, h⟩
      · have hlt : j < a := by have := ha (j, x) (List.mem_cons_self ..); simp only at this; omega
        simp only [Mem.insert, if_neg hj, List.pairwise_cons]
        refine ⟨fun c hc => ?_, ih (fun c hc => ha c (List.mem_cons_of_mem _ hc)) h.2⟩
        rcases Mem.mem_insert.mp hc with rfl | hc
        · exact hlt
        · exact h.1 c hc
  · rcases Mem.mem_insert.mp hc with rfl | hc
    · exact hb
    · exact h.2 c hc

/-- A write keeps the canonical form. -/
theorem Mem.wf_write {m : Mem} (h : m.wf = true) (a : Nat) (b : Byte) : (m.write a b).wf = true := by
  unfold Mem.write
  split
  · exact Mem.wf_filter _ h
  · next hb =>
    refine Mem.wf_insert hb (fun c hc => ?_) (Mem.wf_filter _ h)
    simpa using (List.mem_filter.mp hc).2

theorem Mem.wf_writeL {m : Mem} (h : m.wf = true) (a : Nat) (bs : List Byte) : (m.writeL a bs).wf = true := by
  induction bs generalizing m a with
  | nil => exact h
  | cons b bs ih => exact ih (Mem.wf_write h a b) (a + 1)

theorem Mem.wf_setNum {m : Mem} (h : m.wf = true) (a n x : Nat) : (m.setNum a n x).wf = true := Mem.wf_writeL h a _

theorem Mem.wf_clear {m : Mem} (h : m.wf = true) (lo hi : Nat) : (m.clear lo hi).wf = true := Mem.wf_filter _ h

@[simp] theorem Mem.read_nil (a : Nat) : Mem.read [] a = memDefault := rfl

/-- Reading where some addresses have been taken out. -/
theorem Mem.read_filter (g : Nat → Bool) (m : Mem) (x : Nat) :
    Mem.read (m.filter fun c => g c.1) x = if g x then Mem.read m x else memDefault := by
  induction m with
  | nil => simp
  | cons e t ih =>
    obtain ⟨j, y⟩ := e
    by_cases hj : g j
    · by_cases hx : j = x
      · subst hx; simp [Mem.read, hj]
      · simp [Mem.read, hj, hx, ih]
    · by_cases hx : j = x
      · subst hx; simp [hj, ih]
      · simp [Mem.read, hj, hx, ih]

theorem Mem.read_insert {m : Mem} {a x : Nat} {b : Byte} (h : ∀ c ∈ m, c.1 ≠ a) :
    Mem.read (Mem.insert a b m) x = if x = a then b else Mem.read m x := by
  induction m with
  | nil =>
    by_cases hx : x = a
    · simp [Mem.insert, Mem.read, hx]
    · simp [Mem.insert, Mem.read, hx, Ne.symm hx]
  | cons e t ih =>
    obtain ⟨j, y⟩ := e
    have hj : j ≠ a := h (j, y) (List.mem_cons_self ..)
    have ih := ih fun c hc => h c (List.mem_cons_of_mem _ hc)
    by_cases haj : a < j
    · by_cases hx : x = a
      · simp [Mem.insert, Mem.read, haj, hx]
      · simp [Mem.insert, Mem.read, haj, hx, Ne.symm hx]
    · by_cases hx : j = x
      · subst hx; simp [Mem.insert, Mem.read, haj, hj]
      · simp [Mem.insert, Mem.read, haj, hx, ih]

/-- Reading after a write: the byte written at its address, every other byte as before. -/
theorem Mem.read_write (m : Mem) (a x : Nat) (b : Byte) : (m.write a b).read x = if x = a then b else m.read x := by
  have hf := Mem.read_filter (fun j => decide (j ≠ a)) m x
  unfold Mem.write
  split
  · next hb =>
    rw [hf]
    by_cases hx : x = a <;> simp [hx, hb]
  · rw [Mem.read_insert (fun c hc => by simpa using (List.mem_filter.mp hc).2), hf]
    by_cases hx : x = a <;> simp [hx]

/-- Reading after bytes are written from `a` up. -/
theorem Mem.read_writeL (m : Mem) (a x : Nat) (bs : List Byte) :
    (m.writeL a bs).read x = if a ≤ x ∧ x < a + bs.length then bs.getD (x - a) 0 else m.read x := by
  induction bs generalizing m a with
  | nil =>
    have : ¬ (a ≤ x ∧ x < a + ([] : List Byte).length) := by simp
    rw [if_neg this]; rfl
  | cons b bs ih =>
    rw [Mem.writeL, ih, Mem.read_write]
    by_cases h1 : x = a
    · subst h1
      have h2 : ¬ (x + 1 ≤ x ∧ x < x + 1 + bs.length) := by omega
      rw [if_neg h2]
      simp
    · by_cases h2 : a + 1 ≤ x ∧ x < a + 1 + bs.length
      · have h3 : a ≤ x ∧ x < a + (b :: bs).length := by simp; omega
        obtain ⟨n, rfl⟩ : ∃ n, x = a + 1 + n := ⟨x - (a + 1), by omega⟩
        rw [if_pos h2, if_pos h3, show a + 1 + n - (a + 1) = n by omega, show a + 1 + n - a = n + 1 by omega]
        rfl
      · have h3 : ¬ (a ≤ x ∧ x < a + (b :: bs).length) := by simp; omega
        rw [if_neg h2, if_neg h3, if_neg h1]

/-- Outside the bytes written, memory reads as before. -/
theorem Mem.read_writeL_outside (m : Mem) {a x : Nat} {bs : List Byte} (h : x < a ∨ a + bs.length ≤ x) :
    (m.writeL a bs).read x = m.read x := by
  rw [Mem.read_writeL, if_neg (by omega)]

theorem Mem.read_clear (m : Mem) (lo hi x : Nat) : (m.clear lo hi).read x = if lo ≤ x ∧ x < hi then memDefault else m.read x := by
  rw [Mem.clear, Mem.read_filter (fun j => decide (j < lo ∨ hi ≤ j))]
  by_cases h : lo ≤ x ∧ x < hi
  · have : ¬ (x < lo ∨ hi ≤ x) := by omega
    simp [h, this]
  · have : x < lo ∨ hi ≤ x := by omega
    simp [h, this]

end Sys2Proof.Machine
end

