-- ==== Sys2Proof/Laws/Run.lean ====
section
/-! SUPPORT. What running a command can answer, said once: always a next state, that of its effect where its units exist and the
same state where they do not. -/

namespace Sys2Proof.Machine

variable {s t : State} {ok : Bool}

theorem State.run_true (s : State) (f : State → State) : s.run true f = .next (f s) := rfl
theorem State.run_false (s : State) (f : State → State) : s.run false f = .next s := rfl
theorem State.runP_true (s : State) (f : Panel → Panel) : s.runP true f = .next { s with p := f s.p } := rfl
theorem State.runP_false (s : State) (f : Panel → Panel) : s.runP false f = .next s := rfl

/-- What a command answers. -/
theorem State.run_next_iff {f : State → State} : s.run ok f = .next t ↔ t = if ok then f s else s := by
  simp [State.run, eq_comm]

theorem State.runP_next_iff {f : Panel → Panel} : s.runP ok f = .next t ↔ t = if ok then s.onP f else s := State.run_next_iff

/-- A command always answers a next state. -/
theorem State.run_completes (s : State) (ok : Bool) (f : State → State) : ∃ t, s.run ok f = .next t := ⟨_, rfl⟩
theorem State.runP_completes (s : State) (ok : Bool) (f : Panel → Panel) : ∃ t, s.runP ok f = .next t := ⟨_, rfl⟩

/-- A command that runs on the panel alone leaves the memory and the queue. -/
theorem State.runP_frame {f : Panel → Panel} (h : s.runP ok f = .next t) : t.mem = s.mem ∧ t.pending = s.pending := by
  obtain rfl := State.runP_next_iff.mp h
  cases ok <;> exact ⟨rfl, rfl⟩

/-- A property of the panel that an effect keeps, the command keeps. -/
theorem State.runP_keeps {P : Panel → Prop} {f : Panel → Panel} (hf : ∀ p, P p → P (f p)) (h : s.runP ok f = .next t) (hp : P s.p) : P t.p := by
  obtain rfl := State.runP_next_iff.mp h
  cases ok
  · exact hp
  · exact hf _ hp

end Sys2Proof.Machine
end

