-- ==== Sys2Proof/Laws/Issue.lean ====
section
/-! SUPPORT. What issuing a slot can do, said once for each kind of slot: the operation's effect where it is legal and its
predicate lets it execute, the open bundle where the predicate does not, the fault where it is illegal, and nothing where
the slot may not issue. -/

namespace Sys2Proof.Machine

variable {k : Nat} {sl : Slot} {w : SlotWord} {s : State} {p : Panel}

@[simp] theorem openBundle_a (sl : Slot) (c : Core) : (openBundle sl c).a = c.a := by
  unfold openBundle; split <;> rfl
@[simp] theorem onA_a (f : CoreA → CoreA) (c : Core) : (onA f c).a = f c.a := rfl
@[simp] theorem issued_mem (f : CoreA → CoreA) : (issued k sl f s).mem = s.mem := rfl
@[simp] theorem issued_pending (f : CoreA → CoreA) : (issued k sl f s).pending = s.pending := rfl
@[simp] theorem issued_a (f : CoreA → CoreA) : coreA k (issued k sl f s) = f (coreA k s) := by
  simp [coreA, issued]
theorem issued_other (f : CoreA → CoreA) {j : Nat} (h : j ≠ k) : (issued k sl f s).p.getCore j = s.p.getCore j :=
  Panel.setCore_ne _ _ h

@[simp] theorem onA_id (c : Core) : onA id c = c := rfl

/-- Only what the effect does to the core as it stands matters. -/
theorem issued_congr {f g : CoreA → CoreA} (h : f (coreA k s) = g (coreA k s)) : issued k sl f s = issued k sl g s := by
  simp only [issued, onA, openBundle_a]
  rw [h]

/-- Every case of an issue in slots S, V0, V1 and M. -/
theorem issueP_cases (static dyn : Bool) (eff : Core → Core) :
    issueP k sl w static dyn eff p = p
    ∨ issueP k sl w static dyn eff p = p.setCore k (eff (openBundle sl (p.getCore k)))
    ∨ issueP k sl w static dyn eff p = p.setCore k (openBundle sl (p.getCore k))
    ∨ issueP k sl w static dyn eff p = illegal k sl (p.setCore k (openBundle sl (p.getCore k))) := by
  unfold issueP
  dsimp only
  repeat' split
  all_goals simp

theorem issueP_legal (hi : canIssue k sl p = true) (he : executes (p.getCore k).a w = true) (eff : Core → Core) :
    issueP k sl w true true eff p = p.setCore k (eff (openBundle sl (p.getCore k))) := by
  simp [issueP, hi, he]

theorem issueP_illegal (hi : canIssue k sl p = true) (he : executes (p.getCore k).a w = true) {static dyn : Bool}
    (h : (static && dyn) = false) (eff : Core → Core) :
    issueP k sl w static dyn eff p = illegal k sl (p.setCore k (openBundle sl (p.getCore k))) := by
  simp [issueP, hi, he, h]

theorem issueP_skipped (hi : canIssue k sl p = true) (he : executes (p.getCore k).a w = false) (dyn : Bool) (eff : Core → Core) :
    issueP k sl w true dyn eff p = p.setCore k (openBundle sl (p.getCore k)) := by
  simp [issueP, hi, he]

theorem issueS_legal (hi : canIssue k sl s.p = true) (he : executes (s.p.getCore k).a w = true) (eff : Core → Mem → Core × Mem) :
    issueS k sl w true true eff s =
      let r := eff (openBundle sl (s.p.getCore k)) s.mem
      { s with mem := r.2, p := s.p.setCore k r.1 } := by
  simp [issueS, hi, he]

theorem issueS_illegal (hi : canIssue k sl s.p = true) (he : executes (s.p.getCore k).a w = true) {static dyn : Bool}
    (h : (static && dyn) = false) (eff : Core → Mem → Core × Mem) :
    issueS k sl w static dyn eff s = illegalS k sl (openBundle sl (s.p.getCore k)) s := by
  simp [issueS, hi, he, h]

theorem issueC_legal (hi : canIssue k .c s.p = true) (he : executes (s.p.getCore k).a w = true) (eff : Core → Core) :
    issueC k w true true eff s = { s with p := closeBundle k (s.p.setCore k (eff (openBundle .c (s.p.getCore k)))) } := by
  simp [issueC, hi, he]

theorem foldl_setNum_wf {α : Type} (f : α → Nat × Nat × Nat) (l : List α) {m : Mem} (h : m.wf = true) :
    (l.foldl (fun m w => m.setNum (f w).1 (f w).2.1 (f w).2.2) m).wf = true := by
  induction l generalizing m with
  | nil => exact h
  | cons e t ih => exact ih (Mem.wf_setNum h ..)

theorem memWith_wf (f : CycW → Bool) (ws : List CycW) {m : Mem} (h : m.wf = true) : (memWith f ws m).wf = true :=
  
  foldl_setNum_wf (fun w : CycW => (w.ga, w.n, w.v)) _ (foldl_setNum_wf (fun w : CycW => (w.ga, w.n, w.old)) _ h)

theorem undoBundle_wf (c : Core) {m : Mem} (h : m.wf = true) : (undoBundle c m).2.wf = true := memWith_wf _ _ h
theorem schedWrite_wf (rk : Rank) (ga n v : Nat) (c : Core) {m : Mem} (h : m.wf = true) : (schedWrite rk ga n v c m).2.wf = true := memWith_wf _ _ h

theorem illegalS_wf (c : Core) (h : s.mem.wf = true) : (illegalS k sl c s).mem.wf = true := undoBundle_wf c h

/-- Issuing a slot keeps the memory canonical where its effect does. -/
theorem issueS_wf (static dyn : Bool) {eff : Core → Mem → Core × Mem} (hw : ∀ c (m : Mem), m.wf = true → (eff c m).2.wf = true)
    (h : s.mem.wf = true) : (issueS k sl w static dyn eff s).mem.wf = true := by
  unfold issueS
  dsimp only
  repeat' split
  all_goals first | exact hw _ _ h | exact illegalS_wf _ h | exact h

theorem issueC_wf (static dyn : Bool) (eff : Core → Core) (h : s.mem.wf = true) : (issueC k w static dyn eff s).mem.wf = true := by
  unfold issueC
  dsimp only
  repeat' split
  all_goals first | exact illegalS_wf _ h | exact h

theorem issueS_pending (static dyn : Bool) (eff : Core → Mem → Core × Mem) :
    (issueS k sl w static dyn eff s).pending = s.pending := by
  unfold issueS
  dsimp only
  repeat' split
  all_goals rfl

theorem issueC_pending (static dyn : Bool) (eff : Core → Core) : (issueC k w static dyn eff s).pending = s.pending := by
  unfold issueC
  dsimp only
  repeat' split
  all_goals rfl

/-- A legal operation of slots S, V0, V1 and M answers the issued state. -/
theorem Issues.runP (h : Issues k sl w s) {static dyn : Bool} (hs : static = true) (hd : dyn = true) (f : CoreA → CoreA) :
    s.runP (isCore k) (issueP k sl w static dyn (onA f)) = .next (issued k sl f s) := by
  obtain ⟨h1, h2, h3⟩ := h
  subst hs hd
  rw [h1, State.runP_true, issueP_legal h2 h3]
  rfl

/-- As `Issues.runP`, for an effect that agrees on the core as it stands. -/
theorem Issues.runP' (h : Issues k sl w s) {static dyn : Bool} (hs : static = true) (hd : dyn = true) (f : CoreA → CoreA)
    {g : CoreA → CoreA} (hg : f (coreA k s) = g (coreA k s)) :
    s.runP (isCore k) (issueP k sl w static dyn (onA f)) = .next (issued k sl g s) :=
  (h.runP hs hd f).trans (congrArg _ (issued_congr hg))

end Sys2Proof.Machine
end

