-- ==== Sys2Proof/Laws/Canonical.lean ====
section
/-! SUPPORT. The wider operations that write memory keep its canonical form: program stores, row words, parts of a scratchpad,
scheduled writes at the end of a run cycle, writes by global address, the clearing of a die reset. -/

namespace Sys2Proof.Machine

/-- What every element keeps, all of them keep. -/
theorem each_keeps {α β : Type} {P : β → Prop} (l : List α) {f : α → β → β} (h : ∀ a b, P b → P (f a b)) {b : β} (hb : P b) : P (each l f b) := by
  unfold each
  induction l generalizing b with
  | nil => exact hb
  | cons a t ih => exact ih (h a b hb)

variable {s : State}

theorem putProgram_wf (k off : Nat) (d : List Byte) (h : s.mem.wf = true) : (putProgram k off d s).mem.wf = true := by
  unfold putProgram; exact Mem.wf_writeL h _ _
theorem stackPutWord_wf (c w x : Nat) (h : s.mem.wf = true) : (stackPutWord c w x s).mem.wf = true := by
  unfold stackPutWord; dsimp only; exact Mem.wf_setNum h _ _ _

theorem stackWrite_wf (rows : RowChks) (c a : Nat) (d : List Byte) (h : s.mem.wf = true) : (stackWrite rows c a d s).mem.wf = true :=
  each_keeps (P := fun s : State => s.mem.wf = true) _ (fun _ _ h => Mem.wf_writeL h _ _) h

theorem writePart_wf (k a : Nat) (d : List Byte) (e : Ecc) (act : Bool → Panel → Panel) (h : s.mem.wf = true) :
    (writePart k a d e act s).mem.wf = true := by
  unfold writePart
  dsimp only
  split
  · exact Mem.wf_writeL h _ _
  · exact h

/-- A granted part keeps it, whichever kind it is. -/
theorem performPart_wf (k : Nat) (x : UPart) (e : Ecc) (h : s.mem.wf = true) : (performPart k x e s).mem.wf = true := by
  unfold performPart
  dsimp only
  split
  · exact Mem.wf_writeL h _ _
  · unfold bumpFree; split <;> exact h
  · exact writePart_wf _ _ _ _ _ h
  · exact h
  · exact writePart_wf _ _ _ _ _ h
  · exact h

theorem putSched_wf (k : Nat) (w : CycW) (off : Nat) (h : s.mem.wf = true) : (putSched k w off s).mem.wf = true := schedWrite_wf _ _ _ _ _ h

theorem captureStream_wf (k : Nat) (st : Stream) (h : s.mem.wf = true) : (captureStream k st s).mem.wf = true := by
  unfold captureStream
  dsimp only
  repeat' split
  · exact h
  · rw [State.onP]; dsimp only; exact putSched_wf _ _ _ h
  · exact h

theorem captureAll_wf (k : Nat) (h : s.mem.wf = true) : (captureAll k s).mem.wf = true :=
  each_keeps (P := fun s : State => s.mem.wf = true) _ (fun st _ h => captureStream_wf k st h) h

theorem landCore_wf (k : Nat) (h : s.mem.wf = true) : (landCore k s).mem.wf = true :=
  each_keeps (P := fun s : State => s.mem.wf = true) _ (fun _ _ h => by unfold landOneRecv; exact schedWrite_wf _ _ _ _ _ h) h

/-- A core's end of a run cycle. -/
theorem endCycle_wf (k : Nat) (h : s.mem.wf = true) : (endCycle k s).mem.wf = true := landCore_wf k (captureAll_wf k h)

theorem gaPut_wf (hub : Bool) (who : Asker) (rows : RowChks) (a : Nat) (d : List Byte) (h : s.mem.wf = true) :
    (gaPut hub who rows a d s).2.mem.wf = true := by
  unfold gaPut
  repeat' split
  all_goals first | exact stackWrite_wf _ _ _ _ h | exact putProgram_wf _ _ _ h | exact h

/-- A write by global address, allowed or refused. -/
theorem gaWrite_wf (b : By) (who : Asker) (a : Nat) (d : List Byte) (rows : RowErrs) (h : s.mem.wf = true) :
    (gaWrite b who a d rows s).2.mem.wf = true := by
  unfold gaWrite
  dsimp only
  repeat' split
  all_goals first | exact h | exact gaPut_wf _ _ _ _ _ h

/-- A die reset that completes, of a partition too. -/
theorem endDieReset_wf (c : Nat) (h : s.mem.wf = true) : (endDieReset c s).mem.wf = true := by
  unfold endDieReset
  split
  · exact h
  · simp only [State.onP]
    split
    · refine each_keeps (P := fun s : State => s.mem.wf = true) _ (fun k t h => ?_) h
      dsimp only
      split
      · exact Mem.wf_clear (Mem.wf_clear h _ _) _ _
      · exact Mem.wf_clear h _ _
    · exact h

end Sys2Proof.Machine
end

