-- ==== Sys2Proof/Laws/Seal.lean ====
section
/-! SUPPORT. Laws of sealing: what a key has sealed, the same key opens (R471, R473, R520). -/

namespace Sys2Proof.Machine

@[simp] theorem length_leBytes : ∀ n x : Nat, (leBytes n x).length = n
  | 0, _ => rfl
  | n + 1, x => by simp [leBytes, length_leBytes n]

theorem length_xorBytes (a b : List Byte) : (xorBytes a b).length = min a.length b.length := List.length_zipWith

/-- A stream at least as long as the text comes off again. -/
theorem xorBytes_twice : ∀ a k : List Byte, a.length ≤ k.length → xorBytes (xorBytes a k) k = a
  | [], _, _ => rfl
  | x :: a, [], h => absurd h (by simp)
  | x :: a, y :: k, h => by
    have t := xorBytes_twice a k (by simpa using h)
    simp only [xorBytes, List.zipWith_cons_cons] at t ⊢
    rw [t, BitVec.xor_assoc, BitVec.xor_self, BitVec.xor_zero]

theorem length_turnRows (k : Nat) (b : List Byte) : (turnRows k b).length = 16 := by simp [turnRows]
theorem length_mixColumns (r b : List Byte) : (mixColumns r b).length = 16 := by simp [mixColumns]

theorem length_encryptRounds : ∀ (ks : List (List Byte)) (b : List Byte), ks ≠ [] → (∀ k ∈ ks, k.length = 16) →
    (encryptRounds ks b).length = 16
  | [], _, h, _ => absurd rfl h
  | [k], b, _, h => by simp [encryptRounds, length_xorBytes, length_turnRows, h k (by simp)]
  | k :: l :: ks, b, _, h => by
    rw [encryptRounds]
    · exact length_encryptRounds (l :: ks) _ (by simp) (fun x hx => h x (by simp [hx]))
    · simp

/-- The pieces of a text of that many whole pieces have its length. -/
theorem length_of_mem_pieces (k : Nat) : ∀ (n : Nat) (b : List Byte), b.length = k * n → ∀ x ∈ pieces k n b, x.length = k
  | 0, _, _, x, hx => by simp [pieces] at hx
  | n + 1, b, h, x, hx => by
    rw [pieces, List.mem_cons] at hx
    rw [Nat.mul_succ] at h
    rcases hx with rfl | hx
    · rw [List.length_take]; omega
    · exact length_of_mem_pieces k n _ (by rw [List.length_drop]; omega) x hx

theorem length_pieces (k : Nat) : ∀ (n : Nat) (b : List Byte), (pieces k n b).length = n
  | 0, _ => rfl
  | n + 1, b => by simp [pieces, length_pieces k n]

theorem length_nextKeyWord (i : Nat) (ws : List (List Byte)) (h : 8 ≤ ws.length) (h4 : ∀ w ∈ ws, w.length = 4) :
    (nextKeyWord i ws).length = 4 := by
  have e : (ws.getD 7 []).length = 4 := by
    rw [List.getD_eq_getElem?_getD, List.getElem?_eq_getElem (by omega)]; exact h4 _ (List.getElem_mem _)
  have l : (ws.headD []).length = 4 := by
    match ws, h, h4 with
    | w :: ws, _, h4 => exact h4 w (by simp)
  rw [List.headD_eq_head?_getD] at l
  unfold nextKeyWord
  rw [length_xorBytes, e]
  by_cases a : i % 8 = 0
  · simp [a, length_xorBytes, through, l]
  · by_cases b : i % 8 = 4 <;> simp [a, b, through, l]

/-- The schedule grown by `n` words has `n` words more, each of four bytes. -/
theorem keyWords (n : Nat) : ∀ ws : List (List Byte), 8 ≤ ws.length → (∀ w ∈ ws, w.length = 4) →
    let r := (List.range n).foldl (fun ws n => nextKeyWord (n + 8) ws :: ws) ws
    r.length = ws.length + n ∧ ∀ w ∈ r, w.length = 4 := by
  induction n with
  | zero => intro ws _ h; exact ⟨rfl, h⟩
  | succ n ih =>
    intro ws h8 h4
    obtain ⟨l, a⟩ := ih ws h8 h4
    simp only [List.range_succ, List.foldl_append, List.foldl_cons, List.foldl_nil, List.length_cons, List.mem_cons]
    refine ⟨by omega, ?_⟩
    rintro w (rfl | hw)
    · exact length_nextKeyWord _ _ (by omega) a
    · exact a w hw

theorem length_flatten_of (k : Nat) : ∀ l : List (List Byte), (∀ x ∈ l, x.length = k) → l.flatten.length = k * l.length
  | [], _ => by simp
  | x :: l, h => by
    simp only [List.flatten_cons, List.length_append, List.length_cons, Nat.mul_succ]
    rw [h x (by simp), length_flatten_of k l (fun y hy => h y (by simp [hy]))]; omega

/-- A 32-byte key has fifteen round keys of sixteen bytes. -/
theorem roundKeys_shape (key : List Byte) (h : key.length = 32) :
    (roundKeys key).length = 15 ∧ ∀ k ∈ roundKeys key, k.length = 16 := by
  unfold roundKeys
  obtain ⟨l, a⟩ := keyWords 52 (pieces 4 8 key).reverse (by simp [length_pieces])
    (fun w hw => length_of_mem_pieces 4 8 key h w (by simpa using hw))
  refine ⟨length_pieces _ _ _, length_of_mem_pieces 16 15 _ ?_⟩
  rw [length_flatten_of 4 _ (fun x hx => a x (by simpa using hx)), List.length_reverse, l]
  simp [length_pieces]

/-- A block enciphered under a 32-byte key is a block. -/
theorem length_encryptBlock (key b : List Byte) (h : key.length = 32) : (encryptBlock (roundKeys key) b).length = 16 := by
  obtain ⟨l, a⟩ := roundKeys_shape key h
  refine length_encryptRounds _ _ (fun e => ?_) (fun k hk => a k (List.mem_of_mem_drop hk))
  have := congrArg List.length e
  simp [l] at this

theorem length_keyStream (key nonce : List Byte) (n : Nat) (h : key.length = 32) :
    ((List.range n).flatMap fun i => encryptBlock (roundKeys key) (nonce ++ (leBytes 4 (i + 2)).reverse)).length = 16 * n := by
  rw [List.flatMap_def, length_flatten_of 16 _ (by simp; intro i _; exact length_encryptBlock _ _ h)]; simp

theorem length_gcmStream (key nonce text : List Byte) (h : key.length = 32) :
    (gcmStream (roundKeys key) nonce text).length = text.length := by
  rw [gcmStream, length_xorBytes, length_keyStream _ _ _ h]; unfold ceilDiv; omega

/-- The stream of a nonce put on twice comes off. -/
theorem gcmStream_twice (key nonce text : List Byte) (h : key.length = 32) :
    gcmStream (roundKeys key) nonce (gcmStream (roundKeys key) nonce text) = text := by
  have e := length_gcmStream key nonce text h
  rw [gcmStream, e, gcmStream]
  refine xorBytes_twice _ _ ?_
  rw [length_keyStream _ _ _ h]; unfold ceilDiv; omega

theorem length_gcmTag (key nonce aad text : List Byte) (h : key.length = 32) : (gcmTag (roundKeys key) nonce aad text).length = 16 := by
  simp [gcmTag, length_xorBytes, natBlock, length_encryptBlock _ _ h]

/-- What is sealed under a 32-byte key opens under it to the text. -/
theorem gcmOpen_gcmSeal (key nonce aad text : List Byte) (h : key.length = 32) :
    gcmOpen key nonce aad (gcmSeal key nonce aad text).1 (gcmSeal key nonce aad text).2 = some text := by
  simp [gcmOpen, gcmSeal, gcmStream_twice _ _ _ h]

@[simp] theorem length_cellBytes (c : Cell) : (cellBytes c).length = 48 := by simp [cellBytes]
@[simp] theorem length_frameTrailer (f : LinkFrame) : (frameTrailer f).length = 8 := by simp [frameTrailer]
@[simp] theorem length_frameCells (f : LinkFrame) : (frameCells f).length = 960 := by
  rw [frameCells, List.flatMap_def, length_flatten_of 48 _ (by simp)]; simp

theorem part_frame (c k t : List Byte) (hc : c.length = 960) (hk : k.length = 8) :
    partCells (c ++ k ++ t) = c ∧ partCheck (c ++ k ++ t) = k ∧ partTrailer (c ++ k ++ t) = t.take 8 := by
  refine ⟨by simp [partCells, hc], by simp [partCheck, hc, hk], ?_⟩
  have : (c ++ k).length = 968 := by simp [hc, hk]
  rw [partTrailer, List.drop_append, this]; simp [List.drop_eq_nil_of_le, this]

/-- A pair sealed under 32 bytes of key and a salt opens, at the same count, to its two frames as their bytes carry them. -/
theorem openPair_sealPair (key : List Byte) (n : Nat) (f g : LinkFrame) (h : 32 ≤ key.length) :
    openPair key n ((sealPair key n f g).getD 0 []) ((sealPair key n f g).getD 1 [])
      = some (readFrame (frameCells f) (frameTrailer f), readFrame (frameCells g) (frameTrailer g)) := by
  have k : (key.take 32).length = 32 := by rw [List.length_take]; omega
  let x := gcmSeal (key.take 32) (pairNonce key n) (frameTrailer f ++ frameTrailer g) (frameCells f ++ frameCells g)
  have l1 : x.1.length = 1920 := by simp [x, gcmSeal, length_gcmStream _ _ _ k]
  have l2 : x.2.length = 16 := by simp only [x, gcmSeal]; exact length_gcmTag _ _ _ _ k
  obtain ⟨a1, a2, a3⟩ := part_frame (x.1.take 960) (x.2.take 8) (frameTrailer f) (by simp [l1]) (by simp [l2])
  obtain ⟨b1, b2, b3⟩ := part_frame (x.1.drop 960) (x.2.drop 8) (frameTrailer g) (by simp [l1]) (by simp [l2])
  have o := gcmOpen_gcmSeal (key.take 32) (pairNonce key n) (frameTrailer f ++ frameTrailer g) (frameCells f ++ frameCells g) k
  unfold openPair sealPair
  simp only [List.getD_cons_zero, List.getD_cons_succ]
  rw [a1, a2, a3, b1, b2, b3]
  simp only [List.take_append_drop, List.take_of_length_le (Nat.le_of_eq (length_frameTrailer f)),
    List.take_of_length_le (Nat.le_of_eq (length_frameTrailer g))]
  rw [o]
  simp

/-- The two frames of a sealed pair have the length of frames. -/
theorem length_sealPair (key : List Byte) (n : Nat) (f g : LinkFrame) (h : 32 ≤ key.length) :
    ((sealPair key n f g).getD 0 []).length = 976 ∧ ((sealPair key n f g).getD 1 []).length = 976 := by
  have k : (key.take 32).length = 32 := by rw [List.length_take]; omega
  unfold sealPair
  simp only [List.getD_cons_zero, List.getD_cons_succ, gcmSeal, List.length_append, List.length_take, List.length_drop,
    length_gcmStream _ _ _ k, length_gcmTag _ _ _ _ k, length_frameCells, length_frameTrailer]
  decide

end Sys2Proof.Machine
end

