-- ==== Sys2Proof/Machine/BarZero.lean ====
section
/-! DEFINITION. What BAR 0 of a function reads as on a port (R312, R313, R315, R317, R330, R334). No row of the table is a read
of BAR 0, and none changes the panel. -/

namespace Sys2Proof.Machine

/-- IDENT (R312). -/
def identWord (p : Panel) (hp f : Nat) : Nat :=
  0x4D4C5950 * 2 ^ 32 + p.variant * 2 ^ 24 + (if f = 0 then 0xFF else f - 1) * 2 ^ 16 + hp * 2 ^ 8 + 1

/-- HSTAT (R312). -/
def hstatWord (p : Panel) (hp : Nat) : Nat :=
  b2n (decide (hp = activePort p)) * 2 ^ 63 + b2n p.boot.ready * 2 ^ 62 + b2n p.host.taken * 2 ^ 61 + p.book.tgen * 2 ^ 40

/-- The 8 bytes at an offset of a list of bytes that zeros continue. -/
def wordOf (l : List Byte) (o : Nat) : Nat := leNat ((l.drop o).take 8)

/-- The aligned 8 bytes of BAR 0 at an offset: the values in force, which the standby port mirrors; ICAUSE, the mailbox buffers
and the MSI-X table belong to one port (R312, R313). -/
def bar0Word (p : Panel) (hp f o : Nat) : Nat :=
  let x := p.getFn f
  let mine (n : Nat) : Nat := if hp = activePort p then n else 0
  let inSpan (a b : Nat) : Bool := decide (a ≤ o) && decide (o < b)
  if o = 0 then identWord p hp f
  else if o = 0x100 then hstatWord p hp
  else if o = 0x108 then mine x.icause
  else if inSpan 0x1000 0x1100 then (if o % 16 = 0 then (Tab.get 0 x.slices ((o - 0x1000) / 16)).toNat else 0)
  else if inSpan 0x2000 0x2200 then wordOf (queueBytes (x.sqOf ((o - 0x2000) / 32)) false true) (o % 32)
  else if inSpan 0x2200 0x2400 then wordOf (queueBytes (x.cqOf ((o - 0x2200) / 32)) true false) (o % 32)
  else if inSpan 0x2400 0x2420 then wordOf (queueBytes x.ring false false) (o % 32)
  else if o = 0x4000 then x.reqLen
  else if o = 0x4008 then b2n x.busy * 2 ^ 63 + x.rspLen
  else if inSpan 0x10000 0x20000 then mine (wordOf x.req (o - 0x10000))
  else if inSpan 0x20000 0x30000 then mine (wordOf x.rsp (o - 0x20000))
  else if inSpan 0x30000 0x30200 then (msixVec p f hp ((o - 0x30000) / 16)).toNat / 2 ^ (8 * (o % 16)) % 2 ^ 64
  else if o = 0x31000 then Tab.get 0 x.pend hp
  else 0

/-- A read of `n` bytes of BAR 0: zero unless it is 4 or 8 bytes, naturally aligned (R312). -/
def bar0Read (p : Panel) (hp f off n : Nat) : Nat :=
  if (n = 4 ∨ n = 8) ∧ off % n = 0 then bar0Word p hp f (off / 8 * 8) / 2 ^ (8 * (off % 8)) % 2 ^ (8 * n) else 0

end Sys2Proof.Machine
end

