-- ==== Sys2Proof/Tests/Slice0.lean ====
section
/-! SUPPORT. Tests: ill-formed commands, small cases worked by hand from the spec, and for each obligation states and
operands that meet its hypotheses. -/

open Sys2Proof Sys2Proof.Machine

set_option exponentiation.threshold 600
set_option Elab.async false

namespace Sys2Proof.Tests

/-- The reset panel, changed. -/
abbrev onReset (f : Panel → Panel) : State := { State.reset with p := f Panel.reset }

/-- Core 68, the first core of site 0x11, running its first bundle, its architectural part changed. -/
abbrev running (f : CoreA → CoreA) : State :=
  onReset (Panel.setCore 68 { coreInit 68 with a := f { coreA0 with run := .running } })

/-- A slot word under p0. -/
abbrev word (dst sa sb sc : BitVec 6) (imm : BitVec 27) : SlotWord := ⟨0, false, dst, sa, sb, sc, imm⟩

theorem witness_ScalarTwoRegisterResults : Issues 68 .s (word 1 2 3 0 0) (running id) := by decide
theorem witness_ScalarImmediatesComparesAndNop :
    let s := running id
    Issues 68 .s (word 15 2 3 0 63) s ∧ SlotW.imm (word 15 2 3 0 63) 26 6 = 0
      ∧ ((0 : BitVec 6) ++ (0 : BitVec 6) ++ (0 : BitVec 6) ++ (524287 : BitVec 27)).toNat < 2 ^ 19
      ∧ SlotW.imm (word 1 0 0 0 7) 4 0 = 7
      ∧ 4 ≤ SlotW.imm (word 1 2 0 0 6) 4 0 ∧ SlotW.imm (word 1 2 0 0 6) 4 0 ≤ 7 ∧ (rdS (coreA 68 s) 2).toNat ≤ 2
      ∧ SlotW.dst (word 15 2 3 0 63) < 16 ∧ canIssue 68 .c s.p = true := by decide
theorem witness_VectorLaneArithmetic :
    Issues 68 .v0 (word 1 2 3 4 0x6000000) (running id) ∧ SlotW.et (word 1 2 3 4 0x6000000) ≤ 6 := by decide
theorem witness_IntegerVectorArithmeticWraps :
    Issues 68 .v1 (word 1 2 3 4 0x3000000) (running id) ∧ 3 ≤ SlotW.et (word 1 2 3 4 0x3000000)
      ∧ SlotW.et (word 1 2 3 4 0x6000000) ≤ 6 := by decide
theorem witness_VectorBitAndMaskOperations :
    Issues 68 .v0 (word 7 2 3 7 0x6000000) (running id) ∧ SlotW.sc (word 7 2 3 7 0x6000000) < 8
      ∧ SlotW.et (word 7 2 3 7 0x6000000) ≤ 6 ∧ SlotW.dst (word 7 2 3 7 0x6000000) < 8 := by decide
theorem witness_VectorFunctionsConversionsAndSums :
    let s := running fun a => { a with rc := 2, lastT := [(0, 1)] }
    Issues 68 .v0 (word 1 2 3 0 0x200000) s ∧ SlotW.et (word 1 2 3 0 0x200000) = 0
      ∧ Tab.get 0 (coreA 68 s).lastT (vNum .v0) + 1 ≤ (coreA 68 s).rc ∧ cvtOk (word 1 2 3 0 0x200000) = true
      ∧ exStart (word 1 2 3 0 0x280000) = true := by decide
theorem witness_MatrixOperations :
    let s := running fun a => { a with feed := [0] }
    let w := word 1 0 0 0 0x77
    Issues 68 .m w s ∧ SlotW.imm w 7 4 ≤ 7 ∧ SlotW.imm w 3 0 ≤ 7 ∧ mmulOk (coreA 68 s) w = true
      ∧ rowsOk (coreA 68 s).fmtB (clrRows (coreA 68 s) w) = true := by decide

/-- Site 0x11 executes segment 0: at cycle 0 a cell of track 0 of core 0 goes north, and one from the north to that track;
the site is a member of partition 0. -/
abbrev networked (s : State) : State :=
  s.onP fun p => (p.modRtr 17 fun r => { r with
    exec := some 0, seg := [(0, BitVec.ofNat 128 (2 ^ 64 + 4 * 2 ^ 33 + 2 * 2 ^ 16))],
    hop := [(0, BitVec.ofNat 64 (0x80 * 2 ^ 40)), (1, BitVec.ofNat 64 (0x80 * 2 ^ 29))] }).modPart 0 fun x => { x with members := [17] }

/-- Changes to core 68 outside its architectural part. -/
abbrev withCore (f : Core → Core) (s : State) : State := s.onP fun p => p.modCore 68 f

theorem witness_LoadsAndStoresOfTheScratchpad :
    let s := running fun a => { a with s := [(2, 0x3FFFF00)] }
    let t := running fun a => { a with s := [(2, 0x3FFFFE0)] }
    Issues 68 .l0 (word 1 2 0 3 0) s ∧ lOk (lAddr (coreA 68 s) (word 1 2 0 3 0)) 256 256 = true
      ∧ Issues 68 .l1 (word 7 2 0 7 0) t ∧ lOk (lAddr (coreA 68 t) (word 7 2 0 7 0)) 32 32 = true
      ∧ SlotW.dst (word 7 2 0 7 0) < 8 ∧ SlotW.dst (word 31 2 0 7 0) < 32 ∧ SlotW.sc (word 7 2 0 7 0) < 8 := by decide
theorem witness_StreamsStartSlotsDropAndAFullSlotIsRead :
    let s := withCore (fun c => { c with stg := 1 }) (running fun a => { a with
      d := [(1, BitVec.ofNat 256 (2 * 2 ^ 252)), (2, BitVec.ofNat 256 (5 * 2 ^ 252))], stage := [(4, ⟨.full, 0, false, 0⟩)] })
    let w := word 1 0 0 4 31
    Issues 68 .l0 w s ∧ SlotW.dst w < 32 ∧ srunOk s.p 68 .l0 w = true ∧ sraOk (s.p.getCore 68) .l0 (word 31 0 0 2 0) = true
      ∧ SlotW.sc w < 32 ∧ 0 < (s.p.getCore 68).stg ∧ 256 * SlotW.imm w 15 0 + 256 ≤ (s.p.getCore 68).slotBytes
      ∧ (coreA 68 s).hasFault = false ∧ (Tab.get stage0 (coreA 68 s).stage 4).st = .full
      ∧ (Tab.get stage0 (coreA 68 s).stage 4).ready ≤ (coreA 68 s).rc
      ∧ ¬ ((Tab.get stage0 (coreA 68 s).stage 5).st = .full ∧ (Tab.get stage0 (coreA 68 s).stage 5).ready ≤ (coreA 68 s).rc) := by decide
theorem witness_NetworkSlotOperations :
    let s := networked (running fun a => { a with
      d := [(1, BitVec.ofNat 256 (6 * 2 ^ 252)), (2, BitVec.ofNat 256 (7 * 2 ^ 252 + 2 ^ 192)), (3, 1)] })
    let a := coreA 68 s
    Issues 68 .n (word 1 0 0 0 31) s ∧ SlotW.dst (word 1 0 0 0 31) < 32 ∧ a.posts.length < 32 ∧ postOk s.p 68 true (rdD a 1) 0 = true
      ∧ postOk s.p 68 false (rdD a 2) 0 = true ∧ SlotW.dst (word 15 0 0 0 0) < 16 ∧ openOk s.p 68 63 (rdD a 0) = true
      ∧ openOk s.p 68 63 (rdD a 3) = false ∧ a.hasFault = false ∧ SlotW.imm (word 1 0 0 0 31) 26 5 = 0 := by decide
theorem witness_BranchesTakeTwoDelayBundles :
    let s := running fun a => { a with pc := 65534 }
    let a := { coreA0 with branch := some (65535, 2), pc := 65533 }
    let b := { coreA0 with branch := some (65535, 1), pc := 65533 }
    Issues 68 .c (word 0 0 0 0 65535) s ∧ (coreA 68 s).branch = none ∧ (coreA 68 s).skip = none ∧ inLoopTail (coreA 68 s) = false
      ∧ (coreA 68 s).pc + 1 < 65536 ∧ a.skip = none ∧ a.pc + 2 < 65536 ∧ a.branch = some (65535, 2)
      ∧ b.skip = none ∧ b.pc + 2 < 65536 ∧ b.branch = some (65535, 1) := by decide
theorem witness_LoopsRunTheirBodyCountTimes :
    let s := running fun a => { a with pc := 3, loops := [1], lc := [(1, ⟨2, 1, 65534⟩)] }
    let w := word 3 0 0 0 65534
    Issues 68 .c w s ∧ (coreA 68 s).branch = none ∧ (coreA 68 s).skip = none ∧ SlotW.dst w < 4 ∧ (coreA 68 s).pc + 1 ≤ SlotW.imm w 15 0
      ∧ SlotW.imm w 15 0 + 1 < 65536 ∧ loopOk (coreA 68 s) w = true
      ∧ ∀ i ∈ (coreA 68 s).loops, (Tab.get default (coreA 68 s).lc i).stop ≠ (coreA 68 s).pc := by decide
theorem witness_WaitsEventsAndHaltCloseTheBundle :
    let s := running id
    Issues 68 .c (word 15 0 0 0 65535) s ∧ (coreA 68 s).hasFault = false ∧ (coreA 68 s).branch = none ∧ (coreA 68 s).run = .running
      ∧ SlotW.dst (word 15 0 0 0 65535) < 16 := by decide
theorem witness_AnIllegalSlotFaultsTheCoreAndUndoesItsBundle :
    let s := running id
    Issues 68 .s (word 16 0 0 0 64) s ∧ (s.p.getCore 68).last = none ∧ (coreA 68 s).hasFault = false
      ∧ SlotW.imm (word 16 0 0 0 64) 26 6 ≠ 0 ∧ 16 ≤ SlotW.dst (word 16 0 0 0 64) ∧ SlotW.imm (word 0 0 0 0 4) 4 0 = 4
      ∧ 8 ≤ SlotW.imm (word 0 0 0 0 8) 4 0 ∧ SlotW.imm (word 0 0 0 0 3) 4 0 ≤ 3 := by decide
theorem witness_LandedWritesAreReadByLaterBundles :
    let s := running fun a => { a with rc := 7, issued := 8, inflight := [⟨7, .s 5 9⟩] }
    let t := running fun a => { a with rc := 7, run := .halting, inflight := [⟨7, .s 5 9⟩, ⟨7, .s 5 8⟩] }
    isCore 68 = true ∧ (s.p.getCore 68).last = none ∧ (coreA 68 s).inflight = [⟨(coreA 68 s).rc, .s 5 9⟩]
      ∧ (coreA 68 s).run = .running ∧ (coreA 68 s).rc < (coreA 68 s).issued ∧ (t.p.getCore 68).last = none
      ∧ (coreA 68 t).inflight = [⟨(coreA 68 t).rc, .s 5 9⟩, ⟨(coreA 68 t).rc, .s 5 8⟩] ∧ (coreA 68 t).run = .halting := by decide

/-- A stream of core 68 with one unit captured and due. -/
abbrev oneStream (kind unitg : Nat) : Stream :=
  { sid := 0, eng := 0, desc := BitVec.ofNat 256 (kind * 2 ^ 252 + unitg * 2 ^ 228), src := 0, dst := 0x3FFFE80, start := 0, bfmt := 0,
    slot := 0, captured := 1, delivered := 0, granted := 0, ahead := [], base := [], landed := 0, bufs := [5], pc := 0, dead := false }
/-- A late part of a window write of core 68. -/
abbrev winPart : UPart := ⟨1, .window, 255, 0, false, .win 63 0x3FFFFF8 [1, 2, 3, 4, 5, 6, 7, 8]⟩
/-- A window write to window 63, generation 1, from site 0x11. -/
abbrev winCell : Cell := ⟨BitVec.ofNat 64 (1 * 2 ^ 61 + 17 * 2 ^ 46 + 17 * 2 ^ 36), BitVec.ofNat 320 (63 * 2 ^ 58 + 2 ^ 42 + 7 * 2 ^ 37)⟩

theorem witness_StreamsDeliverWaitsEndProgramsEnd :
    let s := running fun a => { a with rc := 7, streams := [oneStream 4 5] }
    let t := running fun a => { a with rc := 7, streams := [oneStream 2 0], feed := List.replicate 15 0 }
    let w := running fun a => { a with rc := 7, run := .waiting, waits := [⟨.counter 15 0, 3, 2⟩] }
    let v := running fun a => { a with rc := 7, run := .waiting, waits := [⟨.sends, 9, 2⟩] }
    let h := running fun a => { a with run := .halting }
    let r := running fun a => { a with run := .resetting }
    isCore 68 = true ∧ (coreA 68 s).streams = [oneStream 4 5] ∧ (oneStream 4 5).delivered < (oneStream 4 5).captured
      ∧ unitCycle (oneStream 4 5) ≤ (coreA 68 s).rc ∧ Dsc.kind (oneStream 4 5).desc = 4
      ∧ (coreA 68 t).streams = [oneStream 2 0] ∧ unitCycle (oneStream 2 0) ≤ (coreA 68 t).rc ∧ Dsc.kind (oneStream 2 0).desc = 2
      ∧ Dsc.unit (oneStream 2 0).desc = mxRow (oneStream 2 0).bfmt ∧ 0 < mxRow (oneStream 2 0).bfmt ∧ (coreA 68 t).feed.length < 16
      ∧ (coreA 68 w).run = .waiting ∧ (coreA 68 w).waits = [⟨.counter 15 0, 3, 2⟩] ∧ waitMet (coreA 68 w) (.counter 15 0) = true
      ∧ (coreA 68 v).waits = [⟨.sends, 9, 2⟩] ∧ waitMet (coreA 68 v) .sends = true ∧ (∀ f ∈ (coreA 68 v).inflight, isRegWrite f.w = false)
      ∧ (coreA 68 h).run = .halting ∧ (coreA 68 h).waits = [] ∧ (coreA 68 h).streams = [] ∧ (coreA 68 h).inflight = []
      ∧ (∀ q ∈ (coreA 68 h).posts, q.send = false) ∧ rowsPending h.p 68 = false
      ∧ (coreA 68 r).run = .resetting ∧ (r.p.getCore 68).clearing = 0 := by decide
theorem witness_UnscheduledAccessesAndWindows :
    let s := withCore (fun c => { c with parts := [winPart] }) ((running id).onP fun p => p.modClk 17 fun x => { x with clk := 1025 })
    let w := withCore (fun c => { c with missDue := 1, winq := [winCell] }) (running fun a => { a with
      win := [(62, { window0 with st := .closing }), (63, { window0 with st := .opened, gen := 1, desc := BitVec.ofNat 256 (15 * 2 ^ 84 + 15 * 2 ^ 80) })] })
    let v := withCore (fun c => { c with winq := [winCell] }) (running id)
    isCore 68 = true ∧ (255 < 256 ∧ 63 < 64) ∧ (coreA 68 s).run ≠ .resetting ∧ bankBusy (s.p.getCore 68) 255 = false
      ∧ (s.p.getCore 68).granted = [] ∧ winner (s.p.getCore 68) 255 = some (winPart, some 1)
      ∧ winPart.act = .win 63 0x3FFFFF8 [1, 2, 3, 4, 5, 6, 7, 8] ∧ (s.p.getCore 68).parts = [winPart] ∧ winPart.starved = false
      ∧ winPart.asked + dieCfg s.p (siteOf 68) 0x600C 1 < (s.p.getClk (siteOf 68)).clk
      ∧ 0 < (w.p.getCore 68).missDue ∧ (w.p.getCore 68).winq = [winCell] ∧ winCheck (coreA 68 w) winCell = none
      ∧ (v.p.getCore 68).winq = [winCell] ∧ winCheck (coreA 68 v) winCell = some 1
      ∧ (Tab.get window0 (coreA 68 w).win 62).st = .closing ∧ (Tab.get window0 (coreA 68 w).win 62).inflight = 0 := by decide
theorem witness_ControlSpaceAndProgramWrites :
    let s := onReset fun p => (p.modUnit 17 fun u => { u with st := .ready }).modStk 17 fun k => { k with ranges := [wholeRange 1 0], keys := [(0, 1)] }
    let r := (running id).onP (Panel.modUnit 17 fun u => { u with st := .ready })
    let ga := gaScratch 68 0x3FFFFF8
    isCore 68 = true ∧ siteOpen s.p (siteOf 68) = true ∧ coreIdle s.p 68 = true ∧ (7 = 6 → (1 : Word).toNat ≤ 2)
      ∧ (1 : Word).toNat ≤ 1 ∧ siteOpen r.p (siteOf 68) = true ∧ coreIdle r.p 68 = false
      ∧ programWritable s.p 68 (programBytes - 2) 2 = true ∧ programBytes - 2 + 2 ≤ programBytes
      ∧ gaAllowed s.p ⟨true, none⟩ ga 8 = true ∧ Ga.space ga = 1
      ∧ gaAllowed s.p ⟨true, none⟩ (gaStack 17 (stackBytes 1 - 8)) 8 = true ∧ Ga.space (gaStack 17 (stackBytes 1 - 8)) = 0
      ∧ (∀ w ∈ partRows (Ga.off (gaStack 17 (stackBytes 1 - 8))) 8, poisoned (s.p.getStk 17) w = false)
      ∧ gaAllowed s.p ⟨true, none⟩ (gaScratch 71 0x3FFFFF9) 8 = false := by decide

/-- A stream of kind 0 of one row word from row word 0 of the stack, as SRUN at cycle 0 starts it. -/
abbrev rowStream : Stream :=
  { sid := 0, eng := 0, desc := BitVec.ofNat 256 (3 * 2 ^ 228), src := 0, dst := 0x3FFFF00, start := 0, bfmt := 0, slot := 0, captured := 0,
    delivered := 0, granted := 0, ahead := [], base := [], landed := 0, bufs := [], pc := 0, dead := false }
/-- A granted row word of core 0 of its die. -/
abbrev rowReq (out : RowOutcome) : RowReq :=
  ⟨0, 0, 0, 0, 0, 0, 0x3FFFF00, 0, 0, 7, false, false, out⟩
/-- The stack of site 0x11 changed. -/
abbrev withStack (f : Stack → Stack) (s : State) : State := s.onP (Panel.modStk 17 f)

theorem witness_RowWordsAreGrantedCheckedAndReleased :
    let s := running fun a => { a with streams := [rowStream] }
    let f := withStack (fun k => { k with granted := (0, [0, 0, 0, 0, 0]) }) s
    let r := withStack (fun k => { k with reqs := [rowReq .unchecked] }) s
    let d := withStack (fun k => { k with reqs := [rowReq .clean] }) (running fun a => { a with rc := 95, streams := [rowStream] })
    isCompute 17 = true ∧ (s.p.getClk 17).stall = 0 ∧ (s.p.getStk 17).passAt ≠ some (s.p.getClk 17).clk
      ∧ dieCands s.p 17 = [⟨0, 0, 0, 0, 0, 0⟩] ∧ streamOf s.p 68 0 = some rowStream ∧ Dsc.kind rowStream.desc = 0
      ∧ candBase s.p 68 rowStream 0 = some 0 ∧ ((spanChannels (s.p.getStk 17) 0).filter fun h => decide (h = Row.ch 0)).length < 5
      ∧ bankRule (s.p.getStk 17) 0 0 = some (1, 0, 1)
      ∧ dieCands f.p 17 = [⟨0, 0, 0, 0, 0, 0⟩] ∧ 5 ≤ ((spanChannels (f.p.getStk 17) 0).filter fun h => decide (h = Row.ch 0)).length
      ∧ siteOf 68 = 17 ∧ (r.p.getStk 17).reqs = [rowReq .unchecked] ∧ (rowReq .unchecked).core = coreOf 68
      ∧ poisoned (r.p.getStk 17) ((rowReq .unchecked).addr / 256) = false
      ∧ (d.p.getStk 17).reqs = [rowReq .clean] ∧ (rowReq .clean).out = .clean ∧ releaseDue d.p 68 (rowReq .clean) = true := by decide
theorem witness_StackHousekeeping :
    let s := withStack (fun k => { k with retiring := [⟨4095, 5, none⟩], mapPending := true })
      (onReset fun p => p.modPwr fun w => { w with writes := [⟨9, 0, [], true, ⟨[], [], none, false, none, 0, []⟩⟩] })
    isCompute 17 = true ∧ poisoned (s.p.getStk 17) (s.p.getStk 17).scrubPos = false ∧ (s.p.getStk 17).retiring = [⟨4095, 5, none⟩]
      ∧ (s.p.getStk 17).mapPending = true ∧ allSpares s.p ≤ 453568 ∧ s.p.pwr.writes ≠ []
      ∧ (State.reset.p.getStk 17).mapPending = false := by decide
theorem witness_CouplingLevelsAndKvMapEntries :
    let s := onReset (Panel.modUnit 17 fun u => { u with st := .ready })
    isCompute 17 = true ∧ isCore 68 = true ∧ (65535 < 65536) ∧ s.p.variant = 1 ∧ ({ s.p with variant := 2 }).variant ≠ 1
      ∧ (∀ y ∈ [some (920 : Int), none].filterMap id, y ≤ 920) ∧ some (950 : Int) ∈ [none, some 950] ∧ (950 : Int) ≤ 950
      ∧ kvWritable s.p 68 65535 0x80000000 = true ∧ kvWritable s.p 68 65535 0x800FFFFF = false := by decide

/-- The router of site 0x11 changed, core 68 running, the dies around it READY and in partition 0. -/
abbrev routed (f : Router → Router) : State :=
  (running id).onP fun p => each [16, 17, 18, 33] (fun u p => p.modUnit u fun x => { x with st := .ready })
    ((p.modRtr 17 f).modPart 0 fun x => { x with members := [17] })
/-- A data cell of partition 0 from core 68 to core 69. -/
abbrev cellTo69 : Cell := ⟨CellF.mk 0 0 0 17 0 17 1 2 0 0 0, 5⟩
/-- The same cell of partition 1. -/
abbrev foreignCell : Cell := ⟨CellF.mk 0 0 1 17 0 17 1 2 0 0 0, 5⟩
/-- A running segment 0 of four entries, each fired up to twice, and its entry 0 from north track 0 to east track 1. -/
abbrev runningSegment (r : Router) : Router :=
  { r with exec := some 0, seg := [(0, BitVec.ofNat 128 (2 ^ 64 + 4 * 2 ^ 33 + 1 * 2 ^ 16))], hop := [(0, BitVec.ofNat 64 (0x21 * 2 ^ 29 + 3 * 2 ^ 26))] }
/-- A service request of operation `op` at `ga` for `n` bytes, tag 9, to site `ds`. -/
abbrev svcCell (op ga n ds : Nat) : Cell := ⟨CellF.mk 3 7 0 0 0 ds 0 0 0 0 0, BitVec.ofNat 320 ((n - 1) * 2 ^ 88 + op * 2 ^ 80 + 9 * 2 ^ 64 + ga)⟩
/-- A good service response with tag 9 for hub A. -/
abbrev svcAnswer : Cell := ⟨CellF.mk 4 7 0 17 0 0 0 0 0 0 0, BitVec.ofNat 320 9⟩

theorem witness_CellsMoveFromRouterToRouter :
    let s := routed fun r => { runningSegment r with inq := [(0, [cellTo69])] }
    let w (c : Cell) := routed fun r => { r with wire := [(127, [c])], creditIn := [(8 * 127 + 7, 3)] }
    let t := routed fun r => { r with transit := [(31, BitVec.ofNat 32 (2 ^ 31 + 0x22 * 2 ^ 8))], held := [(31, cellTo69)] }
    isMesh 17 = true ∧ entryDue s.p 17 0 = true ∧ firstEligible s.p 17 0 = true ∧ Hop.mode ((s.p.getRtr 17).entry 0) = 0
      ∧ Hop.inp ((s.p.getRtr 17).entry 0) < 0x80 ∧ Hop.out ((s.p.getRtr 17).entry 0) < 0x80
      ∧ Tab.get [] (s.p.getRtr 17).inq (8 * Hop.inp ((s.p.getRtr 17).entry 0) + Hop.ivc ((s.p.getRtr 17).entry 0)) = [cellTo69]
      ∧ canSend s.p 17 (Hop.out ((s.p.getRtr 17).entry 0)) (Hop.ovc ((s.p.getRtr 17).entry 0)) = true
      ∧ eligible s.p 17 1 = false
      ∧ Tab.get [] ((w cellTo69).p.getRtr 17).wire 127 = [cellTo69] ∧ CellF.typ cellTo69 ≤ 2 ∧ deadDie (w cellTo69).p 17 = false
      ∧ transitOf ((w cellTo69).p.getRtr 17) 127 = none ∧ packing (w cellTo69).p 17 = false ∧ ((w cellTo69).p.getDie 17).frozen = false
      ∧ isCompute 17 = true ∧ (w cellTo69).p.partOf 17 = some (CellF.part cellTo69)
      ∧ (w foreignCell).p.partOf 17 ≠ some (CellF.part foreignCell) ∧ Tab.get [] ((w foreignCell).p.getRtr 17).wire 127 = [foreignCell]
      ∧ (8 * 127 + 7, 3) ∈ ((w cellTo69).p.getRtr 17).creditIn ∧ (8 * 127 + 7, 4) ∉ ((w cellTo69).p.getRtr 17).creditIn
      ∧ (t.p.getRtr 17).held = [(31, cellTo69)]
      ∧ canSend t.p 17 (fld (Tab.get 0 (t.p.getRtr 17).transit 31) 15 8) (CellF.vc cellTo69) = true := by decide +kernel
theorem witness_LinksStallsAndPayloadReads :
    let l (w : Bool) (f : Nat) := (routed fun r => { runningSegment r with
      link := [(1, { link0 with next := 65535, waiting := w, fails := f })], cyc := 1000000 }).onP fun p => p.modRtr 18 fun r => { r with
        link := [(3, { link0 with buf := [⟨65535, 0, [(3, cellTo69)], []⟩] })] }
    let d (cyc : Nat) := (routed fun r => { runningSegment r with cyc := cyc }).onP fun p => p.setCore 68 { p.getCore 68 with
      a := { (p.getCore 68).a with posts := [{ (newPost p 68 true (BitVec.ofNat 256 (6 * 2 ^ 252)) 0 0) with read := 0 }] } }
    isMesh 17 = true ∧ isCore 68 = true ∧ farEdge 17 1 = (18, 3) ∧ linkDisabled (l false 0).p 17 32 = false
      ∧ (Tab.get link0 ((l false 0).p.getRtr 18).link 3).txAt ≤ (l false 0).p.clk.vco
      ∧ (flitOf 18 3 65535 (l false 0).p).1 = some ⟨65535, 0, [(3, cellTo69)], []⟩
      ∧ (Tab.get link0 ((l false 0).p.getRtr 17).link 1).next = 65535 ∧ (Tab.get link0 ((l false 0).p.getRtr 17).link 1).waiting = false
      ∧ (flitOf 18 3 65535 (l true 15).p).1 = some ⟨65535, 0, [(3, cellTo69)], []⟩
      ∧ (Tab.get link0 ((l true 15).p.getRtr 17).link 1).waiting = true ∧ 15 ≤ (Tab.get link0 ((l true 15).p.getRtr 17).link 1).fails
      ∧ ((l false 0).p.getRtr 17).running = true ∧ ((l false 0).p.getRtr 17).has 0 = true
      ∧ ((l false 0).p.getRtr 17).firedOf 0 < Seg.reps ((l false 0).p.getRtr 17).desc ∧ ((l false 0).p.getRtr 17).stalled = none
      ∧ entryCycle ((l false 0).p.getRtr 17) 0 + dieCfg (l false 0).p 17 0x7008 0 ≤ ((l false 0).p.getRtr 17).cyc
      ∧ (nextRead (coreA 68 (d 5)) 0).isSome = true ∧ bufLoad (d 5).p 68 0 < 16 ∧ ((d 5).p.getRtr 17).running = true
      ∧ ((d 5).p.getRtr 17).ordCycle true (trackCode 0 0) 0 < ((d 5).p.getRtr 17).cyc + 8 := by decide +kernel
theorem witness_OperatorUnitsFormTheirResults :
    let s (cyc : Nat) := routed fun r => { r with cyc := cyc, unit := [(15, { opUnit0 with queue := [⟨5, false, cellTo69⟩] })] }
    isCompute 17 = true ∧ (15 < 16) ∧ (Tab.get opUnit0 ((s 5).p.getRtr 17).unit 15).queue = [⟨5, false, cellTo69⟩]
      ∧ 5 ≤ ((s 5).p.getRtr 17).cyc ∧ ((s 4).p.getRtr 17).cyc < 5
      ∧ (Tab.get opUnit0 ((s 4).p.getRtr 17).unit 15).queue = [⟨5, false, cellTo69⟩]
      ∧ (2 ^ 320 - 1 < 2 ^ 320) ∧ [2 ^ 63, 5].Pairwise (fun a b => ranksAbove b a = false) := by decide +kernel
theorem witness_ServiceCellsAreQueuedServedAndAnswered :
    let s (c : Cell) (n : Nat) := (routed fun r => { r with inq := [(8 * 127 + 7, [c])], agent := [c], svcq := [(1, List.replicate n c)] }).onP
      fun p => p.modClk 17 fun x => { x with clk := 1000000000 }
    let w := (routed fun r => { r with agent := [svcCell 1 0 8 17] }).onP fun p => p.modClk 17 fun x => { x with clk := 1000000000 }
    let h := onReset fun p => { (p.modRtr 0 fun r => { r with agent := [svcAnswer] }) with host := { p.host with svc := [⟨9, 1, 3, 2⟩] } }
    isMesh 17 = true ∧ (127 < 0x80) ∧ Tab.get [] ((s (svcCell 1 0 8 18) 7).p.getRtr 17).inq (8 * 127 + 7) = [svcCell 1 0 8 18]
      ∧ serviceNext (s (svcCell 1 0 8 18) 7).p 17 127 (svcCell 1 0 8 18) = some (some 1)
      ∧ (Tab.get [] ((s (svcCell 1 0 8 18) 7).p.getRtr 17).svcq 1).length = 7
      ∧ (Tab.get [] ((s (svcCell 1 0 8 18) 8).p.getRtr 17).svcq 1).length = 8
      ∧ serviceNext (s (svcCell 1 0 8 17) 0).p 17 127 (svcCell 1 0 8 17) = some none
      ∧ ((s (svcCell 1 0 8 17) 0).p.getRtr 17).agent.length < 16
      ∧ serviceHere (w.p.getRtr 17) = [svcCell 1 0 8 17] ∧ (w.p.getRtr 17).svcWaited = []
      ∧ Tab.get (w.p.getClk 17).clk (w.p.getRtr 17).svcSince 9 + dieCfg w.p 17 0x7008 1 < (w.p.getClk 17).clk + 1000000000
      ∧ CellF.typ (svcCell 1 (gaProgram 68 256) 256 17) = 3
      ∧ agentOk (s (svcCell 1 (gaProgram 68 256) 256 17) 0).p 17 (svcCell 1 (gaProgram 68 256) 256 17) = true
      ∧ Svc.op (svcCell 1 (gaProgram 68 256) 256 17) = 1 ∧ Ga.space (Svc.ga (svcCell 1 (gaProgram 68 256) 256 17)) = 2
      ∧ agentOk (s (svcCell 2 (gaScratch 68 0) 28 17) 0).p 17 (svcCell 2 (gaScratch 68 0) 28 17) = true
      ∧ Svc.op (svcCell 2 (gaScratch 68 0) 28 17) = 2 ∧ Ga.space (Svc.ga (svcCell 2 (gaScratch 68 0) 28 17)) = 1
      ∧ Svc.op (svcCell 3 0 8 17) = 3
      ∧ isHub 0 = true ∧ (h.p.getRtr 0).agent = [svcAnswer] ∧ Svc.status svcAnswer = 0 ∧ svcTag svcAnswer = 9 := by decide +kernel
theorem witness_SegmentsCommitAndDescriptorsAreWritten :
    let s := routed fun r => { r with seg := [(62, BitVec.ofNat 128 (2 ^ 64 + 65536 * 2 ^ 33))] }
    let b := routed runningSegment
    isMesh 17 = true ∧ isCompute 17 = true ∧ (63 < 64 ∧ 65535 < 65536 ∧ 15 < 16) ∧ segFail s.p 17 62 = none ∧ (segFail b.p 17 0).isSome = true
      ∧ siteOpen s.p 17 = true ∧ entryBusy (s.p.getRtr 17) 65535 = false ∧ segBusy (s.p.getRtr 17) 63 = false
      ∧ siteOpen b.p 17 = true ∧ entryBusy (b.p.getRtr 17) 0 = true ∧ segBusy (b.p.getRtr 17) 0 = true := by decide +kernel

/-- Every power block up, and the units listed in a state. -/
abbrev up (l : List Nat) (st : USt) (s : State) : State := s.onP fun p =>
  each (List.range 20) (fun b p => p.modBlk b fun x => { x with st := .up }) (each l (fun u p => p.modUnit u fun x => { x with st := st }) p)
/-- A message put at the head of what a node has delivered to itself. -/
abbrev brought (node : Nat) (k : Pkt) (s : State) : State := s.onP (Panel.modNode node fun n => { n with inbox := k :: n.inbox })
/-- Hubs and the dies of row 1 from site 0x11 up to 0x18 READY, and partition 0 of the members 0x11 and 0x12. -/
abbrev mesh : State := (up [0, 0xDD, 16, 17, 18, 19, 20, 33, 34] .ready State.reset).onP fun p =>
  { each [17, 18] (fun s p => p.modClk s fun x => { x with localMode := false }) (p.modPart 0 fun x => { x with members := [17, 18] }) with
    clk := { (each [17, 18] (fun s p => p.modClk s fun x => { x with localMode := false }) p).clk with tb := 1000000 } }
/-- A step descriptor: valid, segment 5. -/
abbrev stepBytes : List Byte := leBytes 32 (2 ^ 119 + 5 * 2 ^ 122)
/-- Region 63 of partition 0 with the members 0x11 and 0x12, its descriptor 0 ready. -/
abbrev region (f : Region → Region) : State := mesh.onP fun p =>
  { each [17, 18] (fun s p => p.modRtr s fun r => { r with committed := 2 ^ 5 }) (p.modReg 63 fun g => f { g with
      part := 0, row0 := 1, col0 := 1, row1 := 1, col1 := 2, members := [17, 18], duty := [(0, 17), (1, 18)] }) with
    od := { p.od with val := [(0x5043 * 256 + 63, stepBytes)] } }
/-- The same with die 0x11 in a state of its run. -/
abbrev regionDie (f : Region → Region) (x : DieRun → DieRun) : State := (region f).onP (Panel.modDie 17 fun d => x { d with region := some 63 })
/-- Every core of site 0x11 waiting at barrier 0. -/
abbrev waitingAt0 (s : State) : State := s.onP (each [68, 69, 70, 71] fun k p => p.modA k fun a => { a with run := .waiting, waits := [⟨.barrier 0, 0, 0⟩] })
/-- Region 63 FROZEN with slot 1 valid, its member 0x11 FAILED, the hamper site 0x22 its substitute. -/
abbrev failedMember : State := up [17] .failed (up [34] .hamper (region fun g => { g with phase := .frozen, subst := [(17, 34)] }))

theorem witness_RegionCommandsMoveThePhase :
    (63 < 64) ∧ regionDefinable mesh.p 63 0 1 1 1 2 = true ∧ regionDefinable mesh.p 63 0 1 1 1 13 = false
      ∧ ((region fun g => { g with phase := .defined }).p.getReg 63).phase = .defined
      ∧ descReady (region fun g => { g with phase := .defined }).p 63 0 = true
      ∧ (∀ k ∈ regionCores (region fun g => { g with phase := .defined }).p 63, windowsQuiet ((region fun g => { g with phase := .defined }).p.getCore k) = true)
      ∧ ((region fun g => { g with phase := .armed }).p.getReg 63).phase = .armed
      ∧ ((region fun g => { g with phase := .active }).p.getReg 63).phase = .active
      ∧ ((region fun g => { g with phase := .active }).p.getReg 63).freezing = false
      ∧ footprintStopped (region fun g => { g with phase := .active, freezing := true, stopped := [17, 18] }).p 63 = true
      ∧ (region fun g => g).p.now = 1000000 ∧ ((region fun g => g).p.getReg 63).lastCell + 100 ≤ 1000000 := by decide +kernel
theorem witness_BarriersAreArrivedAtAndReleased :
    let a := (waitingAt0 (regionDie (fun g => { g with phase := .active }) fun d => { d with running := true })).onP (Panel.modRtr 17 fun r => { r with drained := true })
    let k (e b m : Nat) : Pkt := ⟨1, 0, 17, 0, 0, .arrive 63 e b m⟩
    let g (e : Nat) := region fun g => { g with phase := .active, bar := some e, stage := .admitted }
    let rel : Pkt := ⟨2, 63, 0, 0, 0, .release 63 0 false 1000000⟩
    let w := brought 17 rel (regionDie (fun g => { g with phase := .active }) fun d => { d with sent := some 0 })
    let t (tick : Nat) := regionDie (fun g => { g with phase := .active }) fun d => { d with sent := some 0, rel := some (0, false, tick) }
    isCompute 17 = true ∧ dieBarriers a.p 17 = [0] ∧ dieArrives a.p 17 0 = true ∧ (a.p.getDie 17).region = some 63 ∧ takesPart a.p 17 = true
      ∧ Delivered 17 (k 0 0 1) (brought 17 (k 0 0 1) a).p ∧ unicastTo ((brought 17 (k 0 0 1) a).p.getNode 17) (k 0 0 1) ≠ 17
      ∧ (brought 0 (k 0 0 1) (g 1)).p.activeHub = 0 ∧ Delivered 0 (k 0 0 1) (brought 0 (k 0 0 1) (g 1)).p
      ∧ unicastTo ((brought 0 (k 0 0 1) (g 1)).p.getNode 0) (k 0 0 1) = 0 ∧ Delivered 0 (k 0 0 1) (brought 0 (k 0 0 1) (region id)).p
      ∧ ((region id).p.getReg 63).phase = .free
      ∧ ((g 1).p.getReg 63).phase = .active ∧ ((g 1).p.getReg 63).bar = some 1 ∧ ((g 1).p.getReg 63).freezing = false
      ∧ (∃ y ∈ (bitsSet 9 1).map (blockSite 0), barred (g 1).p y = false)
      ∧ ((g 0).p.getReg 63).stage = .admitted ∧ ((g 0).p.getReg 63).starting = false ∧ ((g 0).p.getReg 63).restart = none
      ∧ regionHeld (g 0).p 63 = false ∧ ((region id).p.getReg 63).bar = none
      ∧ Delivered 17 rel w.p ∧ (w.p.getDie 17).sent = some 0 ∧ (w.p.getDie 17).rel = none ∧ (w.p.getDie 17).stopAsked = none
      ∧ (w.p.getDie 17).frozen = false ∧ w.p.now ≤ 1000000
      ∧ ((t 1000000).p.getDie 17).rel = some (0, false, 1000000) ∧ 1000000 ≤ (t 1000000).p.now
      ∧ ((t 1000000).p.getDie 17).clkT ≤ ((t 1000000).p.getClk 17).clk ∧ (t 1000001).p.now < 1000001 := by decide +kernel
theorem witness_TimeoutsAndFreezesStopARegion :
    let b := region fun g => { g with phase := .active, bar := some 0, lim := (1000000, 100, 500000) }
    let n := region fun g => { g with phase := .active, lim := (1000000, 100, 1000100) }
    let k : Pkt := ⟨2, 63, 0, 0, 0, .freeze 63 0x0706⟩
    let f := brought 17 k (regionDie (fun g => { g with phase := .active }) id)
    (b.p.getReg 63).phase = .active ∧ (b.p.getReg 63).freezing = false ∧ (b.p.getReg 63).immediate = false
      ∧ (b.p.getReg 63).bar = some 0 ∧ (b.p.getReg 63).stage = .arriving ∧ barrierMet b.p 63 = false
      ∧ (b.p.getReg 63).firstTick + (b.p.getReg 63).lim.1 ≤ b.p.now
      ∧ (n.p.getReg 63).bar = none ∧ (n.p.getReg 63).relTick + (n.p.getReg 63).lim.2.2 ≤ n.p.now + (n.p.getReg 63).lim.2.1
      ∧ hubFloods b.p ∧ isCompute 17 = true ∧ Delivered 17 k f.p ∧ (f.p.getReg 63).members.contains 17 = true
      ∧ (f.p.getDie 17).frozen = false := by decide +kernel
theorem witness_RestartSubstitutionAndVariants :
    let z := region fun g => { g with phase := .frozen, duty := [], slots := [(1, ⟨7, 0, true⟩)] }
    let e := region fun g => { g with phase := .frozen, slots := [(1, ⟨7, 0, true⟩)], restart := some ⟨.epochs 9, 1, []⟩ }
    let v := region fun g => { g with phase := .frozen, moved := [] }
    isCompute 17 = true ∧ (State.reset.p.getReg 63).phase ≠ .frozen ∧ restartable z.p 63 = true ∧ (z.p.getReg 63).restart = none
      ∧ pickSlot z 63 = some (1, []) ∧ restartable v.p 63 = true ∧ pickSlot v 63 = none
      ∧ restartable e.p 63 = true ∧ (e.p.getReg 63).restart = some ⟨.epochs 9, 1, []⟩ ∧ (∀ x ∈ e.p.ctl.epochs, x.seq ≠ 9)
      ∧ dutyOf failedMember.p 63 17 = some 0 ∧ substituteOf failedMember.p 63 17 = some 34
      ∧ (failedMember.p.getReg 63).members.contains 17 = true ∧ failedMember.p.ust 17 = .failed ∧ (failedMember.p.getReg 63).phase ≠ .free
      ∧ ([] : List (Nat × Nat)).length ≤ 16 ∧ (putVariant 63 [] v.p).1 = 0
      ∧ (∀ e ∈ [(0, 17)], ∀ o ∈ v.p.reg, o.1 ≠ 63 → ∀ y ∈ o.2.staging, y.2 ≠ e.2) := by decide +kernel

/-- The Sieve of site 0x11 of the mesh changed. -/
abbrev sieving (f : Sieve → Sieve) : State := mesh.onP (Panel.modSve 17 f)
/-- Partition 0 with 16 directory entries and a quota of 4 queries; region 63 ACTIVE and retrieving with profile 0, of 64-bit
codes; function 1 with one entry waiting in its submission queue 15. -/
abbrev retrieving (f : Panel → Panel) : State := (region fun g => { g with phase := .active }).onP fun p =>
  f { (p.modFn 1 fun x => { x with sq := [(15, { queue0 with st := .enabled, tail := 1, log2n := 4 })] }).modHPort 0 fun x => { x with vfs := 16 } with
    od := { p.od with val := [(0x8020 * 256 + 63, leBytes 15 (10 * 2 ^ 8)), (0x8001 * 256, leBytes 12 (16 * 2 ^ 32 + 4 * 2 ^ 64)),
      (0x8002 * 256, leBytes 64 64)] },
    boot := { p.boot with ready := true } }
/-- Query 5 of function 1, queue 15, identifier 9, in a state. -/
abbrev query5 (st : QuerySt) (dl : Nat) : State := retrieving fun p => p.modQuery 5 fun q => { q with st := st, fn := 1, sq := 15, cid := 9, part := 0, deadline := dl }
/-- A submission entry: opcode, the query 5 by number, its next alive value. -/
abbrev endEntry (opc alive : Nat) : BitVec 512 := BitVec.ofNat 512 (opc * 2 ^ 504 + 5 * 2 ^ 408 + alive * 2 ^ 384)
/-- QUERY of k = 1 to region 63 and the first 16 entries, with payloads of 8 and `n` bytes whose CRC is `c`. -/
abbrev queryEntry (n c : Nat) : BitVec 512 :=
  BitVec.ofNat 512 (0x10 * 2 ^ 504 + 63 * 2 ^ 442 + 15 * 2 ^ 364 + 8 * 2 ^ 176 + n * 2 ^ 160 + 40 * 2 ^ 32 + c)
/-- The directory entry of one block at row word 0 of site 0x11. -/
abbrev shardEntry : BitVec 128 := BitVec.ofNat 128 (0xFF * 2 ^ 48 + 17 * 2 ^ 40 + 1)

theorem witness_SievePassesRunFromGoToReport :
    let a := sieving fun v => { v with armed := true, pass := 1000000 }
    let w := sieving fun v => { v with armed := true, pass := 1000000, emit := [(0, [cellTo69])] }
    let b := sieving fun v => { v with st := .scanning }
    let k : Pkt := ⟨1, 0, 17, 0, 0, .sieveDone 1 0⟩
    let d := brought 0 k ((query5 .scanning 0).onP (Panel.modReg 63 fun g => { g with members := [17], batches := [⟨[⟨0, 5, 0, false⟩], [], 0⟩] }))
    isCompute 17 = true ∧ siteOpen a.p 17 = true ∧ siteOpen State.reset.p 17 = false
      ∧ (a.p.getSve 17).armed = true ∧ (a.p.getSve 17).st ≠ .scanning ∧ Pass.t (a.p.getSve 17).pass = a.p.now
      ∧ Tab.get [] (a.p.getSve 17).emit (a.p.getSve 17).buffer = [] ∧ Pass.nsh (a.p.getSve 17).pass = 0
      ∧ Tab.get [] (w.p.getSve 17).emit (w.p.getSve 17).buffer ≠ [] ∧ (w.p.getSve 17).heldFrom = none ∧ Pass.t (w.p.getSve 17).pass ≤ w.p.now
      ∧ (b.p.getSve 17).st = .scanning ∧ takesPart b.p 17 = true ∧ (mesh.p.getSve 17).st ≠ .scanning ∧ (mesh.p.getSve 17).armed = false
      ∧ Delivered d.p.activeHub k d.p ∧ d.p.regionOf 17 = some 63 ∧ (d.p.getReg 63).batches = [⟨[⟨0, 5, 0, false⟩], [], 0⟩]
      ∧ (d.p.getReg 63).members = [17] ∧ (d.p.getQuery 5).st = .scanning := by decide +kernel
theorem witness_QueriesAreAcceptedOrTurnedAway :
    let s := query5 .reranking 0
    let q := query5 .queued 0
    canTake s.p 1 14 = false ∧ canTake s.p 1 15 = true ∧ Sqe.ok (endEntry 0x12 1) = true ∧ Sqe.opc (endEntry 0x12 1) = 0x12
      ∧ Sqe.ok (endEntry 0x11 1) = true ∧ Sqe.opc (endEntry 0x11 1) = 0x11 ∧ canTake State.reset.p 16 15 = false
      ∧ targetQuery s.p 1 15 (endEntry 0x12 1) = some 5 ∧ (s.p.getQuery 5).st = .reranking
      ∧ fld (endEntry 0x12 1) 391 384 = ((s.p.getQuery 5).alive + 1) % 256
      ∧ targetQuery q.p 1 15 (endEntry 0x11 1) = some 5 ∧ (q.p.getQuery 5).st = .queued
      ∧ fld (endEntry 0x11 2) 391 384 ≠ ((q.p.getQuery 5).alive + 1) % 256 ∧ targetQuery (retrieving id).p 1 15 (endEntry 0x11 1) = none
      ∧ Sqe.ok (queryEntry 0 0) = true ∧ Sqe.opc (queryEntry 0 0) = 0x10 ∧ queryRefused State.reset.p 1 15 (queryEntry 0 0) = true := by decide +kernel
theorem witness_DeadlinesCompletionsAndTheDirectory :
    let d (st : QuerySt) (t : Nat) := query5 st t
    let b (e : Nat) := (query5 .scanning 0).onP (Panel.modReg 63 fun g => { g with batches := [⟨[⟨0, 5, 0, false⟩], [], e⟩] })
    let v := (retrieving fun p => ((p.modDir 0 fun _ => ⟨shardEntry, .verifying⟩).modStk 17 fun k => { k with tags := [(0, keyOf k 0)] }).modChk 17 fun x => { x with ready := [⟨.shard 0 shardEntry, 0, 0, []⟩] })
    let v := { v with mem := [(gaStack 17 0, 0x48), (gaStack 17 0 + 1, 0x53)] }
    (63 < 64) ∧ ((d .reranking 1000000).p.getQuery 5).deadline = (d .reranking 1000000).p.now ∧ ((d .reranking 1000000).p.getQuery 5).st = .reranking
      ∧ (d .queued 1000001).p.now < ((d .queued 1000001).p.getQuery 5).deadline ∧ ((d .queued 1000000).p.getQuery 5).st = .queued
      ∧ (mesh.p.getReg 63).batches = [] ∧ ((b 1000001).p.getReg 63).batches = [⟨[⟨0, 5, 0, false⟩], [], 1000001⟩]
      ∧ (b 1000001).p.now < 1000001 ∧ (b 1000000).p.now = 1000000 ∧ ((b 1000000).p.getQuery 5).st = .scanning
      ∧ ((b 1000000).p.getQuery 5).written = false
      ∧ dirOwner v.p 15 = some 0 ∧ dirOwner v.p 16 = none ∧ dirSitesOk v.p 0 shardEntry = true ∧ dirSitesOk v.p 0 0 = false
      ∧ (v.p.getDir 0).st = .verifying ∧ (v.p.getChk (DirE.home (v.p.getDir 0).bits)).ready = [⟨.shard 0 (v.p.getDir 0).bits, 0, 0, []⟩]
      ∧ DirE.crc (v.p.getDir 0).bits = 0 ∧ shardHeaderOk v 0 (v.p.getDir 0).bits = true
      ∧ shardHeaderOk { v with mem := [] } 0 (v.p.getDir 0).bits = false := by decide +kernel
theorem witness_SequenceRecordsAndLengths :
    let s := (region fun g => { g with phase := .defined, count := 2 }).onP
      (each [68, 69, 70, 71, 72, 73, 74, 75] fun k p => p.modCore k fun c => { c with limit := 0xFFFFF })
    let r := leBytes 17 (2 ^ 8 + 1 * 2 ^ 24 + 1 * 2 ^ 56)
    let ring := leBytes 128 (0 + 1 * 2 ^ 8 + 255 * 2 ^ 16 + (2 ^ 1024 - 2 ^ 24))
    let t := { s with p := (commitSequence 63 false r (commitSequence 63 true ring s.p).2).2 }
    let a (ph : Phase) := t.onP (Panel.modReg 63 fun g => { g with phase := ph, seq := { g.seq with length := 2 } })
    r.length = 17 ∧ ring.length = 128 ∧ (commitSequence 63 true ring s.p).1 = 0 ∧ (commitSequence 63 false r (commitSequence 63 true ring s.p).2).1 = 0
      ∧ (s.p.getReg 63).phase = .defined ∧ ((a .active).p.getReg 63).phase = .active ∧ 2 ≤ Sq.limit (a .active).p 63
      ∧ Sq.limit (a .frozen).p 63 < (BitVec.allOnes 32).toNat ∧ ((a .frozen).p.getReg 63).phase = .frozen
      ∧ (1 : BitVec 32).toNat < ((a .armed).p.getReg 63).seq.length := by decide +kernel

theorem queryEntry_toNat (n c : Nat) (hn : n < 65536) (hc : c < 2 ^ 32) : (queryEntry n c).toNat =
    0x10 * 2 ^ 504 + 63 * 2 ^ 442 + 15 * 2 ^ 364 + 8 * 2 ^ 176 + n * 2 ^ 160 + 40 * 2 ^ 32 + c := by
  simp only [BitVec.toNat_ofNat]; omega

theorem queryEntry_fields (n c : Nat) (hn : n < 65536) (hc : c < 2 ^ 32) :
    Sqe.opc (queryEntry n c) = 0x10 ∧ Sqe.cid (queryEntry n c) = 0 ∧ Sqe.ok (queryEntry n c) = true ∧ Qry.region (queryEntry n c) = 63
      ∧ Qry.prof (queryEntry n c) = 0 ∧ Qry.k (queryEntry n c) = 1 ∧ Qry.sfirst (queryEntry n c) = 0 ∧ Qry.scm1 (queryEntry n c) = 15
      ∧ Qry.plen1 (queryEntry n c) = 8 ∧ Qry.plen2 (queryEntry n c) = n ∧ Qry.rlen (queryEntry n c) = 40 ∧ Qry.pcrc (queryEntry n c) = c := by
  have h := queryEntry_toNat n c hn hc
  have o : Sqe.opc (queryEntry n c) = 0x10 := by simp only [Sqe.opc, fld, h]; omega
  have r : Sqe.reserved (queryEntry n c) = 0 := by
    unfold Sqe.reserved
    rw [o]
    show fld (queryEntry n c) 503 496 + fld (queryEntry n c) 479 448 + (fld (queryEntry n c) 437 432 + fld (queryEntry n c) 407 402
      + fld (queryEntry n c) 363 352 + fld (queryEntry n c) 271 256 + fld (queryEntry n c) 159 128) = 0
    simp only [fld, h]; omega
  refine ⟨o, ?_, ?_, ?_, ?_, ?_, ?_, ?_, ?_, ?_, ?_, ?_⟩
  · simp only [Sqe.cid, fld, h]; omega
  · simp [Sqe.ok, Sqe.known, o, r]
  · simp only [Qry.region, fld, h]; omega
  · simp only [Qry.prof, fld, h]; omega
  · simp only [Qry.k, fld, h]; omega
  · simp only [Qry.sfirst, fld, h]; omega
  · simp only [Qry.scm1, fld, h]; omega
  · simp only [Qry.plen1, fld, h]; omega
  · simp only [Qry.plen2, fld, h]; omega
  · simp only [Qry.rlen, fld, h]; omega
  · simp only [Qry.pcrc, fld, h]; omega

/-- For whatever rerank payload the image of region 63 declares, QUERY with that payload is accepted. -/
theorem witness_queryAccepted : ∃ (e : BitVec 512) (b : List Byte), canTake (retrieving id).p 1 15 = true ∧ Sqe.ok e = true
    ∧ Sqe.opc e = 0x10 ∧ queryRefused (retrieving id).p 1 15 e = false ∧ b.length = Qry.plen1 e + Qry.plen2 e
    ∧ (crcHost b).toNat = Qry.pcrc e
    ∧ ((liveQueries (retrieving id).p).filter fun q => decide (q.2.part = 0)).length < cfg (retrieving id).p 0x8001 0 3 := by
  let n := (Config.rerankPayload 0).val
  let b : List Byte := List.replicate (8 + n) 0
  have hn : n < 65536 := Nat.lt_trans (Config.rerankPayload 0).isLt (by decide)
  have hm : ¬ 8128 < n := Nat.not_lt.mpr (Nat.le_of_lt_succ (Config.rerankPayload 0).isLt)
  obtain ⟨o, cid, ok, rg, pr, k, sf, sc, p1, p2, rl, cr⟩ := queryEntry_fields n (crcHost b).toNat hn (crcHost b).isLt
  refine ⟨queryEntry n (crcHost b).toNat, b, by decide +kernel, ok, o, ?_, by rw [p1, p2]; exact List.length_replicate, cr.symm, by decide +kernel⟩
  have f : fnPart 1 = some 0 := rfl
  simp only [queryRefused, f, cid, rg, pr, k, sf, sc, p1, p2, rl]
  have i : ((retrieving id).p.getReg 63).image = 0 := by decide +kernel
  have x : (Config.rerankPayload ((retrieving id).p.getReg 63).image).val = n := by rw [i]
  rw [x]
  simp only [hm, ne_eq, not_true_eq_false, decide_false, Bool.or_false]
  decide +kernel

/-- The node of site 0x11 of the mesh changed. -/
abbrev node17 (f : Node → Node) : State := mesh.onP (Panel.modNode 17 f)
/-- A message of site 0x12 for site 0x11. -/
abbrev toSite17 (m : Msg) : Pkt := ⟨0, 17, 18, 0, 0, m⟩
/-- It, brought to site 0x11. -/
abbrev at17 (k : Pkt) (s : State) : State := brought 17 k s
/-- What waits on the west link of site 0x12 for site 0x11, at its port 1. -/
abbrev onWire (w : BitVec 128) (rx fails : Nat) : State := node17 fun n => { n with wire := [(1, [w])], rx := [(1, rx)], fails := [(1, fails)] }

theorem witness_ControlLinksRoutesAndForwarding :
    let u := toSite17 (.undeliverable 1 2 3)
    let q := node17 fun n => { n with out := [(8 + 2, [(u, 5)])] }
    let z := node17 fun n => { n with out := [(8 * 5 + 1, [(⟨0, 99, 17, 0, 0, .sieveDone 1 0⟩, 5)])], route := [(99, 0x4F)] }
    let y := node17 fun n => { n with out := [(8 * 5 + 1, [(⟨0, 99, 17, 0, 0, .sieveDone 1 0⟩, 5)])], route := [(99, 0xFF)] }
    let d := node17 fun n => { n with linkDown := [1] }
    let b := node17 fun n => { n with linkDown := [1], probed := [1] }
    let g := node17 fun n => { n with urgent := [⟨1, 0, 17, 0, 0, .faultReport 0x0502 0 0⟩], lastUrgent := some 999900 }
    let l := at17 (toSite17 (.lateNotice 0 3 63 1 2 3 4)) mesh
    isNode 17 = true ∧ takesPart mesh.p 17 = true ∧ ctlUp mesh.p 17 1 = true ∧ ctlUp mesh.p 17 4 = true ∧ takesPart State.reset.p 17 = false
      ∧ reservedZero (pktWord u) = true ∧ (pktOf (pktWord u)).dmode ≤ 1 ∧ unicastTo (mesh.p.getNode 17) (pktOf (pktWord u)) = 17
      ∧ pktOf (pktWord u) = u ∧ reservedZero (BitVec.ofNat 128 (2 ^ 119 + 2 ^ 83)) = false
      ∧ Tab.get [] ((onWire (pktWord u) 1 15).p.getNode 17).wire 1 = [pktWord u] ∧ Tab.get 0 ((onWire (pktWord u) 1 15).p.getNode 17).rx 1 ≠ 0
      ∧ Tab.get 0 ((onWire (pktWord u) 0 14).p.getNode 17).rx 1 = 0 ∧ Tab.get 0 ((onWire (pktWord u) 0 14).p.getNode 17).fails 1 < 15
      ∧ 15 ≤ Tab.get 0 ((onWire (pktWord u) 1 15).p.getNode 17).fails 1 ∧ ctlUp (onWire (pktWord u) 1 15).p 17 1 = true
      ∧ nextOut (mesh.p.getNode 17) 5 = none ∧ nextOut (q.p.getNode 17) 1 = some (u, 5) ∧ ctlUp q.p 17 1 = true ∧ ctlFar 17 1 = some 18
      ∧ portTo 18 17 = some 3 ∧ (nextOut (z.p.getNode 17) 5).isSome = true ∧ (z.p.getNode 17).route ≠ [] ∧ routePort z.p 17 99 = some 4
      ∧ routePort y.p 17 99 = none
      ∧ (mesh.onP fun p => p.modCtl fun c => { c with linkReport := some 7 }).p.ctl.linkReport.isSome = true ∧ mesh.p.ctl.linkReport = none
      ∧ probeable d.p 17 1 = true ∧ probedLinks b.p = [(17, 1)] ∧ takesPart b.p 18 = true ∧ probeable mesh.p 17 1 = false
      ∧ ctlUp d.p 17 1 = false ∧ probedLinks mesh.p = []
      ∧ (g.p.getNode 17).urgent = [⟨1, 0, 17, 0, 0, .faultReport 0x0502 0 0⟩] ∧ (g.p.getNode 17).lastUrgent = some 999900 ∧ 999900 + 100 = g.p.now
      ∧ Delivered 17 (toSite17 (.lateNotice 0 3 63 1 2 3 4)) l.p ∧ idleHub l.p 17 (toSite17 (.lateNotice 0 3 63 1 2 3 4)) = false
      ∧ Delivered 17 u (at17 u mesh).p := by decide +kernel
theorem witness_ConfigurationMessagesAndBeats :
    let c := toSite17 (.cfgWrite 2 0 0x1FF)
    let w : Pkt := ⟨0, 18, 0, 5, 0, .cfgRead 0 99⟩
    let b : Pkt := ⟨3, 0, 0, 0, 0, .hubBeat 128 true 5⟩
    let e : Pkt := ⟨1, 0, 17, 0, 0, .nodeBeat 3 5⟩
    let late (t : Nat) := mesh.onP fun p => p.modCtl fun c => { c with lastBeat := [(17, 1000000 - t)] }
    let hubB (t : Nat) := mesh.onP fun p => p.modCtl fun c => { c with hubBeatA := 1000000 - t }
    Delivered 17 c (at17 c mesh).p ∧ idleHub (at17 c mesh).p 17 c = false
      ∧ mesh.p.activeHub = 0 ∧ w.src = 0 ∧ (mesh.p.getNode 0).inbox.head? ≠ some w ∧ takesPart mesh.p 0 = true ∧ w.dmode ≤ 1
      ∧ Delivered 17 b (at17 b mesh).p ∧ idleHub (at17 b mesh).p 17 b = false ∧ (128 + 256 - (mesh.p.getNode 17).gen) % 256 = 128
      ∧ Delivered 0xDD b (brought 0xDD b mesh).p ∧ idleHub (brought 0xDD b mesh).p 0xDD b = false
      ∧ Delivered 0 e (brought 0 e mesh).p ∧ idleHub (brought 0 e mesh).p 0 e = false ∧ barred mesh.p 17 = false
      ∧ barred (up [17] .suspect mesh).p 17 = true
      ∧ takesPart mesh.p 17 = true ∧ isHub 17 = false ∧ beatDue mesh.p 17 (cfg mesh.p 0x7024 0 3) = true
      ∧ beatDue (node17 fun n => { n with beatAt := some 1000000 }).p 17 (cfg mesh.p 0x7024 0 3) = false
      ∧ isHub 0xDD = true ∧ hubRuns mesh.p 0xDD = true ∧ beatDue mesh.p 0xDD (cfg mesh.p 0x7024 0 1) = true ∧ livePorts mesh.p 0 ≠ []
      ∧ seeMseq (mesh.p.getNode 0) (hubNum 0) mesh.p.ctl.mseq ≠ none
      ∧ Tab.get 0 (late 500000).p.ctl.lastBeat 17 + cfg (late 500000).p 0x7024 0 3 * (0 + 1) < (late 500000).p.now
      ∧ (late 1).p.now ≤ Tab.get 0 (late 1).p.ctl.lastBeat 17 + cfg (late 1).p 0x7024 0 3 * (0 + 1)
      ∧ mesh.p.book.active = 0 ∧ mesh.p.book.standbyLost = false ∧ cfg mesh.p 0x7024 0 1 ≤ (hubB 900000).p.now - (hubB 900000).p.ctl.hubBeatA
      ∧ cfg mesh.p 0x7024 0 2 ≤ (hubB 900000).p.now - (hubB 900000).p.ctl.hubBeatA
      ∧ (∃ q < 3, ctlUp (up [0xCC] .ready mesh).p 0xDD q = true)
      ∧ (hubB 1).p.now - (hubB 1).p.ctl.hubBeatA < cfg mesh.p 0x7024 0 1 := by decide +kernel
theorem witness_ReportsSetsAndBulkSessions :
    let d (m : Msg) := at17 (toSite17 m) mesh
    let f : Pkt := ⟨0, 0, 17, 0, 0, .faultReport 0x0303 0xFF 0⟩
    let a : Pkt := ⟨0, 0, 17, 1, 0, .ack 9 0⟩
    let e : EpochOut := ⟨9, 0, false, 5, 7, [17], 0, 1⟩
    let nk : Pkt := ⟨0, 0, 17, 2, 0, .nack 8 63⟩
    let l : LiveOut := ⟨8, 17, 63, []⟩
    let r : Pkt := ⟨0, 0, 17, 0, 0, .bulkResult 4 0 0 0⟩
    let b : BulkOut := ⟨4, 0, [17], [], [], [], [], 0, []⟩
    let h := brought 0 a (brought 0 nk (brought 0 r (mesh.onP fun p => p.modCtl fun c => { c with epochs := [e], lives := [l], bulks := [b] })))
    let w := (d (.liveCommit 3 1)).onP (Panel.modDie 17 fun x => { x with liveSet := [(0, [(0x4010, 0, 0, 5)])] })
    isNode 17 = true ∧ Delivered 17 (toSite17 (.fence 1 18 0 0)) (d (.fence 1 18 0 0)).p ∧ idleHub (d (.fence 1 18 0 0)).p 17 (toSite17 (.fence 1 18 0 0)) = false
      ∧ ctlFar 17 1 = some 18 ∧ Delivered 0 f (brought 0 f mesh).p ∧ idleHub mesh.p 0 f = false ∧ USt.rank (mesh.p.ust 17) < 3
      ∧ (mesh.p.getRtr 17).lastEpochSeq = none
      ∧ Delivered 0 a h.p ∧ a.tag = 1 ∧ barred h.p a.src = false ∧ h.p.ctl.epochs = [e] ∧ e.seq = 9 ∧ e.trun = false ∧ e.missing = [17]
      ∧ nk.tag = 2 ∧ h.p.ctl.lives = [l] ∧ l.num = 8 ∧ l.site = nk.src ∧ takesPart h.p h.p.activeHub = true
      ∧ Delivered 17 (toSite17 (.liveCommit 3 1)) w.p ∧ (Tab.get [] (w.p.getDie 17).liveSet 0).length = 1
      ∧ h.p.ctl.bulks = [b] ∧ b.sess = 4 ∧ b.done = [] := by decide +kernel
theorem witness_RetriesAndBulkWrites :
    let e (tries : Nat) : EpochOut := ⟨9, 0, false, 5, 7, [17], 990000, tries⟩
    let s (tries : Nat) := mesh.onP fun p => p.modCtl fun c => { c with epochs := [e tries] }
    let o := toSite17 (.bulkOpen 4 4 0 0 1)
    let dt := toSite17 (.bulkData 4 0 5)
    let b : BulkIn := ⟨4, 2, 8, programBytes - 8, 1, false, []⟩
    let w := at17 dt (node17 fun n => { n with bulk := [b] })
    isNode 17 = true ∧ (s 3).p.ctl.epochs = [e 3] ∧ (e 3).sentAt + 10000 ≤ (s 3).p.now ∧ (s 3).p.ust 17 = .ready ∧ (e 2).tries < 3
      ∧ (s 2).p.ctl.epochs = [e 2] ∧ hubFloods (s 2).p
      ∧ Delivered 17 o (at17 o mesh).p ∧ idleHub (at17 o mesh).p 17 o = false ∧ (mesh.p.getNode 17).bulk = []
      ∧ Delivered 17 dt w.p ∧ idleHub w.p 17 dt = false ∧ (w.p.getNode 17).bulk = [b] ∧ 0 < b.len ∧ (List.range 4).filter b.mask.testBit = [3]
      ∧ programFree w.p 71 = true ∧ b.base + 8 * 0 + 8 ≤ programBytes
      ∧ coreIdle (running id).p 68 = false ∧ (1 : Nat).testBit 0 = true := by decide +kernel

/-- The mesh with every edge die READY, port 0 up with 16 functions and MSI-X, the check engines on, the row words of site 0x11
in its key range, and function `f` changed. -/
abbrev hosted (f : Nat) (g : Fn → Fn) : State := (up edgeDies .ready mesh).onP fun p =>
  ((({ p with clk := { p.clk with periph := [(0, 2 ^ 8)] }, boot := { p.boot with ready := true, phase := 15 } }).modStk 17 fun k =>
    { k with ranges := [wholeRange 1 0], keys := [(0, 1)] }).modHPort 0 fun x => { x with up := true, perst := false, enumd := true, vfs := 16 }).modFn f g
/-- A queue in a state, of 16 entries. -/
abbrev queueIn (st : QueueSt) : Queue := { queue0 with st := st, en := decide (st = .enabled), log2n := 4 }
/-- Function 16 with queue 15 of each kind enabled and one entry waiting, an event ring, and one completion not signalled. -/
abbrev queued (g : Fn → Fn) : State := hosted 16 fun x => g { x with
  sq := [(15, { queueIn .enabled with tail := 1, cq := 15 })], cq := [(15, { queueIn .enabled with time := 100, unsig := 1, oldest := 999900 })],
  ring := queueIn .enabled, msix := [(0, [(0, 0)])] }
/-- A copy entry of 256 bytes between site 0x11's core 0 and the host. -/
abbrev copyEntry (opc ga : Nat) : BitVec 512 := BitVec.ofNat 512 (opc * 2 ^ 504 + ga * 2 ^ 320 + 256 * 2 ^ 224)
/-- A copy on its last block. -/
abbrev lastBlock (data : List Byte) (inn : Bool) : Copy :=
  ⟨7, 16, 15, 0, inn, gaStack 17 0, data.length, 0, data, true, false, false, 0, 0, [], none⟩

theorem witness_HostQueuesAndInterrupts :
    let s := queued id
    let d := queued fun x => { x with sq := [(15, { queueIn .draining with busy := true })], cq := [(15, queueIn .draining)] }
    arrives s.p 0 16 = true ∧ activePort s.p = 0 ∧ ((s.p.getFn 16).sqOf 15).st = .enabled ∧ fld (15 : BitVec 32) 31 16 = 0
      ∧ fld (15 : BitVec 32) 15 0 < ((s.p.getFn 16).sqOf 15).size ∧ ((s.p.getFn 16).sqOf 15).size ≤ fld (16 : BitVec 32) 15 0
      ∧ ((s.p.getFn 16).cqOf 15).st = .enabled ∧ fld (15 : BitVec 32) 15 0 < ((s.p.getFn 16).cqOf 15).size ∧ (s.p.getFn 16).held = []
      ∧ (s.p.getFn 16).ring.st = .enabled ∧ fld (15 : BitVec 32) 15 0 < (s.p.getFn 16).ring.size ∧ (s.p.getFn 16).ring.dropped = 0
      ∧ (getQ s.p 16 0).st = .disabled ∧ (getQ s.p 16 0).en = false ∧ (getQ s.p 16 0).base % 4096 = 0
      ∧ (getQ s.p 16 (16 + fld (BitVec.ofNat 64 (4 * 2 ^ 16 + 15 * 2 ^ 8)) 11 8)).st = .enabled
      ∧ (getQ s.p 16 32).st = .enabled ∧ (getQ s.p 16 32).en = true
      ∧ (getQ d.p 16 31).st = .draining ∧ drainedQ d.p 16 31 = true ∧ (getQ d.p 16 15).st = .draining ∧ drainedQ d.p 16 15 = false
      ∧ canTake s.p 16 15 = true ∧ Sqe.ok 0 = true ∧ Sqe.opc 0 = 0 ∧ ((s.p.getFn 16).sqOf 15).cq = 15 ∧ ((s.p.getFn 16).cqOf 15).full = false
      ∧ hostServed s.p = true ∧ canTake s.p 16 14 = false
      ∧ ((s.p.getFn 16).cqOf 15).oldest + ((s.p.getFn 16).cqOf 15).time = s.p.now ∧ 0 < ((s.p.getFn 16).cqOf 15).unsig
      ∧ (s.p.getHPort 0).enumd = true ∧ bit (msixVec s.p 16 0 0) 96 = false ∧ ((s.p.getFn 16).cqOf 14).unsig = 0 := by decide +kernel
theorem witness_PortsAperturesCopiesAndChecks :
    let a (sp : Nat) := hosted 0 fun x => { x with slices := [(15, BitVec.ofNat 64 ((17 * 2 ^ 12 + sp * 2 ^ 8) * 2 ^ 32 + 1))] }
    let hello : List Byte := leBytes 32 (0x4F44 + 1 * 2 ^ 16 + 0x10 * 2 ^ 24 + 2 ^ 36)
    let m := hosted 16 fun x => { x with req := hello }
    let c := queued id
    let w (x : Copy) (r : ScanRes) := c.onP fun p => ({ p with host := { p.host with copies := [x], nextCopy := 8 } }).modChk 17 fun e => { e with ready := [r] }
    let k := c.onP (Panel.modChk 17 fun e => { e with running := some 15, chan := [(15, ⟨Chk.mk (gaStack 17 0) 256 0 1 1 15, .user none⟩)] })
    (State.reset.p.getHPort 1).perst = true ∧ (c.p.getHPort 0).perst = false ∧ (c.p.getHPort 0).up = true ∧ (State.reset.p.getHPort 1).up = false
      ∧ (c.p.getBlk 16).st = .up ∧ arrives c.p 0 16 = true ∧ arrives c.p 0 0 = true ∧ activePort c.p = 0
      ∧ (m.p.getFn 16).busy = false ∧ 3 ≤ m.p.boot.phase ∧ (parseFrame (padTo 32 (m.p.getFn 16).req)).isSome = true
      ∧ sliceGa (a 1).p 0 15 8 = some (gaScratch 68 8) ∧ hubPath (a 1).p 17 = true ∧ gaAllowed (a 1).p ⟨false, fnPart 0⟩ (gaScratch 68 8) 8 = true
      ∧ sliceGa (a 2).p 0 15 8 = some (gaProgram 68 8) ∧ gaAllowed (a 2).p ⟨false, fnPart 0⟩ (gaProgram 68 8) 8 = true
      ∧ programFree (a 2).p (Ga.core (gaProgram 68 8)) = true ∧ Ga.space (gaScratch 68 8) = 1 ∧ Ga.space (gaProgram 68 8) = 2
      ∧ Sqe.ok (copyEntry 1 (gaScratch 68 0)) = true ∧ Sqe.opc (copyEntry 1 (gaScratch 68 0)) = 1 ∧ Sqe.ok (copyEntry 2 (gaStack 17 0)) = true
      ∧ Sqe.opc (copyEntry 2 (gaStack 17 0)) = 2 ∧ Cpy.ga (copyEntry 1 (gaScratch 68 0)) = gaScratch 68 0 ∧ Cpy.len (copyEntry 1 (gaScratch 68 0)) = 256
      ∧ (let h := hosted 0 fun x => { x with sq := [(15, { queueIn .enabled with tail := 1, cq := 15 })] };
          canTake h.p 0 15 = true ∧ h.p.host.copies = [] ∧ copyOk (takeEntry 0 15 h.p) 0 (copyEntry 1 (gaScratch 68 0)) = true
            ∧ copyOk (takeEntry 0 15 h.p) 0 (copyEntry 2 (gaStack 17 0)) = true ∧ periphOn h.p 8 = true ∧ (h.p.getChk 17).queue0 = [])
      ∧ ((w (lastBlock [] true) ⟨.ingress 7 0, 0, 0, []⟩).p.getChk 17).ready = [⟨.ingress 7 0, 0, 0, []⟩] ∧ (0 : BitVec 64) = crc64 0 (lastBlock [] true).block_
      ∧ (lastBlock [] true).len ≤ 4096 * ((lastBlock [] true).block + 1)
      ∧ ((w (lastBlock [] false) ⟨.egress 7 0, 0, 0, []⟩).p.getChk 17).ready = [⟨.egress 7 0, 0, 0, []⟩] ∧ (0 : BitVec 64) = crc64 0 []
      ∧ isCompute 17 = true ∧ periphOn c.p 8 = true ∧ siteOpen c.p 17 = true ∧ Chk.chan (Chk.mk 0 0 0 0 1 15) = 15
      ∧ ((c.p.getChk 17).result 15).state ≠ 1 ∧ ((c.p.getChk 17).result 15).state ≠ 2
      ∧ Chk.alive (Chk.mk 0 0 0 0 0 15) = (((c.p.getChk 17).result 15).last + 1) % 256 ∧ Chk.alive (Chk.mk 0 0 0 0 255 15) = ((c.p.getChk 17).result 15).last
      ∧ (k.p.getChk 17).running = some 15
      ∧ (scanEnd 17 ⟨Chk.mk (gaStack 17 0) 0 0 1 1 15, .user none⟩ [] k).isSome = true := by decide +kernel

/-- A management session of level E and panel scope in slot 15, its request 8 taken last. -/
abbrev session15 : Session :=
  { slot := 15, id := 5, level := .e, scope := 0xFF, last := 1000000, seq := some 8, resp := ⟨0, [], 0, false, 0⟩, stage := [],
    recorded := [], xfer := none, threshold := 0, eseq := 0, due := [], unacked := [], lost := false, requests := 0, cred := 0, hdr := [],
    seg := 0, keys := leBytes 64 7, eph := [] }
/-- Both management segments served by hub A, with that session changed. -/
abbrev managed (f : Session → Session) : State := mesh.onP fun p =>
  { p with
    boot := { p.boot with phase := 15, ready := true }, clk := { p.clk with periph := [(0, 0x1FF), (1, 0x1FF)] },
    od := { p.od with sessions := [f session15], nextId := 6 } }
/-- A report entry. -/
abbrev dueEntry : Entry := ⟨0x0502, 1, 17, 0, 5, 0, 0, 1⟩
/-- The pending session 9 for slot 3 of credential 31, whose private scalar is 5, begun 5 s ago. -/
abbrev pending9 : PendingAuth := ⟨9, 3, 31, 1, 0xFF, 1000000, false, leBytes 64 7, [], [1, 2, 3]⟩
abbrev exchanging : State := (managed id).onP fun p =>
  let p := p.modClocks fun c => { c with tb := 501000000 }
  { p with
    sec := { p.sec with pendingAuth := [pending9], lock := [(31, ⟨0, 5, some 501000000⟩)] },
    od := { p.od with val := [(0xB030 * 256 + 31, leBytes 15 1 ++ publicOf 5)] } }

/-- Every frame that carries its session's tag is sound. -/
theorem frameSound_own (p : Panel) (q : Req) : frameSound p (some (frameTag p q)) q = true := by simp [frameSound]

theorem witness_ManagementRequestsAreAnswered :
    let s := managed id
    let z := requested 0 session15 { req0 1 5 9 with index := 0x1020 } s
    let y := session15.took (reqHeader s.p { req0 1 5 9 with index := 0x1020 }) 0 { req0 1 5 9 with index := 0x1020 } s.p.now
    let r := oRec 0x1020 (.only 0) .rw .e true [fW .u32 300 10 3600, fW .u8 16 1 16]
    let d := leBytes 5 (10 + 16 * 2 ^ 32)
    TakesRequest 0 0 session15 8 s ∧ (match odFind s.p.variant 0x1020 0 with | .obj x => decide (x = r) | _ => false) = true
      ∧ readAllowed z.p y r 0 = 0 ∧ readStop z.p y r 0x1020 0 = 0 ∧ (readValue z.p y r 0x1020 0 true).length ≤ 1024
      ∧ writeAllowed z.p y r 0 0 true = 0 ∧ gateCheck r z.p = (0, z.p) ∧ typeCheck r 0 d = 0
      ∧ fieldRange z.p r 0 0 d (laidOver z.p y r 0x1020 0) = 0 ∧ d.length ≤ 1024 := by decide +kernel
theorem witness_ManagementRequestsAreAnswered2 :
    let s := managed id
    let r := oRec 0x1020 (.only 0) .rw .e true [fW .u32 300 10 3600, fW .u8 16 1 16]
    let d := leBytes 5 (10 + 16 * 2 ^ 32)
    let f : Transfer := ⟨false, false, 0x1012, 0, 0, 48, leBytes 48 0, 0, 1000000⟩
    let w : Transfer := ⟨true, true, 0x1012, 0, 0, 48, [], 0, 1000000⟩
    let changes : List (Session → Session) := [fun x => { x with stage := [⟨0x1023, 0, 0, [3]⟩] }, fun x => { x with xfer := some f },
      fun x => { x with xfer := some w }, fun x => { x with stage := [⟨0x1020, 0, 0, d⟩] }]
    (∀ g ∈ changes, TakesRequest 0 0 (g session15) 8 (managed g)) ∧ gapOver f s.p.now = false
      ∧ f.moved < 2 ^ 32 ∧ f.data ≠ [] ∧ piecewise w.index = false ∧ w.data.length + (leBytes 47 0).length < w.total
      ∧ session15.level.reaches r.level = true ∧ frameSound s.p none (req0 0x13 5 9) = false := by decide +kernel
theorem witness_SessionsReportsAndSegmentsFollowTheirTimes :
    let s := managed fun x => { x with due := [dueEntry] }
    let u (sent n : Nat) := managed fun x => { x with unacked := [⟨dueEntry, sent, n⟩], last := 0 }
    let b := mesh.onP fun p => { p with boot := { p.boot with image := [(0, 0xFF), (1, 0xFF)] } }
    let sound := bothFailed b.p = true ∧ bothFailed s.p = false ∧ segServes s.p 0 0 = true ∧ s.p.od.segDown.contains 0 = false
    let x := exchanging
    sound ∧ x.p.sec.pendingAuth = [pending9] ∧ x.p.now = pending9.since + 5 * ticksPerSecond ∧ segServes x.p 0 0 = true ∧ healthy x.p = true
      ∧ (ecSign 5 7 [1, 2, 3]).length = 96 ∧ ecVerify ((odBytes x.p 0xB030 31).drop 15) (ecSign 5 7 [1, 2, 3]) pending9.said = true
      ∧ ecVerify ((odBytes x.p 0xB030 31).drop 15) (leBytes 96 0) pending9.said = false
      ∧ TakesRequest 0 0 { session15 with unacked := [⟨dueEntry, 0, 0⟩] } 8 (managed fun x => { x with unacked := [⟨dueEntry, 0, 0⟩] })
      ∧ sessionAt s.p 15 = some { session15 with due := [dueEntry] } ∧ dueEntry.eseq < 2 ^ 32
      ∧ (let v := (u 1 8).onP fun p => p.modClocks fun c => { c with tb := 5000001 };
          (v.p.od.sessions.map (·.unacked)) = [[⟨dueEntry, 1, 8⟩]] ∧ 1 + 5000000 = v.p.now)
      ∧ (u 0 7).p.now < 0 + 5000000 ∧ sessionIdle (managed id).p session15 = false
      ∧ (let v := (managed id).onP fun p => p.modClocks fun c => { c with tb := 400 * ticksPerSecond };
          sessionIdle v.p session15 = true ∧ sessionAt v.p 15 = some session15 ∧ gapOver ⟨false, false, 0x1012, 0, 0, 48, [], 0, 1000000⟩ v.p.now = true)
      ∧ Tab.find? x.p.sec.lock 31 = some ⟨0, 5, some 501000000⟩ ∧ 501000000 = x.p.now
      ∧ cfg x.p 0x1010 0 1 = 1 ∧ Tab.get 0 x.p.od.lastFrame 0 + ticksPerSecond ≤ x.p.now
      ∧ s.p.now < Tab.get 0 s.p.od.lastFrame 0 + ticksPerSecond
      ∧ (x.onP fun p => p.modOd fun o => { o with segDown := [1] }).p.od.segDown.contains 1 = true
      ∧ (addressesOf s.p 0 0).contains (leBytes 16 0).reverse = false := by decide +kernel

theorem witness_addressOfTheAttachment : (addressesOf mesh.p 0 0).contains (linkLocal 0 0) = true := by simp [addressesOf]

/-- A unit of the mesh in a state, with the rest of its record. -/
abbrev unitIn (key : Nat) (f : URec → URec) : State := mesh.onP (Panel.modUnit key f)
/-- The book of the mesh changed. -/
abbrev booked (f : Book → Book) : State := mesh.onP (Panel.modBook f)

theorem witness_ManagersFenceAndReinstateEvidenceAndProbesDecide :
    let f := unitIn 17 fun u => { u with st := .fenced, own := true, takeover := false }
    let e := booked fun b => { b with pendingEvid := [(17, 0x0E02)] }
    let a := booked fun b => { b with pendingEvid := [(0xEF, 0x0E02)] }
    let d := (unitIn 17 fun u => { u with st := .suspect, own := true }).onP fun p => p.modBook fun b => { b with asked := [17] }
    let c := ((unitIn (keyPort 11) fun u => { u with st := .suspect, prior := .ready }).onP fun p => p.modBook fun b => { b with
      probes := [⟨keyPort 11, 1000000⟩] }).onP fun p => p.modPort 11 fun x => { x with phase := 8 }
    (mesh.p.od.hme % 65536 = mesh.p.od.hme) ∧ isCompute 17 = true ∧ USt.rank (mesh.p.ust 17) < 2 ∧ USt.rank ((up [keyPort 11] .ready mesh).p.ust (keyPort 11)) < 2
      ∧ portFused mesh.p.variant 11 = false ∧ f.p.ust 17 = .fenced ∧ (f.p.unit 17).own = true ∧ (f.p.unit 17).takeover = false
      ∧ 32768 ≤ (65535 % 65536 + 65536 - mesh.p.od.hme) % 65536
      ∧ e.p.book.pendingEvid = [(17, 0x0E02)] ∧ USt.rank (e.p.ust 17) = 0 ∧ a.p.book.pendingEvid = [(0xEF, 0x0E02)] ∧ 3 ≤ USt.rank (a.p.ust 0xEF)
      ∧ mesh.p.book.pendingEvid = [] ∧ probeDue d.p 17 = true ∧ probeDue mesh.p 17 = false ∧ UnitId.key (.site 17) = 17
      ∧ c.p.book.probes = [⟨keyPort 11, 1000000⟩] ∧ UnitId.key (.port 11) = keyPort 11 ∧ c.p.ust (keyPort 11) = .suspect
      ∧ c.p.now ≤ 1000000 + 10000000 ∧ (c.p.getPort 11).phase = 8 ∧ (c.p.unit (keyPort 11)).prior = .ready ∧ mesh.p.book.probes = [] := by decide +kernel
theorem witness_HubBTakesOverAndRatesAreLimitedBySpans :
    let t := booked fun b => { b with takeDue := true }
    let l (tick : Nat) := booked fun b => { b with latch := [⟨0x0604, 17, tick, true, 3⟩] }
    let m (n : Nat) := mesh.onP fun p => p.modCtl fun c => { c with lastBeat := [(0xDD, n)] }
    t.p.book.takeDue = true ∧ t.p.book.active = 0 ∧ t.p.book.tookOver = false ∧ hubRuns t.p 0xDD = true ∧ t.p.pwr.writes = [] ∧ t.p.host.copies = []
      ∧ USt.rank (t.p.ust 0x00) < 2 ∧ mesh.p.book.takeDue = false ∧ mesh.p.book.standbyLost = false
      ∧ Tab.get 0 (m 0).p.ctl.lastBeat 0xDD + cfg (m 0).p 0x7024 0 2 ≤ (m 0).p.now
      ∧ (m 1000000).p.now < Tab.get 0 (m 1000000).p.ctl.lastBeat 0xDD + cfg (m 1000000).p 0x7024 0 2 ∧ USt.rank ((m 0).p.ust 0xDD) < 2
      ∧ (l 1).p.book.latch = [⟨0x0604, 17, 1, true, 3⟩] ∧ evSpan 0x0604 = .second ∧ 1 ≠ (l 1).p.now / ticksPerSecond
      ∧ 0 = (l 0).p.now / ticksPerSecond := by decide +kernel

/-- The clocks of the mesh changed. -/
abbrev clocked (f : Clocks → Clocks) : State := mesh.onP (Panel.modClocks f)
/-- The clock of site 0x11, locked, changed. -/
abbrev clock17 (f : DieClk → DieClk) : State := mesh.onP (Panel.modClk 17 fun c => f { c with locked := true })
/-- A reference that is valid. -/
abbrev validRef : RefIn := ⟨true, true, 10⟩

theorem witness_ReferencesTimebaseAndPlansAreFollowed :
    let o := State.reset.onP fun p => { p with boot := { p.boot with porDone := true } }
    let n := (clocked fun c => { c with settled := true }).onP fun p => { p with boot := { p.boot with refFrom := some 5 } }
    let a (b : RefIn) := clocked fun c => { c with settled := true, refA := validRef, refB := b, use := 0 }
    let x : Plan := ⟨9, 3, 1001000, (0, 0)⟩
    let k (o : PlanOut) := ((clocked fun c => { c with plans := [o] }).onP fun p => { p with boot := { p.boot with dieUp := [(17, .running)] } })
    let r (t : Nat) := clocked fun c => { c with plans := [⟨⟨9, 3, t, (0, 0)⟩, [17], [], [17], [], true⟩] }
    let m (y : Plan) := clock17 fun c => { c with armed := some y }
    let t := clocked fun c => { c with tb := 65536 }
    let w := t.onP (Panel.modClk 17 fun c => { c with tbOff := 65536 })
    isNode 17 = true ∧ o.p.clk.settled = false ∧ o.p.boot.porDone = true ∧ n.p.clk.settled = true ∧ n.p.clk.refA.valid = false
      ∧ n.p.clk.refB.valid = false ∧ n.p.boot.refFrom.isSome = true ∧ (a validRef).p.clk.refA.valid = true ∧ (a validRef).p.clk.settled = true
      ∧ (a validRef).p.clk.use = 0 ∧ (a validRef).p.clk.refB.valid = true ∧ (a default).p.clk.refB.valid = false
      ∧ mesh.p.now % 65536 ≠ 0 ∧ t.p.now % 65536 = 0
      ∧ fld (BitVec.ofNat 64 t.p.now + ((t.p.getClk 17).tbOff + 65535)) 63 16 = t.p.now % 2 ^ 64 / 2 ^ 16
      ∧ fld (BitVec.ofNat 64 w.p.now + ((w.p.getClk 17).tbOff + 0)) 63 16 ≠ w.p.now % 2 ^ 64 / 2 ^ 16
      ∧ ((clock17 id).p.getClk 17).locked = true ∧ (State.reset.p.getClk 17).locked = false
      ∧ (k ⟨x, [17], [], [], [], false⟩).p.clk.plans = [⟨x, [17], [], [], [], false⟩] ∧ x.num = 9 ∧ x.t = mesh.p.now + 1000
      ∧ dieOn (k ⟨x, [17], [17], [], [], false⟩).p 17 = true ∧ barred mesh.p 17 = false
      ∧ (r 999900).p.clk.plans = [⟨⟨9, 3, 999900, (0, 0)⟩, [17], [], [17], [], true⟩] ∧ 999900 + 100 = (r 999900).p.now ∧ takesPart mesh.p mesh.p.activeHub = true
      ∧ mesh.p.now < 999901 + 100
      ∧ ((m x).p.getClk 17).armed = some x ∧ ((m x).p.getClk 17).step < x.step ∧ mesh.p.now + 1000 < 1001001
      ∧ (⟨9, 3, 1000000, (0, 0)⟩ : Plan).t ≤ mesh.p.now ∧ ((m x).p.getClk 17).emergAt = none ∧ mesh.p.now < 1000001 := by decide +kernel
theorem witness_StretchesStepsModesAndPeripherals :
    let c := clock17 fun c => { c with clk := 2000 }
    let f := clock17 fun c => { c with clk := 2000, budget := List.replicate 32 977, step := 7 }
    let e := clock17 fun c => { c with stall := 1, clk := 2000, budget := [976] }
    let g := region fun g => { g with phase := .defined }
    let l := clock17 fun c => { c with localMode := true }
    let p := clocked fun c => { c with periph := [(0, 0xFFF)] }
    isCompute 17 = true ∧ (c.p.getClk 17).locked = true ∧ (c.p.getClk 17).stretch = false ∧ (c.p.getClk 17).stall = 0
      ∧ ((c.p.getClk 17).budget.filter fun m => decide ((c.p.getClk 17).clk < m + 1024)).length < 32
      ∧ ((f.p.getClk 17).budget.filter fun m => decide ((f.p.getClk 17).clk < m + 1024)).length = 32 ∧ (f.p.getClk 17).stall = 0 ∧ 0 < (f.p.getClk 17).step
      ∧ 0 < (e.p.getClk 17).stall ∧ ((clock17 fun c => { c with stretch := true }).p.getClk 17).stretch = true
      ∧ ((clock17 fun c => { c with asked := some 7 }).p.getClk 17).asked = some 7 ∧ (c.p.getClk 17).asked = none
      ∧ c.p.regionOf 17 = none ∧ (g.p.regionOf 17).isSome = true ∧ (l.p.getClk 17).localMode = true ∧ (mesh.p.getClk 17).localMode = false
      ∧ fld (0xFFE : BitVec 32) 31 12 = 0
      ∧ (∀ i < 12, bit (Tab.get 0 p.p.clk.periph 0) i = true → bit (0xEFE : BitVec 32) i = false → mayClear p.p i = true) ∧ bit (0xEFE : BitVec 32) 8 = false
      ∧ (∃ i < 12, bit (Tab.get 0 p.p.clk.periph 0) i = true ∧ bit (0xFFD : BitVec 32) i = false ∧ mayClear p.p i = false)
      ∧ fld (0x1000 : BitVec 32) 31 12 ≠ 0 := by decide +kernel

/-- Power block 0 of the mesh changed. -/
abbrev block0 (f : Blk → Blk) : State := mesh.onP (Panel.modBlk 0 f)
/-- Every other block off, the peripherals of power on, and block 0 changed. -/
abbrev onlyBlock0 (f : Blk → Blk) : State := mesh.onP fun p =>
  (each (List.range 20) (fun b p => p.modBlk b fun x => { x with st := if b = 0 then .up else .off })
    (p.modClocks fun c => { c with periph := [(0, 0xFFF)] })).modBlk 0 f
/-- A record write of nothing that nothing waits for. -/
abbrev nvWrite : NvWrite := ⟨9, 4, [], true, job0⟩

theorem witness_BlocksAndPowerReadingsActOnTheirBlock :
    let d := block0 fun b => { b with driver := some 17 }
    let n := block0 fun b => { b with driver := none }
    let c := block0 fun b => { b with st := .failed, collapsedAt := some 900000 }
    let o := onlyBlock0 id
    let e := block0 fun b => { b with st := .enabling, since := 0, vmin := true, vcode := 2 * mesh.p.pwr.setpoint + 50 }
    let z := block0 fun b => { b with st := .enabling, since := 1000000 }
    let k := block0 fun b => { b with badPoll := false, c10 := 1 }
    (d.p.getBlk 0).driver = some 17 ∧ canDrive d.p 17 = true ∧ (d.p.getBlk 0).st = .up ∧ (n.p.getBlk 0).driver = none
      ∧ (State.reset.p.getBlk 19).st ≠ .up ∧ (c.p.getBlk 0).collapsedAt = some 900000 ∧ 900000 + 100000 = c.p.now ∧ c.p.now < 900001 + 100000
      ∧ liveBlocks o.p = [0] ∧ periphOn o.p 3 = true ∧ periphOn mesh.p 3 = false
      ∧ (e.p.getBlk 0).st = .enabling ∧ (e.p.getBlk 0).since ≤ e.p.now ∧ (e.p.getBlk 0).vmin = true
      ∧ 2 * e.p.pwr.setpoint ≤ (e.p.getBlk 0).vcode + 50 ∧ (e.p.getBlk 0).vcode = 2 * e.p.pwr.setpoint + 50
      ∧ (z.p.getBlk 0).vmin = false ∧ z.p.now < (z.p.getBlk 0).since + 2000000
      ∧ (let y := e.onP fun p => p.modClocks fun c => { c with tb := 2000000 }; (y.p.getBlk 0).since + 2000000 = y.p.now)
      ∧ (k.p.getBlk 0).badPoll = false ∧ 0 < (k.p.getBlk 0).c10 ∧ ((block0 fun b => { b with badPoll := true }).p.getBlk 0).badPoll = true := by decide +kernel
theorem witness_WindowsAdmissionsAndRecordsKeepTheirAccounts :
    let w := (region fun g => { g with phase := .active, bar := some 0, stage := .admission }).onP fun p => p.modAcct 0 fun a => { a with queue := [63] }
    let p := w.onP fun p => p.modAcct 0 fun a => { a with balance := -1 }
    let n := mesh.onP fun p => p.modPwr fun x => { x with writes := [nvWrite] }
    (63 < 64) ∧ (w.p.getReg 63).part = 0 ∧ (waiting4 w.p 0).head? = some 63 ∧ covers w.p 0 (waitEnergy w.p 63) = true
      ∧ covers p.p 0 (waitEnergy p.p 63) = false ∧ (waiting4 mesh.p 0).head? ≠ some 63 ∧ accounts w.p = [0]
      ∧ n.p.pwr.writes = [nvWrite] ∧ nvWrite.begun = true ∧ nvWrite.job = job0 ∧ mesh.p.pwr.writes = [] := by decide +kernel
theorem witness_TemperaturesStepTripHoldAndForecast :
    let c := clock17 fun c => { c with step := 1, tripped := false, junction := some 1049 }
    let o := (onlyBlock0 fun b => { b with held := true, heldAt := 0 }).onP (Panel.modClk 17 fun c => { c with junction := some 1049, locked := true })
    let q := o.onP fun p => p.modPwr fun w => { w with holdLimit := 10, ceiling := 5 }
    isDie 17 = true ∧ (19 < 20) ∧ 0 < (c.p.getClk 17).step ∧ (c.p.getClk 17).locked = true ∧ (c.p.getClk 17).tripped = false
      ∧ (mesh.p.getClk 17).step = 0 ∧ ((clock17 fun c => { c with tripped := true }).p.getClk 17).tripped = true
      ∧ goodReadings [1049, 900] = [1049, 900] ∧ goodReadings [] = [] ∧ liveBlocks o.p = [0]
      ∧ qLe (qOf 135) (Q.mk' (o.p.getBlk 0).eSec 1000000) = false ∧ (blockHot o.p 0 (·.junction)).isSome = true
      ∧ (q.p.getBlk 0).held = true ∧ (q.p.getBlk 0).heldAt + 100000 * q.p.pwr.holdLimit = q.p.now ∧ cfg q.p 0x2011 0 1 < q.p.pwr.ceiling
      ∧ (mesh.p.getBlk 0).held = false ∧ periphOn o.p 4 = true ∧ periphOn mesh.p 4 = false := by decide +kernel

/-- The boot state of the mesh changed. -/
abbrev booting (f : Boot → Boot) : State := mesh.onP (Panel.modBoot f)

theorem witness_ResetsAndBringUpRunTheirPhases :
    let h := booting fun b => { b with held := true }
    let one := (booting fun b => { b with phase := 1 }).onP fun p => p.modClocks fun c => { c with settled := true, refA := validRef }
    let four := booting fun b => { b with phase := 4, dieUp := [(17, .running)] }
    let ten := (booting fun b => { b with phase := 10, since := 1000000 }).onP (each allDies fun s p => p.modClk s fun c => { c with localMode := false })
    let late (t : Nat) := booting fun b => { b with phase := 10, since := 0, late := t }
    let hubB := (booting fun b => { b with phase := 2, bootHub := 0, image := [(0, 0xFF)] }).onP fun p => p.modClocks fun c => { c with tb := 100000000, origin := 0 }
    let cool := (booting fun b => { b with coolFrom := some 900000 }).onP fun p => p.modPwr fun w => { w with inletOk := false }
    let d := booting fun b => { b with dieUp := [(17, .released)] }
    let tr := (booting fun b => { b with ready := true, trainPending := [(17, 5)], mapPending := true }).onP fun p => p.modPwr fun w => { w with writes := [nvWrite] }
    isDie 17 = true ∧ (7 < 8) ∧ mesh.p.boot.held = false ∧ mesh.p.pwr.writes = [] ∧ h.p.boot.held = true ∧ h.p.boot.porDone = true
      ∧ one.p.boot.phase = 1 ∧ one.p.clk.settled = true ∧ one.p.clk.refA.valid = true ∧ four.p.boot.phase = 4 ∧ blocksDone four.p = true
      ∧ ten.p.boot.phase = 10 ∧ allSync ten.p = true ∧ ten.p.boot.trainPending = [] ∧ (late 0).p.boot.phase = 10 ∧ allSync (late 0).p = false
      ∧ (late 0).p.boot.late.testBit 10 = false ∧ (late 0).p.now ≤ (late 0).p.boot.since + phaseLimit 10 false
      ∧ (let l := (late 0).onP fun p => p.modClocks fun c => { c with tb := 10000001 }; l.p.boot.since + phaseLimit l.p.boot.phase l.p.boot.trainFull < l.p.now)
      ∧ hubB.p.boot.phase ≤ 2 ∧ hubB.p.boot.bootHub = 0 ∧ imageRuns hubB.p 0 = false ∧ hubB.p.clk.origin + ticksPerSecond = hubB.p.now ∧ imageOk hubB.p 0 = true
      ∧ mesh.p.now < mesh.p.clk.origin + ticksPerSecond ∧ cool.p.boot.coolFrom = some 900000 ∧ coolantOk cool.p = false ∧ mesh.p.boot.coolFrom = none
      ∧ Tab.get .off d.p.boot.dieUp 17 = .released ∧ strapOk 17 (BitVec.ofNat 17 (2 ^ 16 + 0x11)) = true ∧ fuseWord d.p 17 = fuseOwed d.p.variant 17
      ∧ strapOk 17 0x11 = false ∧ takesPart d.p 17 = true ∧ isNode 0x0D = false ∧ Tab.get .off four.p.boot.dieUp 17 ≠ .released
      ∧ tr.p.boot.ready = true ∧ tr.p.boot.trainPending = [(17, 5)] ∧ tr.p.pwr.writes ≠ [] ∧ mesh.p.boot.ready = false ∧ tr.p.boot.mapPending = true
      ∧ mesh.p.boot.mapPending = false := by decide +kernel
theorem witness_ClearanceOfASiteFollowsItsState :
    let m (n : Nat) := booting fun b => { b with map := [(0xDD, BitVec.ofNat 32 (n * 2 ^ 28))] }
    isSite 0xDD = true ∧ fstate (m 3).p 0xDD = 3 ∧ fstate (m 4).p 0xDD = 4 ∧ fstate (m 0).p 0xDD = 0 ∧ fstate (m 5).p 0xDD = 5
      ∧ fusedDie (m 3).p.variant 0xDD = false := by decide +kernel

/-- Partition 0 of the mesh, of the members 0x11 and 0x12, changed. -/
abbrev parted (f : Part → Part) : State := mesh.onP (Panel.modPart 0 f)
/-- The same packing up, at a step. -/
abbrev packing0 (step : Nat) (f : PackUp → PackUp) : State :=
  parted fun x => { x with phase := .packing, key := some 5, pack := some (f ⟨step, false, 900000, 900000, 100000, [], [17], [], []⟩) }
/-- Guest 0 linked, bound to partition 0 with one window of 4 KiB at site 0x11's stack, its bucket of 8 bytes. -/
abbrev guested (f : Guest → Guest) : State := (mesh.onP (Panel.modGuest 0 fun g => f { g with linkUp := true, bucket := 8, filledAt := 1000000 })).onP fun p =>
  (p.modOd fun o => { o with val := [(0xB040 * 256, leBytes 4 0 ++ leBytes 4 1 ++ leBytes 4 8 ++ leBytes 4 0
    ++ leBytes 8 (gaStack 17 0) ++ leBytes 8 4096 ++ leBytes 8 3)] }).modStk 17 fun k => { k with ranges := [wholeRange 1 0], keys := [(0, 1)] }
/-- A guest's read of 8 bytes of site 0x11's stack. -/
abbrev guestRead (ga : Nat) : Cell := ⟨CellF.mk 3 7 0 0 0 0 0 0 0 0 0, BitVec.ofNat 320 (ga + 2 ^ 80 + 7 * 2 ^ 88)⟩

theorem witness_PartitionsFormPackUpAndResetTheirDies :
    let m : BitVec 256 := BitVec.ofNat 256 (2 ^ 19 + 2 ^ 20)
    let y : Part := { part0 with phase := .formed, members := [17], removing := [19] }
    let r := mesh.onP fun p => { p with part := [(0, y)] }
    let f := parted fun x => { x with phase := .formed }
    let k (n : Nat) := packing0 n id
    let l (t : Nat) := parted fun x => { x with loading := [(17, t)] }
    let d := mesh.onP fun p => { p with rst := [(17, ⟨false, none, none⟩)] }
    let t := mesh.onP fun p => p.modClocks fun c => { c with tb := 999999 }
    (15 < 16) ∧ isCompute 17 = true ∧ isCompute 19 = true ∧ (mesh.p.getPart 15).phase = .free ∧ (mesh.p.getPart 15).members = [] ∧ m ≠ 0 ∧ badField m = none
      ∧ healthy mesh.p = true ∧ bitSites m = [19, 20] ∧ (∀ c ∈ bitSites m, mesh.p.ust c = .ready ∧ mesh.p.partOf c = none ∧ Tab.find? mesh.p.rst c = none)
      ∧ (k 4).p.part = [(0, (k 4).p.getPart 0)] ∧ ((k 4).p.getPart 0).phase = .packing
      ∧ r.p.part = [(0, y)] ∧ Tab.find? r.p.rst 19 = none ∧ usable r.p 19 = true ∧ (f.p.getPart 0).phase = .formed ∧ (mesh.p.getPart 15).phase ≠ .formed
      ∧ ((k 4).p.getPart 0).pack = some ⟨4, false, 900000, 900000, 100000, [], [17], [], []⟩
      ∧ ((k 1).onP (Panel.modA 68 fun a => { a with run := .running })).p.getPart 0 = (k 1).p.getPart 0
      ∧ (∃ x ∈ liveMembers 0 ((k 1).onP (Panel.modA 68 fun a => { a with run := .running })).p, ∃ c ∈ coresOf x,
          coreIdle ((k 1).onP (Panel.modA 68 fun a => { a with run := .running })).p c = false)
      ∧ ((k 7).p.getPart 0).key.isSome = true ∧ (k 3).p.now = 900000 + 100000
      ∧ t.p.now < 900000 + 100000 ∧ USt.rank (mesh.p.ust 17) < 3 ∧ 900000 + 1000 ≤ (k 5).p.now
      ∧ (packing0 5 fun u => { u with since := 999001 }).p.now < 999001 + 1000 ∧ ((l 999000).p.getPart 0).loading = [(17, 999000)]
      ∧ 999000 + 1000 = (l 999000).p.now ∧ (l 999001).p.now < 999001 + 1000
      ∧ resetRefused mesh.p 17 = 0 ∧ (0 < 15 ∧ 15 < 16) ∧ resetRefused (k 1).p 17 ≠ 0 ∧ Tab.find? mesh.p.rst 17 = none
      ∧ Tab.find? d.p.rst 17 = some ⟨false, none, none⟩ := by decide +kernel
theorem witness_SecurityCommandsAndGuestsAreChecked :
    let s := managed fun x => { x with level := .s }
    let w := s.onP fun p => p.modPwr fun x => { x with writes := [nvWrite] }
    let e := (managed id).onP fun p => p.modPwr fun x => { x with writes := [nvWrite] }
    let bad := mesh.onP fun p => p.modSec fun c => { c with healthy := [(1, false)] }
    let one := leBytes 15 1 ++ publicOf 5
    let img := mesh.onP fun p => p.modPwr fun x => { x with bank := 12000, bankC := 12000 }
    let run (h : Nat) := mesh.onP fun p => p.modBoot fun b => { b with image := [(0, h)] }
    s.p.od.sessions.find? (fun y => decide (y.slot = 15)) = some { session15 with level := .s }
      ∧ Tab.get true bad.p.sec.healthy 1 = false ∧ bad.p.book.active = 0
      ∧ liveSession w.p 15 = some { session15 with level := .s } ∧ (odRow w.p.variant 0xB030 31).isSome = true
      ∧ (∀ r ∈ (odRow w.p.variant 0xB030 31).toList, writeAllowed w.p { session15 with level := .s } r 31 0 false = 0 ∧ gateCheck r w.p = (0, w.p)
        ∧ typeCheck r 0 one = 0 ∧ rangeCheck w.p r 31 one = 0 ∧ writeAllowed w.p session15 r 31 0 false ≠ 0)
      ∧ stateCheck w.p 0xB030 31 one = 0 ∧ odBytes w.p 0xB030 31 ≠ one ∧ w.p.pwr.writes = [nvWrite]
      ∧ liveSession e.p 15 = some session15 ∧ e.p.pwr.writes = [nvWrite]
      ∧ (∀ r ∈ (odRow e.p.variant 0xA000 0).toList, writeAllowed e.p session15 r 0 0 false = 0 ∧ gateCheck r e.p = (0, e.p)
        ∧ typeCheck r 0 (leBytes 2 7) = 0 ∧ rangeCheck e.p r 0 (leBytes 2 7) = 0)
      ∧ (odRow e.p.variant 0xA000 0).isSome = true ∧ stateCheck e.p 0xA000 0 (leBytes 2 7) = 0 ∧ odBytes e.p 0xA000 0 ≠ leBytes 2 7
      ∧ imageInUse img.p 1 = false ∧ holdupOk img.p estNor = true ∧ imageInUse (run 1).p 1 = true
      ∧ Tab.get 0xFE (run 1).p.boot.image (run 1).p.book.active = 1
      ∧ (∀ i < 2, (imageOf (run 1).p i).valid = true ∧ (imageOf (run 1).p 1).svn ≤ (imageOf (run 1).p i).svn) ∧ (run 1).p.sec.imgWrite = none
      ∧ Tab.get 0xFE (run 0xFE).p.boot.image (run 0xFE).p.book.active = 0xFE ∧ (∀ i < 2, (imageOf mesh.p i).valid = true → (imageOf mesh.p i).slot ≠ 3)
      ∧ (imageOf mesh.p 0).valid = true ∧ (imageOf mesh.p 0).slot = 0 := by decide +kernel
theorem witness_guestRequests :
    let ok (s : State) (c : Cell) : Bool := let b := odBytes s.p 0xB040 0
      decide (s.p.ust (guestSite 0) ≠ .fenced) && decide (Bind.part b < 16) && Bind.grants b (Svc.op c) (Svc.ga c) (Svc.len c)
        && gaAllowed s.p ⟨false, some (Bind.part b)⟩ (Svc.ga c) (Svc.len c)
    let c := guestRead (gaStack 17 4088)
    let h (n : Nat) := guested fun g => { g with held := [⟨c, 900000⟩], bucket := n }
    CellF.typ c = 3 ∧ ((guested id).p.getGuest 0).linkUp = true ∧ ok (guested id) c = true ∧ ((guested id).p.getGuest 0).held = []
      ∧ admits (guested id).p 0 c = true ∧ admits (guested fun g => { g with bucket := 7 }).p 0 c = false
      ∧ ok (guested id) (guestRead (gaStack 17 4096)) = false ∧ ((h 8).p.getGuest 0).held = [⟨c, 900000⟩] ∧ admits (h 8).p 0 c = true
      ∧ admits (h 7).p 0 c = false ∧ (mesh.p.getGuest 0).linkUp = false ∧ siteReachable (up [13] .ready mesh).p (guestSite 0) = true := by decide +kernel

/-- The mesh with every edge die and fabric port 0 READY, after bring-up, that port and the fabric's other state changed. -/
abbrev ported (f : FPort → FPort) (g : Fabric → Fabric) : State := (up edgeDies .ready (up [keyPort 0] .ready mesh)).onP fun p =>
  (({ p with boot := { p.boot with phase := 15 }, fab := g p.fab }).modPort 0 f)
/-- Its meridian changed. -/
abbrev chained (f : Meridian → Meridian) : State := ported id fun x => { x with mer := f x.mer }
/-- The same as the head of its chain, at tick 1,024,000. -/
abbrev headed (g : Fabric → Fabric) : State := (ported id g).onP fun p =>
  { p with clk := { p.clk with tb := 1024000 }, od := { p.od with val := [(0xA040 * 256, leBytes 1 1)] } }
/-- A transit cell at site 0x01 for the port of that site. -/
abbrev ringCell0 (n : Nat) : RingCell := ⟨1, n, true, ⟨CellF.mk 1 5 0 0 0 0 0 0 0 0 0, 7⟩, some 0⟩
/-- A link frame without cells. -/
abbrev frameOf (n : Nat) : LinkFrame := ⟨n, 5, false, [1, 0, 0, 0, 0, 0, 0, 0], []⟩
/-- A port's key and salt. -/
abbrev portKey : List Byte := leBytes 36 (2 ^ 280 + 77)

theorem witness_PortsTrainAuthenticateAndExchangeFrames :
    let k (n : Nat) := ported (fun x => { x with phase := n, groups := 3, since := 500000, session := true }) id
    let z (a : Option Nat) := ported (fun x => { x with phase := 7, authAt := a }) id
    let u := ported (fun x => { x with phase := 8, replay := [frameOf 1], resend := [frameOf 1], half := some (frameOf 1) }) id
    let e (t : Nat) := ported (fun x => { x with phase := 1, pulled := some t }) id
    let late (n : Nat) := (k n).onP fun p => p.modClocks fun c => { c with tb := 60000000 }
    (11 < 12) ∧ portRuns (k 1).p 0 = true ∧ ((k 1).p.getPort 0).phase = 1 ∧ ((k 4).p.getPort 0).phase = 4 ∧ ((k 4).p.getPort 0).groups &&& 2 ≠ 0
      ∧ ((k 7).p.getPort 0).session = true ∧ ((z none).p.getPort 0).session = false ∧ ((z none).p.getPort 0).phase = 7
      ∧ ((late 2).p.getPort 0).held = false ∧ ((late 2).p.getPort 0).authAt = none ∧ 500000 + trainLimit 2 ≤ (late 2).p.now
      ∧ 500000 + trainLimit 7 ≤ (late 7).p.now ∧ ((late 2).p.getPort 0).fails = [] ∧ probing (late 2).p (keyPort 0) = false
      ∧ (k 5).p.now < 500000 + trainLimit 5 ∧ (k 8).p.boot.phase = 15 ∧ healthy (k 8).p = true ∧ ((k 8).p.getPort 0).phase = 8
      ∧ peerListed (k 8).p (((k 8).p.getPort 0).peer.take 16) = true ∧ ((z (some 1000000)).p.getPort 0).authAt = some 1000000
      ∧ 1000000 ≤ (z (some 1000000)).p.now ∧ (z (some 1000001)).p.now < 1000001 ∧ ((k 6).p.getPort 0).pulled = none
      ∧ expectedSerial (k 6).p 0 = none ∧ ((k 5).p.getPort 0).counter + 1 < 2 ^ 48 ∧ (u.p.getPort 0).resend = [frameOf 1]
      ∧ ((k 8).p.getPort 0).resend = [] ∧ ((k 8).p.getPort 0).replay.length < 1024 ∧ ((k 8).p.getPort 0).half = none
      ∧ (u.p.getPort 0).half = some (frameOf 1) ∧ portRuns mesh.p 11 = false ∧ ((e 5).p.getPort 0).phase ≠ 8
      ∧ ((e 0).p.getPort 0).pulled = some 0 ∧ (e 0).p.now < 0 + 10 * ticksPerSecond
      ∧ (let x := (e 0).onP fun p => p.modClocks fun c => { c with tb := 1000000000 }; 0 + 10 * ticksPerSecond ≤ x.p.now) := by decide +kernel

/-- A pair as the partner seals it opens, in sequence and without a hello; one of zeros does not. -/
theorem witness_framePairs :
    let x : FPort := { fport0 with phase := 8, recvKey := portKey, seen := 6, recvSeq := some 2 }
    let a := (sealPair portKey 6 (frameOf 3) (frameOf 4)).getD 0 []
    let b := (sealPair portKey 6 (frameOf 3) (frameOf 4)).getD 1 []
    ∃ f h, openPair x.recvKey x.seen a b = some (f, h) ∧ (∀ c ∈ f.cells ++ h.cells, CellF.typ c ≠ 5) ∧ f.nak = false ∧ h.nak = false
      ∧ x.recvSeq = some ((f.seq + 2047) % 2048) ∧ f.seq < 2048 ∧ h.seq = (f.seq + 1) % 2048 ∧ a.length = 976 ∧ b.length = 976 := by
  obtain ⟨p, q⟩ := length_sealPair portKey 6 (frameOf 3) (frameOf 4) (by decide)
  exact ⟨_, _, openPair_sealPair portKey 6 (frameOf 3) (frameOf 4) (by decide), by decide +kernel, by decide +kernel, by decide +kernel,
    by decide +kernel, by decide +kernel, by decide +kernel, p, q⟩
theorem witness_badPair : openPair [] 6 (List.replicate 976 0) (List.replicate 976 0) = none ∧ (List.replicate 976 (0 : Byte)).length = 976 := by
  decide +kernel

theorem witness_RingMeridianAndScheduleMoveOn :
    let r (n : Nat) := ported id fun f => { f with transit := [ringCell0 n] }
    let n := chained fun m => { m with locked := true, openLatch := true, bad := 15 }
    let h := headed fun f => { f with mer := { f.mer with openLatch := true } }
    let c := chained fun m => { m with locked := true, conflict := some 900000 }
    let f := merFrame 3 0 0 999872 5 0
    let sw := ported id fun f => { f with switch := some (1000000, 1, 4) }
    isEdge 1 = true ∧ (r 0).p.fab.transit = [ringCell0 0] ∧ portMaster 0 = 1 ∧ portMaster 1 ≠ 1
      ∧ (((r 0).p.getPort 0).vcOut 5).length < 256 ∧ ((r 0).p.getPort 0).cut = false ∧ (r 0).p.ust (keyPort 0) = .ready ∧ mesh.p.fab.transit = []
      ∧ isHead n.p = false ∧ merValid f = true ∧ n.p.fab.mer.locked = true ∧ n.p.fab.mer.conflict = none ∧ fld f 111 48 + 128 = n.p.now
      ∧ n.p.fab.mer.openLatch = true ∧ fld f 119 114 < 63 ∧ 16 ≤ n.p.fab.mer.bad + 1 ∧ mesh.p.fab.mer.bad + 1 < 16
      ∧ isHead h.p = true ∧ h.p.now % 128 = 0 ∧ h.p.fab.mer.openLatch = true ∧ h.p.fab.switch = none ∧ isHead mesh.p = false
      ∧ c.p.fab.mer.conflict = some 900000 ∧ c.p.now < 900000 + ticksPerSecond
      ∧ (let x := c.onP fun p => p.modClocks fun c => { c with tb := 101000000 }
         900000 + ticksPerSecond ≤ x.p.now ∧ x.p.fab.mer.locked = true ∧ tbBusy x.p = false
         ∧ tbBusy (x.onP fun p => (p.modBoot fun b => { b with ready := true }).modReg 63 fun g => { g with phase := .active }).p = true)
      ∧ sw.p.fab.switch = some (1000000, 1, 4) ∧ sw.p.now = 1000000
      ∧ (ported id fun f => { f with switch := some (1000001, 1, 4) }).p.now < 1000001
      ∧ mesh.p.fab.mer.locked = false ∧ 1033999 < h.p.now + 10000 ∧ h.p.now + 10000 ≤ 1034000 := by decide +kernel

theorem witness_StepRunsFrontCommand :
    ({ State.reset with pending := [.hubBBeatsMissed, .evt 68 (word 0 0 0 0 0)] } : State).pending = .hubBBeatsMissed :: [.evt 68 (word 0 0 0 0 0)] ∧ State.reset.pending = [] := by
  decide +kernel
theorem witness_EveryWellFormedCommandRuns :
    listedOpc .s (opcOf 0x0100000000000000).toNat = true ∧ listedOpc .s (opcOf 0xFF00000000000000).toNat = false
      ∧ encodeSlot (.ldv 68 .l1 (word 0 0 0 0 0) default) = some (68, .l1, 0x0100000000000000) ∧ wellFormed (.evt 67 (word 0 0 0 0 0)) = false := by decide +kernel
theorem witness_CommandsLeaveTheQueue :
    exec (.evt 0 (word 0 0 0 0 0)) State.reset = .next State.reset
      ∧ step { State.reset with pending := [.evt 0 (word 0 0 0 0 0)] } = .next State.reset := ⟨rfl, rfl⟩
theorem witness_EveryStepKeepsTheMemoryCanonical :
    MemCanonical { State.reset with mem := [(5, 1), (9, 2)], pending := [.evt 0 (word 0 0 0 0 0)] }
      ∧ step { State.reset with mem := [(5, 1), (9, 2)], pending := [.evt 0 (word 0 0 0 0 0)] } = .next { State.reset with mem := [(5, 1), (9, 2)] }
      ∧ ¬ MemCanonical { State.reset with mem := [(9, 2), (5, 1)] } ∧ ¬ MemCanonical { State.reset with mem := [(5, 0)] } := by
  unfold MemCanonical
  exact ⟨by decide, rfl, by decide, by decide⟩

/-! Ill-formed commands: one for each check of `wellFormed`, and the nearest well-formed one beside some. -/

theorem test_illFormed_cores :
    wellFormed (.add 67 (word 0 0 0 0 0)) = false ∧ wellFormed (.add 68 (word 0 0 0 0 0)) = true ∧ wellFormed (.nop 68 .s 0x01) = false ∧ wellFormed (.nop 68 .s 0x0F) = true
      ∧ wellFormed (.unscheduledPartGrant 68 256 default) = false ∧ wellFormed (.windowCloseComplete 68 64) = false
      ∧ wellFormed (.sendPayloadRead 68 16 default) = false ∧ wellFormed (.kvMapEntryWrite 68 65536 0) = false := by decide +kernel
theorem test_illFormed_dies :
    wellFormed (.refresh 0x0D) = false ∧ wellFormed (.refresh 0x22) = true ∧ wellFormed (.operatorResultReady 0x11 16) = false
      ∧ wellFormed (.unitDescriptorWrite 0x11 64 0 0) = false ∧ wellFormed (.unitDescriptorWrite 0x11 63 16 0) = false
      ∧ wellFormed (.transitForward 0x11 32) = false ∧ wellFormed (.stepRequest 0x1E) = false ∧ wellFormed (.arrive 0x0D ⟨1, 0, 17, 0, 0, .sieveDone 1 0⟩) = false
      ∧ wellFormed (.ctlLinkDown 0x11 5) = false ∧ wellFormed (.ctlMessageForward 0x11 6) = false ∧ wellFormed (.serviceResponse 0x11) = false
      ∧ wellFormed (.floorplanClearance 0xEE 0) = false ∧ wellFormed (.ringTransit 0x11) = false := by decide +kernel
theorem test_illFormed_routers :
    wellFormed (.serviceRead 0x00 default) = false ∧ wellFormed (.segmentCommit 0x11 64) = false ∧ wellFormed (.hopTableWrite 0x11 65600 0) = false
      ∧ wellFormed (.cellArrival 0x11 128 ⟨0, 0⟩) = false ∧ wellFormed (.cellArrival 0x00 0 ⟨0, 0⟩) = false ∧ wellFormed (.creditReturn 0x11 128 0 1) = false
      ∧ wellFormed (.creditReturn 0x11 0 8 1) = false ∧ wellFormed (.serviceCellQueue 0x11 0x81) = false
      ∧ wellFormed (.linkFlitReceive 0x00 0 0 0 true 0) = false ∧ wellFormed (.serviceStarved 0x0D) = false := by decide +kernel
theorem test_illFormed_units :
    wellFormed (.arm 64) = false ∧ wellFormed (.substitution 63 0x01 true) = false ∧ wellFormed (.partitionReset 16) = false
      ∧ wellFormed (.keyLoadTimeout 0 0x0D) = false ∧ wellFormed (.cableRemoval 12) = false ∧ wellFormed (.blockCollapse 20) = false
      ∧ wellFormed (.perstAssert 2) = false ∧ wellFormed (.hostNop 17 0 0) = false ∧ wellFormed (.hostNop 16 16 0) = false
      ∧ wellFormed (.eventRingDoorbell 0 17 0) = false ∧ wellFormed (.sqTailDoorbell 0 16 16 0) = false ∧ wellFormed (.cqHeadDoorbell 0 16 16 0) = false
      ∧ wellFormed (.queueDisable 0 16 33 0) = false ∧ wellFormed (.queueDrained 16 33) = false ∧ wellFormed (.cqCoalesceTimeout 16 16) = false
      ∧ wellFormed (.apertureSliceWrite 0 16 16 0) = false ∧ wellFormed (.apertureRead 0 16 16 0 4 []) = false
      ∧ wellFormed (.registerWrite (.bar0 2 0 0) []) = false := by decide +kernel
theorem test_illFormed_management :
    wellFormed (.hello 2 0 0) = false ∧ wellFormed (.hello 0 2 0) = false ∧ wellFormed (.keepalive 0 0 none 65536 0) = false
      ∧ wellFormed (.keepalive 0 0 none 0 (2 ^ 32)) = false ∧ wellFormed (.describe 0 0 none 0 0 65536 0) = false
      ∧ wellFormed (.describe 0 0 none 0 0 0 256) = false ∧ wellFormed (.readStaged 0 0 none 0 0 0 0 256) = false
      ∧ wellFormed (.segRead 0 0 none 0 0 (2 ^ 32)) = false ∧ wellFormed (.write 0 0 none 0 0 0 0 0 false (2 ^ 32) []) = false
      ∧ wellFormed (.reportSend 16) = false ∧ wellFormed (.sessionIdleTimeout 33) = false ∧ wellFormed (.credentialLockoutEnd 32) = false
      ∧ wellFormed (.credentialWrite 33 0 []) = false ∧ wellFormed (.credentialWrite 0 32 []) = false ∧ wellFormed (.mgmtSegmentDown 2) = false
      ∧ wellFormed (.neighborDiscovery 2 0 0) = false ∧ wellFormed (.icmpv6Echo 0 2 0 []) = false ∧ wellFormed (.panelIdWrite 33 0) = false
      ∧ wellFormed (.guestLinkUp 2 16 false []) = false ∧ wellFormed (.refEdgeLoss 2) = false ∧ wellFormed (.vsb12PorRelease 8) = false
      ∧ wellFormed (.fabricFrameReceive 0 false [] []) = false ∧ wellFormed (.fabricFrameReceive 0 true (List.replicate 976 0) []) = false := by
  decide +kernel

/-! Values worked out in the spec's own examples, or in the published standards that it names. -/

/-- The site, block and addresses of the examples of R19 and R30. -/
theorem test_organisation :
    blockOf 0x9A = 11 ∧ hamperOf 11 = 0x8B ∧ gaScratch (4 * 0x9A + 2) 0x01A40000 = 0x0009A10009A40000
      ∧ gaStack 0x9A 0x900000000 = 0x0009A00900000000 := by decide +kernel
/-- The two banks of the LDV of the example of R102. -/
theorem test_banksOfALine : banksOf 0x01234500 256 = [138, 139] := by decide +kernel
/-- The eight fields of a bundle, one word of each slot, written out from R40, R41 and R44 to R50. -/
theorem test_slotWords :
    slotCommand 68 .s (BitVec.ofNat 64 (0x03 * 2 ^ 56 + 5 * 2 ^ 52 + 2 ^ 51 + 1 * 2 ^ 45 + 2 * 2 ^ 39 + 0x7FFFFFF)) = .addi 68 ⟨5, true, 1, 2, 0, 0, 0x7FFFFFF⟩
      ∧ slotCommand 68 .v1 (BitVec.ofNat 64 (0x04 * 2 ^ 56 + 1 * 2 ^ 45 + 2 * 2 ^ 39 + 3 * 2 ^ 33 + 4 * 2 ^ 27)) = .vfma 68 .v1 (word 1 2 3 4 0)
      ∧ slotCommand 68 .m (BitVec.ofNat 64 (0x02 * 2 ^ 56 + 0xFF * 2 ^ 8)) = .mmul 68 (word 0 0 0 0 0xFF00)
      ∧ slotCommand 68 .l0 (BitVec.ofNat 64 (0x02 * 2 ^ 56 + 7 * 2 ^ 39)) = .stv 68 .l0 (word 0 7 0 0 0)
      ∧ slotCommand 68 .c (BitVec.ofNat 64 (0x01 * 2 ^ 56 + 0xFFFE)) = .br 68 (word 0 0 0 0 0xFFFE)
      ∧ slotCommand 68 .n (BitVec.ofNat 64 (0x7F * 2 ^ 56)) = .nop 68 .n 0x7F := ⟨rfl, rfl, rfl, rfl, rfl, rfl⟩
/-- The draw of the example of R93. -/
theorem test_draw : (genDraw (BitVec.ofNat 128 0x0000000500000003)).1 = 0x181B := by decide +kernel
/-- The example of one MXFP4 block, and the one of the block order (R84, R85). -/
theorem test_matrixValue :
    accSteps 0 (colPartials (aRow 0 (0xC3 + 0x17 * 2 ^ 8 + 0x7E * 2 ^ 384)) (bCol 0 (0x56 + 0x71 * 2 ^ 8 + 0x81 * 2 ^ (8 * 4608)) 0)) = (0x41400000, 0)
      ∧ accSteps 0x4B800000 [.fin false 1 0, .fin false 1 0, .fin false 1 0] = (0x4B800000, 0) := by decide +kernel
/-- The panel images of the examples of R82. -/
theorem test_panelImages : mxPanel 0 8 = 39168 ∧ mxPanel 3 8 = 76032 ∧ mxPanel 0 1 = 4928 := by decide +kernel
/-- The sums of the example of R97: 2^25, 1 and -2^25 at a scale of 27, and 1.5 * 2^-40 lost. -/
theorem test_ex80 :
    toEx80 27 (.fin false 1 25) = (2 ^ 61, false) ∧ toEx80 27 (.fin false 1 0) = (2 ^ 36, false) ∧ toEx80 27 (.fin true 1 25) = (-(2 ^ 61), false)
      ∧ toEx80 27 (.fin false 3 (-41)) = (0, false) ∧ fromEx80 27 (2 ^ 36) = 0x3F800000 ∧ toEx80 4 (.fin false 3 (-1)) = (0x0C00000000000000, false) := by
  decide +kernel
/-- The first two cells of the merge of the example of R195. -/
theorem test_topkMerge :
    let pair (s i : Nat) : Nat := s * 2 ^ 44 + i
    let a := [pair 900 17, pair 900 40, pair 870 3, pair 500 2, pair 500 9]
    let b := [pair 900 12, pair 880 6, pair 500 2, pair 300 1, pair 300 7]
    let all := (a ++ b).foldl (fun l x => insertPair x l) []
    pair 900 17 = 0x0038400000000011 ∧ pair 500 2 = 0x001F400000000002
      ∧ all.take 5 = [pair 900 12, pair 900 17, pair 900 40, pair 880 6, pair 870 3]
      ∧ all.drop 5 = [pair 500 2, pair 500 2, pair 500 9, pair 300 1, pair 300 7] := by decide +kernel
/-- The translation of the example of R146. -/
theorem test_kvTranslation :
    let k := 4 * 0x35 + 2
    let p := mesh.p.modCore k fun c => { c with base := 0x600000000, limit := 0x8FFFFFFFF, pstride := 0x400, kvmap := [(0x12, 0xC0062000)] }
    translate p k { rowStream with src := 0x8007000000122300 } 0 = some 0x63C002300 := by decide +kernel
/-- The frame of the example of R385. -/
theorem test_vminFrame : (vminFrame 3 5 2985 false true).toNat / 2 ^ 8 % 2 ^ 23 = 0b00110010110111010100101 := by decide +kernel
/-- The hold-up bank of the example of R394: V^2 >= 123.5 bears a NOR sector, so 11.112 V do not and 11.114 V do. -/
theorem test_holdup :
    let s (v : Nat) := mesh.onP fun p => p.modPwr fun x => { x with bank := v, bankC := 12000 }
    holdupOk (s 11112).p estNor = false ∧ holdupOk (s 11114).p estNor = true := by decide +kernel
/-- The check values of CRC-32C, CRC-16/CCITT-FALSE and CRC-64/ECMA-182 over the nine digits. -/
theorem test_crc :
    crcHost (ascii "123456789") = 0xE3069283 ∧ crc16 (ascii "123456789") = 0x29B1 ∧ crc64 0 (ascii "123456789") = 0x6C40DF5F0B497347 := by
  decide +kernel
/-- SHA-384 of "abc" (FIPS 180-4). -/
theorem test_sha384 : blockNat (sha384 (ascii "abc")) =
    0xCB00753F45A35E8BB5A03D699AC65007272C32AB0EDED1631A8B605A43FF5BED8086072BA1E7CC2358BAECA134C825A7 := by decide +kernel
/-- Twice the base point of P-384. -/
theorem test_p384 : (ecMul 384 2 ecBase).map (·.1) =
    some 0x08D999057BA3D2D969260045C55B97F089025959A6F434D651D207D19FB96E9E4FE0E86EBE0E64F85B96A9C75295DF61 := by decide +kernel
/-- The AES-256 block of FIPS 197, appendix C.3. -/
theorem test_aes256 : blockNat (encryptBlock (roundKeys ((List.range 32).map (BitVec.ofNat 8))) ((List.range 16).map fun i => BitVec.ofNat 8 (0x11 * i))) =
    0x8EA2B7CA516745BFEAFC49904B496089 := by decide +kernel

/-! One step each: what the operands of the rule give. -/

/-- The state after a command. -/
abbrev after1 (o : Host.Outcome State Fault Refusal) : State := match o with | .next t => t | _ => State.reset

theorem test_add_wraps :
    (coreA 68 (after1 (exec (.add 68 (word 1 2 3 0 0)) (running fun a => { a with s := [(2, BitVec.allOnes 64), (3, 2)] })))).inflight = [⟨0, .s 1 1⟩] := by
  decide +kernel
theorem test_sar_keepsTheSign :
    (coreA 68 (after1 (exec (.sar 68 (word 1 2 3 0 0)) (running fun a => { a with s := [(2, 0x8000000000000000), (3, 67)] })))).inflight
      = [⟨0, .s 1 0xF000000000000000⟩] := by decide +kernel
theorem test_mulhu_highHalf :
    (coreA 68 (after1 (exec (.mulhu 68 (word 1 2 3 0 0)) (running fun a => { a with s := [(2, BitVec.allOnes 64), (3, 16)] })))).inflight
      = [⟨2, .s 1 15⟩] := by decide +kernel
theorem test_addi_signExtends :
    (coreA 68 (after1 (exec (.addi 68 (word 1 2 0 0 0x7FFFFFF)) (running fun a => { a with s := [(2, 5)] })))).inflight = [⟨0, .s 1 4⟩] := by
  decide +kernel
theorem test_shli_reservedBitFaults :
    (coreA 68 (after1 (exec (.shli 68 (word 1 2 0 0 64)) (running id)))).run ≠ .running := by decide +kernel
/-- 1.0 + 2^-24 in FP32 is halfway and rounds to the even 1.0; with BF16 lanes 1.0 + 1.0 is 2.0. -/
theorem test_vadd_rounds :
    (coreA 68 (after1 (exec (.vadd 68 .v0 (word 1 2 3 0 0)) (running fun a => { a with v := [(2, 0x3F800000), (3, 0x33800000)] })))).inflight
      = [⟨1, .v 1 0x3F800000⟩] := by decide +kernel
/-- IDENT of function 0 of a T128 on host port 0 (R312). -/
theorem test_bar0_ident : bar0Word mesh.p 0 0 0 = 0x4D4C595001FF0001 := by decide +kernel

end Sys2Proof.Tests
end

section
/-! PROOFS. What every effect keeps: the queue of waiting commands, and the canonical form of memory.
The proofs are elaborated one by one: all at once, their threads need more memory than the check allows. -/

set_option Elab.async false

namespace Sys2Proof.Machine

/-- `t` comes of `s` by an effect: the commands that wait are those of `s`, and memory is canonical where that of `s` is. -/
structure Evolves (s t : State) : Prop where
  pending : t.pending = s.pending
  canonical : s.mem.wf = true → t.mem.wf = true

variable {s t u : State}

namespace Evolves

theorem refl (s : State) : Evolves s s := ⟨rfl, id⟩

theorem trans (h : Evolves s t) (g : Evolves t u) : Evolves s u :=
  ⟨g.pending.trans h.pending, g.canonical ∘ h.canonical⟩

/-- A change of the panel touches neither the queue nor memory. -/
theorem panel (s : State) (p : Panel) : Evolves s { s with p := p } := ⟨rfl, id⟩

theorem onP (s : State) (f : Panel → Panel) : Evolves s (s.onP f) := panel s _

/-- An effect, and then a change of the panel. -/
theorem thenP (h : Evolves s t) (f : Panel → Panel) : Evolves s (t.onP f) := h.trans (onP t f)

/-- A change of the panel, and then an effect. -/
theorem afterP {p : Panel} (h : Evolves { s with p := p } t) : Evolves s t := (panel s p).trans h

theorem ite {c : Prop} [Decidable c] (ht : Evolves s t) (hu : Evolves s u) : Evolves s (if c then t else u) := by
  split
  · exact ht
  · exact hu

theorem each {α : Type} (l : List α) {f : α → State → State} (h : ∀ a s, Evolves s (f a s)) (s : State) : Evolves s (each l f s) :=
  each_keeps (P := Evolves s) l (fun a t ht => ht.trans (h a t)) (refl s)

end Evolves

/-! The operations that write memory. -/

theorem each_pending {α : Type} (l : List α) {f : α → State → State} (h : ∀ a s, (f a s).pending = s.pending) (s : State) :
    (each l f s).pending = s.pending :=
  each_keeps (P := fun t : State => t.pending = s.pending) l (fun a t ht => (h a t).trans ht) rfl

theorem bumpFree_evolves (b : Bool) (s : State) : Evolves s (bumpFree b s) := .ite (.panel s _) (.refl s)

theorem issueS_evolves {eff : Core → Mem → Core × Mem} (hw : ∀ c (m : Mem), m.wf = true → (eff c m).2.wf = true)
    (k : Nat) (sl : Slot) (w : SlotWord) (static dyn : Bool) (s : State) : Evolves s (issueS k sl w static dyn eff s) :=
  ⟨issueS_pending .., issueS_wf static dyn hw⟩

/-- A slot whose operation leaves memory. -/
theorem issueS_keepMem_evolves (f : Core → Core) (k : Nat) (sl : Slot) (w : SlotWord) (static dyn : Bool) (s : State) :
    Evolves s (issueS k sl w static dyn (keepMem f) s) :=
  issueS_evolves (fun _ _ h => h) k sl w static dyn s

theorem issueC_evolves (k : Nat) (w : SlotWord) (static dyn : Bool) (eff : Core → Core) (s : State) :
    Evolves s (issueC k w static dyn eff s) :=
  ⟨issueC_pending .., issueC_wf static dyn eff⟩

theorem deliverUnit_evolves (k : Nat) (st : Stream) (e : Ecc) (s : State) : Evolves s (deliverUnit k st e s) := by
  unfold deliverUnit
  dsimp only
  split <;> exact (Evolves.panel s _).trans (bumpFree_evolves _ _)

theorem putSched_evolves (k : Nat) (w : CycW) (off : Nat) (s : State) : Evolves s (putSched k w off s) :=
  ⟨rfl, putSched_wf k w off⟩

theorem captureStream_evolves (k : Nat) (st : Stream) (s : State) : Evolves s (captureStream k st s) := by
  refine ⟨?_, captureStream_wf k st⟩
  unfold captureStream
  dsimp only
  repeat' split
  all_goals rfl

theorem captureAll_evolves (k : Nat) (s : State) : Evolves s (captureAll k s) := .each _ (captureStream_evolves k) s

theorem landOneRecv_evolves (k : Nat) (x : RecvDue) (s : State) : Evolves s (landOneRecv k x s) :=
  ⟨rfl, schedWrite_wf _ _ _ _ _⟩

theorem landCore_evolves (k : Nat) (s : State) : Evolves s (landCore k s) :=
  (Evolves.onP s _).trans (.each _ (landOneRecv_evolves k) _)

theorem endCycle_evolves (k : Nat) (s : State) : Evolves s (endCycle k s) :=
  ((Evolves.onP s _).trans (captureAll_evolves k _)).trans (landCore_evolves k _)

theorem putProgram_evolves (k off : Nat) (d : List Byte) (s : State) : Evolves s (putProgram k off d s) := ⟨rfl, putProgram_wf k off d⟩

theorem performPart_evolves (k : Nat) (x : UPart) (e : Ecc) (s : State) : Evolves s (performPart k x e s) := by
  refine ⟨?_, performPart_wf k x e⟩
  unfold performPart
  dsimp only
  split
  case h_2 => exact (bumpFree_evolves _ _).pending
  all_goals rfl

theorem setNum_evolves (a n x : Nat) (s : State) : Evolves s { s with mem := s.mem.setNum a n x } := ⟨rfl, fun h => Mem.wf_setNum h a n x⟩

theorem stackPutWord_evolves (c w x : Nat) (s : State) : Evolves s (stackPutWord c w x s) := ⟨rfl, stackPutWord_wf c w x⟩

theorem stackWrite_evolves (rows : RowChks) (c a : Nat) (d : List Byte) (s : State) : Evolves s (stackWrite rows c a d s) :=
  ⟨each_pending _ (by intros; rfl) s, stackWrite_wf rows c a d⟩

theorem gaPut_evolves (hub : Bool) (who : Asker) (rows : RowChks) (a : Nat) (d : List Byte) (s : State) :
    Evolves s (gaPut hub who rows a d s).2 := by
  unfold gaPut
  split
  · exact stackWrite_evolves ..
  · exact .onP s _
  · split
    · exact putProgram_evolves ..
    · exact .refl s
  · split
    · exact .panel s _
    · exact .refl s

theorem gaWrite_evolves (b : By) (who : Asker) (a : Nat) (d : List Byte) (rows : RowErrs) (s : State) :
    Evolves s (gaWrite b who a d rows s).2 := by
  unfold gaWrite
  simp only [apply_ite Prod.snd]
  exact .ite (.ite (.panel s _) (.ite ((gaPut_evolves ..).afterP.thenP _) (gaPut_evolves ..).afterP)) (.onP s _)

theorem endDieReset_evolves (c : Nat) (s : State) : Evolves s (endDieReset c s) := by
  refine ⟨?_, endDieReset_wf c⟩
  unfold endDieReset
  split
  · rfl
  · rw [State.onP_pending]
    split
    · exact each_pending _ (by intros; rfl) s
    · rfl

/-! Regions. -/

theorem laneRecord_evolves (r : Nat) (l : Lane) (s : State) : Evolves s (laneRecord r l s) := by
  unfold laneRecord
  dsimp only
  split
  · exact stackWrite_evolves ..
  · exact .refl s

theorem bindBatch_evolves (r : Nat) (s : State) : Evolves s (bindBatch r s) :=
  (Evolves.each _ (laneRecord_evolves r) _).afterP

theorem endLive_evolves (r : Nat) (s : State) : Evolves s (endLive r s) := by
  unfold endLive
  exact ((Evolves.onP s _).trans (.ite (bindBatch_evolves r _) (.refl _))).thenP _

theorem progress_evolves (r : Nat) (s : State) : Evolves s (progress r s) := by
  unfold progress
  dsimp only
  split
  · exact .refl s
  · split
    · exact .refl s
    · have onPIf (c : Prop) [Decidable c] (f : Panel → Panel) (s : State) : Evolves s (if c then s.onP f else s) :=
        .ite (.onP s f) (.refl s)
      exact (((onPIf _ _ s).trans (.ite (endLive_evolves r _) (.refl _))).trans (onPIf _ _ _)).trans (onPIf _ _ _)

theorem startRegion_evolves (r : Nat) (s : State) : Evolves s (startRegion r s).2 := by
  unfold startRegion
  split
  · exact .refl s
  · exact (Evolves.onP s _).trans (progress_evolves r _)

theorem rootArrive_evolves (r d block mask : Nat) (s : State) : Evolves s (rootArrive r d block mask s) := by
  unfold rootArrive
  dsimp only
  split
  · exact .onP s _
  · split
    · exact (Evolves.onP s _).thenP _
    · exact ((Evolves.onP s _).thenP _).trans (progress_evolves r _)

theorem restartRegion_evolves (r : Nat) (s : State) : Evolves s (restartRegion r s).2 := by
  unfold restartRegion
  split
  · exact .refl s
  · split
    · exact .onP s _
    · exact .panel s _

theorem progressRestart_evolves (r : Nat) (s : State) : Evolves s (progressRestart r s) := by
  unfold progressRestart
  split
  · exact .refl s
  · split
    · exact .refl s
    · exact .ite (.onP s _) (.refl s)
    · exact .ite (.refl s) (.ite ((Evolves.onP s _).trans (progress_evolves r _)) (.onP s _))

theorem progressRestarts_evolves (s : State) : Evolves s (progressRestarts s) := .each _ progressRestart_evolves s

/-! Messages of the control network. -/

theorem onPktS_evolves {f : State → State} (hf : ∀ s, Evolves s (f s)) (k : Pkt) (site : Nat) (s : State) :
    Evolves s (onPktS k site f s) := by
  unfold onPktS
  split
  · exact .ite (.panel s _) (hf _).afterP
  · exact .refl s

theorem onHubPkt_evolves {f : State → State} (hf : ∀ s, Evolves s (f s)) (c : Nat) (k : Pkt) (s : State) :
    Evolves s (onHubPkt c k f s) :=
  .ite (.onP s _) (onPktS_evolves hf k c s)

theorem takeAck_evolves (src tag seq r : Nat) (s : State) : Evolves s (takeAck src tag seq r s) := by
  unfold takeAck
  refine .ite ((Evolves.onP s _).trans (progressRestarts_evolves _)) (.ite ?_ (.ite (.onP s _) (.refl s)))
  split
  · exact .refl s
  · exact .ite ((Evolves.onP s _).thenP _)
      (.ite ((Evolves.onP s _).thenP _) (((Evolves.onP s _).thenP _).trans (progress_evolves _ _)))

theorem bulkPut_evolves (c : Nat) (b : BulkIn) (i : Nat) (d : BitVec 64) (s : State) : Evolves s (bulkPut c b i d s).2 := by
  have put (r : GaOut × State) (f : Panel → Panel) (h : Evolves s r.2) :
      Evolves s (if r.1 = .done then (true, r.2) else (false, r.2.onP f)).2 := by
    split
    · exact h
    · exact h.thenP f
  generalize hr : bulkPut c b i d s = r
  unfold bulkPut at hr
  dsimp only at hr
  split at hr
  · subst hr
    split
    · exact .onP s _
    · split
      · exact .each _ (fun k => putProgram_evolves k _ _) s
      · exact .refl s
  · subst hr
    exact put _ _ (gaPut_evolves ..)

end Sys2Proof.Machine
end

section
set_option Elab.async false

namespace Sys2Proof.Machine

variable {s : State}

/-! The host's entries, copies, service cells and scans. -/

theorem runEntry_evolves {act : State → State} (h : ∀ s, Evolves s (act s)) (opc f n : Nat) (e : BitVec 512) (s : State) :
    Evolves s (runEntry opc f n e act s) := by
  unfold runEntry
  split
  · exact .refl s
  · dsimp only
    split
    · exact (Evolves.onP s _).trans (h _)
    · exact (Evolves.onP s _).thenP _

theorem copyPut_evolves (c : Copy) (s : State) : Evolves s (copyInNext.put c s) := by
  have h := gaWrite_evolves ⟨false, fnPart c.fn⟩ (.copyIn c.id) (c.ga + 4096 * c.block) c.block_ c.rows s
  unfold copyInNext.put
  dsimp only
  split <;> exact h.thenP _

theorem copyInNext_evolves (id : Nat) (s : State) : Evolves s (copyInNext id s) := by
  unfold copyInNext
  split
  · exact .refl s
  · refine .ite (.onP s _) ?_
    split
    · exact .ite (.onP s _) (copyPut_evolves ..)
    · exact copyPut_evolves ..

theorem restartCopies_evolves (s : State) : Evolves s (restartCopies s) :=
  (Evolves.onP s _).trans
    (.each _ (fun _ s => (Evolves.onP s _).trans (.ite (copyInNext_evolves _ _) (.onP _ _))) _)

theorem finishGen_evolves (g : GenAcc) (s : State) : Evolves s (finishGen g s) := by
  unfold finishGen
  split
  · exact .onP s _
  · exact .onP s _
  · exact .refl s
  · exact .onP s _

theorem finishGens_evolves (s : State) : Evolves s (finishGens s) :=
  (Evolves.onP s _).trans (.each _ finishGen_evolves _)

theorem serveAgent_evolves (site op : Nat) (e : RowErr) (s : State) : Evolves s (serveAgent site op e s) := by
  unfold serveAgent
  split
  · exact .refl s
  · refine .ite (.refl s) ?_
    refine .trans (.onP s _) (.ite (.onP _ _) (.ite ((Evolves.onP _ _).thenP _) (.ite (.onP _ _) ?_)))
    dsimp only
    refine .trans (.panel _ _) (.ite (.onP _ _) (.ite ?_ ?_))
    · generalize gaBytes _ _ _ _ = o
      cases o
      · exact (Evolves.onP _ _).thenP _
      · exact .onP _ _
    · generalize hr : gaPut _ _ _ _ _ _ = r
      refine .trans (t := r.2) (hr ▸ gaPut_evolves ..) ?_
      obtain ⟨out, t⟩ := r
      cases out
      case refused => exact (Evolves.onP t _).thenP _
      all_goals exact .onP t _

theorem completeLane_evolves (r : Nat) (l : Lane) (s : State) : Evolves s (completeLane r l s) := by
  unfold completeLane
  dsimp only
  split
  · exact .ite (.onP s _) (.onP s _)
  · exact .ite (.refl s) (.onP s _)
  · exact .onP s _
  · exact .onP s _
  · exact .refl s

theorem scanShard_evolves (c prof : Nat) (rows : List (Nat × RowChk)) (s : State) (j : Nat) : Evolves s (scanShard c prof rows s j) := by
  unfold scanShard
  dsimp only
  split
  · exact .refl s
  · split
    · exact .panel s _
    · exact .panel s _

/-- The state in which a scan of a check engine ends. -/
theorem scanEnd_evolves {c : Nat} {d : CheckDesc} {rows : RowErrs} {x : ScanEnd} (h : scanEnd c d rows s = some x) : Evolves s x.t := by
  unfold scanEnd at h
  dsimp only at h
  split at h
  · obtain rfl := Option.some.inj h
    exact .ite (.onP s _) (.refl s)
  · split at h
    · obtain rfl := Option.some.inj h
      split <;> exact .panel s _
    · split at h
      · cases h
      · split at h
        · obtain rfl := Option.some.inj h
          exact .refl s
        · split at h
          · obtain rfl := Option.some.inj h
            exact .refl s
          · cases h

/-! Partitions and probes. -/

theorem nextStep_evolves (n : Nat) (u : PackUp) (s : State) : Evolves s (nextStep n u s) := by
  unfold nextStep
  split
  · exact .ite (.onP s _) (.refl s)
  · exact .ite (.onP s _) (.refl s)
  · exact .ite (.onP s _) (.refl s)
  · exact .onP s _
  · exact .onP s _
  · exact .ite (.onP s _) (.refl s)
  · exact .ite (.onP s _) (.refl s)

theorem passProbe_evolves (key : Nat) (s : State) : Evolves s (passProbe key s) := by
  unfold passProbe
  exact (Evolves.ite (endDieReset_evolves _ s) (.refl s)).thenP _

/-! Time. -/

theorem dieEdge_evolves (site : Nat) (s : State) : Evolves s (dieEdge site s) :=
  .ite (.onP s _) ((Evolves.each _ endCycle_evolves s).thenP _)

theorem dieTick_evolves (site : Nat) (s : State) : Evolves s (dieTick site s) := by
  unfold dieTick
  dsimp only
  exact .ite (.refl s) (.ite (.onP s _) ((Evolves.onP s _).trans (.ite (dieEdge_evolves _ _) (.ite (.onP _ _) (.refl _)))))

theorem clockEdge_evolves (s : State) : Evolves s (clockEdge s) :=
  ((Evolves.onP s _).trans (.each _ dieTick_evolves _)).trans (finishGens_evolves _)

end Sys2Proof.Machine
end

section
set_option Elab.async false

namespace Sys2Proof.Machine

/-! Requests of the object dictionary: the state that each leaves. -/

theorem regionCommand_evolves (r x : Nat) (s : State) : Evolves s (regionCommand r x s).2 := by
  unfold regionCommand
  dsimp only
  split
  · exact .panel s _
  · exact startRegion_evolves r s
  · exact .panel s _
  · exact restartRegion_evolves r s
  · exact .panel s _
  · exact .refl s

theorem applyPuts_evolves (x : Session) (l : Puts) (s : State) : Evolves s (applyPuts x l s).2 := by
  induction l generalizing s with
  | nil => exact .refl s
  | cons e l ih =>
    unfold applyPuts
    split
    · exact .refl s
    · have go (a : Nat × State) (h : Evolves s a.2) : Evolves s (if a.1 ≠ 0 then a else applyPuts x l a.2).2 := by
        split
        · exact h
        · exact h.trans (ih _)
      refine go _ ?_
      split
      · exact regionCommand_evolves ..
      · exact .panel s _

theorem commitPuts_evolves (x : Session) (block : Nat) (puts : Puts) (job : NvJob) (s : State) :
    Evolves s (commitPuts x block puts job s).2.2 := by
  unfold commitPuts
  extract_lets p rows units pers state done keyed a
  have hd (t : State) : Evolves t (done t) := .onP t _
  have ha : Evolves s a.2 := applyPuts_evolves x puts s
  clear_value a pers
  split
  · exact .refl s
  · split
    · exact .refl s
    · split
      · dsimp only
        split
        · exact (hd _).afterP
        · exact .panel s _
      · split
        · split
          · exact hd s
          · exact .panel s _
        · split
          · exact ha
          · split
            · exact .refl s
            · exact ha.trans (hd _)

theorem modSess_evolves (x : Session) (f : Session → Session) (s : State) : Evolves s (s.modSess x f) := .onP s _

theorem endTransfer_evolves (x : Session) (s : State) : Evolves s (endTransfer x s) := by
  unfold endTransfer
  exact (modSess_evolves ..).trans (.ite (.onP _ _) (.refl _))

theorem sendValue_evolves (x : Session) (q : Req) (n : Nat) (v : List Byte) (s : State) : Evolves s (sendValue x q n v s).st := by
  unfold sendValue
  dsimp only
  split
  · exact .refl s
  · split
    · exact .refl s
    · exact modSess_evolves ..

theorem opRead_evolves (x : Session) (q : Req) (s : State) : Evolves s (opRead x q s).st := by
  unfold opRead
  dsimp only
  repeat' split
  any_goals exact .refl s
  all_goals exact sendValue_evolves ..

theorem opDescribe_evolves (x : Session) (q : Req) (s : State) : Evolves s (opDescribe x q s).st := by
  unfold opDescribe
  split
  · exact .refl s
  all_goals exact sendValue_evolves ..

theorem opReadStaged_evolves (x : Session) (q : Req) (s : State) : Evolves s (opReadStaged x q s).st := by
  unfold opReadStaged
  dsimp only
  repeat' split
  any_goals exact .refl s
  exact sendValue_evolves ..

theorem stageWrite_evolves (x : Session) (r : ORow) (i c field : Nat) (b : List Byte) (s : State) :
    Evolves s (stageWrite x r i c field b s).2 := by
  unfold stageWrite
  dsimp only
  split
  · exact .refl s
  · exact modSess_evolves ..

theorem writeValue_evolves (x : Session) (r : ORow) (i c field : Nat) (stage : Bool) (b : List Byte) (seq : Option Nat) (s : State) :
    Evolves s (writeValue x r i c field stage b seq s).2.2 := by
  unfold writeValue
  dsimp only
  split
  · exact .refl s
  · split
    · split
      · exact .refl s
      · exact stageWrite_evolves ..
    · split
      · exact .refl s
      · exact commitPuts_evolves ..

theorem commitStaged_evolves (x : Session) (i c : Nat) (seq : Option Nat) (rest : List Nat) (s : State) :
    Evolves s (commitStaged x i c seq rest s).2.2 := by
  unfold commitStaged
  dsimp only
  split
  · exact .refl s
  · split
    · exact .refl s
    · split
      · exact modSess_evolves ..
      · exact commitPuts_evolves ..

theorem commitSubs_evolves (slot id i : Nat) (seq : Option Nat) (l : List Nat) (s : State) :
    Evolves s (commitSubs slot id i seq l s).2.2 := by
  induction l generalizing s with
  | nil => exact .refl s
  | cons c rest ih =>
    unfold commitSubs
    split
    · exact .refl s
    · next x _ =>
      have h := commitStaged_evolves x i c seq rest s
      dsimp only
      split
      · exact .refl s
      · split
        · exact h
        · exact h.trans (ih _)

theorem Evolves.iteAnswer {c : Prop} [Decidable c] {a b : Answer} (ha : Evolves s a.st) (hb : Evolves s b.st) :
    Evolves s (if c then a else b).st := by
  split
  · exact ha
  · exact hb

theorem opCommit_evolves (x : Session) (q : Req) (s : State) : Evolves s (opCommit x q s).st := by
  unfold opCommit
  exact .iteAnswer (.refl s) (.iteAnswer (.refl s) (.iteAnswer (.refl s) (commitSubs_evolves ..)))

theorem openWrite_evolves (x : Session) (r : ORow) (q : Req) (s : State) : Evolves s (openWrite x r q s).st := by
  unfold openWrite
  exact .iteAnswer (.refl s) (.iteAnswer (.refl s) (.iteAnswer (.panel s _) (modSess_evolves ..).afterP))

theorem opWrite_evolves (x : Session) (q : Req) (s : State) : Evolves s (opWrite x q s).st := by
  unfold opWrite
  dsimp only
  split
  · exact .refl s
  · split <;> exact .refl s
  · exact opCommit_evolves ..
  · split
    · exact .refl s
    · split
      · exact .refl s
      · split
        · exact .panel s _
        · split
          · exact (openWrite_evolves ..).afterP
          · split
            · exact .panel s _
            · exact (writeValue_evolves ..).afterP

theorem opSegRead_evolves (x : Session) (q : Req) (s : State) : Evolves s (opSegRead x q s).st := by
  unfold opSegRead
  split
  · exact endTransfer_evolves x s
  · exact modSess_evolves ..

theorem opSegWrite_evolves (x : Session) (q : Req) (s : State) : Evolves s (opSegWrite x q s).st := by
  unfold opSegWrite
  split
  · exact endTransfer_evolves x s
  · dsimp only
    split
    · exact endTransfer_evolves x s
    · split
      · refine .trans (modSess_evolves ..) (.afterP (.ite (.refl _) (modSess_evolves ..)))
      · split
        · exact modSess_evolves ..
        · split
          · exact modSess_evolves ..
          · exact (modSess_evolves ..).trans (writeValue_evolves ..)

theorem perform_evolves (x : Session) (q : Req) (s : State) : Evolves s (perform x q s).st := by
  unfold perform
  split
  · exact opRead_evolves x q s
  · exact opWrite_evolves x q s
  · exact opSegRead_evolves x q s
  · exact opSegWrite_evolves x q s
  · exact endTransfer_evolves x s
  · exact opDescribe_evolves x q s
  · exact opReadStaged_evolves x q s
  · exact modSess_evolves ..
  all_goals exact .refl s

theorem inSession_evolves (v : Via) (hdr : List Byte) (x : Session) (q : Req) (s : State) : Evolves s (inSession v hdr x q s) := by
  unfold inSession
  dsimp only
  refine .ite (.panel s _) (.ite (.ite (.refl s) (.panel s _)) (.ite (.panel s _) (.ite (.panel s _) (.ite (.panel s _) ?_))))
  exact .trans (.trans (.onP s _) (perform_evolves _ q _)) (.ite (.refl _) (.ite (.panel _ _) (.panel _ _)))

theorem request_evolves (v : Via) (hdr : List Byte) (q : Req) (s : State) : Evolves s (request v hdr q s) := by
  unfold request
  dsimp only
  refine .ite (.panel s _) (.ite (.panel s _) (.ite (.panel s _) ?_))
  split
  · exact .panel s _
  · split
    · exact .panel s _
    · exact .ite (.onP s _) (inSession_evolves ..).afterP

theorem mgmtFrame_evolves (g h : Nat) (tag : Option (BitVec 128)) (q : Req) (s : State) : Evolves s (mgmtFrame g h tag q s) := by
  unfold mgmtFrame
  refine .ite (.onP s _) (.ite (.refl s) (.trans (.onP s _) (.ite (.onP _ _) ((Evolves.onP _ _).trans (request_evolves ..)))))

theorem mailboxGo_evolves (fn : Nat) (s : State) : Evolves s (mailboxGo fn s) := by
  unfold mailboxGo
  refine .ite (.onP s _) (.ite (.refl s) ?_)
  split
  · exact .onP s _
  · exact (Evolves.onP s _).trans (request_evolves ..)

theorem directWrite_evolves (slot i c : Nat) (b : List Byte) (s : State) : Evolves s (directWrite slot i c b s) := by
  unfold directWrite
  split
  · exact .ite (.refl s) (.ite (.panel s _) (writeValue_evolves ..).afterP)
  · exact .refl s

theorem nvStored_evolves (w : NvWrite) (s : State) : Evolves s (nvStored w s) := by
  unfold nvStored
  dsimp only
  split
  · exact .onP s _
  · exact .trans (.trans (.onP s _) (commitSubs_evolves ..)) (.ite (.refl _) (.onP _ _))

theorem resolveCommits_evolves (stored : Bool) (s : State) : Evolves s (resolveCommits stored s) := by
  unfold resolveCommits
  dsimp only
  split
  · exact .onP s _
  · exact .trans (.trans (.onP s _) (.ite ((Evolves.onP _ _).trans (nvStored_evolves ..)) (.ite (.onP _ _) (.onP _ _)))) (.onP _ _)

end Sys2Proof.Machine
end

section
set_option Elab.async false

namespace Sys2Proof.Machine

variable {s t : State}

/-! What a command answers. -/

/-- Command `c` answers a next state from `s`: one that comes of `s` by an effect, and `s` itself where `c` is not well-formed. -/
def Runs (c : Instr) (s : State) (o : Out) : Prop := ∃ t, o = .next t ∧ (wellFormed c = false → t = s) ∧ Evolves s t

/-- A command that is guarded by its well-formedness runs its effect. -/
theorem Runs.run {c : Instr} {ok : Bool} {f : State → State} (hf : ∀ s, Evolves s (f s)) (hc : wellFormed c = ok := by rfl) :
    Runs c s (s.run ok f) :=
  ⟨_, rfl, fun h => by rw [← hc, h]; rfl, .ite (hf s) (.refl s)⟩

/-- A command that runs on the panel alone. -/
theorem Runs.runP {c : Instr} {ok : Bool} {f : Panel → Panel} (hc : wellFormed c = ok := by rfl) : Runs c s (s.runP ok f) :=
  .run (fun s => .onP s f) hc

theorem nop_runs (k : Nat) (sl : Slot) (opc : BitVec 8) (s : State) : Runs (.nop k sl opc) s (execNop k sl opc s) :=
  .run fun s => .ite (issueC_evolves ..) (issueS_keepMem_evolves ..)

theorem load_runs {c : Instr} {k : Nat} (u : LUnit) (w : SlotWord) (e : Ecc) (n : Nat) (static : Bool) (mk : Nat → RegWrite) (s : State)
    (hc : wellFormed c = isCore k := by rfl) : Runs c s (loadOp k u w e n static mk s) :=
  .run (fun _ => (issueS_keepMem_evolves ..).trans (bumpFree_evolves ..)) hc

theorem store_runs {c : Instr} {k : Nat} (u : LUnit) (w : SlotWord) (n : Nat) (static : Bool) (val : CoreA → Nat) (s : State)
    (hc : wellFormed c = isCore k := by rfl) : Runs c s (storeOp k u w n static val s) :=
  .run (fun _ => issueS_evolves (fun _ _ h => schedWrite_wf _ _ _ _ _ h) ..) hc

theorem ldv_runs (k : Nat) (u : LUnit) (w : SlotWord) (e : Ecc) (s : State) : Runs (.ldv k u w e) s (execLdv k u w e s) :=
  load_runs u w e ..

theorem ldq_runs (k : Nat) (u : LUnit) (w : SlotWord) (e : Ecc) (s : State) : Runs (.ldq k u w e) s (execLdq k u w e s) :=
  load_runs u w e ..

theorem ldesc_runs (k : Nat) (u : LUnit) (w : SlotWord) (e : Ecc) (s : State) : Runs (.ldesc k u w e) s (execLdesc k u w e s) :=
  load_runs u w e ..

theorem stv_runs (k : Nat) (u : LUnit) (w : SlotWord) (s : State) : Runs (.stv k u w) s (execStv k u w s) :=
  store_runs u w ..

theorem stq_runs (k : Nat) (u : LUnit) (w : SlotWord) (s : State) : Runs (.stq k u w) s (execStq k u w s) :=
  store_runs u w ..

theorem lds_runs (k : Nat) (u : LUnit) (w : SlotWord) (e : Ecc) (s : State) : Runs (.lds k u w e) s (execLds k u w e s) :=
  .run fun s => .ite (.refl s) ((issueS_keepMem_evolves ..).trans (bumpFree_evolves ..))

theorem srun_runs (k : Nat) (u : LUnit) (w : SlotWord) (s : State) : Runs (.srun k u w) s (execSrun k u w s) :=
  .run fun _ => issueS_keepMem_evolves ..

theorem sra_runs (k : Nat) (u : LUnit) (w : SlotWord) (s : State) : Runs (.sra k u w) s (execSra k u w s) :=
  .run fun _ => issueS_keepMem_evolves ..

theorem streamUnitDelivery_runs (k sid : Nat) (e : Ecc) (s : State) :
    Runs (.streamUnitDelivery k sid e) s (execStreamUnitDelivery k sid e s) :=
  .run fun s => by
    dsimp only
    split
    · exact .refl s
    · exact .ite (deliverUnit_evolves ..) (.refl s)

theorem scratchpadClearDone_runs (k : Nat) (s : State) : Runs (.scratchpadClearDone k) s (execScratchpadClearDone k s) :=
  .run fun s => .ite ⟨rfl, fun h => Mem.wf_clear h _ _⟩ (.refl s)

theorem programStoreWrite_runs (k off : Nat) (d : List Byte) (s : State) :
    Runs (.programStoreWrite k off d) s (execProgramStoreWrite k off d s) :=
  .run fun s => .ite (putProgram_evolves ..) (.ite (.refl s) (.panel s _))

theorem unscheduledPartGrant_runs (k bank : Nat) (e : Ecc) (s : State) :
    Runs (.unscheduledPartGrant k bank e) s (execUnscheduledPartGrant k bank e s) :=
  .run fun s => by
    refine .ite (.refl s) ?_
    split
    · exact .refl s
    · exact (performPart_evolves ..).afterP

theorem sendPayloadRead_runs (k track : Nat) (e : Ecc) (s : State) :
    Runs (.sendPayloadRead k track e) s (execSendPayloadRead k track e s) :=
  .run fun s => by
    dsimp only
    split
    · exact .refl s
    · exact .ite (.refl s) (.ite (bumpFree_evolves ..).afterP (.panel s _))

theorem stackRequestGrant_runs (cs : Nat) (s : State) : Runs (.stackRequestGrant cs) s (execStackRequestGrant cs s) :=
  .run fun s => .ite (.refl s) (.trans (.trans (.panel s _) (.each _ (fun _ s => stackPutWord_evolves _ _ _ s) _)) (.panel _ _))

theorem stackRowWordRelease_runs (k sid unit idx : Nat) (s : State) :
    Runs (.stackRowWordRelease k sid unit idx) s (execStackRowWordRelease k sid unit idx s) :=
  .run fun s => by
    dsimp only
    split
    · exact .refl s
    · refine .ite (.refl s) (.ite (.panel s _) (.ite (.panel s _) (.ite (.panel s _) ?_)))
      exact .trans (.trans (.panel s _) (.ite (putSched_evolves ..) (setNum_evolves ..))) (.panel _ _)

theorem scrub_runs (cs : Nat) (e : RowErr) (s : State) : Runs (.scrub cs e) s (execScrub cs e s) :=
  .run fun s => .onP s _

theorem checkScanDone_runs (cs chan : Nat) (rows : RowErrs) (s : State) :
    Runs (.checkScanDone cs chan rows) s (execCheckScanDone cs chan rows s) :=
  .run fun s => by
    split
    · refine .ite (.refl s) ?_
      split
      · exact .refl s
      · next h => exact (scanEnd_evolves h).thenP _
    · exact .refl s

theorem arrive_runs (node : Nat) (k : Pkt) (s : State) : Runs (.arrive node k) s (execArrive node k s) :=
  .run fun s => by
    split
    · exact .ite (onPktS_evolves (rootArrive_evolves _ _ _ _) ..) (.onP s _)
    · exact .refl s

theorem sievePassStart_runs (cs : Nat) (rows : RowErrs) (s : State) : Runs (.sievePassStart cs rows) s (execSievePassStart cs rows s) :=
  .run fun s => .ite (.refl s) (.ite (.onP s _) (.trans (.onP s _) (.each _ (fun j s => scanShard_evolves _ _ _ s j) _)))

theorem queryCompletion_runs (r : Nat) (s : State) : Runs (.queryCompletion r) s (execQueryCompletion r s) :=
  .run fun s => by
    split
    · exact .refl s
    · exact .ite (.refl s) ((Evolves.each _ (completeLane_evolves r) s).thenP _)

theorem shardVerifyDone_runs (i : Nat) (s : State) : Runs (.shardVerifyDone i) s (execShardVerifyDone i s) :=
  .run fun s => by
    dsimp only
    split
    · exact .refl s
    · exact .ite (.panel s _) (.ite (.panel s _) (.ite (.panel s _) (.panel s _)))
    · exact .refl s

theorem copyIn_runs (fn sq : Nat) (e : BitVec 512) (host : HostBlocks) (s : State) :
    Runs (.copyIn fn sq e host) s (execCopyIn fn sq e host s) :=
  .run fun s => .ite (.refl s) (runEntry_evolves
    (fun s => .ite (.onP s _) ((Evolves.onP s _).trans (copyInNext_evolves ..))) ..)

theorem ingressReadbackDone_runs (fn sq : Nat) (s : State) : Runs (.ingressReadbackDone fn sq) s (execIngressReadbackDone fn sq s) :=
  .run fun s => by
    split
    · exact .refl s
    · split
      · exact .refl s
      · refine .trans (.panel s _) (.ite ((Evolves.onP _ _).trans (copyInNext_evolves ..)) (.trans (.onP _ _) (.ite (.onP _ _) ?_)))
        exact (Evolves.onP _ _).trans (copyInNext_evolves ..)

theorem egressBlockDone_runs (fn sq : Nat) (clean : Bool) (s : State) :
    Runs (.egressBlockDone fn sq clean) s (execEgressBlockDone fn sq clean s) :=
  .run fun s => by
    split
    · exact .refl s
    · split
      · exact .refl s
      · exact .trans (.panel s _) (.ite (.onP _ _) (.ite (.onP _ _) (.ite (.onP _ _) (.trans (.onP _ _) (.ite (.onP _ _) (.onP _ _))))))

theorem ack_runs (node : Nat) (k : Pkt) (s : State) : Runs (.ack node k) s (execAck node k s) :=
  .run fun s => by
    split
    · exact onPktS_evolves (fun s => .ite (.onP s _) (takeAck_evolves ..)) ..
    · exact .refl s

theorem epochSetRetry_runs (seq : Nat) (s : State) : Runs (.epochSetRetry seq) s (execEpochSetRetry seq s) :=
  .run fun s => (Evolves.onP s _).trans (progressRestarts_evolves _)

theorem bulkData_runs (node : Nat) (k : Pkt) (s : State) : Runs (.bulkData node k) s (execBulkData node k s) :=
  .run (onHubPkt_evolves (fun s => by
    split
    · dsimp only
      split
      · exact .onP s _
      · have h := bulkPut_evolves
        exact .ite (.onP s _) (.trans (.onP s _) (.ite ((h ..).thenP _) (h ..)))
    · exact .refl s) node k)

theorem apertureRead_runs (hp fn slice off n : Nat) (rows : RowErrs) (s : State) :
    Runs (.apertureRead hp fn slice off n rows) s (execApertureRead hp fn slice off n rows s) :=
  .run fun s => by
    refine .ite (.refl s) (.ite (.onP s _) ?_)
    split
    · exact .onP s _
    · refine .ite ((Evolves.onP s _).thenP _) (.ite (.onP s _) (.trans (.panel s _) (.ite (.onP _ _) ?_)))
      split
      · exact .onP _ _
      · exact (Evolves.onP _ _).thenP _

theorem apertureWrite_runs (hp fn slice off : Nat) (d : List Byte) (rows : RowErrs) (s : State) :
    Runs (.apertureWrite hp fn slice off d rows) s (execApertureWrite hp fn slice off d rows s) :=
  .run fun s => by
    refine .ite (.refl s) (.ite (.onP s _) ?_)
    split
    · exact .onP s _
    · exact .ite (.onP s _) (.ite ((gaWrite_evolves ..).thenP _) (gaWrite_evolves ..))

/-- The resets leave no byte listed. -/
theorem Evolves.cleared (s : State) (p : Panel) : Evolves s { s with mem := [], p := p } := ⟨rfl, fun _ => Mem.wf_nil⟩

theorem panelReset_runs (bankC : Nat) (s : State) : Runs (.panelReset bankC) s (execPanelReset bankC s) :=
  .run fun s => .cleared s _

theorem vsb12PorRelease_runs (settle : Nat) (s : State) : Runs (.vsb12PorRelease settle) s (execVsb12PorRelease settle s) :=
  .run fun s => .cleared s _

theorem dieResetDone_runs (die : Nat) (fell : Bool) (s : State) : Runs (.dieResetDone die fell) s (execDieResetDone die fell s) :=
  .run fun s => (endDieReset_evolves die s).trans (.ite (.onP _ _) (.refl _))

theorem memberEraseDone_runs (cs : Nat) (s : State) : Runs (.memberEraseDone cs) s (execMemberEraseDone cs s) :=
  .run fun s => by
    split
    · exact .refl s
    · exact .ite (.refl s) ⟨rfl, fun h => Mem.wf_clear h _ _⟩

theorem packupStepDone_runs (part : Nat) (s : State) : Runs (.packupStepDone part) s (execPackupStepDone part s) :=
  .run fun s => by
    split
    · exact .refl s
    · exact nextStep_evolves ..

theorem probeComplete_runs (unit : UnitId) (fail : Option Nat) (s : State) :
    Runs (.probeComplete unit fail) s (execProbeComplete unit fail s) :=
  .run fun s => by
    dsimp only
    split
    · exact .refl s
    · exact .trans (.onP s _) (.ite (.refl _) (.ite (.onP _ _) (passProbe_evolves ..)))

theorem mailboxGo_runs (hp fn len : Nat) (s : State) : Runs (.mailboxGo hp fn len) s (execMailboxGo hp fn len s) :=
  .run fun s => .ite (.refl s) (.ite (.onP s _) ((Evolves.onP s _).trans (mailboxGo_evolves ..)))

theorem registerWrite_runs (t : RegTarget) (d : List Byte) (s : State) : Runs (.registerWrite t d) s (execRegisterWrite t d s) := by
  cases t with
  | ga b a rows => exact .run fun s => gaWrite_evolves ..
  | bar0 hp f off =>
    exact .run fun s => .ite (.refl s) (.ite (.trans (.onP s _) (.ite (mailboxGo_evolves ..) (.refl _))) (.onP s _))

theorem transferGapTimeout_runs (slot : Nat) (s : State) : Runs (.transferGapTimeout slot) s (execTransferGapTimeout slot s) :=
  .run fun s => by
    split
    · split
      · exact .ite (endTransfer_evolves ..) (.refl s)
      · exact .refl s
    · exact .refl s

theorem nvRecordWrite_runs (e : NvEnd) (s : State) : Runs (.nvRecordWrite e) s (execNvRecordWrite e s) :=
  .run fun s => by
    dsimp only
    split
    · exact .onP s _
    · refine .trans (.onP s _) (.ite (.onP _ _) ?_)
      exact .trans (.trans (.onP _ _) (.ite (nvStored_evolves ..) (.onP _ _))) (.onP _ _)

theorem takeover_runs (stored : Bool) (s : State) : Runs (.takeover stored) s (execTakeover stored s) :=
  .run fun s => .ite (((Evolves.onP s _).trans (resolveCommits_evolves ..)).trans
    ((Evolves.onP _ _).trans (restartCopies_evolves _))) (.refl s)

/-- Every command runs: one case for each whose effect can reach memory, and the rest, which run on the panel alone. -/
theorem exec_runs (c : Instr) (s : State) : Runs c s (exec c s) := by
  cases c
  case nop k sl opc => exact nop_runs k sl opc s
  case ldv k u w e => exact ldv_runs k u w e s
  case ldq k u w e => exact ldq_runs k u w e s
  case ldesc k u w e => exact ldesc_runs k u w e s
  case lds k u w e => exact lds_runs k u w e s
  case stv k u w => exact stv_runs k u w s
  case stq k u w => exact stq_runs k u w s
  case srun k u w => exact srun_runs k u w s
  case sra k u w => exact sra_runs k u w s
  case sdrop | nsend | nrecv | nrstc | nwopen | nwclose => exact .run fun _ => issueS_keepMem_evolves ..
  case br | brl | brx | loop | waitc | waits | bar | evt | halt => exact .run fun _ => issueC_evolves ..
  case streamUnitDelivery k sid e => exact streamUnitDelivery_runs k sid e s
  case scratchpadClearDone k => exact scratchpadClearDone_runs k s
  case programStoreWrite k off d => exact programStoreWrite_runs k off d s
  case unscheduledPartGrant k bank e => exact unscheduledPartGrant_runs k bank e s
  case sendPayloadRead k track e => exact sendPayloadRead_runs k track e s
  case stackRequestGrant cs => exact stackRequestGrant_runs cs s
  case stackRowWordRelease k sid unit idx => exact stackRowWordRelease_runs k sid unit idx s
  case scrub cs e => exact scrub_runs cs e s
  case checkScanDone cs chan rows => exact checkScanDone_runs cs chan rows s
  case start r => exact .run fun s => startRegion_evolves r s
  case arrive node k => exact arrive_runs node k s
  case barrierRelease r => exact .run fun s => (progressRestart_evolves r s).trans (progress_evolves r _)
  case restart r => exact .run fun s => restartRegion_evolves r s
  case sievePassStart cs rows => exact sievePassStart_runs cs rows s
  case hostNop | query | cancel | earlyExit | copyOut => exact .run (runEntry_evolves (fun s => .onP s _) _ _ _ _)
  case queryCompletion r => exact queryCompletion_runs r s
  case shardVerifyDone i => exact shardVerifyDone_runs i s
  case serviceRead | serviceWrite => exact .run (serveAgent_evolves _ _ _)
  case copyIn fn sq e host => exact copyIn_runs fn sq e host s
  case ingressReadbackDone fn sq => exact ingressReadbackDone_runs fn sq s
  case egressBlockDone fn sq clean => exact egressBlockDone_runs fn sq clean s
  case ack node k => exact ack_runs node k s
  case cfgWrite | cfgRead | bulkOpen | bulkClose => exact .run (onHubPkt_evolves (fun s => .onP s _) _ _)
  case epochSetRetry seq => exact epochSetRetry_runs seq s
  case bulkData node k => exact bulkData_runs node k s
  case apertureRead hp fn slice off n rows => exact apertureRead_runs hp fn slice off n rows s
  case apertureWrite hp fn slice off d rows => exact apertureWrite_runs hp fn slice off d rows s
  case panelReset bankC => exact panelReset_runs bankC s
  case vsb12PorRelease settle => exact vsb12PorRelease_runs settle s
  case dieResetDone die fell => exact dieResetDone_runs die fell s
  case memberEraseDone cs => exact memberEraseDone_runs cs s
  case packupStepDone part => exact packupStepDone_runs part s
  case probeComplete unit fail => exact probeComplete_runs unit fail s
  case read | write | segRead | segWrite | endTransfer | describe | readStaged | discard | commit | hello | sessionOpen
      | sessionClose | keepalive | reportAck =>
    exact .run (mgmtFrame_evolves _ _ _ _)
  case mailboxGo hp fn len => exact mailboxGo_runs hp fn len s
  case registerWrite t d => exact registerWrite_runs t d s
  case transferGapTimeout slot => exact transferGapTimeout_runs slot s
  case credentialWrite | panelIdWrite => exact .run (directWrite_evolves _ _ _ _)
  case nvRecordWrite e => exact nvRecordWrite_runs e s
  case takeover stored => exact takeover_runs stored s
  all_goals exact .runP

theorem exec_evolves {c : Instr} (h : exec c s = .next t) : Evolves s t := by
  obtain ⟨u, hu, -, he⟩ := exec_runs c s
  obtain rfl : u = t := Host.Outcome.next.inj (hu.symm.trans h)
  exact he

/-- A step takes the command at the front of the queue and keeps memory canonical. -/
theorem step_evolves (h : step s = .next t) : Evolves { s with pending := s.pending.drop 1 } t := by
  unfold step at h
  split at h
  · next i rest hp => rw [hp]; exact exec_evolves h
  · next hp =>
    obtain rfl := Host.Outcome.next.inj h
    rw [hp]
    exact ⟨(clockEdge_evolves s).pending.trans hp, (clockEdge_evolves s).canonical⟩

end Sys2Proof.Machine
end

section
open Sys2Proof Sys2Proof.Machine

/-- Settles O60: every command of the table and the clock edge evolve the state. -/
theorem everyStepKeepsTheMemoryCanonical : Obligations.EveryStepKeepsTheMemoryCanonical :=
  fun _ _ hc h => (step_evolves h).canonical hc

end

section
/-! PROOFS. A slot word and the command that it spells. -/

set_option Elab.async false

namespace Sys2Proof

/-! The fields of a slot word. -/

theorem packSlot_opcOf_fieldsOf (x : Word) : packSlot (opcOf x) (fieldsOf x) = x := by
  apply BitVec.eq_of_getLsbD_eq
  intro i hi
  simp only [packSlot, opcOf, fieldsOf, BitVec.getLsbD_append, BitVec.getLsbD_extractLsb', BitVec.getLsbD_ofBool]
  grind

/-- A bit of a slot word, by the field it lies in. -/
theorem packSlot_getLsbD (o : BitVec 8) (w : SlotWord) (i : Nat) : (packSlot o w).getLsbD i =
    if i < 27 then w.imm.getLsbD i else if i < 33 then w.sc.getLsbD (i - 27) else if i < 39 then w.sb.getLsbD (i - 33)
    else if i < 45 then w.sa.getLsbD (i - 39) else if i < 51 then w.dst.getLsbD (i - 45) else if i < 52 then w.pneg
    else if i < 56 then w.prd.getLsbD (i - 52) else o.getLsbD (i - 56) := by
  simp only [packSlot, BitVec.getLsbD_append, BitVec.getLsbD_ofBool]
  grind

theorem extractLsb'_eq_of_bits {n : Nat} {x : Word} {y : BitVec n} (a : Nat) (h : ∀ i < n, x.getLsbD (a + i) = y.getLsbD i) :
    x.extractLsb' a n = y := by
  apply BitVec.eq_of_getLsbD_eq
  intro i hi
  rw [BitVec.getLsbD_extractLsb', h i hi]
  simp [hi]

theorem opcOf_packSlot (o : BitVec 8) (w : SlotWord) : opcOf (packSlot o w) = o :=
  extractLsb'_eq_of_bits 56 fun i hi => by rw [packSlot_getLsbD]; grind

theorem fieldsOf_packSlot (o : BitVec 8) (w : SlotWord) : fieldsOf (packSlot o w) = w := by
  obtain ⟨prd, pneg, dst, sa, sb, sc, imm⟩ := w
  simp only [fieldsOf, SlotWord.mk.injEq]
  refine ⟨extractLsb'_eq_of_bits 52 ?_, ?_, extractLsb'_eq_of_bits 45 ?_, extractLsb'_eq_of_bits 39 ?_,
    extractLsb'_eq_of_bits 33 ?_, extractLsb'_eq_of_bits 27 ?_, extractLsb'_eq_of_bits 0 ?_⟩
  all_goals simp only [packSlot_getLsbD]; grind

/-! From a word to its command. -/

/-- In slot `sl` of core `k`, command `i` is what `opc` and `w` say: an operation that has their word, or NOP. -/
structure Spells (k : Nat) (sl : Slot) (opc : BitVec 8) (w : SlotWord) (i : Instr) : Prop where
  listed : listedOpc sl opc.toNat = true → encodeSlot i = some (k, sl, packSlot opc w)
  unlisted : listedOpc sl opc.toNat = false → i = .nop k sl opc

variable {k : Nat} {sl : Slot} {opc : BitVec 8} {w : SlotWord} {i : Instr} {x : Word}

theorem Spells.operation {n : Nat} (hn : opc.toNat = n) (hl : listedOpc sl n = true)
    (he : encodeSlot i = some (k, sl, packSlot (BitVec.ofNat 8 n) w)) : Spells k sl opc w i := by
  subst hn
  rw [BitVec.ofNat_toNat, BitVec.setWidth_eq] at he
  exact ⟨fun _ => he, fun h => absurd (hl.symm.trans h) Bool.noConfusion⟩

theorem Spells.nop (hl : listedOpc sl opc.toNat = false) : Spells k sl opc w (.nop k sl opc) :=
  ⟨fun h => absurd (hl.symm.trans h) Bool.noConfusion, fun _ => rfl⟩

theorem commandS_spells (k : Nat) (opc : BitVec 8) (w : SlotWord) : Spells k .s opc w (commandS k opc w) := by
  unfold commandS
  split
  case h_23 => exact .nop (by grind [listedOpc])
  all_goals next h => exact .operation h rfl rfl

theorem commandV_spells (k : Nat) (u : VUnit) (opc : BitVec 8) (w : SlotWord) : Spells k u.slot opc w (commandV k u opc w) := by
  have hl (n : Nat) : listedOpc u.slot n = listedOpc .v0 n := by cases u <;> rfl
  unfold commandV
  split
  case h_24 => cases u <;> exact .nop (by grind [listedOpc, VUnit.slot])
  all_goals next h => exact .operation h ((hl _).trans rfl) rfl

theorem commandM_spells (k : Nat) (opc : BitVec 8) (w : SlotWord) : Spells k .m opc w (commandM k opc w) := by
  unfold commandM
  split
  case h_5 => exact .nop (by grind [listedOpc])
  all_goals next h => exact .operation h rfl rfl

theorem commandL_spells (k : Nat) (u : LUnit) (opc : BitVec 8) (w : SlotWord) : Spells k u.slot opc w (commandL k u opc w) := by
  have hl (n : Nat) : listedOpc u.slot n = listedOpc .l0 n := by cases u <;> rfl
  unfold commandL
  split
  case h_10 => cases u <;> exact .nop (by grind [listedOpc, LUnit.slot])
  all_goals next h => exact .operation h ((hl _).trans rfl) rfl

theorem commandN_spells (k : Nat) (opc : BitVec 8) (w : SlotWord) : Spells k .n opc w (commandN k opc w) := by
  unfold commandN
  split
  case h_6 => exact .nop (by grind [listedOpc])
  all_goals next h => exact .operation h rfl rfl

theorem commandC_spells (k : Nat) (opc : BitVec 8) (w : SlotWord) : Spells k .c opc w (commandC k opc w) := by
  unfold commandC
  split
  case h_10 => exact .nop (by grind [listedOpc])
  all_goals next h => exact .operation h rfl rfl

theorem slotCommand_spells (k : Nat) (sl : Slot) (x : Word) : Spells k sl (opcOf x) (fieldsOf x) (slotCommand k sl x) := by
  cases sl with
  | s => exact commandS_spells ..
  | v0 => exact commandV_spells k .v0 ..
  | v1 => exact commandV_spells k .v1 ..
  | m => exact commandM_spells ..
  | l0 => exact commandL_spells k .l0 ..
  | l1 => exact commandL_spells k .l1 ..
  | n => exact commandN_spells ..
  | c => exact commandC_spells ..

theorem encodeSlot_slotCommand (h : listedOpc sl (opcOf x).toNat = true) : encodeSlot (slotCommand k sl x) = some (k, sl, x) := by
  rw [(slotCommand_spells k sl x).listed h, packSlot_opcOf_fieldsOf]

/-! From a slot command to its word, and back. -/

theorem slotCommand_packSlot_s (k : Nat) (o : BitVec 8) (w : SlotWord) : slotCommand k .s (packSlot o w) = commandS k o w := by
  simp only [slotCommand, opcOf_packSlot, fieldsOf_packSlot]

theorem slotCommand_packSlot_v (k : Nat) (u : VUnit) (o : BitVec 8) (w : SlotWord) :
    slotCommand k u.slot (packSlot o w) = commandV k u o w := by
  cases u <;> simp only [slotCommand, VUnit.slot, opcOf_packSlot, fieldsOf_packSlot]

theorem slotCommand_packSlot_m (k : Nat) (o : BitVec 8) (w : SlotWord) : slotCommand k .m (packSlot o w) = commandM k o w := by
  simp only [slotCommand, opcOf_packSlot, fieldsOf_packSlot]

theorem slotCommand_packSlot_l (k : Nat) (u : LUnit) (o : BitVec 8) (w : SlotWord) :
    slotCommand k u.slot (packSlot o w) = commandL k u o w := by
  cases u <;> simp only [slotCommand, LUnit.slot, opcOf_packSlot, fieldsOf_packSlot]

theorem slotCommand_packSlot_n (k : Nat) (o : BitVec 8) (w : SlotWord) : slotCommand k .n (packSlot o w) = commandN k o w := by
  simp only [slotCommand, opcOf_packSlot, fieldsOf_packSlot]

theorem slotCommand_packSlot_c (k : Nat) (o : BitVec 8) (w : SlotWord) : slotCommand k .c (packSlot o w) = commandC k o w := by
  simp only [slotCommand, opcOf_packSlot, fieldsOf_packSlot]

/-- The word of a slot command spells it again, where no word that it reads has failed its check. -/
theorem slotCommand_of_encodeSlot (he : encodeSlot i = some (k, sl, x))
    (hd : ∀ (u : LUnit) (w : SlotWord) (e : Ecc), i = .ldv k u w e ∨ i = .ldq k u w e ∨ i = .ldesc k u w e ∨ i = .lds k u w e → e = default) :
    slotCommand k sl x = i := by
  cases i
  case add | sub | addi | and | or | xor | shl | shr | sar | shli | mul | mulhu | min | max | cmpeq | cmplt | cmpltu | cmplti
      | li | lih | mfs | mts =>
    cases he
    exact slotCommand_packSlot_s ..
  case vadd | vsub | vmul | vfma | vmax | vmin | vand | vor | vxor | vshuf | vbcast | vcmplt | vcmpeq | vsel | vexp2 | vlog2
      | vrsqrt | vrcp | vcvt | vrmax | vrsum | vtoex80 | vfromex80 =>
    cases he
    exact slotCommand_packSlot_v ..
  case mfmt | mmul | mswap | mclr =>
    cases he
    exact slotCommand_packSlot_m ..
  case ldv u w e | ldq u w e | ldesc u w e | lds u w e =>
    cases he
    obtain rfl := hd u w e (by simp)
    exact slotCommand_packSlot_l ..
  case stv | stq | srun | sra | sdrop =>
    cases he
    exact slotCommand_packSlot_l ..
  case nsend | nrecv | nrstc | nwopen | nwclose =>
    cases he
    exact slotCommand_packSlot_n ..
  case br | brl | brx | loop | waitc | waits | bar | evt | halt =>
    cases he
    exact slotCommand_packSlot_c ..
  all_goals cases he

end Sys2Proof
end

section
open Sys2Proof Sys2Proof.Machine

/-- Settles O58: every command runs, and a slot's words and its commands spell each other. -/
theorem everyWellFormedCommandRuns : Obligations.EveryWellFormedCommandRuns := by
  refine ⟨fun c s => ?_, fun k sl x => encodeSlot_slotCommand, fun k sl x => (slotCommand_spells k sl x).unlisted,
    fun i k sl x => slotCommand_of_encodeSlot⟩
  obtain ⟨t, ht, hw, -⟩ := exec_runs c s
  exact ⟨t, ht, hw⟩

end

section
/-! PROOFS. A die whose straps fail within 100 ticks of its last urgent report: the report waits in its paced queue (R296). -/

set_option Elab.async false

namespace Sys2Proof.Machine

/-- Compute die 0x11 takes part, is just released from its reset, and has sent an urgent report at this very tick. -/
def strapsOfAPacedDie : State := State.reset.onP fun p =>
  (((p.modBoot fun b => { b with dieUp := [(0x11, .released)] }).modUnit 0x11 fun u => { u with st := .ready }).modBlk
    (blockOf 0x11) fun b => { b with st := .up }).modNode 0x11 fun n => { n with lastUrgent := some p.now }

/-- Strap word 0x11 names the die's own site, and has even parity: the die is held, its report queued, and no message under way. -/
theorem strapCheck_queues_its_report : ∃ t, exec (.strapCheck 0x11 0x11) strapsOfAPacedDie = .next t
    ∧ (∃ d, (t.p.getNode 0x11).urgent.map (·.msg) = [.faultReport 0x0D01 0 d]) ∧ allPkts t.p = [] :=
  ⟨_, rfl, ⟨_, rfl⟩, by decide +kernel⟩

end Sys2Proof.Machine
end

section
open Sys2Proof Sys2Proof.Machine

/-- Refutes O50: a die whose straps fail within 100 ticks of its last urgent report queues the report (R296), so none is on its way. -/
theorem not_resetsAndBringUpRunTheirPhases : ¬ Obligations.ResetsAndBringUpRunTheirPhases := by
  unfold Obligations.ResetsAndBringUpRunTheirPhases
  intro h
  obtain ⟨-, -, -, -, -, -, -, -, -, -, -, -, straps, -⟩ := h 0 0x11 0 strapsOfAPacedDie (by decide)
  obtain ⟨t, ht, -, -, reports, -⟩ := ((straps 0x11).1 (by decide +kernel)).2 (by decide +kernel)
  obtain ⟨d, k, hk, -⟩ := reports (by decide +kernel)
  obtain ⟨u, hu, -, hnone⟩ := strapCheck_queues_its_report
  obtain rfl : u = t := Host.Outcome.next.inj (hu.symm.trans ht)
  rw [hnone] at hk
  cases hk

end

section
/-! PROOFS. The vector slots: what an operation that issues puts in flight, and the lanes of the integer types (R89, R90). -/

namespace Sys2Proof.Machine

variable {k : Nat} {u : VUnit} {w : SlotWord} {s : State}

/-! What an operation that issues puts in flight. -/

/-- A legal operation of a vector slot puts its value, of the core as it stands, in flight to v[DST]. -/
theorem Issues.vectorV_eq (h : Issues k (slotV u) w s) (lat : Nat) {static : Bool} (hs : static = true) (f : CoreA → Vec) :
    vectorV k u w lat static f s = .next (issued k (slotV u) (launch lat (.v (SlotW.dst w) (f (coreA k s)))) s) :=
  h.runP' hs rfl _ rfl

/-- As `Issues.vectorV_eq`, for a lane-wise operation of two registers, its lanes rewritten as `l`. -/
theorem Issues.vector2_eq (h : Issues k (slotV u) w s) (het : SlotW.et w ≤ 6) (lat : Nat) {f : Nat → Nat → Nat → Nat} {l : List Nat}
    (hl : List.zipWith (f (SlotW.et w)) (vLanes (SlotW.et w) (rdV (coreA k s) (SlotW.sa w)))
      (vLanes (SlotW.et w) (rdV (coreA k s) (SlotW.sb w))) = l) :
    vector2 k u w lat f s = .next (issued k (slotV u) (launch lat (.v (SlotW.dst w) (ofLanes (SlotW.et w) l))) s) := by
  subst hl
  exact h.vectorV_eq lat (decide_eq_true het) _

/-! The lanes of a vector. -/

theorem lanes_lt {n b x y : Nat} (h : y ∈ lanes b n x) : y < 2 ^ b := by
  induction n generalizing x with
  | zero => cases h
  | succ n ih =>
    obtain rfl | h := List.mem_cons.mp h
    · exact Nat.mod_lt _ (Nat.two_pow_pos b)
    · exact ih h

theorem vLanes_lt {et y : Nat} {v : Vec} (h : y ∈ vLanes et v) : y < 2 ^ etWidth et := lanes_lt h

theorem zipWith_congr_of_mem_right {α β γ : Type} {f g : α → β → γ} {l : List α} {m : List β} (h : ∀ x, ∀ y ∈ m, f x y = g x y) :
    List.zipWith f l m = List.zipWith g l m :=
  List.ext_getElem (by simp) fun i _ _ => by simpa using h _ _ (List.getElem_mem _)

/-! A result modulo 2^b. -/

theorem wrap_natCast_toNat (b m : Nat) : (wrap b m).toNat = m % 2 ^ b := by
  rw [wrap, BitVec.ofInt_natCast, BitVec.toNat_ofNat]

/-- A difference that borrows wraps to the difference with 2^b added. -/
theorem wrap_sub_toNat {b x y : Nat} (h : y < 2 ^ b) : (wrap b ((x : Int) - y)).toNat = (x + 2 ^ b - y) % 2 ^ b := by
  have hc : (x : Int) - y + (2 ^ b : Nat) = (x + 2 ^ b - y : Nat) := by omega
  rw [← wrap_natCast_toNat, ← hc]
  simp only [wrap, BitVec.toNat_ofInt, Int.add_emod_right]

/-! The integer types. -/

section
variable {et : Nat} (het : 3 ≤ et)
include het

theorem etFloat_of_int : etFloat et = false := decide_eq_false (by omega)

theorem laneArith_of_int (ff : Num → Num → Num) (fi : Int → Int → Int) (x y : Nat) :
    laneArith ff fi et x y = (wrap (etWidth et) (fi x y)).toNat := by
  simp only [laneArith, etFloat_of_int het, Bool.false_eq_true, if_false]

theorem laneAdd_of_int (x y : Nat) : laneAdd et x y = (x + y) % 2 ^ etWidth et := by
  rw [laneAdd, laneArith_of_int het, ← Int.natCast_add, wrap_natCast_toNat]

theorem laneSub_of_int {x y : Nat} (hy : y < 2 ^ etWidth et) : laneSub et x y = (x + 2 ^ etWidth et - y) % 2 ^ etWidth et := by
  rw [laneSub, laneArith_of_int het, wrap_sub_toNat hy]

theorem laneMul_of_int (x y : Nat) : laneMul et x y = x * y % 2 ^ etWidth et := by
  rw [laneMul, laneArith_of_int het, ← Int.natCast_mul, wrap_natCast_toNat]

theorem laneFma_of_int (x y z : Nat) : laneFma et x y z = (x * y + z) % 2 ^ etWidth et := by
  simp only [laneFma, etFloat_of_int het, Bool.false_eq_true, if_false]
  rw [← Int.natCast_mul, ← Int.natCast_add, wrap_natCast_toNat]

theorem laneInt_laneMax (x y : Nat) : laneInt et (laneMax et x y) = max (laneInt et x) (laneInt et y) := by
  simp only [laneMax, etFloat_of_int het, Bool.false_eq_true, if_false]
  split <;> omega

theorem laneInt_laneMin (x y : Nat) : laneInt et (laneMin et x y) = min (laneInt et x) (laneInt et y) := by
  simp only [laneMin, etFloat_of_int het, Bool.false_eq_true, if_false]
  split <;> omega

end

end Sys2Proof.Machine
end

section
open Sys2Proof Sys2Proof.Machine

/-- Settles O4: an integer lane is the exact result wrapped to the lane's width, and its order is that of its value. -/
theorem integerVectorArithmeticWraps : Obligations.IntegerVectorArithmeticWraps := by
  intro k u w s h hint het
  refine ⟨h.vector2_eq het 2 ?add, h.vector2_eq het 2 ?sub, h.vector2_eq het 3 ?mul, ?fma,
    fun x _ y _ => ⟨laneInt_laneMax hint x y, laneInt_laneMin hint x y⟩⟩
  case add => exact zipWith_congr_of_mem_right fun x y _ => laneAdd_of_int hint x y
  case sub => exact zipWith_congr_of_mem_right fun _ _ hy => laneSub_of_int hint (vLanes_lt hy)
  case mul => exact zipWith_congr_of_mem_right fun x y _ => laneMul_of_int hint x y
  case fma =>
    simp only [← laneFma_of_int hint]
    exact h.vectorV_eq 4 (decide_eq_true het) _

end

section
/-! PROOFS. The unscheduled parts of a core's scratchpad and its windows: what a grant, a starved part, a missed span, an ingress
check and a close leave of the core (R106, R108, R114-R117). -/

namespace Sys2Proof.Machine

variable {p q : Panel} {s : State} {k bank w : Nat} {x : UPart} {c : Cell}

@[simp] theorem coreA_onP (k : Nat) (f : Panel → Panel) (s : State) : coreA k (s.onP f) = ((f s.p).getCore k).a := rfl

/-! Events and messages leave every core; counting a counter up leaves the windows. -/

theorem Reported.getCore_eq (h : Reported p q) (j : Nat) : q.getCore j = p.getCore j := by
  rw [Panel.getCore, h.core]; rfl

@[simp] theorem coreRaise_getCore (k ev : Nat) (d : Dat) (p : Panel) (j : Nat) : (coreRaise k ev d p).getCore j = p.getCore j :=
  (coreRaise_reported ..).getCore_eq j

@[simp] theorem sendPkt_getCore (m : Pkt) (p : Panel) (j : Nat) : (sendPkt m p).getCore j = p.getCore j :=
  (sendPkt_reported ..).getCore_eq j

theorem bumpC_win (n : Nat) (a : CoreA) : (bumpC n a).win = a.win := rfl

theorem each_bumpC_win (l : List Nat) (a : CoreA) : (each l bumpC a).win = a.win :=
  each_keeps (P := fun b : CoreA => b.win = a.win) l (fun n b h => (bumpC_win n b).trans h) rfl

/-! The grant of a bank to a part of a window write (R106, R108, R115). -/

theorem windowDone_sctr (k w : Nat) (p : Panel) : ((windowDone k w p).getCore k).a.sctr = (p.getCore k).a.sctr := by
  rw [windowDone, Panel.modA_same]
  dsimp only
  split <;> rfl

/-- A part that writes, where no word that it reads has failed its check. -/
theorem writePart_clean (k at_ : Nat) (d : List Byte) (act : Bool → Panel → Panel) (s : State) :
    writePart k at_ d ⟨[], []⟩ act s =
      { s with mem := s.mem.writeL (gaScratch k at_) d, p := act false (s.p.modA k (eccCount ⟨[], []⟩)) } := rfl

/-- The bytes of a part of a window write are written, and the counts of the scratchpad are left. -/
theorem performPart_win {n at_ : Nat} {d : List Byte} (h : x.act = .win n at_ d) (s : State) :
    (performPart k x ⟨[], []⟩ s).mem = s.mem.writeL (gaScratch k at_) d
      ∧ (coreA k (performPart k x ⟨[], []⟩ s)).sctr = (coreA k s).sctr := by
  have hcount : ((s.p.modA k (eccCount ⟨[], []⟩)).getCore k).a.sctr = (coreA k s).sctr := by
    rw [Panel.modA_same]; rfl
  simp only [performPart, h, writePart_clean, true_and]
  split
  · rw [windowDone_sctr, hcount]
  · exact hcount

/-- The state in which bank `bank` of core `k` has gone to part `x`, the rotation pointer moved to `r`, the part not yet performed. -/
def bankGranted (k bank : Nat) (x : UPart) (r : Option Nat) (s : State) : State :=
  let c := s.p.getCore k
  { s with p := s.p.setCore k (onA (countWait ((s.p.getClk (siteOf k)).clk - x.asked)) { c with
      parts := dropPart x c.parts, granted := c.granted ++ [(x.agent, bank)],
      rot := r.elim c.rot fun i => Tab.set bank i c.rot }) }

theorem bankGranted_sctr (k bank : Nat) (x : UPart) (r : Option Nat) (s : State) :
    (coreA k (bankGranted k bank x r s)).sctr
      = (countWait ((s.p.getClk (siteOf k)).clk - x.asked) (coreA k s)).sctr := by
  simp only [coreA, bankGranted, Panel.setCore_same, onA]

/-- A free bank of a core that is not being cleared goes to the part that wins it. -/
theorem exec_unscheduledPartGrant {r : Option Nat} (hk : isCore k = true) (hb : bank < 256) (hrun : (coreA k s).run ≠ .resetting)
    (hfree : bankBusy (s.p.getCore k) bank = false) (hg : (s.p.getCore k).granted = [])
    (hw : winner (s.p.getCore k) bank = some (x, r)) (e : Ecc) :
    exec (.unscheduledPartGrant k bank e) s = .next (performPart k x e (bankGranted k bank x r s)) := by
  change execUnscheduledPartGrant k bank e s = _
  simp [execUnscheduledPartGrant, State.run, bankGranted, hk, hb, hrun, hfree, hg, hw]
  cases r <;> rfl

/-! Starvation and missed spans (R108). -/

/-- The one part of a core, waiting longer than the threshold and not yet counted, is counted and marked. -/
theorem exec_unscheduledStarved (hk : isCore k = true) (hp : (s.p.getCore k).parts = [x]) (hx : x.starved = false)
    (hlate : x.asked + dieCfg s.p (siteOf k) 0x600C 1 < (s.p.getClk (siteOf k)).clk) :
    exec (.unscheduledStarved k) s = .next (s.onP fun p => coreRaise k 0x0506 none (p.modCore k fun c => { c with
      parts := [{ x with starved := true }],
      a := { c.a with sctr := { c.a.sctr with starved := c.a.sctr.starved + 1 } } })) := by
  change execUnscheduledStarved k s = _
  simp [execUnscheduledStarved, State.runP, State.run, State.onP, Panel.modCore, hk, hp, hx, hlate]

/-- A span without an open cycle that is not yet counted is counted. -/
theorem exec_openCycleMiss (hk : isCore k = true) (hm : 0 < (s.p.getCore k).missDue) :
    exec (.openCycleMiss k) s = .next (s.onP fun p => p.modCore k fun c => { c with
      missDue := c.missDue - 1, a := { c.a with sctr := { c.a.sctr with misses := c.a.sctr.misses + 1 } } }) := by
  change execOpenCycleMiss k s = _
  simp [execOpenCycleMiss, State.runP, State.run, State.onP, Panel.modCore, hk, hm]

/-! The ingress check of a window write (R114, R115, R117). -/

theorem askPart_keeps (k j acc : Nat) (ag : Agent) (at_ : Nat) (act : PartAct) (p : Panel) :
    ((askPart k acc ag at_ act p).getCore j).a = (p.getCore j).a
      ∧ ((askPart k acc ag at_ act p).getCore j).winq = (p.getCore j).winq := by
  by_cases h : j = k
  · subst h
    rw [askPart, Panel.modCore_same]
    exact ⟨rfl, rfl⟩
  · rw [askPart, Panel.modCore_ne _ _ h]
    exact ⟨rfl, rfl⟩

/-- Asking for parts leaves the architectural part of every core, and the window writes that wait. -/
theorem askParts_keeps (k j : Nat) (ag : Agent) (at_ n : Nat) (mk : Nat → Nat → Nat → PartAct) (p : Panel) :
    ((askParts k ag at_ n mk p).getCore j).a = (p.getCore j).a
      ∧ ((askParts k ag at_ n mk p).getCore j).winq = (p.getCore j).winq :=
  each_keeps (P := fun q : Panel => (q.getCore j).a = (p.getCore j).a ∧ (q.getCore j).winq = (p.getCore j).winq) _
    (fun _ q ⟨ha, hq⟩ =>
      have hkeep := askPart_keeps k j q.nextAcc ag _ _ q
      ⟨hkeep.1.trans ha, hkeep.2.trans hq⟩) ⟨rfl, rfl⟩

/-- An accepted window write is counted and in flight, and the writes behind it wait as before. -/
theorem acceptWrite_core (k : Nat) (c : Cell) (p : Panel) :
    let o := (acceptWrite k c p).getCore k
    let a := (p.getCore k).a
    o.winq = (p.getCore k).winq ∧ o.a.wnctr.accepted = a.wnctr.accepted + 1
      ∧ (Tab.get window0 o.a.win (winPrefix c).win).inflight = (Tab.get window0 a.win (winPrefix c).win).inflight + 1 := by
  dsimp only [acceptWrite]
  rw [(askParts_keeps ..).1, (askParts_keeps ..).2, Panel.modA_same, Tab.get_set_same]
  exact ⟨by simp [Panel.modA], rfl, rfl⟩

/-- A discarded window write that is late is counted and recorded with reason 1; it asks for no part. -/
theorem discardWrite_late_core (k : Nat) (c : Cell) (p : Panel) :
    let o := (discardWrite k 1 c p).getCore k
    o.winq = (p.getCore k).winq ∧ o.a.wnctr.late = (p.getCore k).a.wnctr.late + 1
      ∧ o.parts = (p.getCore k).parts ∧ o.discard.reason = 1 := by
  dsimp only [discardWrite]
  split <;> simp

/-- The window write at the head of the queue has been taken for its check, those of `t` being behind it. -/
def ingressTaken (k : Nat) (t : List Cell) (p : Panel) : Panel := p.modCore k fun o => { o with winq := t }

theorem exec_windowIngressCheck_passed {t : List Cell} (hk : isCore k = true) (hq : (s.p.getCore k).winq = c :: t)
    (hc : winCheck (coreA k s) c = none) :
    exec (.windowIngressCheck k) s = .next (s.onP fun p => acceptWrite k c (ingressTaken k t p)) := by
  change execWindowIngressCheck k s = _
  simp [execWindowIngressCheck, State.runP, State.run, State.onP, ingressTaken, hk, hq, hc]

theorem exec_windowIngressCheck_failed {t : List Cell} {r : Nat} (hk : isCore k = true) (hq : (s.p.getCore k).winq = c :: t)
    (hc : winCheck (coreA k s) c = some r) :
    exec (.windowIngressCheck k) s = .next (s.onP fun p => discardWrite k r c (ingressTaken k t p)) := by
  change execWindowIngressCheck k s = _
  simp [execWindowIngressCheck, State.runP, State.run, State.onP, ingressTaken, hk, hq, hc]

/-! The end of a close (R116). -/

/-- A CLOSING window with nothing in flight is CLOSED and no counter waits for it any more; the windows do not change otherwise. -/
theorem exec_windowCloseComplete (hk : isCore k = true) (hw : w < 64) (hst : (Tab.get window0 (coreA k s).win w).st = .closing)
    (hfl : (Tab.get window0 (coreA k s).win w).inflight = 0) :
    ∃ t, exec (.windowCloseComplete k w) s = .next t ∧ t.mem = s.mem
      ∧ (coreA k t).win = Tab.set w { Tab.get window0 (coreA k s).win w with st := .closed, notify := [] } (coreA k s).win := by
  refine ⟨_, rfl, (State.runP_frame rfl).1, ?_⟩
  simp only [hk, hw, decide_true, Bool.and_true, if_true, coreA_onP, Panel.modA_same]
  rw [if_pos ⟨hst, hfl⟩, each_bumpC_win]

end Sys2Proof.Machine
end

section
open Sys2Proof Sys2Proof.Machine

/-- Settles O17: each command's effect on its core, and then the fields of that effect. -/
theorem unscheduledAccessesAndWindows : Obligations.UnscheduledAccessesAndWindows := by
  intro k bank w x c s hk hb hw
  refine ⟨fun hrun hfree hg r n ga d hwin hact => ?grant, fun hp hx hlate => ?starved, fun hm => ?miss, fun hq hc => ?accept,
    fun hq hc => ?late, fun hst hfl => ?close⟩
  case grant =>
    obtain ⟨hmem, hctr⟩ := performPart_win hact (bankGranted k bank x r s)
    refine ⟨_, exec_unscheduledPartGrant hk hb hrun hfree hg hwin _, hmem, ?_, ?_⟩ <;> rw [hctr, bankGranted_sctr] <;> rfl
  case starved => exact ⟨_, exec_unscheduledStarved hk hp hx hlate, by simp⟩
  case miss => exact ⟨_, exec_openCycleMiss hk hm, by simp⟩
  case accept =>
    have h := acceptWrite_core k c (ingressTaken k [] s.p)
    exact ⟨_, exec_windowIngressCheck_passed hk hq hc, rfl, by simpa [ingressTaken] using h⟩
  case late =>
    have h := discardWrite_late_core k c (ingressTaken k [] s.p)
    exact ⟨_, exec_windowIngressCheck_failed hk hq hc, rfl, by simpa [ingressTaken] using h⟩
  case close =>
    obtain ⟨t, ht, hmem, hwin⟩ := exec_windowCloseComplete hk hw hst hfl
    refine ⟨t, ht, hmem, ?_⟩
    rw [hwin, Tab.get_set_same]
    exact ⟨rfl, rfl, fun v hv => Tab.get_set_ne _ _ hv _⟩

end

section
/-! PROOFS. What operations of other units leave of the stacks, and operations of the stacks of the clocks. -/

namespace Sys2Proof.Machine

variable {p q : Panel}

theorem Reported.getStk_eq (h : Reported p q) (j : Nat) : q.getStk j = p.getStk j := by
  rw [Panel.getStk, h.stk]; rfl

@[simp] theorem modA_getStk (k : Nat) (f : CoreA → CoreA) (p : Panel) (j : Nat) : (p.modA k f).getStk j = p.getStk j := rfl
@[simp] theorem modStk_getClk (j : Nat) (f : Stack → Stack) (p : Panel) (i : Nat) : (p.modStk j f).getClk i = p.getClk i := rfl

@[simp] theorem raise_getStk (ev site key : Nat) (d : Dat) (p : Panel) (j : Nat) : (raise ev site key d p).getStk j = p.getStk j :=
  (raise_reported ..).getStk_eq j

@[simp] theorem coreRaise_getStk (k ev : Nat) (d : Dat) (p : Panel) (j : Nat) : (coreRaise k ev d p).getStk j = p.getStk j :=
  (coreRaise_reported ..).getStk_eq j

@[simp] theorem stackRaise_getStk (s ev : Nat) (d : Dat) (p : Panel) (j : Nat) : (stackRaise s ev d p).getStk j = p.getStk j :=
  (dieRaise_reported ..).getStk_eq j

/-- An event of a stack that is raised only where `c` holds. -/
@[simp] theorem stackRaise_if_getStk (c : Prop) [Decidable c] (s ev : Nat) (d : Dat) (p : Panel) (j : Nat) :
    (if c then stackRaise s ev d p else p).getStk j = p.getStk j := by
  split
  · exact stackRaise_getStk ..
  · rfl

end Sys2Proof.Machine
end

section
/-! PROOFS. Thermal coupling and the KV page map: the stack after new readings, and the two ends of a map entry's write
(R141, R143, R147). -/

namespace Sys2Proof.Machine

variable {s : State} {k page : Nat} {t : Int} {dram : List (Option Int)} {x : BitVec 32}

/-! New readings of a stack (R141, R143). -/

/-- Does a DRAM sensor force level 3? -/
def anyHot (dram : List (Option Int)) : Bool := dram.any fun x => match x with | some y => decide (950 ≤ y) | none => false
/-- Do all DRAM sensors let a forced level go? -/
def allCool (dram : List (Option Int)) : Bool := dram.all fun x => match x with | some y => decide (y ≤ 920) | none => true

/-- The stack after new readings, `t` of the junction and `dram` of the DRAM sensors. -/
def coupled (t : Int) (dram : List (Option Int)) (k : Stack) : Stack :=
  let hot := anyHot dram || (k.hot && !allCool dram)
  { k with level := if hot then 3 else nextLevel k.level t, dram := dram, hot := hot }

/-- Of its own stack, `couple` changes the readings, the level and its forcing; the events that it raises leave them. -/
theorem couple_getStk (cs : Nat) (t : Int) (dram : List (Option Int)) (p : Panel) :
    (couple cs t dram p).getStk cs = coupled t dram (p.getStk cs) := by
  simp only [couple, stackRaise_if_getStk, Panel.modStk_same]
  rfl

theorem allCool_iff : allCool dram = true ↔ ∀ y, some y ∈ dram → y ≤ 920 := by
  rw [allCool, List.all_eq_true]
  refine ⟨fun h y hy => of_decide_eq_true (h _ hy), fun h x hx => ?_⟩
  cases x with
  | none => rfl
  | some y => exact decide_eq_true (h y hx)

theorem anyHot_iff : anyHot dram = true ↔ ∃ y, some y ∈ dram ∧ 950 ≤ y := by
  rw [anyHot, List.any_eq_true]
  constructor
  · rintro ⟨x, hx, h⟩
    cases x with
    | none => cases h
    | some y => exact ⟨y, hx, of_decide_eq_true h⟩
  · rintro ⟨y, hy, h⟩
    exact ⟨some y, hy, decide_eq_true h⟩

/-- No reading lies both at 92.0 degrees or below and at 95.0 degrees or above. -/
theorem anyHot_of_allCool (h : ∀ y, some y ∈ dram → y ≤ 920) : anyHot dram = false := by
  rw [← Bool.not_eq_true, anyHot_iff]
  rintro ⟨y, hy, h95⟩
  have := h y hy
  omega

theorem coupled_of_cool (h : ∀ y, some y ∈ dram → y ≤ 920) (k : Stack) :
    (coupled t dram k).level = nextLevel k.level t ∧ (coupled t dram k).hot = false := by
  simp [coupled, anyHot_of_allCool h, allCool_iff.mpr h]

theorem coupled_of_hot (h : ∃ y, some y ∈ dram ∧ 950 ≤ y) (k : Stack) :
    (coupled t dram k).level = 3 ∧ (coupled t dram k).hot = true := by
  simp [coupled, anyHot_iff.mpr h]

/-- COUPLING_SAMPLE is of the T128 alone. -/
theorem exec_couplingSample {cs : Nat} (hcs : isCompute cs = true) :
    exec (.couplingSample cs t dram) s = .next (s.onP fun p => if p.variant = 1 then couple cs t dram p else p) := by
  change execCouplingSample cs t dram s = _
  rw [execCouplingSample, hcs]
  rfl

/-- COUPLING_LEVEL_SET is of the other variants. -/
theorem exec_couplingLevelSet {cs : Nat} (hcs : isCompute cs = true) :
    exec (.couplingLevelSet cs t dram) s = .next (s.onP fun p => if p.variant = 1 then p else couple cs t dram p) := by
  change execCouplingLevelSet cs t dram s = _
  rw [execCouplingLevelSet, hcs]
  rfl

/-! Map entries (R147). -/

theorem exec_kvMapEntryWrite (hk : isCore k = true) (hpage : page < 65536) :
    exec (.kvMapEntryWrite k page x) s = .next (s.onP (writeKv k page x)) := by
  change execKvMapEntryWrite k page x s = _
  rw [execKvMapEntryWrite, hk, decide_eq_true hpage]
  rfl

theorem writeKv_of_writable {p : Panel} (h : kvWritable p k page x = true) :
    writeKv k page x p = p.modCore k fun c => { c with kvmap := Tab.set page x c.kvmap } := if_pos h

theorem writeKv_of_not_writable {p : Panel} (h : kvWritable p k page x = false) :
    writeKv k page x p = gaRefuse (siteOf k) (p.modA k fun a => { a with kv := { a.kv with refused := a.kv.refused + 1 } }) :=
  if_neg (ne_true_of_eq_false h)

theorem gaRefuse_getCore (site : Nat) (p : Panel) (j : Nat) : (gaRefuse site p).getCore j = p.getCore j :=
  (raise_reported ..).getCore_eq j

theorem gaRefuse_gaRefusals (site : Nat) (p : Panel) : (gaRefuse site p).gaRefusals = p.gaRefusals + 1 := raise_gaRefusals ..

end Sys2Proof.Machine
end

section
open Sys2Proof Sys2Proof.Machine

/-- Settles O21: either command is `couple` on its own variant, and a map entry's write has two ends. -/
theorem couplingLevelsAndKvMapEntries : Obligations.CouplingLevelsAndKvMapEntries := by
  intro cs k page x j dram s hcs hk hpage
  refine ⟨fun i hi => ?readings, fun hv => ?notSampled, fun hv => ?notSet, fun hw => ?written, fun hw => ?refused⟩
  case readings =>
    have hi : exec i s = .next (s.onP (couple cs j dram)) := by
      obtain ⟨rfl, hv⟩ | ⟨rfl, hv⟩ := hi
      · rw [exec_couplingSample hcs, State.onP, if_pos hv]; rfl
      · rw [exec_couplingLevelSet hcs, State.onP, if_neg hv]; rfl
    refine ⟨_, hi, rfl, ?_⟩
    rw [State.onP_p, couple_getStk]
    exact ⟨rfl, fun h => coupled_of_cool h _, fun h => coupled_of_hot h _⟩
  case notSampled => rw [exec_couplingSample hcs, State.onP, if_neg hv]
  case notSet => rw [exec_couplingLevelSet hcs, State.onP, if_pos hv]
  case written =>
    refine ⟨_, exec_kvMapEntryWrite hk hpage, rfl, ?_⟩
    rw [coreA_onP, State.onP_p, writeKv_of_writable hw, Panel.modCore_same]
    exact ⟨Tab.get_set_same .., rfl, fun q hq => Tab.get_set_ne _ _ hq _⟩
  case refused =>
    refine ⟨_, exec_kvMapEntryWrite hk hpage, rfl, ?_⟩
    rw [coreA_onP, State.onP_p, writeKv_of_not_writable hw, gaRefuse_getCore, gaRefuse_gaRefusals, Panel.modA, Panel.modCore_same]
    exact ⟨rfl, rfl, rfl⟩

end

section
/-! PROOFS. Housekeeping of a stack: a row word whose lanes all pass, the store of the spare map, and the retirement of a row
(R137-R140). -/

namespace Sys2Proof.Machine

variable {s : State} {p : Panel} {cs : Nat}

/-! A row word without a fault. -/

theorem checkRow_nil (k : Stack) (s w x : Nat) : checkRow k s w x [] = ⟨0#9, true, x⟩ := rfl

theorem classify_no_fails (b : Bool) (x : Nat) : classify false ⟨0#9, b, x⟩ = .clean :=
  if_pos (by decide : (bitsSet 9 (0#9).toNat).length = 0)

/-- A row word without a failing lane and without poison is clean, and its check changes nothing. -/
theorem rowCheck_of_no_fails {w : Nat} (hp : poisoned (p.getStk cs) w = false) (rq : Requester) (core : Nat) (b : Bool) (x : Nat) :
    rowCheck cs w rq core ⟨0#9, b, x⟩ p = (.clean, p) := by
  simp only [rowCheck, hp, classify_no_fails]

/-! Write-back, refresh and scrub (R137). -/

theorem exec_correctionWriteback (hcs : isCompute cs = true) : exec (.correctionWriteback cs) s
    = .next { s with p := s.p.modStk cs fun k => { k with writeback := k.writeback.drop 1 } } := by
  change execCorrectionWriteback cs s = _
  rw [execCorrectionWriteback, hcs, State.runP_true]

theorem exec_refresh (hcs : isCompute cs = true) : exec (.refresh cs) s
    = .next { s with p := s.p.modStk cs fun k => { k with refreshPos := (k.refreshPos + 1) % (bankRows s.p.variant * 512) } } := by
  change execRefresh cs s = _
  rw [execRefresh, hcs, State.runP_true]

/-- A stack of `n` row words after a scrub that found no fault: it moves on to the next row word, and after the last it has
counted a pass. -/
def scrubbed (n : Nat) (k : Stack) : Stack :=
  { k with
    scrubPos := (k.scrubPos + 1) % n, ctr := { k.ctr with scrubs := k.ctr.scrubs + if k.scrubPos + 1 = n then 1 else 0 } }

/-- The fields of such a scrub, for any `n`: with the size of a stack in its place the kernel would unfold that number. -/
theorem scrubbed_fields (n : Nat) (k : Stack) : (scrubbed n k).scrubPos = (k.scrubPos + 1) % n
    ∧ (scrubbed n k).ctr.corrected = k.ctr.corrected ∧ (scrubbed n k).ctr.uncorr = k.ctr.uncorr
    ∧ (scrubbed n k).ctr.scrubs = k.ctr.scrubs + (if k.scrubPos + 1 = n then 1 else 0) := ⟨rfl, rfl, rfl, rfl⟩

theorem exec_scrub_of_no_error (hcs : isCompute cs = true) (hp : poisoned (s.p.getStk cs) (s.p.getStk cs).scrubPos = false) :
    ∃ t, exec (.scrub cs []) s = .next t ∧ t.mem = s.mem
      ∧ t.p.getStk cs = scrubbed (stackBytes s.p.variant / 256) (s.p.getStk cs) := by
  have hscrub : exec (.scrub cs []) s = .next { s with p := s.p.modStk cs (scrubbed (stackBytes s.p.variant / 256)) } := by
    change execScrub cs [] s = _
    rw [execScrub, hcs, State.run_true]
    simp only [State.onP, checkRow_nil, rowCheck_of_no_fails hp, Panel.modStk, scrubbed]
  exact ⟨_, hscrub, rfl, Panel.modStk_same ..⟩

/-! The store of the spare map (R139, R394). -/

theorem holdupRefuse_stk (est : Nat) (p : Panel) : (holdupRefuse est p).stk = p.stk := raise_stk ..

/-- A write that is asked to begin begins, and is counted as checked, or is refused by the hold-up check (R394). -/
theorem nvBegin_cases (w : NvWrite) (p : Panel) :
    (∃ v, nvBegin w p = (true, v, p.modPwr fun x => { x with checked := x.checked + 1 }))
      ∨ ∃ est, nvBegin w p = (false, w, holdupRefuse est p) := by
  by_cases h : holdupOk p (estMram (nvBytes (if w.id ≤ recCalib then objectBody p w.id w.job.puts else w.body)).length) = true
  · exact .inl ⟨_, if_pos h⟩
  · exact .inr ⟨_, if_neg h⟩

/-- Asking for a record's write leaves the stacks, whether it begins, is refused, or waits. -/
theorem nvEnter_stk (w : NvWrite) (p : Panel) : (nvEnter w p).2.stk = p.stk := by
  by_cases hfree : p.pwr.writes.isEmpty = true
  · rw [nvEnter, if_pos hfree]
    obtain ⟨v, h⟩ | ⟨est, h⟩ := nvBegin_cases w p
    · rw [h]; rfl
    · rw [h]; exact holdupRefuse_stk ..
  · rw [nvEnter, if_neg hfree]
    rfl

/-- Behind another write, a store waits its turn. -/
theorem nvStart_of_busy (h : p.pwr.writes ≠ []) (id : Nat) (body : List (Nat × List Byte)) :
    nvStart id body p = (true, p.modPwr fun x => { x with writes := x.writes ++ [⟨id, 0, body, false, job0⟩] }) := by
  simp [nvStart, nvEnter, h]

/-- Of its stack, a store of the spare map changes only whether the map is still to be stored. -/
theorem storeSpares_getStk (cs : Nat) (p : Panel) :
    ∃ b, (storeSpares cs p).getStk cs = { p.getStk cs with mapPending := b } := by
  have hstart (id : Nat) (body : List (Nat × List Byte)) : (nvStart id body p).2.getStk cs = p.getStk cs := by
    rw [Panel.getStk, nvStart, nvEnter_stk]
    rfl
  simp only [storeSpares]
  repeat' split
  all_goals
    simp only [raise_getStk, Panel.modStk_same, hstart]
    exact ⟨_, rfl⟩

/-- With room for the map, and behind another write, the store of the map is pending no more: it waits its turn. -/
theorem storeSpares_of_busy (hroom : allSpares p ≤ 453568) (h : p.pwr.writes ≠ []) : ∃ w : NvWrite, w.id = recSpare cs ∧
    storeSpares cs p = (p.modPwr fun x => { x with writes := x.writes ++ [w] }).modStk cs fun k => { k with mapPending := false } := by
  refine ⟨⟨recSpare cs, 0, [(0, (inForce (p.getStk cs)).flatMap fun e => leBytes 8 e.2.toNat)], false, job0⟩, rfl, ?_⟩
  simp only [storeSpares, nvStart_of_busy h, if_neg (Nat.not_lt.mpr hroom), if_true]

theorem exec_spareMapStoreRetry (hcs : isCompute cs = true) : exec (.spareMapStoreRetry cs) s
    = .next (s.onP fun p => if (p.getStk cs).mapPending then storeSpares cs p else p) := by
  change execSpareMapStoreRetry cs s = _
  rw [execSpareMapStoreRetry, hcs]
  rfl

/-! The end of a retirement (R139, R140). -/

theorem Spare.v_force (e : BitVec 64) : Spare.v (Spare.force true e) = true := by
  have h63 : (2 ^ 63 + e.toNat % 2 ^ 63).testBit 63 = true := by
    rw [Nat.testBit_two_pow_add_eq, Nat.testBit_lt_two_pow (Nat.mod_lt _ (Nat.two_pow_pos 63))]
    rfl
  rw [Spare.v, Spare.force, bit, BitVec.getLsbD_ofNat, if_pos rfl, Nat.add_comm, h63]
  rfl

/-- The stack when the copy behind entry `e` of place `slot` has completed, the one that was under way. -/
def retiredStack (slot : Nat) (e : BitVec 64) (k : Stack) : Stack :=
  let f := Spare.force true e
  { k with
    spare := Tab.set slot f k.spare, retiring := []
    tracker := k.tracker.filter fun t => !(decide (t.ch = Spare.ch f) && decide (t.bank = Spare.bank f) && decide (t.row = Spare.row f)
      && decide (t.layer = Spare.layer f))
    ctr := { k.ctr with retired := k.ctr.retired + 1 } }

theorem exec_rowRetired {slot : Nat} {e : BitVec 64} (hcs : isCompute cs = true) (h : (s.p.getStk cs).retiring = [⟨slot, e, none⟩]) :
    exec (.rowRetired cs slot) s
      = .next (s.onP fun p => storeSpares cs (stackRaise cs 0x0403 none (p.modStk cs (retiredStack slot e)))) := by
  change execRowRetired cs slot s = _
  rw [execRowRetired, hcs, State.runP_true]
  simp [State.onP, h, Panel.modStk, retiredStack]

end Sys2Proof.Machine
end

section
open Sys2Proof Sys2Proof.Machine

/-- Settles O20: each command's effect on its stack, and then the fields of that effect. -/
theorem stackHousekeeping : Obligations.StackHousekeeping := by
  intro cs s hcs
  refine ⟨exec_correctionWriteback hcs, ⟨_, exec_refresh hcs, rfl, rfl⟩, fun hp => ?scrub, fun slot e h => ?retired,
    fun hpend hroom hbusy => ?stored, fun hpend => ?notPending⟩
  case scrub =>
    obtain ⟨t, ht, hmem, hstk⟩ := exec_scrub_of_no_error hcs hp
    refine ⟨t, ht, hmem, ?_⟩
    rw [hstk]
    exact scrubbed_fields _ _
  case retired =>
    refine ⟨_, exec_rowRetired hcs h, rfl, ?_⟩
    obtain ⟨b, hb⟩ := storeSpares_getStk cs (stackRaise cs 0x0403 none (s.p.modStk cs (retiredStack slot e)))
    rw [State.onP_p, hb, stackRaise_getStk, Panel.modStk_same]
    exact ⟨by rw [retiredStack, Tab.get_set_same, Spare.v_force], rfl, rfl⟩
  case stored =>
    obtain ⟨w, hid, hstore⟩ := storeSpares_of_busy (cs := cs) hroom hbusy
    refine ⟨_, w, exec_spareMapStoreRetry hcs, rfl, ?_⟩
    rw [State.onP_p, if_pos hpend, hstore, Panel.modStk_same]
    exact ⟨rfl, rfl, hid⟩
  case notPending => rw [exec_spareMapStoreRetry hcs, State.onP, if_neg (ne_true_of_eq_false hpend)]

end

section
/-! PROOFS. The stack port: the grant of one row word, the check of a row word in flight, and its release to the scratchpad
(R104, R127, R129-R131, R135). -/

namespace Sys2Proof.Machine

variable {s : State} {p : Panel} {cs k : Nat} {c : Cand} {st : Stream} {base : Nat} {r : RowReq}

/-! A pass of one candidate (R129-R131). -/

/-- A grant pass that has considered no candidate yet. -/
def freshPass (p : Panel) : Pass := ⟨p, [], [], [], []⟩

/-- The request that the grant of a row word of a kind-0 stream makes; its data is read with the pass's other reads. -/
def grantedReq (cs : Nat) (p : Panel) (c : Cand) (st : Stream) (base : Nat) : RowReq :=
  { core := c.core, sid := c.sid, slot := st.slot, unit := c.unit, idx := c.idx, addr := 256 * (base / 256 + c.idx),
    dest := ((st.dst : Int) + Dsc.off st.desc c.unit).toNat + 256 * c.idx, rc := (p.getCore (4 * cs + c.core)).a.rc,
    clk := (p.getClk cs).clk, data := 0, sra := false, dropped := false, out := .unchecked }

section
variable (hst : streamOf p (4 * cs + c.core) c.sid = some st) (hbase : candBase p (4 * cs + c.core) st c.unit = some base)
include hst hbase

/-- Where five row words of its channel have been granted in the span, the candidate waits. -/
theorem grantOne_of_full_channel
    (h : 5 ≤ ((spanChannels (p.getStk cs) (p.getCore (4 * cs + c.core)).a.rc).filter
      fun h => decide (h = Row.ch (base / 256 + c.idx))).length) :
    grantOne cs (freshPass p) c = { freshPass p with p := bumpDefer cs 1 0 p, deferred := [(c.core, base / 256 + c.idx)] } := by
  -- the core's share is 3 row words in an even run cycle and 2 in an odd one, and the pass has granted none
  obtain hrc | hrc := Nat.mod_two_eq_zero_or_one (p.getCore (4 * cs + c.core)).a.rc <;>
    simp [grantOne, freshPass, hst, hbase, hrc, h]

/-- Where channel and bank let it in, the pass reads the one row word; the requests in flight are as before. -/
theorem grantOne_of_granted {row : Nat × Nat × Nat} (hkind : Dsc.kind st.desc = 0)
    (h : ((spanChannels (p.getStk cs) (p.getCore (4 * cs + c.core)).a.rc).filter
      fun h => decide (h = Row.ch (base / 256 + c.idx))).length < 5)
    (hrow : bankRule (p.getStk cs) (base / 256 + c.idx) (p.getCore (4 * cs + c.core)).a.rc = some row) :
    (grantOne cs (freshPass p) c).writes = [] ∧ (grantOne cs (freshPass p) c).reads = [grantedReq cs p c st base]
      ∧ ((grantOne cs (freshPass p) c).p.getStk cs).reqs = (p.getStk cs).reqs := by
  obtain hrc | hrc := Nat.mod_two_eq_zero_or_one (p.getCore (4 * cs + c.core)).a.rc <;>
    simp [grantOne, freshPass, grantedReq, hst, hbase, hkind, hrc, Nat.not_le.mpr h, hrow, Panel.getClk]

end

/-- The die's pass over one candidate that writes nothing: the pass is marked, and what it read is in flight. -/
theorem exec_stackRequestGrant_one {x : Pass} (hcs : isCompute cs = true) (hrun : (s.p.getClk cs).stall = 0)
    (hpass : (s.p.getStk cs).passAt ≠ some (s.p.getClk cs).clk) (hc : dieCands s.p cs = [c])
    (hx : grantOne cs (freshPass s.p) c = x) (hw : x.writes = []) :
    ∃ (t : State) (d : RowReq → Nat), exec (.stackRequestGrant cs) s = .next t ∧ t.mem = s.mem
      ∧ t.p.getStk cs = { x.p.getStk cs with
        passAt := some (s.p.getClk cs).clk, reqs := (x.p.getStk cs).reqs ++ x.reads.map fun r => { r with data := d r } } := by
  subst hx
  refine ⟨_, fun r => stackWord (((grantOne cs (freshPass s.p) c).p.modStk cs fun k =>
    { k with passAt := some (s.p.getClk cs).clk })) s.mem cs (r.addr / 256), rfl, ?_⟩
  rw [freshPass] at hw
  simp [hcs, hrun, hpass, hc, hw, each, freshPass]

/-! The check of a row word (R127). -/

theorem RowReq.is_self (r : RowReq) : r.is r.core r.sid r.unit r.idx = true := by simp [RowReq.is]

/-- The one request in flight, read without a fault and not poisoned, is clean. -/
theorem exec_stackReadCheck_clean (hk : isCore k = true) (hreqs : (s.p.getStk (siteOf k)).reqs = [r]) (hcore : r.core = coreOf k)
    (hout : r.out = .unchecked) (hp : poisoned (s.p.getStk (siteOf k)) (r.addr / 256) = false) :
    exec (.stackReadCheck k r.sid r.unit r.idx []) s
      = .next (s.onP fun p => p.modStk (siteOf k) fun y => { y with reqs := [{ r with out := .clean }] }) := by
  have his : r.is (coreOf k) r.sid r.unit r.idx = true := hcore ▸ r.is_self
  change execStackReadCheck k r.sid r.unit r.idx [] s = _
  rw [execStackReadCheck, hk, State.runP_true]
  simp [State.onP, hreqs, his, hout, hp, checkRow_nil, rowCheck_of_no_fails, Panel.modStk]

/-! Bytes written as a number. -/

theorem leBytes_getD {i n : Nat} (h : i < n) (x : Nat) (d : Byte) : (leBytes n x).getD i d = BitVec.ofNat 8 (x / 256 ^ i) := by
  induction n generalizing i x with
  | zero => omega
  | succ n ih =>
    cases i with
    | zero => simp [leBytes]
    | succ i => rw [leBytes, List.getD_cons_succ, ih (by omega), Nat.div_div_eq_div_mul, Nat.pow_succ']

theorem Mem.read_setNum {i n : Nat} (h : i < n) (m : Mem) (a x : Nat) :
    (m.setNum a n x).read (a + i) = BitVec.ofNat 8 (x / 256 ^ i) := by
  rw [Mem.setNum, Mem.read_writeL, length_leBytes, if_pos (by omega), Nat.add_sub_cancel_left, leBytes_getD h]

theorem Mem.read_setNum_outside {a n y : Nat} (h : y < a ∨ a + n ≤ y) (m : Mem) (x : Nat) : (m.setNum a n x).read y = m.read y := by
  rw [Mem.setNum, Mem.read_writeL_outside]
  rwa [length_leBytes]

/-! The release of a row word (R104, R135). -/

@[simp] theorem schedBanks_getStk (k : Nat) (bs : List Nat) (p : Panel) (j : Nat) : (schedBanks k bs p).getStk j = p.getStk j := by
  unfold schedBanks
  dsimp only
  split
  · rfl
  · exact coreRaise_getStk ..

/-- The only scheduled write of a run cycle: what it covers is put back, and then written. -/
theorem putSched_mem_of_only (h : (s.p.getCore k).stores = []) (w : CycW) (off : Nat) :
    (putSched k w off s).mem = (s.mem.setNum w.ga w.n (s.mem.num w.ga w.n)).setNum w.ga w.n w.v := by
  simp [putSched, schedWrite, h, memWith, undoCyc, insertW]

/-- The bytes of row word `r` written to core `k`'s scratchpad: as a scheduled write of its stream where the die runs, at once
where it stalls. -/
def rowWritten (k eng : Nat) (r : RowReq) (s : State) : State :=
  if (s.p.getClk (siteOf k)).stall = 0 then
    putSched k ⟨rankStream eng r.sid, gaScratch k r.dest, 256, r.data, 0⟩ r.dest s
  else { s with mem := s.mem.setNum (gaScratch k r.dest) 256 r.data }

theorem rowWritten_getStk (k eng : Nat) (r : RowReq) (s : State) (j : Nat) : (rowWritten k eng r s).p.getStk j = s.p.getStk j := by
  unfold rowWritten
  split
  · exact schedBanks_getStk ..
  · rfl

/-- Where the core has no other write in the run cycle, the 256 bytes are the row word's, and no other byte changes. -/
theorem rowWritten_mem_of_only (h : (s.p.getCore k).stores = []) (eng : Nat) (r : RowReq) :
    (∀ i < 256, (rowWritten k eng r s).mem.read (gaScratch k r.dest + i) = BitVec.ofNat 8 (r.data / 256 ^ i))
      ∧ ∀ x, x < gaScratch k r.dest ∨ gaScratch k r.dest + 256 ≤ x → (rowWritten k eng r s).mem.read x = s.mem.read x := by
  unfold rowWritten
  split
  · rw [putSched_mem_of_only h]
    exact ⟨fun i hi => by rw [Mem.read_setNum hi], fun x hx => by rw [Mem.read_setNum_outside hx, Mem.read_setNum_outside hx]⟩
  · exact ⟨fun i hi => by rw [Mem.read_setNum hi], fun x hx => by rw [Mem.read_setNum_outside hx]⟩

/-- The state in which request `r` of core `k`'s die is no longer in flight. -/
def requestTaken (k : Nat) (r : RowReq) (s : State) : State :=
  s.onP fun p => p.modStk (siteOf k) fun y => { y with reqs := y.reqs.filter fun x => decide (x ≠ r) }

theorem requestTaken_reqs (hreqs : (s.p.getStk (siteOf k)).reqs = [r]) : ((requestTaken k r s).p.getStk (siteOf k)).reqs = [] := by
  rw [requestTaken, State.onP_p, Panel.modStk_same, hreqs]
  simp

/-- A clean row word whose release point has come leaves the requests, is written, and has landed for its stream. -/
theorem exec_stackRowWordRelease_clean (hk : isCore k = true) (hreqs : (s.p.getStk (siteOf k)).reqs = [r]) (hcore : r.core = coreOf k)
    (hout : r.out = .clean) (hsra : r.sra = false) (hdrop : r.dropped = false) (hdue : releaseDue s.p k r = true) :
    ∃ eng n, exec (.stackRowWordRelease k r.sid r.unit r.idx) s
      = .next ((rowWritten k eng r (requestTaken k r s)).onP fun p => p.modA k (landOne n r)) := by
  have his : r.is (coreOf k) r.sid r.unit r.idx = true := hcore ▸ r.is_self
  refine ⟨(streamOf s.p k r.sid).elim 0 (·.eng),
    if (s.p.getClk (siteOf k)).stall = 0 then (s.p.getCore k).a.rc + 1 else (s.p.getCore k).a.rc, ?_⟩
  change execStackRowWordRelease k r.sid r.unit r.idx s = _
  rw [execStackRowWordRelease, hk, State.run_true]
  cases hst : streamOf s.p k r.sid <;> by_cases hrun : (s.p.getClk (siteOf k)).stall = 0 <;>
    simp [State.onP, hreqs, his, hout, hsra, hdrop, hdue, isDropped, rowWritten, requestTaken, hst, hrun]

end Sys2Proof.Machine
end

section
open Sys2Proof Sys2Proof.Machine

/-- Settles O19: a pass over one candidate has two ends, and the one request in flight is checked and then released. -/
theorem rowWordsAreGrantedCheckedAndReleased : Obligations.RowWordsAreGrantedCheckedAndReleased := by
  intro cs s hcs
  refine ⟨fun c st base hrun hpass hc hst hkind hbase => ⟨fun h => ?full, fun h row hrow => ?granted⟩,
    fun k r hk hreqs hcore hout hp => ?check, fun k r hk hreqs hcore hout hsra hdrop hdue => ?release⟩
  case full =>
    obtain ⟨t, d, ht, hmem, hstk⟩ := exec_stackRequestGrant_one hcs hrun hpass hc (grantOne_of_full_channel hst hbase h) rfl
    refine ⟨t, ht, hmem, ?_⟩
    rw [hstk, bumpDefer, Panel.modStk_same]
    exact ⟨List.append_nil _, rfl⟩
  case granted =>
    obtain ⟨hwrites, hreads, hreqs⟩ := grantOne_of_granted hst hbase hkind h hrow
    obtain ⟨t, d, ht, hmem, hstk⟩ := exec_stackRequestGrant_one hcs hrun hpass hc rfl hwrites
    refine ⟨t, { grantedReq cs s.p c st base with data := d (grantedReq cs s.p c st base) }, ht, hmem, ?_⟩
    rw [hstk, hreads, hreqs]
    exact ⟨rfl, rfl, rfl, rfl, rfl, rfl, rfl, rfl, rfl⟩
  case check =>
    subst hk
    refine ⟨_, exec_stackReadCheck_clean hcs hreqs hcore hout hp, rfl, ?_⟩
    rw [State.onP_p, Panel.modStk_same]
  case release =>
    subst hk
    obtain ⟨eng, n, ht⟩ := exec_stackRowWordRelease_clean hcs hreqs hcore hout hsra hdrop hdue
    refine ⟨_, ht, ?_, fun hstores => rowWritten_mem_of_only (s := requestTaken k r s) hstores eng r⟩
    rw [State.onP_p, modA_getStk, rowWritten_getStk, requestTaken_reqs hreqs]

end

section
/-! PROOFS. The routers and their links, and what events leave of the routers. -/

namespace Sys2Proof.Machine

variable {p q : Panel} {m i : Nat}

theorem isRouter_of_isMesh (hm : isMesh m = true) : isRouter m = true := by rw [isRouter, hm]; rfl

/-- A mesh die has a data link on each of its four edges. -/
theorem dataEdges_contains (hm : isMesh m = true) (hi : i < 4) : (dataEdges m).contains i = true := by
  have hcases : i = 0 ∨ i = 1 ∨ i = 2 ∨ i = 3 := by omega
  rw [dataEdges, hm, if_pos rfl]
  obtain rfl | rfl | rfl | rfl := hcases <;> rfl

theorem Reported.getRtr_eq (h : Reported p q) (j : Nat) : q.getRtr j = p.getRtr j := by
  rw [Panel.getRtr, h.rtr]; rfl

@[simp] theorem dieRaise_getRtr (s core key ev : Nat) (d : Dat) (p : Panel) (j : Nat) :
    (dieRaise s core key ev d p).getRtr j = p.getRtr j :=
  (dieRaise_reported ..).getRtr_eq j

@[simp] theorem gaRefuse_getRtr (site : Nat) (p : Panel) (j : Nat) : (gaRefuse site p).getRtr j = p.getRtr j :=
  (raise_reported ..).getRtr_eq j

end Sys2Proof.Machine
end

section
/-! PROOFS. The cells of a router: an entry between edge tracks that fires, a cell that arrives, credits that come back, a cell in
transit (R154-R157, R163, R164, R167, R168). -/

namespace Sys2Proof.Machine

variable {s : State} {p : Panel} {m e code out vc n i : Nat} {c : Cell} {w q : List Cell}

/-! The end of a region, which a segment's last firing may bring, keeps the cores and the routers (R208). -/

/-- `q` has the cores and the routers of `p`. -/
structure SameNet (p q : Panel) : Prop where
  core : q.core = p.core
  rtr : q.rtr = p.rtr

theorem SameNet.trans {p q r : Panel} (h : SameNet p q) (g : SameNet q r) : SameNet p r := ⟨g.core.trans h.core, g.rtr.trans h.rtr⟩

theorem SameNet.getRtr_eq {p q : Panel} (h : SameNet p q) (j : Nat) : q.getRtr j = p.getRtr j := by
  rw [Panel.getRtr, h.rtr]; rfl

theorem SameNet.each {α : Type} (l : List α) {f : α → Panel → Panel} (h : ∀ a p, SameNet p (f a p)) (p : Panel) :
    SameNet p (each l f p) :=
  each_keeps (P := SameNet p) l (fun a q hq => hq.trans (h a q)) ⟨rfl, rfl⟩

theorem modReg_sameNet (r : Nat) (f : Region → Region) (p : Panel) : SameNet p (p.modReg r f) := ⟨rfl, rfl⟩
theorem modDie_sameNet (site : Nat) (f : DieRun → DieRun) (p : Panel) : SameNet p (p.modDie site f) := ⟨rfl, rfl⟩

theorem serveSite_sameNet (st : USt) (site : Nat) (p : Panel) : SameNet p (serveSite st site p) :=
  .each _ (fun key q => by split <;> exact ⟨rfl, rfl⟩) p

theorem judgeStep_sameNet (r : Nat) (p : Panel) : SameNet p (judgeStep r p) := by
  unfold judgeStep
  dsimp only
  split
  · exact ⟨raise_core .., raise_rtr ..⟩
  · exact ⟨rfl, rfl⟩

theorem endStep_sameNet (r : Nat) (p : Panel) : SameNet p (endStep r p) :=
  (modReg_sameNet ..).trans (judgeStep_sameNet ..)

theorem checkEnded_sameNet (r : Nat) (p : Panel) : SameNet p (checkEnded r p) := by
  unfold checkEnded
  dsimp only
  split
  · exact ((modReg_sameNet ..).trans (endStep_sameNet ..)).trans
      (.each _ (fun _ _ => (modDie_sameNet ..).trans (serveSite_sameNet ..)) _)
  · exact ⟨rfl, rfl⟩

theorem checkEndedAt_sameNet (site : Nat) (p : Panel) : SameNet p (checkEndedAt site p) := by
  unfold checkEndedAt
  split
  · refine SameNet.trans ?_ (checkEnded_sameNet ..)
    split
    · exact modDie_sameNet ..
    · exact ⟨rfl, rfl⟩
  · exact ⟨rfl, rfl⟩

/-! A MOVE between edge tracks (R154, R156, R157). -/

theorem cellAt_edge (hmode : Hop.mode ((p.getRtr m).entry e) = 0) (hin : Hop.inp ((p.getRtr m).entry e) < 0x80)
    (hq : Tab.get [] (p.getRtr m).inq (8 * Hop.inp ((p.getRtr m).entry e) + Hop.ivc ((p.getRtr m).entry e)) = c :: q) :
    cellAt p m e = some c := by
  simp [cellAt, hmode, hin, hq]

theorem eligible_edge (hdue : entryDue p m e = true) (hc : cellAt p m e = some c) (hmode : Hop.mode ((p.getRtr m).entry e) = 0)
    (hout : Hop.out ((p.getRtr m).entry e) < 0x80)
    (hsend : canSend p m (Hop.out ((p.getRtr m).entry e)) (Hop.ovc ((p.getRtr m).entry e)) = true) : eligible p m e = true := by
  simp [eligible, outputReady, hdue, hc, hmode, hout, hsend]

theorem takeCell_edge (hmode : Hop.mode ((p.getRtr m).entry e) = 0) (hin : Hop.inp ((p.getRtr m).entry e) < 0x80) :
    takeCell m e p = p.modRtr m fun r => { r with
      inq := Tab.upd [] (8 * Hop.inp ((p.getRtr m).entry e) + Hop.ivc ((p.getRtr m).entry e)) (·.drop 1) r.inq
      busyIn := Hop.inp ((p.getRtr m).entry e) :: r.busyIn } := by
  simp [takeCell, hmode, hin]

theorem putCell_edge (hmode : Hop.mode ((p.getRtr m).entry e) = 0) (hout : Hop.out ((p.getRtr m).entry e) < 0x80) (ecc : WordChk) :
    putCell m e c ecc p = sendCell m (Hop.out ((p.getRtr m).entry e)) (CellF.withVc (Hop.ovc ((p.getRtr m).entry e)) c)
      (p.modRtr m fun r => { r with ctr := { r.ctr with forwarded := r.ctr.forwarded + 1 } }) := by
  simp [putCell, hmode, hout]

/-- Counting a firing counts the entry's, and leaves the cells, the credits and the cores. -/
theorem countFire_fields (m e : Nat) (p : Panel) :
    (countFire m e p).core = p.core ∧ ((countFire m e p).getRtr m).firedOf e = (p.getRtr m).firedOf e + 1
      ∧ ((countFire m e p).getRtr m).inq = (p.getRtr m).inq ∧ ((countFire m e p).getRtr m).sent = (p.getRtr m).sent
      ∧ ((countFire m e p).getRtr m).tx = (p.getRtr m).tx := by
  unfold countFire
  rw [(checkEndedAt_sameNet ..).getRtr_eq, Panel.modRtr_same]
  exact ⟨(checkEndedAt_sameNet ..).core, Tab.get_upd_same .., rfl, rfl, rfl⟩

theorem exec_hopEntryFire (hm : isMesh m = true) (he : eligible s.p m e = true) (hfirst : firstEligible s.p m e = true)
    (hc : cellAt s.p m e = some c) (ecc : WordChk) :
    exec (.hopEntryFire m e ecc) s = .next (s.onP fun p => countFire m e (putCell m e c ecc (takeCell m e p))) := by
  change execHopEntryFire m e ecc s = _
  rw [execHopEntryFire, hm, State.runP_true]
  simp only [he, hfirst, hc, Bool.and_self, if_true]
  rfl

theorem exec_hopEntryFire_of_not_eligible (hm : isMesh m = true) (he : eligible s.p m e = false) (ecc : WordChk) :
    exec (.hopEntryFire m e ecc) s = .next s := by
  change execHopEntryFire m e ecc s = _
  rw [execHopEntryFire, hm, State.runP_true]
  simp only [he, Bool.false_and, Bool.false_eq_true, if_false]

theorem Hop.ovc_lt (x : BitVec 64) : Hop.ovc x < 8 := Nat.mod_lt _ (by decide)

theorem CellF.vc_withVc {v : Nat} (hv : v < 8) (c : Cell) : CellF.vc (CellF.withVc v c) = v := by
  have := c.hdr.isLt
  simp only [CellF.vc, CellF.withVc, fld, BitVec.toNat_ofNat]
  omega

/-! What putting a cell on an edge output leaves of the router. -/

@[simp] theorem sendCell_inq (m out : Nat) (c : Cell) (p : Panel) : ((sendCell m out c p).getRtr m).inq = (p.getRtr m).inq := by
  rw [sendCell, Panel.modRtr_same]

@[simp] theorem sendCell_held (m out : Nat) (c : Cell) (p : Panel) : ((sendCell m out c p).getRtr m).held = (p.getRtr m).held := by
  rw [sendCell, Panel.modRtr_same]

@[simp] theorem sendCell_firedOf (m out : Nat) (c : Cell) (p : Panel) (e : Nat) :
    ((sendCell m out c p).getRtr m).firedOf e = (p.getRtr m).firedOf e := by
  rw [sendCell, Panel.modRtr_same]; rfl

@[simp] theorem sendCell_sentOf (m out : Nat) (c : Cell) (p : Panel) :
    sentOf ((sendCell m out c p).getRtr m) out (CellF.vc c) = sentOf (p.getRtr m) out (CellF.vc c) + 1 := by
  rw [sendCell, Panel.modRtr_same]
  exact Tab.get_upd_same 0 _ (· + 1) _

@[simp] theorem sendCell_tx (m out : Nat) (c : Cell) (p : Panel) :
    Tab.get [] ((sendCell m out c p).getRtr m).tx (out / 32) = Tab.get [] (p.getRtr m).tx (out / 32) ++ [(out % 32, c)] := by
  rw [sendCell, Panel.modRtr_same]
  exact Tab.get_upd_same [] _ (· ++ [(out % 32, c)]) _

/-- The cell of a MOVE between edge tracks leaves its input and is put on the entry's output, under the entry's output VC. -/
theorem moveCell_fields (hmode : Hop.mode ((p.getRtr m).entry e) = 0) (hin : Hop.inp ((p.getRtr m).entry e) < 0x80)
    (hout : Hop.out ((p.getRtr m).entry e) < 0x80)
    (hq : Tab.get [] (p.getRtr m).inq (8 * Hop.inp ((p.getRtr m).entry e) + Hop.ivc ((p.getRtr m).entry e)) = c :: q) (ecc : WordChk) :
    let r := p.getRtr m
    let x := r.entry e
    let t := putCell m e c ecc (takeCell m e p)
    t.core = p.core ∧ Tab.get [] (t.getRtr m).inq (8 * Hop.inp x + Hop.ivc x) = q ∧ (t.getRtr m).firedOf e = r.firedOf e
      ∧ sentOf (t.getRtr m) (Hop.out x) (Hop.ovc x) = sentOf r (Hop.out x) (Hop.ovc x) + 1
      ∧ Tab.get [] (t.getRtr m).tx (Hop.out x / 32)
          = Tab.get [] r.tx (Hop.out x / 32) ++ [(Hop.out x % 32, CellF.withVc (Hop.ovc x) c)] := by
  have hentry : ((takeCell m e p).getRtr m).entry e = (p.getRtr m).entry e := by
    rw [takeCell_edge hmode hin, Panel.modRtr_same]; rfl
  have hsent := sendCell_sentOf m (Hop.out ((p.getRtr m).entry e)) (CellF.withVc (Hop.ovc ((p.getRtr m).entry e)) c)
  dsimp only
  rw [putCell_edge (hentry ▸ hmode) (hentry ▸ hout), hentry, takeCell_edge hmode hin]
  rw [CellF.vc_withVc (Hop.ovc_lt _)] at hsent
  rw [sendCell_inq, sendCell_firedOf, sendCell_tx, hsent, Panel.modRtr_same, Panel.modRtr_same, Tab.get_upd_same, hq]
  exact ⟨rfl, rfl, rfl, rfl, rfl⟩

/-! Arrivals (R163, R167). -/

/-- The panel in which the oldest cell on its way on track `code` has come in, those of `w` being behind it. -/
def wireTaken (m code : Nat) (w : List Cell) (p : Panel) : Panel := p.modRtr m fun r => { r with wire := Tab.set code w r.wire }

theorem wireTaken_getRtr (m code : Nat) (w : List Cell) (p : Panel) :
    (wireTaken m code w p).getRtr m = { p.getRtr m with wire := Tab.set code w (p.getRtr m).wire } := Panel.modRtr_same ..

theorem exec_cellArrival (hm : isMesh m = true) (hcode : code < 0x80) (hw : Tab.get [] (s.p.getRtr m).wire code = c :: w)
    (hdead : deadDie s.p m = false) :
    exec (.cellArrival m code c) s = .next (s.onP fun p => arrive m code c (wireTaken m code w p)) := by
  change execCellArrival m code c s = _
  rw [execCellArrival, isRouter_of_isMesh hm, isEdgeCode, decide_eq_true hcode, dataEdges_contains hm (by omega)]
  simp [State.runP_true, State.onP, wireTaken, hw, hdead]

/-- A die takes a data cell of its own partition, an edge die any, into its VC queue. -/
theorem arrive_own (hty : CellF.typ c ≤ 2) (htr : transitOf (p.getRtr m) code = none) (hpack : packing p m = false)
    (hfr : (p.getDie m).frozen = false) (hown : ¬ (isCompute m = true ∧ p.partOf m ≠ some (CellF.part c))) :
    arrive m code c p = (noteCell m p).modRtr m fun r => { r with
      inq := Tab.upd [] (8 * code + CellF.vc c) (· ++ [c]) r.inq
      svcSince := if CellF.vc c = 7 then Tab.set (svcTag c) ((noteCell m p).getClk m).clk r.svcSince else r.svcSince } := by
  have hlt : ¬ 5 ≤ CellF.typ c := by omega
  simp only [arrive, htr, hpack, hfr, if_neg hlt, hty, true_and, if_neg hown, if_true, Bool.false_eq_true, false_and, and_false, if_false]

/-- A die of another partition, or of none, discards it. -/
theorem arrive_foreign (hty : CellF.typ c ≤ 2) (htr : transitOf (p.getRtr m) code = none) (hpack : packing p m = false)
    (hforeign : isCompute m = true ∧ p.partOf m ≠ some (CellF.part c)) : arrive m code c p = boundaryBlocked m p := by
  have hlt : ¬ 5 ≤ CellF.typ c := by omega
  simp only [arrive, htr, hpack, if_neg hlt, hty, Bool.false_eq_true, false_and, if_false]
  exact if_pos ⟨hforeign.1, trivial, hforeign.2⟩

theorem noteCell_sameNet (m : Nat) (p : Panel) : SameNet p (noteCell m p) := by
  unfold noteCell
  split <;> exact ⟨rfl, rfl⟩

/-- The boundary discard of a cell leaves the queues and counts it. -/
theorem boundaryBlocked_getRtr (m : Nat) (p : Panel) :
    (boundaryBlocked m p).getRtr m
      = { p.getRtr m with ctr := { (p.getRtr m).ctr with boundary := (p.getRtr m).ctr.boundary + 1 } } := by
  rw [boundaryBlocked, dieRaise_getRtr, Panel.modRtr_same]

/-! Credits and transits (R164, R168). -/

theorem exec_creditReturn (hm : isMesh m = true) (hout : out < 0x80) (hvc : vc < 8) :
    exec (.creditReturn m out vc n) s = .next (s.onP fun p => if (8 * out + vc, n) ∈ (p.getRtr m).creditIn then
      p.modRtr m fun r => { r with
        creditIn := r.creditIn.erase (8 * out + vc, n), sent := Tab.upd 0 (8 * out + vc) (· - n) r.sent } else p) := by
  change execCreditReturn m out vc n s = _
  rw [execCreditReturn, isRouter_of_isMesh hm, isEdgeCode, decide_eq_true hout, decide_eq_true hvc]
  rfl

/-- The one cell that a die holds in transit goes on, where its output can send. -/
theorem exec_transitForward (hm : isCompute m = true) (hi : i < 32) (hheld : (s.p.getRtr m).held = [(i, c)])
    (hsend : canSend s.p m (fld (Tab.get 0 (s.p.getRtr m).transit i) 15 8) (CellF.vc c) = true) :
    ∃ q, SameNet s.p q ∧ exec (.transitForward m i) s = .next (s.onP fun _ =>
      sendCell m (fld (Tab.get 0 (s.p.getRtr m).transit i) 15 8) c (q.modRtr m fun r => { r with
        held := r.held.erase (i, c), ctr := { r.ctr with forwarded := r.ctr.forwarded + 1 } })) := by
  refine ⟨if (Tab.find? s.p.rst m).isSome then s.p.modRctr m fun c => { c with transit := c.transit + 1 } else s.p,
    by split <;> exact ⟨rfl, rfl⟩, ?_⟩
  change execTransitForward m i s = _
  rw [execTransitForward, hm, decide_eq_true hi, Bool.and_self, State.runP_true]
  simp only [hheld, List.find?_cons, decide_true, hsend, if_true]
  rfl

end Sys2Proof.Machine
end

section
open Sys2Proof Sys2Proof.Machine

/-- Settles O22: each command's effect on the panel, and then the fields of that effect. -/
theorem cellsMoveFromRouterToRouter : Obligations.CellsMoveFromRouterToRouter := by
  intro m s hm
  refine ⟨fun e ecc c q hdue hfirst hmode hin hout hq hsend => ?fires, fun e ecc he => exec_hopEntryFire_of_not_eligible hm he ecc,
    fun code c w hcode hw hty hdead htr hpack hfr => ?arrives,
    fun out vc n hout hvc => ⟨fun hmem => ?credited, fun hmem => ?notCredited⟩,
    fun i c hc hi hheld hsend => ?transit⟩
  case fires =>
    have hcell := cellAt_edge hmode hin hq
    obtain ⟨hcore, hfired, hinq, hsent, htx⟩ := countFire_fields m e (putCell m e c ecc (takeCell m e s.p))
    refine ⟨_, exec_hopEntryFire hm (eligible_edge hdue hcell hmode hout hsend) hfirst hcell ecc, rfl, ?_⟩
    obtain ⟨hcore', hinq', hfired', hsent', htx'⟩ := moveCell_fields hmode hin hout hq ecc
    rw [State.onP_p, hcore, hfired, hinq, sentOf, hsent, htx]
    exact ⟨hcore', hinq', congrArg (· + 1) hfired', hsent', htx'⟩
  case arrives =>
    refine ⟨_, exec_cellArrival hm hcode hw hdead, rfl, ?_⟩
    have hr := wireTaken_getRtr m code w s.p
    have htr' : transitOf ((wireTaken m code w s.p).getRtr m) code = none := by rw [hr]; exact htr
    rw [State.onP_p]
    by_cases hforeign : isCompute m = true ∧ s.p.partOf m ≠ some (CellF.part c)
    · rw [arrive_foreign hty htr' hpack hforeign, boundaryBlocked_getRtr, hr]
      exact ⟨dieRaise_core .., Tab.get_set_same .., fun hown => absurd hforeign hown, fun _ => ⟨rfl, rfl⟩⟩
    · have hnote := noteCell_sameNet m (wireTaken m code w s.p)
      rw [arrive_own hty htr' hpack hfr hforeign, Panel.modRtr_same, hnote.getRtr_eq, hr]
      exact ⟨hnote.core, Tab.get_set_same .., fun _ => Tab.get_upd_same [] _ (· ++ [c]) _, fun h => absurd h hforeign⟩
  case credited =>
    refine ⟨_, exec_creditReturn hm hout hvc, rfl, ?_⟩
    rw [State.onP_p, if_pos hmem, Panel.modRtr_same]
    exact ⟨rfl, Tab.get_upd_same 0 _ (· - n) _,
      by rw [List.length_erase_of_mem hmem, Nat.sub_add_cancel (List.length_pos_of_mem hmem)]⟩
  case notCredited => rw [exec_creditReturn hm hout hvc, State.onP, if_neg hmem]
  case transit =>
    obtain ⟨q, hq, ht⟩ := exec_transitForward hc hi hheld hsend
    refine ⟨_, ht, rfl, hq.core, ?_⟩
    rw [State.onP_p, sendCell_held, sendCell_inq, sendCell_sentOf, sendCell_tx, Panel.modRtr_same, hq.getRtr_eq, hheld]
    exact ⟨by simp, rfl, rfl, rfl⟩

end

section
/-! PROOFS. The links of a die, entries that stall, and payloads that are read late (R61, R103, R158, R169, R172). -/

namespace Sys2Proof.Machine

variable {s : State} {p q : Panel} {m edge seq ns e k track : Nat} {x : Flit}

/-! What a flit's sender changes of its own: its number, its replay buffer and its time, and the cells that no flit has taken. -/

/-- In `q` every die receives as it does in `p`: ends of links differ in what they have as senders only, and the cells on their way to
VC queues do not. -/
structure ReceivesAs (p q : Panel) : Prop where
  wire : ∀ j, (q.getRtr j).wire = (p.getRtr j).wire
  link : ∀ j i, ∃ n t b, Tab.get link0 (q.getRtr j).link i = { Tab.get link0 (p.getRtr j).link i with txSeq := n, txAt := t, buf := b }

theorem ReceivesAs.refl (p : Panel) : ReceivesAs p p := ⟨fun _ => rfl, fun _ _ => ⟨_, _, _, rfl⟩⟩

theorem ReceivesAs.trans {r : Panel} (h : ReceivesAs p q) (g : ReceivesAs q r) : ReceivesAs p r where
  wire j := (g.wire j).trans (h.wire j)
  link j i := by
    obtain ⟨n, t, b, hg⟩ := g.link j i
    obtain ⟨_, _, _, hh⟩ := h.link j i
    exact ⟨n, t, b, by rw [hg, hh]⟩

/-- A change of a router that leaves what it receives and, of one end of a link, changes what it has as a sender. -/
theorem ReceivesAs.modRtr {d i : Nat} {f : Router → Router} {g : Link → Link} (hw : ∀ r, (f r).wire = r.wire)
    (hl : ∀ r, (f r).link = Tab.upd link0 i g r.link) (hg : ∀ l, ∃ n t b, g l = { l with txSeq := n, txAt := t, buf := b })
    (p : Panel) : ReceivesAs p (p.modRtr d f) where
  wire j := by
    by_cases hj : j = d
    · rw [hj, Panel.modRtr_same, hw]
    · rw [Panel.modRtr_ne _ _ hj]
  link j a := by
    by_cases hj : j = d
    · rw [hj, Panel.modRtr_same, hl]
      by_cases ha : a = i
      · rw [ha, Tab.get_upd_same]
        exact hg _
      · rw [Tab.get_upd_ne _ ha]
        exact ⟨_, _, _, rfl⟩
    · rw [Panel.modRtr_ne _ _ hj]
      exact ⟨_, _, _, rfl⟩

theorem sendFlit_receivesAs (d i : Nat) (x : Flit) (p : Panel) : ReceivesAs p (sendFlit d i x p) := by
  unfold sendFlit
  apply ReceivesAs.modRtr (i := i) (g := fun l => { l with txSeq := (l.txSeq + 1) % 65536, buf := l.buf ++ [x] })
  case hw | hl => exact fun _ => rfl
  case hg => exact fun _ => ⟨_, _, _, rfl⟩

/-- The time from which a sender's next flit may leave. -/
theorem setTxAt_receivesAs (d i t : Nat) (p : Panel) :
    ReceivesAs p (p.modRtr d fun r => { r with link := Tab.upd link0 i (fun l => { l with txAt := t }) r.link }) := by
  apply ReceivesAs.modRtr (i := i) (g := fun l => { l with txAt := t })
  case hw | hl => exact fun _ => rfl
  case hg => exact fun _ => ⟨_, _, _, rfl⟩

theorem flitOf_receivesAs (d i seq : Nat) (p : Panel) : ReceivesAs p (flitOf d i seq p).2 := by
  unfold flitOf
  dsimp only
  split
  · exact sendFlit_receivesAs ..
  · exact .refl p

/-- A flit that the far die sends comes in; all that its sending changes is the sender's. -/
theorem exec_linkFlitReceive (hm : isMesh m = true) (hedge : edge < 4) (hlink : linkDisabled s.p m (32 * edge) = false)
    (hfree : (Tab.get link0 (s.p.getRtr (farEdge m edge).1).link (farEdge m edge).2).txAt ≤ s.p.clk.vco)
    (hx : (flitOf (farEdge m edge).1 (farEdge m edge).2 seq s.p).1 = some x) (ok : Bool) :
    ∃ q, ReceivesAs s.p q ∧ exec (.linkFlitReceive m edge seq x.ack ok ns) s = .next (s.onP fun _ => receiveFlit m edge x ok ns q) := by
  refine ⟨_, (flitOf_receivesAs (farEdge m edge).1 (farEdge m edge).2 seq s.p).trans
    (setTxAt_receivesAs (farEdge m edge).1 (farEdge m edge).2 (s.p.clk.vco + 10) _), ?_⟩
  change execLinkFlitReceive m edge seq x.ack ok ns s = _
  rw [execLinkFlitReceive, isRouter_of_isMesh hm, dataEdges_contains hm hedge, Bool.and_self, State.runP_true]
  simp only [hlink, hx, Nat.not_lt.mpr hfree, Bool.false_eq_true, or_self, if_false, ne_eq, not_true]
  rfl

/-! A flit at its receiver (R169). -/

/-- The cells of a flit join those of their tracks, in order. -/
theorem get_each_upd_append (edge : Nat) (l : List (Nat × Cell)) (t : Tab (List Cell)) (i : Nat) :
    Tab.get [] (each l (fun c t => Tab.upd [] (32 * edge + c.1) (· ++ [c.2]) t) t) (32 * edge + i)
      = Tab.get [] t (32 * edge + i) ++ (l.filter fun c => decide (c.1 = i)).map (·.2) := by
  unfold each
  induction l generalizing t with
  | nil => simp
  | cons c l ih =>
    rw [List.foldl_cons, ih]
    by_cases hc : c.1 = i
    · simp [hc]
    · rw [Tab.get_upd_ne _ (by omega)]
      simp [hc]

/-- A good flit with the number expected. -/
theorem receiveFlit_expected (hseq : x.seq = (Tab.get link0 (p.getRtr m).link edge).next) :
    let l := Tab.get link0 (p.getRtr m).link edge
    let r := (receiveFlit m edge x true ns p).getRtr m
    (Tab.get link0 r.link edge).next = (l.next + 1) % 65536 ∧ (Tab.get link0 r.link edge).flits = l.flits + 1
      ∧ (Tab.get link0 r.link edge).waiting = false
      ∧ ∀ i, Tab.get [] r.wire (32 * edge + i)
          = Tab.get [] (p.getRtr m).wire (32 * edge + i) ++ (x.cells.filter fun c => decide (c.1 = i)).map (·.2) := by
  simp [receiveFlit, hseq, acceptFlit, get_each_upd_append]

/-- The beginning of a replay counts it and waits for its number; it leaves the cells on their way. -/
theorem linkReplay_fields (m edge : Nat) (p : Panel) :
    let l := Tab.get link0 (p.getRtr m).link edge
    let r := (linkReplay m edge p).getRtr m
    (Tab.get link0 r.link edge).next = l.next ∧ (Tab.get link0 r.link edge).crc = l.crc
      ∧ (Tab.get link0 r.link edge).replays = l.replays + 1 ∧ (Tab.get link0 r.link edge).waiting = true
      ∧ r.wire = (p.getRtr m).wire := by
  unfold linkReplay
  dsimp only
  split <;> simp

/-- A bad flit where none is waited for begins a replay. -/
theorem receiveFlit_bad (hwait : (Tab.get link0 (p.getRtr m).link edge).waiting = false) :
    let l := Tab.get link0 (p.getRtr m).link edge
    let r := (receiveFlit m edge x false ns p).getRtr m
    (Tab.get link0 r.link edge).next = l.next ∧ (Tab.get link0 r.link edge).crc = l.crc + 1
      ∧ (Tab.get link0 r.link edge).replays = l.replays + 1 ∧ (Tab.get link0 r.link edge).waiting = true
      ∧ r.wire = (p.getRtr m).wire := by
  have h := linkReplay_fields m edge (p.modRtr m fun r => { r with
    link := Tab.upd link0 edge (fun l => { l with flits := l.flits + 1, crc := l.crc + 1 }) r.link })
  simp only [Panel.modRtr_same, Tab.get_upd_same] at h
  simpa only [receiveFlit, hwait, Bool.false_eq_true, if_false] using h

/-- The sixteenth failure in a row of the number waited for fails the link. -/
theorem receiveFlit_sixteenth (hwait : (Tab.get link0 (p.getRtr m).link edge).waiting = true)
    (hseq : x.seq = (Tab.get link0 (p.getRtr m).link edge).next) (hfails : 15 ≤ (Tab.get link0 (p.getRtr m).link edge).fails) :
    let r := (receiveFlit m edge x false ns p).getRtr m
    (Tab.get link0 r.link edge).failed = true ∧ r.wire = (p.getRtr m).wire := by
  simp [receiveFlit, hwait, hseq, hfails]

/-! An entry that stalls (R172). -/

theorem exec_netStalled (hm : isMesh m = true) (hrun : (s.p.getRtr m).running = true) (he : (s.p.getRtr m).has e = true)
    (hreps : (s.p.getRtr m).firedOf e < Seg.reps (s.p.getRtr m).desc) (hnone : (s.p.getRtr m).stalled = none)
    (hlate : entryCycle (s.p.getRtr m) e + dieCfg s.p m 0x7008 0 ≤ (s.p.getRtr m).cyc) :
    exec (.netStalled m e) s = .next (s.onP fun p => dieRaise m 0 m 0x0607 none
      (p.modRtr m fun r => { r with stalled := some (e, (s.p.getRtr m).firedOf e) })) := by
  change execNetStalled m e s = _
  rw [execNetStalled, hm, State.runP_true]
  simp only [hrun, he, hreps, hnone, hlate, and_self, if_true]
  rfl

/-! The read of a posted payload (R61, R103, R158). -/

/-- The panel in which the next cell of a post is being read. -/
def readTaken (k : Nat) (q : Post) (p : Panel) : Panel := p.modA k fun a =>
  { a with posts := a.posts.map fun y => if y = q then { y with read := y.read + 1 } else y }

theorem readTaken_parts (k : Nat) (q : Post) (p : Panel) : ((readTaken k q p).getCore k).parts = (p.getCore k).parts := by
  rw [readTaken, Panel.modA, Panel.modCore_same]

section
variable {q : Post} {o : Nat} (hk : isCore k = true) (htrack : track < 16) (hnext : nextRead (coreA k s) track = some (q, o))
include hk htrack hnext

/-- A payload whose cycle is past is counted and asked for at unscheduled rank. -/
theorem exec_sendPayloadRead_late (hroom : bufLoad s.p k track < 16) (hrun : (s.p.getRtr (siteOf k)).running = true)
    (hpast : (s.p.getRtr (siteOf k)).ordCycle true (trackCode (coreOf k) track) o < (s.p.getRtr (siteOf k)).cyc + 8) (ecc : Ecc) :
    exec (.sendPayloadRead k track ecc) s = .next (s.onP fun p => askParts k .nDelayed (q.base + 40 * q.read) 40
      (fun y i n => .send track o y i n q.pc)
      ((readTaken k q p).modRtr (siteOf k) fun r => { r with ctr := { r.ctr with lateSends := r.ctr.lateSends + 1 } })) := by
  have hgo : ¬ (16 ≤ bufLoad s.p k track
      ∨ (s.p.getRtr (siteOf k)).cyc + 8 < (s.p.getRtr (siteOf k)).ordCycle true (trackCode (coreOf k) track) o
      ∨ (s.p.getRtr (siteOf k)).running = false) := by
    rw [hrun, Bool.true_eq_false, or_false]; omega
  change execSendPayloadRead k track ecc s = _
  rw [execSendPayloadRead, hk, decide_eq_true htrack, Bool.and_self, State.run_true]
  simp only [hnext, if_neg hgo, if_neg (Nat.ne_of_gt hpast)]
  rfl

/-- One whose cycle is to come waits. -/
theorem exec_sendPayloadRead_early
    (hahead : (s.p.getRtr (siteOf k)).cyc + 8 < (s.p.getRtr (siteOf k)).ordCycle true (trackCode (coreOf k) track) o) (ecc : Ecc) :
    exec (.sendPayloadRead k track ecc) s = .next s := by
  change execSendPayloadRead k track ecc s = _
  rw [execSendPayloadRead, hk, decide_eq_true htrack, Bool.and_self, State.run_true]
  simp only [hnext, if_pos (Or.inr (Or.inl hahead))]

end

theorem askPart_parts (k acc : Nat) (ag : Agent) (at_ : Nat) (act : PartAct) (p : Panel) :
    ((askPart k acc ag at_ act p).getCore k).parts.length = (p.getCore k).parts.length + 1 := by
  rw [askPart, Panel.modCore_same]
  exact List.length_append

theorem each_askPart_parts (k : Nat) (ag : Agent) (act : Nat × Nat → PartAct) (l : List (Nat × Nat)) (p : Panel) :
    ((each l (fun e p => askPart k p.nextAcc ag e.1 (act e) p) p).getCore k).parts.length = (p.getCore k).parts.length + l.length := by
  unfold each
  induction l generalizing p with
  | nil => rfl
  | cons y l ih => rw [List.foldl_cons, ih, askPart_parts, List.length_cons]; omega

/-- Asking for an access adds one part a line. -/
theorem askParts_parts (k : Nat) (ag : Agent) (at_ n : Nat) (mk : Nat → Nat → Nat → PartAct) (p : Panel) :
    ((askParts k ag at_ n mk p).getCore k).parts.length = (p.getCore k).parts.length + (lineParts (n / 128 + 2) at_ n).length :=
  each_askPart_parts k ag (fun e => mk e.1 (e.1 - at_) e.2) _ p

/-- It leaves every router. -/
theorem askParts_getRtr (k : Nat) (ag : Agent) (at_ n : Nat) (mk : Nat → Nat → Nat → PartAct) (p : Panel) (j : Nat) :
    (askParts k ag at_ n mk p).getRtr j = p.getRtr j := by
  apply each_keeps (P := fun q : Panel => q.getRtr j = p.getRtr j)
  case h => exact fun _ _ hq => hq
  case hb => rfl

end Sys2Proof.Machine
end

section
open Sys2Proof Sys2Proof.Machine

/-- Settles O23: each command's effect on the panel, and then the fields of that effect. -/
theorem linksStallsAndPayloadReads : Obligations.LinksStallsAndPayloadReads := by
  intro m k track e edge seq ns s hm hk htrack hedge
  refine ⟨fun x hlink hfree hx => ⟨fun hseq => ?expected, fun hwait => ?bad, fun hwait hseq hfails => ?fails⟩,
    fun hrun he hreps hnone hlate => ?stalled, fun q o hnext hroom hrun => ⟨fun hpast => ?late, fun hahead => ?early⟩⟩
  case expected =>
    obtain ⟨q, hq, ht⟩ := exec_linkFlitReceive (ns := ns) hm hedge hlink hfree hx true
    obtain ⟨_, _, _, hl⟩ := hq.link m edge
    have h := receiveFlit_expected (p := q) (m := m) (edge := edge) (ns := ns) (x := x) (by rw [hl]; exact hseq)
    rw [hl, hq.wire] at h
    exact ⟨_, ht, rfl, h⟩
  case bad =>
    obtain ⟨q, hq, ht⟩ := exec_linkFlitReceive (ns := ns) hm hedge hlink hfree hx false
    obtain ⟨_, _, _, hl⟩ := hq.link m edge
    have h := receiveFlit_bad (p := q) (m := m) (edge := edge) (ns := ns) (x := x) (by rw [hl]; exact hwait)
    rw [hl, hq.wire] at h
    exact ⟨_, ht, rfl, h⟩
  case fails =>
    obtain ⟨q, hq, ht⟩ := exec_linkFlitReceive (ns := ns) hm hedge hlink hfree hx false
    obtain ⟨_, _, _, hl⟩ := hq.link m edge
    have h := receiveFlit_sixteenth (p := q) (m := m) (edge := edge) (ns := ns) (x := x) (by rw [hl]; exact hwait) (by rw [hl]; exact hseq)
      (by rw [hl]; exact hfails)
    rw [hq.wire] at h
    exact ⟨_, ht, rfl, h⟩
  case stalled =>
    refine ⟨_, exec_netStalled hm hrun he hreps hnone hlate, rfl, ?_⟩
    rw [State.onP_p, dieRaise_getRtr, Panel.modRtr_same]
    exact ⟨rfl, rfl, rfl⟩
  case late =>
    refine ⟨_, exec_sendPayloadRead_late hk htrack hnext hroom hrun hpast _, rfl, ?_⟩
    rw [State.onP_p, askParts_getRtr, Panel.modRtr_same, askParts_parts]
    exact ⟨rfl, congrArg (List.length · + _) (readTaken_parts k q s.p)⟩
  case early => exact exec_sendPayloadRead_early hk htrack hnext hahead _

end

section
/-! PROOFS. Service traffic: a service cell's queue, its starvation, the requests of an agent, and the response at a hub
(R173-R175, R478). -/

namespace Sys2Proof.Machine

variable {s : State} {p : Panel} {m code op e : Nat} {c : Cell} {q : List Cell} {err : RowErr}

/-! The queue of the next output, and the agent's (R175). -/

theorem serviceQueue_edge (hnext : serviceNext p m code c = some (some e)) (hroom : (Tab.get [] (p.getRtr m).svcq e).length < 8) :
    serviceQueue p m code c = some { p.getRtr m with svcq := Tab.upd [] e (· ++ [c]) (p.getRtr m).svcq } := by
  simp only [serviceQueue, hnext, if_pos hroom]

theorem serviceQueue_edge_full (hnext : serviceNext p m code c = some (some e)) (hfull : 8 ≤ (Tab.get [] (p.getRtr m).svcq e).length) :
    serviceQueue p m code c = none := by
  simp only [serviceQueue, hnext, if_neg (Nat.not_lt.mpr hfull)]

theorem serviceQueue_agent (hnext : serviceNext p m code c = some none) (hroom : (p.getRtr m).agent.length < 16) :
    serviceQueue p m code c = some { p.getRtr m with agent := (p.getRtr m).agent ++ [c] } := by
  simp only [serviceQueue, hnext, if_pos hroom]

section
variable (hm : isMesh m = true) (hcode : code < 0x80) (hq : Tab.get [] (s.p.getRtr m).inq (8 * code + 7) = c :: q)
include hm hcode hq

/-- The cell at the head of VC 7 of an edge input, where its next queue takes it. -/
theorem exec_serviceCellQueue_taken {r : Router} (h : serviceQueue s.p m code c = some r) :
    exec (.serviceCellQueue m code) s
      = .next (s.onP fun p => p.modRtr m fun _ => { r with inq := Tab.upd [] (8 * code + 7) (·.drop 1) r.inq }) := by
  change execServiceCellQueue m code s = _
  rw [execServiceCellQueue, isRouter_of_isMesh hm, decide_eq_true (by omega), Bool.and_self, State.runP_true]
  simp only [if_neg (show code ≠ 0x80 by omega), hq, List.head?_cons, h]
  rfl

/-- It stays where its next queue is full, or no way is open. -/
theorem exec_serviceCellQueue_waits (h : serviceQueue s.p m code c = none) : exec (.serviceCellQueue m code) s = .next s := by
  change execServiceCellQueue m code s = _
  rw [execServiceCellQueue, isRouter_of_isMesh hm, decide_eq_true (by omega), Bool.and_self, State.runP_true]
  simp only [if_neg (show code ≠ 0x80 by omega), hq, List.head?_cons, h]

end

/-- The one service cell of a router, waiting longer than the threshold and not yet counted, is counted (R175). -/
theorem exec_serviceStarved (hm : isMesh m = true) (hhere : serviceHere (s.p.getRtr m) = [c]) (hnew : (s.p.getRtr m).svcWaited = [])
    (hlate : Tab.get (s.p.getClk m).clk (s.p.getRtr m).svcSince (svcTag c) + dieCfg s.p m 0x7008 1 < (s.p.getClk m).clk) :
    exec (.serviceStarved m) s = .next (s.onP fun p => dieRaise m 0 m 0x0608 none (p.modRtr m fun r => { r with
      svcWaited := svcTag c :: r.svcWaited, ctr := { r.ctr with starved := r.ctr.starved + 1 } })) := by
  have hfind : (serviceHere (s.p.getRtr m)).find? (fun c => !(s.p.getRtr m).svcWaited.contains (svcTag c)
      && decide (Tab.get (s.p.getClk m).clk (s.p.getRtr m).svcSince (svcTag c) + dieCfg s.p m 0x7008 1 < (s.p.getClk m).clk))
        = some c := by
    simp [hhere, hnew, hlate]
  change execServiceStarved m s = _
  rw [execServiceStarved, isRouter_of_isMesh hm, State.runP_true]
  simp only [hfind]
  rfl

/-! The one request of an agent (R174). -/

/-- The state in which the agent's one request has been taken. -/
def agentTaken (m : Nat) (s : State) : State := s.onP fun p => p.modRtr m fun r => { r with agent := [] }

theorem agentTaken_getRtr (m : Nat) (s : State) : (agentTaken m s).p.getRtr m = { s.p.getRtr m with agent := [] } := Panel.modRtr_same ..

@[simp] theorem agentTaken_mem (m : Nat) (s : State) : (agentTaken m s).mem = s.mem := rfl

/-- A request meets the same checks whatever a router holds. -/
theorem agentOk_modRtr (j : Nat) (f : Router → Router) (p : Panel) (m : Nat) (c : Cell) :
    agentOk (p.modRtr j f) m c = agentOk p m c := rfl

section
variable (hag : (s.p.getRtr m).agent = [c]) (hty : CellF.typ c = 3)
include hag hty

/-- An operation that the panel does not have is answered with status 3, by either command. -/
theorem serveAgent_unknown (h1 : Svc.op c ≠ 1) (h2 : Svc.op c ≠ 2) (hop : op = 1 ∨ op = 2) :
    serveAgent m op err s = (agentTaken m s).onP (serviceReply m c 3 []) := by
  have hne : Svc.op c ≠ op := by omega
  simp only [serveAgent, hag, hty, hne, h1, h2, ne_eq, not_true, or_self, and_false, not_false_eq_true, if_false, if_true]
  rfl

/-- A permitted read of a program store is answered with its bytes. -/
theorem serveAgent_readProgram (hok : agentOk s.p m c = true) (hop : Svc.op c = 1) (hsp : Ga.space (Svc.ga c) = 2) :
    serveAgent m 1 err s = (agentTaken m s).onP (serviceReply m c 0
      (s.mem.readN (gaProgram (Ga.core (Svc.ga c)) (Ga.off (Svc.ga c) % 2 ^ 26)) (Svc.len c))) := by
  simp [serveAgent, hag, hty, hop, hok, hsp, gaBytes, agentOk_modRtr, agentTaken]
  rfl

/-- A permitted write to a scratchpad becomes one general access. -/
theorem serveAgent_writeScratch (hok : agentOk s.p m c = true) (hop : Svc.op c = 2) (hsp : Ga.space (Svc.ga c) = 1) :
    serveAgent m 2 err s = (agentTaken m s).onP
      (askGeneral (.service c) m (Ga.off (Svc.ga c)) (Svc.len c) (some (Svc.data c))) := by
  simp [serveAgent, hag, hty, hop, hok, hsp, agentOk_modRtr, agentTaken]

end

theorem exec_serviceRead (hm : isMesh m = true) : exec (.serviceRead m err) s = .next (serveAgent m 1 err s) := by
  change execServiceRead m err s = _
  rw [execServiceRead, hm, State.run_true]

theorem exec_serviceWrite (hm : isMesh m = true) : exec (.serviceWrite m err) s = .next (serveAgent m 2 err s) := by
  change execServiceWrite m err s = _
  rw [execServiceWrite, hm, State.run_true]

/-- The agent's answer joins its responses, and leaves the rest of the router. -/
theorem serviceReply_getRtr (st : Nat) (d : List Byte) :
    (serviceReply m c st d p).getRtr m = { p.getRtr m with reply := (p.getRtr m).reply ++ replyCells p m c st d } := Panel.modRtr_same ..

theorem replyCells_of_status {st : Nat} (hst : st ≠ 0) (d : List Byte) : replyCells p m c st d = [replyCell p m c st 0 []] :=
  if_pos (.inl hst)

/-- Asking for a general access adds it, and leaves every router. -/
theorem askGeneral_keeps (who : Asker) (site x n : Nat) (wr : Option (List Byte)) (p : Panel) :
    (∃ g : GenAcc, (askGeneral who site x n wr p).gen = p.gen ++ [g] ∧ g.who = who) ∧ (askGeneral who site x n wr p).rtr = p.rtr := by
  unfold askGeneral
  apply each_keeps (P := fun q : Panel => (∃ g : GenAcc, q.gen = p.gen ++ [g] ∧ g.who = who) ∧ q.rtr = p.rtr)
  case h => exact fun _ _ hq => hq
  case hb => exact ⟨⟨_, rfl, rfl⟩, rfl⟩

/-! The one response of a hub's agent, to the one access outstanding (R174, R478). -/

theorem exec_serviceResponse {hub : Nat} {x : SvcOut} (hh : isHub hub = true) (hag : (s.p.getRtr hub).agent = [c])
    (hst : Svc.status c = 0) (hsvc : s.p.host.svc = [x]) (htag : x.tag = svcTag c) :
    exec (.serviceResponse hub) s = .next (s.onP fun p => ((p.modRtr hub fun r => { r with agent := [] }).modHost fun h => { h with
        svc := if x.left ≤ 1 then [] else [{ x with left := x.left - 1 }] }).modGuest x.guest fun g => { g with
      outstanding := if x.left ≤ 1 then g.outstanding.erase x.gtag else g.outstanding
      answers := g.answers ++ [withTag x.gtag c] }) := by
  change execServiceResponse hub s = _
  rw [execServiceResponse, hh, State.runP_true]
  by_cases hlast : x.left ≤ 1 <;> simp [State.onP, Panel.modHost, Panel.modRtr, hag, hst, hsvc, htag, hlast]

end Sys2Proof.Machine
end

section
open Sys2Proof Sys2Proof.Machine

/-- Settles O25: each command's effect on the panel, and then the fields of that effect. -/
theorem serviceCellsAreQueuedServedAndAnswered : Obligations.ServiceCellsAreQueuedServedAndAnswered := by
  intro m err c s hm
  refine ⟨fun code q hcode hq => ⟨fun e hnext => ⟨fun hroom => ?queued, fun hfull => ?waits⟩, fun hnext hroom => ?toAgent⟩,
    fun hhere hnew hlate => ?starved, fun hag hty hok => ⟨fun hop hsp => ?read, fun hop hsp => ?write⟩,
    fun hag hty h1 h2 i hi => ?unknown, fun hub x hh hag hst hsvc htag => ?response⟩
  case queued =>
    refine ⟨_, exec_serviceCellQueue_taken hm hcode hq (serviceQueue_edge hnext hroom), rfl, ?_⟩
    rw [State.onP_p, Panel.modRtr_same]
    exact ⟨by simp [hq], Tab.get_upd_same [] _ (· ++ [c]) _⟩
  case waits => exact exec_serviceCellQueue_waits hm hcode hq (serviceQueue_edge_full hnext hfull)
  case toAgent =>
    refine ⟨_, exec_serviceCellQueue_taken hm hcode hq (serviceQueue_agent hnext hroom), rfl, ?_⟩
    rw [State.onP_p, Panel.modRtr_same]
    exact ⟨by simp [hq], rfl⟩
  case starved =>
    refine ⟨_, exec_serviceStarved hm hhere hnew hlate, rfl, ?_⟩
    rw [State.onP_p, dieRaise_getRtr, Panel.modRtr_same, hnew]
    exact ⟨rfl, rfl⟩
  case read =>
    refine ⟨_, (exec_serviceRead hm).trans (congrArg _ (serveAgent_readProgram hag hty hok hop hsp)), rfl, ?_⟩
    rw [State.onP_p, serviceReply_getRtr, agentTaken_getRtr]
    exact ⟨rfl, rfl⟩
  case write =>
    obtain ⟨hgen, hrtr⟩ := askGeneral_keeps (.service c) m (Ga.off (Svc.ga c)) (Svc.len c) (some (Svc.data c)) (agentTaken m s).p
    refine ⟨_, (exec_serviceWrite hm).trans (congrArg _ (serveAgent_writeScratch hag hty hok hop hsp)), rfl, ?_⟩
    rw [State.onP_p, Panel.getRtr, hrtr, ← Panel.getRtr, agentTaken_getRtr]
    exact ⟨rfl, rfl, hgen⟩
  case unknown =>
    have ht : exec i s = .next ((agentTaken m s).onP (serviceReply m c 3 [])) := by
      obtain rfl | rfl := hi
      · rw [exec_serviceRead hm, serveAgent_unknown hag hty h1 h2 (.inl rfl)]
      · rw [exec_serviceWrite hm, serveAgent_unknown hag hty h1 h2 (.inr rfl)]
    refine ⟨_, ht, rfl, ?_⟩
    rw [State.onP_p, serviceReply_getRtr, agentTaken_getRtr, replyCells_of_status (by decide)]
    exact ⟨rfl, rfl⟩
  case response =>
    refine ⟨_, exec_serviceResponse hh hag hst hsvc htag, rfl, ?_, fun hlast => if_pos hlast,
      fun hmore => if_neg (Nat.not_le.mpr hmore), ?_⟩
    · exact congrArg Router.agent (Panel.modRtr_same s.p hub fun r => { r with agent := [] })
    · rw [State.onP_p, Panel.modGuest_same]
      rfl

end

section
/-! PROOFS. The tables of a router: the commit of a segment, and writes to hop entries, segment descriptors and unit descriptors
(R160, R161, R178, R182). -/

namespace Sys2Proof.Machine

variable {s : State} {p : Panel} {m n e u : Nat}

/-! The bits of the segments that stay committed (R161). -/

theorem foldl_or_two_pow_testBit (l : List Nat) (a i : Nat) :
    (l.foldl (fun a j => a ||| 2 ^ j) a).testBit i = (a.testBit i || decide (i ∈ l)) := by
  induction l generalizing a with
  | nil => simp
  | cons j l ih => simp [ih, Nat.testBit_two_pow, Bool.or_assoc, eq_comm]

theorem ofBits_testBit (l : List Nat) (i : Nat) : (ofBits l).testBit i = decide (i ∈ l) := by
  simp [ofBits, foldl_or_two_pow_testBit]

theorem uncommit_testBit_of_selected {f : Nat → Bool} {i : Nat} (h : f i = true) (r : Router) :
    (uncommit f r).committed.testBit i = false := by
  simp [uncommit, ofBits_testBit, h]

/-! Commits (R160, R178). -/

theorem exec_segmentCommit (hm : isMesh m = true) (hn : n < 64) : exec (.segmentCommit m n) s = .next (s.onP (commitSegment m n)) := by
  change execSegmentCommit m n s = _
  rw [execSegmentCommit, hm, decide_eq_true hn]
  rfl

theorem commitSegment_of_passed (h : segFail p m n = none) :
    commitSegment m n p = p.modRtr m fun r => { r with committed := r.committed ||| 2 ^ n } := by
  rw [commitSegment, h]

theorem commitSegment_of_failed {i c : Nat} (h : segFail p m n = some (i, c)) :
    commitSegment m n p = p.modRtr m fun r => { r with refusal := (n, i, c, p.now) } := by
  rw [commitSegment, h]

/-! Writes to the tables of an open site (R161, R182). -/

theorem exec_hopTableWrite_entry (hm : isMesh m = true) (he : e < 65536) (hopen : siteOpen s.p m = true) (x : BitVec 128) :
    exec (.hopTableWrite m e x) s
      = .next (s.onP fun p => (writeHop m e (BitVec.ofNat 64 x.toNat) p).getD (gaRefuse m p)) := by
  change execHopTableWrite m e x s = _
  rw [execHopTableWrite, hm, decide_eq_true (by omega), Bool.and_self, State.runP_true]
  simp only [hopen, he, if_true]
  rfl

theorem exec_hopTableWrite_segment (hm : isMesh m = true) (hn : n < 64) (hopen : siteOpen s.p m = true) (x : BitVec 128) :
    exec (.hopTableWrite m (65536 + n) x) s = .next (s.onP fun p => (writeSeg m n x p).getD (gaRefuse m p)) := by
  change execHopTableWrite m (65536 + n) x s = _
  rw [execHopTableWrite, hm, decide_eq_true (by omega), Bool.and_self, State.runP_true]
  simp only [hopen, if_true, if_neg (show ¬ 65536 + n < 65536 by omega), Nat.add_sub_cancel_left]
  rfl

theorem exec_unitDescriptorWrite (hm : isCompute m = true) (hn : n < 64) (hu : u < 16) (hopen : siteOpen s.p m = true) (d : BitVec 256) :
    exec (.unitDescriptorWrite m n u d) s = .next (s.onP fun p => (writeUdesc m (16 * n + u) d p).getD (gaRefuse m p)) := by
  change execUnitDescriptorWrite m n u d s = _
  rw [execUnitDescriptorWrite, hm, decide_eq_true hn, decide_eq_true hu, Bool.and_self, Bool.and_self, State.runP_true]
  simp only [hopen, if_true]
  rfl

/-- Outside the running segment, an entry's write. -/
theorem writeHop_of_free (h : entryBusy (p.getRtr m) e = false) (x : BitVec 64) :
    writeHop m e x p
      = some (p.modRtr m fun r => { uncommit (fun n => segHas r n e) r with hop := Tab.set e x r.hop }) :=
  if_neg (ne_true_of_eq_false h)

theorem writeHop_of_busy (h : entryBusy (p.getRtr m) e = true) (x : BitVec 64) : writeHop m e x p = none := if_pos h

theorem writeSeg_of_free (h : segBusy (p.getRtr m) n = false) (x : BitVec 128) :
    writeSeg m n x p = some (p.modRtr m fun r => { uncommit (fun i => decide (i = n)) r with seg := Tab.set n x r.seg }) :=
  if_neg (ne_true_of_eq_false h)

theorem udesc_segment (hu : u < 16) : (16 * n + u) / 16 = n := by omega

theorem writeUdesc_of_free (hu : u < 16) (h : segBusy (p.getRtr m) n = false) (d : BitVec 256) :
    writeUdesc m (16 * n + u) d p
      = some (p.modRtr m fun r => { uncommit (fun i => decide (i = n)) r with udesc := Tab.set (16 * n + u) d r.udesc }) := by
  rw [writeUdesc, udesc_segment hu, h]
  rfl

theorem writeUdesc_of_busy (hu : u < 16) (h : segBusy (p.getRtr m) n = true) (d : BitVec 256) :
    writeUdesc m (16 * n + u) d p = none := by
  rw [writeUdesc, udesc_segment hu, h]
  rfl

end Sys2Proof.Machine
end

section
open Sys2Proof Sys2Proof.Machine

/-- Settles O26: a commit has two ends, and so has each table's write. -/
theorem segmentsCommitAndDescriptorsAreWritten : Obligations.SegmentsCommitAndDescriptorsAreWritten := by
  intro m n e x s hm hn he
  refine ⟨fun h => ?passed, fun i c h => ?failed, fun hopen hfree => ?entry, fun hopen hfree => ?segment,
    fun hopen hbusy => ?entryRefused, fun u d hc hu hopen => ⟨fun hfree => ?unit, fun hbusy => ?unitRefused⟩⟩
  case passed => exact ⟨_, exec_segmentCommit hm hn, rfl, by rw [State.onP_p, commitSegment_of_passed h, Panel.modRtr_same]⟩
  case failed => exact ⟨_, exec_segmentCommit hm hn, rfl, by rw [State.onP_p, commitSegment_of_failed h, Panel.modRtr_same]⟩
  case entry =>
    refine ⟨_, exec_hopTableWrite_entry hm he hopen x, rfl, ?_⟩
    rw [State.onP_p, writeHop_of_free hfree, Option.getD_some, Panel.modRtr_same]
    exact ⟨Tab.get_set_same .., fun i hi => Tab.get_set_ne _ _ hi _, rfl, fun i _ hi =>
      uncommit_testBit_of_selected (f := fun n => segHas _ n e) hi _⟩
  case segment =>
    refine ⟨_, exec_hopTableWrite_segment hm hn hopen x, rfl, ?_⟩
    rw [State.onP_p, writeSeg_of_free hfree, Option.getD_some, Panel.modRtr_same]
    exact ⟨Tab.get_set_same .., rfl, uncommit_testBit_of_selected (decide_eq_true rfl) _⟩
  case entryRefused =>
    refine ⟨_, exec_hopTableWrite_entry hm he hopen x, rfl, ?_⟩
    rw [State.onP_p, writeHop_of_busy hbusy, Option.getD_none]
    exact ⟨gaRefuse_getRtr .., gaRefuse_gaRefusals ..⟩
  case unit =>
    refine ⟨_, exec_unitDescriptorWrite hc hn hu hopen d, rfl, ?_⟩
    rw [State.onP_p, writeUdesc_of_free hu hfree, Option.getD_some, Panel.modRtr_same]
    exact ⟨Tab.get_set_same .., uncommit_testBit_of_selected (decide_eq_true rfl) _⟩
  case unitRefused =>
    refine ⟨_, exec_unitDescriptorWrite hc hn hu hopen d, rfl, ?_⟩
    rw [State.onP_p, writeUdesc_of_busy hu hbusy, Option.getD_none]
    exact ⟨gaRefuse_getRtr .., gaRefuse_gaRefusals ..⟩

end

section
/-! PROOFS. The results of the operator units: when one enters its queue (R185), the sums of EX80 values (R188, R189), and the rank
order of the pairs of a merge (R192, R193). -/

namespace Sys2Proof.Machine

variable {s : State} {cs u b x y z : Nat} {e : OpResult}

/-! The result being formed (R185). -/

/-- The one result of a unit's queue, still being formed, enters it where its cycle has come, and else stays as it is (R185). -/
theorem exec_operatorResultReady (hcs : isCompute cs = true) (hu : u < 16)
    (hq : (Tab.get opUnit0 (s.p.getRtr cs).unit u).queue = [e]) (he : e.formed = false) :
    exec (.operatorResultReady cs u) s = .next (s.onP fun p => p.modRtr cs fun r =>
      { r with unit := Tab.upd opUnit0 u (fun d =>
          { d with queue := [if e.ready ≤ (s.p.getRtr cs).cyc then { e with formed := true } else e] }) r.unit }) := by
  change execOperatorResultReady cs u s = _
  rw [execOperatorResultReady, hcs, decide_eq_true hu, Bool.and_self, State.runP_true, State.onP]
  simp only [Panel.modRtr, Tab.upd, hq, List.findIdx?_cons, he, Bool.not_false, if_true, List.getElem?_cons_zero]
  split <;> rfl

/-! Numbers and their lanes. -/

theorem lanes_length (b n x : Nat) : (lanes b n x).length = n := by
  induction n generalizing x with
  | zero => rfl
  | succ n ih => rw [lanes, List.length_cons, ih]

theorem lanes_unlanes {l : List Nat} (h : ∀ a ∈ l, a < 2 ^ b) : lanes b l.length (unlanes b l) = l := by
  induction l with
  | nil => rfl
  | cons a l ih =>
    obtain ⟨ha, hl⟩ := List.forall_mem_cons.mp h
    have hlow : (a % 2 ^ b + 2 ^ b * unlanes b l) % 2 ^ b = a := by rw [Nat.add_mul_mod_self_left, Nat.mod_mod, Nat.mod_eq_of_lt ha]
    have hhigh : (a % 2 ^ b + 2 ^ b * unlanes b l) / 2 ^ b = unlanes b l := by
      rw [Nat.add_mul_div_left _ _ (Nat.two_pow_pos b), Nat.div_eq_of_lt (Nat.mod_lt _ (Nat.two_pow_pos b)), Nat.zero_add]
    rw [unlanes, List.length_cons, lanes, hlow, hhigh, ih hl]

theorem unlanes_lanes (b n x : Nat) : unlanes b (lanes b n x) = x % 2 ^ (b * n) := by
  induction n generalizing x with
  | zero => simp [lanes, unlanes, Nat.mod_one]
  | succ n ih => rw [lanes, unlanes, ih, Nat.mod_mod, Nat.mul_succ, Nat.add_comm (b * n), Nat.pow_add, Nat.mod_mul]

theorem lanes_zero (b n : Nat) : lanes b n 0 = List.replicate n 0 := by
  induction n with
  | zero => rfl
  | succ n ih => rw [lanes, Nat.zero_mod, Nat.zero_div, ih, List.replicate_succ]

/-! SUM: four EX80 values added modulo 2^80, with identity 0 (R188, R189). -/

/-- The sums of the lanes of two payloads. -/
def laneSums (x y : Nat) : List Nat := List.zipWith (fun a b => (a + b) % 2 ^ 80) (lanes 80 4 x) (lanes 80 4 y)

theorem combine_sum (et x y : Nat) : combine 1 et x y = unlanes 80 (laneSums x y) := rfl

theorem identity_sum (et : Nat) : identity 1 et = 0 := rfl

theorem laneSums_length (x y : Nat) : (laneSums x y).length = 4 := by
  rw [laneSums, List.length_zipWith, lanes_length, lanes_length, Nat.min_self]

theorem laneSums_lt {a : Nat} (h : a ∈ laneSums x y) : a < 2 ^ 80 := by
  obtain ⟨i, hi, rfl⟩ := List.getElem_of_mem h
  simp only [laneSums, List.getElem_zipWith]
  exact Nat.mod_lt _ (Nat.two_pow_pos 80)

theorem laneSums_comm (x y : Nat) : laneSums x y = laneSums y x :=
  List.zipWith_comm_of_comm fun a b => by rw [Nat.add_comm]

theorem laneSums_zero (x : Nat) : laneSums x 0 = lanes 80 4 x := by
  refine List.ext_getElem (by rw [laneSums_length, lanes_length]) fun i _ hi => ?_
  have hlt := lanes_lt (List.getElem_mem hi)
  simp only [laneSums, lanes_zero, List.getElem_zipWith, List.getElem_replicate, Nat.add_zero, Nat.mod_eq_of_lt hlt]

theorem lanes_combine_sum (et x y : Nat) : lanes 80 4 (combine 1 et x y) = laneSums x y := by
  have h := lanes_unlanes (b := 80) (l := laneSums x y) fun _ => laneSums_lt
  rwa [laneSums_length] at h

theorem combine_sum_identity (et : Nat) (h : x < 2 ^ 320) : combine 1 et x (identity 1 et) = x := by
  rw [combine_sum, identity_sum, laneSums_zero, unlanes_lanes, show 80 * 4 = 320 from rfl, Nat.mod_eq_of_lt h]

/-! Rank order (R192): of two pairs at most one ranks above the other, and not to rank above is transitive. -/

theorem not_ranksAbove_iff : ranksAbove x y = false
    ↔ x / 2 ^ 44 < y / 2 ^ 44 ∨ x / 2 ^ 44 = y / 2 ^ 44 ∧ y % 2 ^ 44 ≤ x % 2 ^ 44 := by
  simp only [ranksAbove, Bool.or_eq_false_iff, Bool.and_eq_false_iff, decide_eq_false_iff_not]
  omega

theorem ranksAbove_irrefl (x : Nat) : ranksAbove x x = false := not_ranksAbove_iff.mpr (.inr ⟨rfl, Nat.le_refl _⟩)

theorem ranksAbove_asymm (h : ranksAbove x y = true) : ranksAbove y x = false := by
  simp only [ranksAbove, Bool.or_eq_true, Bool.and_eq_true, decide_eq_true_eq] at h
  rw [not_ranksAbove_iff]
  omega

theorem not_ranksAbove_trans (hxy : ranksAbove x y = false) (hyz : ranksAbove y z = false) : ranksAbove x z = false := by
  rw [not_ranksAbove_iff] at *
  omega

/-! A pair put in its place (R193). -/

theorem insertPair_perm (x : Nat) (l : List Nat) : (insertPair x l).Perm (x :: l) := by
  induction l with
  | nil => exact .refl _
  | cons y l ih =>
    rw [insertPair]
    split
    · exact (ih.cons y).trans (.swap x y l)
    · exact .refl _

theorem insertPair_rankOrder {l : List Nat} (h : l.Pairwise fun a b => ranksAbove b a = false) :
    (insertPair x l).Pairwise fun a b => ranksAbove b a = false := by
  induction l with
  | nil => exact List.pairwise_singleton ..
  | cons y l ih =>
    obtain ⟨hy, hl⟩ := List.pairwise_cons.mp h
    rw [insertPair]
    split
    case isTrue hbefore =>
      have hxy : ranksAbove x y = false := by
        obtain habove | heq := Bool.or_eq_true_iff.mp hbefore
        · exact ranksAbove_asymm habove
        · rw [of_decide_eq_true heq, ranksAbove_irrefl]
      refine List.pairwise_cons.mpr ⟨fun z hz => ?_, ih hl⟩
      obtain rfl | hz := List.mem_cons.mp ((insertPair_perm x l).mem_iff.mp hz)
      · exact hxy
      · exact hy z hz
    case isFalse hafter =>
      have hyx : ranksAbove y x = false := (Bool.or_eq_false_iff.mp (eq_false_of_ne_true hafter)).1
      refine List.pairwise_cons.mpr ⟨fun z hz => ?_, h⟩
      obtain rfl | hz := List.mem_cons.mp hz
      · exact hyx
      · exact not_ranksAbove_trans (hy z hz) hyx

end Sys2Proof.Machine
end

section
open Sys2Proof Sys2Proof.Machine

/-- Settles O24: a result before and from its cycle on, SUM through its four lanes, and a pair's place by induction on the pairs. -/
theorem operatorUnitsFormTheirResults : Obligations.OperatorUnitsFormTheirResults := by
  refine ⟨fun cs u s x y hcs hu hx hq hy => ?results, fun et x y hx _ => ?sum, fun x l hl => ?pairs⟩
  case results =>
    subst hx
    have hexec := exec_operatorResultReady hcs hu hq hy
    refine ⟨fun hcome => ⟨_, hexec, rfl, ?_⟩, fun hnot => ⟨_, hexec, rfl, ?_⟩⟩
    · rw [State.onP_p, Panel.modRtr_same, Tab.get_upd_same, if_pos hcome]
    · rw [State.onP_p, Panel.modRtr_same, Tab.get_upd_same, if_neg (Nat.not_le.mpr hnot), ← hq]
  case sum =>
    exact ⟨lanes_combine_sum et x y, congrArg (unlanes 80) (laneSums_comm x y), combine_sum_identity et hx⟩
  case pairs =>
    have hperm := insertPair_perm x l
    exact ⟨insertPair_rankOrder hl, hperm.length_eq, fun y => hperm.mem_iff.trans List.mem_cons⟩

end

section
/-! PROOFS. Events of the hub in the event log, and messages on their way from a node (R289-R293, R300, R512). -/

namespace Sys2Proof.Machine

variable {p q r : Panel} {s ev : Nat} {k x : Pkt} {n : Node}

/-! What raising an event of the hub leaves: the control network, and of the book all but its log and its limits. -/

/-- `q` is `p` but for what the hub has written to the hosts. -/
def OnlyHost (p q : Panel) : Prop := ∃ h, q = { p with host := h }

theorem OnlyHost.refl (p : Panel) : OnlyHost p p := ⟨_, rfl⟩

theorem OnlyHost.trans (hq : OnlyHost p q) (hr : OnlyHost q r) : OnlyHost p r := by
  obtain ⟨_, rfl⟩ := hq
  obtain ⟨h, rfl⟩ := hr
  exact ⟨h, rfl⟩

theorem OnlyHost.ite {c : Prop} [Decidable c] (hq : OnlyHost p q) (hr : OnlyHost p r) : OnlyHost p (if c then q else r) := by
  split
  · exact hq
  · exact hr

theorem OnlyHost.book (h : OnlyHost p q) : q.book = p.book := by obtain ⟨_, rfl⟩ := h; rfl
theorem OnlyHost.ctl (h : OnlyHost p q) : q.ctl = p.ctl := by obtain ⟨_, rfl⟩ := h; rfl

theorem modFn_onlyHost (n : Nat) (f : Fn → Fn) (p : Panel) : OnlyHost p (p.modFn n f) := ⟨_, rfl⟩
theorem modHost_onlyHost (f : HostIf → HostIf) (p : Panel) : OnlyHost p (p.modHost f) := ⟨_, rfl⟩

theorem raiseVector_onlyHost (f port v : Nat) (p : Panel) : OnlyHost p (raiseVector f port v p) :=
  .ite (.refl p) (.ite (modFn_onlyHost ..) (modHost_onlyHost ..))

theorem setIcause_onlyHost (f b : Nat) (p : Panel) : OnlyHost p (setIcause f b p) :=
  .ite (.refl p) ((modFn_onlyHost ..).trans (raiseVector_onlyHost ..))

theorem ringPut_onlyHost (f : Nat) (e : Entry) (p : Panel) : OnlyHost p (ringPut f e p) :=
  (((modHost_onlyHost ..).trans (modFn_onlyHost ..)).trans (modFn_onlyHost ..)).trans (setIcause_onlyHost ..)

theorem ringEvent_onlyHost (f : Nat) (e : Entry) (p : Panel) : OnlyHost p (ringEvent f e p) :=
  .ite (.refl p) (.ite (modFn_onlyHost ..) (ringPut_onlyHost ..))

theorem ringEvents_onlyHost (l : List Nat) (e : Entry) (p : Panel) :
    OnlyHost p (each l (fun n => ringEvent (n + 1) e) (ringEvent 0 e p)) :=
  each_keeps (P := OnlyHost p) l (fun n _ h => h.trans (ringEvent_onlyHost (n + 1) e _)) (ringEvent_onlyHost 0 e p)

/-- At the hub an event enters the log, and the control network stands. -/
theorem hubEnter_book_ctl (ev site core key : Nat) (data : BitVec 64) (supp : Nat) (p : Panel) :
    (hubEnter ev site core key data supp p).book = logEvent ⟨ev, evSev ev, site, core, p.now, data, supp, 0⟩ p.book
      ∧ (hubEnter ev site core key data supp p).ctl = p.ctl := by
  have h := ringEvents_onlyHost (evParts p key site) ⟨ev, evSev ev, site, core, p.now, data, supp, 0⟩
    (p.modBook (logEvent ⟨ev, evSev ev, site, core, p.now, data, supp, 0⟩))
  exact ⟨h.book, h.ctl⟩

theorem latch_ctl (sp : Span) (ev key : Nat) (p : Panel) : (latch sp ev key p).2.ctl = p.ctl := by
  unfold latch
  split
  · rfl
  · dsimp only
    split
    · rfl
    · split <;> rfl

theorem takeData_ctl (d : Dat) (p : Panel) : (takeData d p).2.ctl = p.ctl := by cases d <;> rfl
theorem takeData_book (d : Dat) (p : Panel) : (takeData d p).2.book = p.book := by cases d <;> rfl
theorem takeData_now (d : Dat) (p : Panel) : (takeData d p).2.now = p.now := by cases d <;> rfl

@[simp] theorem raiseAs_ctl (sp : Span) (ev site key : Nat) (d : Dat) (p : Panel) : (raiseAs sp ev site key d p).ctl = p.ctl := by
  have h := latch_ctl sp ev key p
  unfold raiseAs
  split
  · next supp q e =>
    rw [e] at h
    exact (hubEnter_book_ctl ..).2.trans ((takeData_ctl d q).trans h)
  · next q e =>
    rw [e] at h
    exact h

@[simp] theorem raise_ctl (ev site key : Nat) (d : Dat) (p : Panel) : (raise ev site key d p).ctl = p.ctl := raiseAs_ctl ..

/-! The event log (R512). -/

/-- The newest entry of the log is of an event of this code raised at the present tick. -/
def NewestLogged (ev : Nat) (p : Panel) : Prop := ∃ e, p.book.log.getLast? = some e ∧ e.ev = ev ∧ e.tick = p.now

theorem NewestLogged.logged (h : NewestLogged ev p) : Logged ev p := by
  obtain ⟨e, hlast, h⟩ := h
  exact ⟨e, List.mem_of_getLast? hlast, h⟩

/-- An event that no limit holds back enters the log. -/
theorem raise_book_of_always (hev : evSpan ev = .always) (site key : Nat) (d : Dat) (p : Panel) :
    ∃ e, (raise ev site key d p).book = logEvent e p.book ∧ e.ev = ev ∧ e.tick = p.now := by
  have hraise : raise ev site key d p = hubEnter ev site 0 key (takeData d p).1 0 (takeData d p).2 := by
    rw [raise, raiseAs, hev]
    rfl
  refine ⟨⟨ev, evSev ev, site, 0, p.now, (takeData d p).1, 0, 0⟩, ?_, rfl, rfl⟩
  rw [hraise, (hubEnter_book_ctl ..).1, takeData_book, takeData_now]

@[simp] theorem raise_now (ev site key : Nat) (d : Dat) (p : Panel) : (raise ev site key d p).now = p.now :=
  congrArg Clocks.tb (raise_clk ev site key d p)

theorem raise_newestLogged (hev : evSpan ev = .always) (site key : Nat) (d : Dat) (p : Panel) :
    NewestLogged ev (raise ev site key d p) := by
  obtain ⟨e, hbook, hcode, htick⟩ := raise_book_of_always hev site key d p
  rw [NewestLogged, raise_now, hbook]
  exact ⟨_, List.getLast?_concat .., hcode, htick⟩

theorem raise_logged (hev : evSpan ev = .always) (site key : Nat) (d : Dat) (p : Panel) : Logged ev (raise ev site key d p) :=
  (raise_newestLogged hev site key d p).logged

/-- The newest entry stays in the log when another event enters it: a full log gives up its oldest. -/
theorem mem_logEvent_of_getLast? {b : Book} {e : Entry} (h : b.log.getLast? = some e) (f : Entry) : e ∈ (logEvent f b).log := by
  refine List.mem_append_left _ ?_
  split
  · next hfull =>
    have hlen : 8192 ≤ b.log.length := of_decide_eq_true hfull
    refine List.mem_of_getLast? ?_
    rw [List.getLast?_drop, if_neg (by omega), h]
  · exact List.mem_of_getLast? h

theorem NewestLogged.raise (h : NewestLogged ev p) {ev' : Nat} (hev : evSpan ev' = .always) (site key : Nat) (d : Dat) :
    Logged ev (raise ev' site key d p) := by
  obtain ⟨e, hlast, hcode, htick⟩ := h
  obtain ⟨f, hbook, -⟩ := raise_book_of_always hev site key d p
  refine ⟨e, ?_, hcode, htick.trans (raise_now ..).symm⟩
  rw [hbook]
  exact mem_logEvent_of_getLast? hlast f

theorem Logged.congr (h : Logged ev p) (hbook : q.book = p.book) (hnow : q.now = p.now) : Logged ev q := by
  rw [Logged, hbook, hnow]
  exact h

theorem NewestLogged.congr (h : NewestLogged ev p) (hbook : q.book = p.book) (hnow : q.now = p.now) : NewestLogged ev q := by
  rw [NewestLogged, hbook, hnow]
  exact h

/-! What sending a message leaves: all but the control network. -/

/-- `q` is `p` but for the control network. -/
def OnlyCtl (p q : Panel) : Prop := ∃ c, q = { p with ctl := c }

theorem OnlyCtl.refl (p : Panel) : OnlyCtl p p := ⟨_, rfl⟩

theorem OnlyCtl.trans (hq : OnlyCtl p q) (hr : OnlyCtl q r) : OnlyCtl p r := by
  obtain ⟨_, rfl⟩ := hq
  obtain ⟨c, rfl⟩ := hr
  exact ⟨c, rfl⟩

theorem OnlyCtl.book (h : OnlyCtl p q) : q.book = p.book := by obtain ⟨_, rfl⟩ := h; rfl
theorem OnlyCtl.now (h : OnlyCtl p q) : q.now = p.now := by obtain ⟨_, rfl⟩ := h; rfl

theorem OnlyCtl.each {α : Type} (l : List α) {f : α → Panel → Panel} (h : ∀ a p, OnlyCtl p (f a p)) (p : Panel) :
    OnlyCtl p (each l f p) :=
  each_keeps (P := OnlyCtl p) l (fun a q hq => hq.trans (h a q)) (.refl p)

theorem modNode_onlyCtl (s : Nat) (f : Node → Node) (p : Panel) : OnlyCtl p (p.modNode s f) := ⟨_, rfl⟩
theorem enqueue_onlyCtl (s port : Nat) (k : Pkt) (p : Panel) : OnlyCtl p (enqueue s port k p) := modNode_onlyCtl ..
theorem deliverTo_onlyCtl (s : Nat) (k : Pkt) (p : Panel) : OnlyCtl p (deliverTo s k p) := modNode_onlyCtl ..

/-- A multicast leaves a node as one copy for each port of its tree. -/
theorem flood_onlyCtl (s : Nat) (l : List Nat) (k : Pkt) (p : Panel) : OnlyCtl p (each l (fun q => enqueue s q k) p) :=
  .each l (fun q _ => enqueue_onlyCtl s q k _) p

theorem routeOn_onlyCtl (s : Nat) (via : Option Nat) (k : Pkt) (p : Panel) : OnlyCtl p (routeOn s via k p) := by
  unfold routeOn
  split
  case isTrue =>
    have hone (c : Prop) [Decidable c] : OnlyCtl p (if c then deliverTo s k p else forwardUnicast s k p) := by
      split
      · exact deliverTo_onlyCtl ..
      · exact enqueue_onlyCtl ..
    exact hone _
  case isFalse =>
    split
    · exact modNode_onlyCtl ..
    · dsimp only
      split
      · exact ((modNode_onlyCtl ..).trans (flood_onlyCtl ..)).trans (deliverTo_onlyCtl ..)
      · exact (modNode_onlyCtl ..).trans (flood_onlyCtl ..)

theorem sendPkt_onlyCtl (k : Pkt) (p : Panel) : OnlyCtl p (sendPkt k p) := by
  unfold sendPkt
  split
  · exact (modNode_onlyCtl ..).trans (routeOn_onlyCtl ..)
  · exact .refl p

theorem toGroup_onlyCtl (dmode g : Nat) (m : Msg) (p : Panel) : OnlyCtl p (toGroup dmode g m p) := by
  unfold toGroup fromHub
  split <;> exact OnlyCtl.trans (q := p.modCtl _) ⟨_, rfl⟩ (sendPkt_onlyCtl ..)

/-! Messages that stand at a node. -/

/-- The messages that stand at a node: waiting at its ports, on its links, delivered to it. -/
def Node.pkts (n : Node) : List Pkt := n.out.flatMap (fun e => e.2.map (·.1)) ++ n.wire.flatMap (fun w => w.2.map pktOf) ++ n.inbox

theorem Tab.get_eq_default_or_mem {α : Type} (d : α) (t : Tab α) (i : Nat) : Tab.get d t i = d ∨ (i, Tab.get d t i) ∈ t := by
  induction t with
  | nil => exact .inl rfl
  | cons e t ih =>
    obtain ⟨j, y⟩ := e
    by_cases h : j = i
    · simp [Tab.get, h]
    · simpa [Tab.get, h, Ne.symm h] using ih

theorem Tab.mem_set_same {α : Type} (i : Nat) (v : α) (t : Tab α) : (i, v) ∈ Tab.set i v t := by
  induction t with
  | nil => simp [Tab.set]
  | cons e t ih =>
    rw [Tab.set]
    split
    · simp
    · split <;> simp [ih]

theorem mem_allPkts (h : k ∈ (p.getNode s).pkts) : k ∈ allPkts p := by
  obtain hnone | hmem := Tab.get_eq_default_or_mem node0 p.ctl.node s
  · rw [Panel.getNode, hnone] at h
    cases h
  · exact List.mem_flatMap.mpr ⟨_, hmem, h⟩

theorem Node.mem_pkts_of_out {i : Nat} {l : List (Pkt × Nat)} (hl : (i, l) ∈ n.out) {t : Nat} (h : (k, t) ∈ l) : k ∈ n.pkts := by
  simp only [Node.pkts, List.mem_append, List.mem_flatMap, List.mem_map]
  exact .inl (.inl ⟨_, hl, _, h, rfl⟩)

theorem mem_pkts_deliverTo (h : k ∈ (p.getNode s).pkts) (x : Pkt) : k ∈ ((deliverTo s x p).getNode s).pkts := by
  rw [deliverTo, Panel.modNode_same]
  simp only [Node.pkts, List.mem_append] at h ⊢
  exact h.imp_right .inl

/-- A message that a node queues stands there, alone, or as an ARRIVE that has merged with one before it. -/
theorem enqueue_stands (s port : Nat) (k : Pkt) (p : Panel) : ∃ x ∈ ((enqueue s port k p).getNode s).pkts,
    x = k ∨ ∃ y, sameArrive y k = true ∧ x = mergeArrive y k := by
  rw [enqueue, Panel.modNode_same]
  dsimp only
  generalize Tab.get [] (p.getNode s).out (8 * port + (msgCode k.msg).1) = l
  by_cases hsame : (l.any fun e => sameArrive e.1 k) = true
  case pos =>
    obtain ⟨⟨y, t⟩, hy, hyk⟩ := List.any_eq_true.mp hsame
    refine ⟨mergeArrive y k, Node.mem_pkts_of_out (Tab.mem_set_same ..) (t := t) ?_, .inr ⟨y, hyk, rfl⟩⟩
    rw [if_pos hsame]
    exact List.mem_map.mpr ⟨(y, t), hy, if_pos hyk⟩
  case neg =>
    refine ⟨k, Node.mem_pkts_of_out (Tab.mem_set_same ..) (t := p.now) ?_, .inl rfl⟩
    rw [if_neg hsame]
    exact List.mem_concat_self

/-- A message that is no ARRIVE merges with none. -/
theorem sameArrive_of_not_arrive (h : ∀ r d b m, k.msg ≠ .arrive r d b m) (y : Pkt) : sameArrive y k = false := by
  unfold sameArrive
  split
  · next hk => exact absurd hk (h _ _ _ _)
  · rfl

theorem enqueue_stands_alone (h : ∀ r d b m, k.msg ≠ .arrive r d b m) (s port : Nat) (p : Panel) :
    k ∈ ((enqueue s port k p).getNode s).pkts := by
  obtain ⟨x, hx, rfl | ⟨y, hy, -⟩⟩ := enqueue_stands s port k p
  · exact hx
  · rw [sameArrive_of_not_arrive h] at hy
    cases hy

/-! A message of a die to the hub (R290, R293). -/

/-- No compute die stands at the site of a hub. -/
theorem hubSite_ne_of_isCompute (hs : isCompute s = true) (n : Nat) : hubSite n ≠ s := by
  rintro rfl
  rw [hubSite] at hs
  split at hs <;> exact absurd hs (by decide)

theorem toHub_eq_forwardUnicast (ht : takesPart p s = true) (hs : isCompute s = true) (tag : Nat) (m : Msg) :
    toHub s tag m p = forwardUnicast s ⟨1, 0, s, tag, 0, m⟩
      (p.modNode s fun n => { n with ctr := { n.ctr with sent := n.ctr.sent + 1 } }) := by
  rw [toHub, sendPkt, if_pos ht, routeOn, if_pos (Nat.le_refl 1)]
  refine if_neg ?_
  rintro (hto | hheld)
  · exact hubSite_ne_of_isCompute hs _ hto
  · cases m <;> cases hheld

/-- A message of a compute die that takes part, no ARRIVE, is on its way to the hub. -/
theorem toHub_sent (ht : takesPart p s = true) (hs : isCompute s = true) (tag : Nat) {m : Msg} (h : ∀ r d b x, m ≠ .arrive r d b x) :
    Sent s m (toHub s tag m p) := by
  rw [toHub_eq_forwardUnicast ht hs]
  exact ⟨_, mem_allPkts (enqueue_stands_alone h ..), rfl, rfl⟩

/-- The arrival of a compute die that takes part is on its way to the hub, alone or merged with others of its block (R300). -/
theorem toHub_arrive_sent (ht : takesPart p s = true) (hs : isCompute s = true) (tag r d b i : Nat) :
    ∃ k ∈ allPkts (toHub s tag (.arrive r d b (2 ^ i)) p), ∃ m, k.msg = .arrive r d b m ∧ m.testBit i = true := by
  rw [toHub_eq_forwardUnicast ht hs, forwardUnicast]
  obtain ⟨k, hk, rfl | ⟨y, hy, rfl⟩⟩ := enqueue_stands s _ _ _
  · exact ⟨_, mem_allPkts hk, _, rfl, Nat.testBit_two_pow_self⟩
  · refine ⟨_, mem_allPkts hk, ?_⟩
    obtain ⟨dmode, dst, src, t, mseq, msg⟩ := y
    cases msg
    case arrive r' d' b' m =>
      obtain ⟨rfl, rfl, rfl⟩ := of_decide_eq_true hy
      exact ⟨m ||| 2 ^ i, rfl, by simp⟩
    all_goals cases hy

/-! A multicast of the active hub (R289, R290, R292). -/

theorem takesPart_congr (hpwr : q.pwr = p.pwr) (hunit : q.book.unit = p.book.unit) (s : Nat) : takesPart q s = takesPart p s := by
  have hust : q.ust s = p.ust s := by rw [Panel.ust, Panel.unit, hunit]; rfl
  rw [takesPart, takesPart, hust, blockPowered, Panel.getBlk, hpwr]
  rfl

/-- Copies put at several ports of a node: the last stands there. -/
theorem flood_stands (h : ∀ r d b m, k.msg ≠ .arrive r d b m) {l : List Nat} (hl : l ≠ []) (s : Nat) (p : Panel) :
    k ∈ ((each l (fun q => enqueue s q k) p).getNode s).pkts := by
  obtain ⟨q, l, rfl⟩ := List.exists_cons_of_ne_nil hl
  exact each_keeps (P := fun p : Panel => k ∈ (p.getNode s).pkts) l (fun q p _ => enqueue_stands_alone h s q p)
    (enqueue_stands_alone h s q p)

/-- A port's link is up by the supply, the book and the links declared down. -/
theorem livePorts_congr (hpwr : q.pwr = p.pwr) (hunit : q.book.unit = p.book.unit)
    (hdown : ∀ j, (q.getNode j).linkDown = (p.getNode j).linkDown) (s : Nat) : livePorts q s = livePorts p s := by
  refine congrArg (List.filter · _) (funext fun port => ?_)
  simp only [ctlUp, takesPart_congr hpwr hunit, hdown]

theorem livePorts_modNode {f : Node → Node} (hf : ∀ n, (f n).linkDown = n.linkDown) (s j : Nat) (p : Panel) :
    livePorts (p.modNode s f) j = livePorts p j := by
  refine livePorts_congr (q := p.modNode s f) (p := p) rfl rfl (fun i => ?_) j
  by_cases h : i = s
  · subst h
    rw [Panel.modNode_same, hf]
  · rw [Panel.modNode_ne _ _ h]

/-- A message that came over no port leaves by every port. -/
theorem filter_ne_none (l : List Nat) : l.filter (fun q => decide (some q ≠ none)) = l :=
  List.filter_eq_self.mpr fun _ _ => rfl

/-- A multicast that its sender has not seen is on its way where the sender takes part and has a live link. -/
theorem sendPkt_multicast_stands (ht : takesPart p k.src = true) (hlive : livePorts p k.src ≠ [])
    (hnew : seeMseq (p.getNode k.src) (hubNum k.src) k.mseq ≠ none) (hd : 2 ≤ k.dmode) (h : ∀ r d b m, k.msg ≠ .arrive r d b m) :
    k ∈ ((sendPkt k p).getNode k.src).pkts := by
  obtain ⟨e, he⟩ := Option.ne_none_iff_exists'.mp hnew
  let q := p.modNode k.src fun n => { n with ctr := { n.ctr with sent := n.ctr.sent + 1 } }
  let r := q.modNode k.src fun n => { n with seen := Tab.set (hubNum k.src) e n.seen }
  have hseen : seeMseq (q.getNode k.src) (hubNum k.src) k.mseq = some e := by rw [Panel.modNode_same]; exact he
  have hports : livePorts r k.src = livePorts p k.src :=
    (livePorts_modNode (by intro _; rfl) k.src k.src q).trans (livePorts_modNode (by intro _; rfl) k.src k.src p)
  have hstands := flood_stands h hlive k.src r
  rw [sendPkt, if_pos ht, routeOn, if_neg (by omega), hseen]
  simp only [hports, filter_ne_none, r, q] at hstands ⊢
  split
  · exact mem_pkts_deliverTo hstands _
  · exact hstands

/-- A multicast of an active hub that can flood is on its way. -/
theorem toGroup_sent (hf : hubFloods p) {dmode : Nat} (hd : 2 ≤ dmode) (g : Nat) {m : Msg} (h : ∀ r d b x, m ≠ .arrive r d b x) :
    Sent p.activeHub m (toGroup dmode g m p) := by
  obtain ⟨ht, hlive, hnew⟩ := hf
  rw [toGroup, fromHub]
  split
  case isTrue hA =>
    rw [if_pos hA] at hnew
    exact ⟨_, mem_allPkts (sendPkt_multicast_stands (k := ⟨dmode, g, p.activeHub, 0, p.ctl.mseq, m⟩)
      (p := p.modCtl fun c => { c with mseq := (c.mseq + 1) % 2 ^ 13 }) ht hlive hnew hd h), rfl, rfl⟩
  case isFalse hB =>
    rw [if_neg hB] at hnew
    exact ⟨_, mem_allPkts (sendPkt_multicast_stands (k := ⟨dmode, g, p.activeHub, 0, p.ctl.mseqB, m⟩)
      (p := p.modCtl fun c => { c with mseqB := (c.mseqB + 1) % 2 ^ 13 }) ht hlive hnew hd h), rfl, rfl⟩

/-- Whether the hub can flood is said by the supply, the book's units and active hub, and the control network. -/
theorem hubFloods_congr (hpwr : q.pwr = p.pwr) (hunit : q.book.unit = p.book.unit) (hactive : q.book.active = p.book.active)
    (hctl : q.ctl = p.ctl) (h : hubFloods p) : hubFloods q := by
  have hhub : q.activeHub = p.activeHub := by rw [Panel.activeHub, hactive]; rfl
  have hnode (j : Nat) : q.getNode j = p.getNode j := by rw [Panel.getNode, hctl]; rfl
  obtain ⟨ht, hlive, hnew⟩ := h
  refine ⟨?_, ?_, ?_⟩
  · rw [hhub, takesPart_congr hpwr hunit, ht]
  · rwa [hhub, livePorts_congr hpwr hunit fun j => by rw [hnode]]
  · rwa [hhub, hnode, hctl]

end Sys2Proof.Machine
end

section
/-! PROOFS. What the work around a region leaves of the regions: resets, duties and keys, queries and scans, settings of the dies
(R206-R231, R251-R264). -/

namespace Sys2Proof.Machine

variable {p q : Panel}

/-! Operations that leave every region. -/

theorem each_reg {α : Type} (l : List α) {f : α → Panel → Panel} (p : Panel) (h : ∀ a p, (f a p).reg = p.reg := by intros; rfl) :
    (each l f p).reg = p.reg :=
  each_keeps (P := fun q : Panel => q.reg = p.reg) l (fun a q hq => (h a q).trans hq) rfl

theorem ite_reg {c : Prop} [Decidable c] {r : Panel} (hq : q.reg = p.reg) (hr : r.reg = p.reg) : (if c then q else r).reg = p.reg := by
  split
  · exact hq
  · exact hr

@[simp] theorem raiseAs_reg (sp : Span) (ev site key : Nat) (d : Dat) (p : Panel) : (raiseAs sp ev site key d p).reg = p.reg :=
  (raiseAs_reported ..).reg

@[simp] theorem setGroup_reg (g : Nat) (on : Bool) (l : List Nat) (p : Panel) : (setGroup g on l p).reg = p.reg :=
  each_reg l p

@[simp] theorem serveSite_reg (st : USt) (s : Nat) (p : Panel) : (serveSite st s p).reg = p.reg :=
  each_reg _ p (by intros; exact ite_reg rfl rfl)

@[simp] theorem setPermits_reg (f : Nat → Bool) (s : Nat) (p : Panel) : (setPermits f s p).reg = p.reg := rfl

@[simp] theorem coreReset_reg (k : Nat) (p : Panel) : (coreReset k p).reg = p.reg := rfl

@[simp] theorem setRunEpoch_reg (s ep : Nat) (p : Panel) : (setRunEpoch s ep p).reg = p.reg := each_reg (coresOf s) p

@[simp] theorem gaRefuse_reg (s : Nat) (p : Panel) : (gaRefuse s p).reg = p.reg := raise_reg ..

theorem raiseHeld_reported (k : Nat) (l : List HeldEv) (p : Panel) : Reported p (raiseHeld k l p) := by
  induction l generalizing p with
  | nil => exact .refl p
  | cons e l ih => exact (coreRaise_reported ..).trans (ih _)

/-- The end of a bundle: nothing, or a change of the core and its events. -/
theorem closeBundle_cases (k : Nat) (p : Panel) : closeBundle k p = p ∨ ∃ c, Reported (p.setCore k c) (closeBundle k p) := by
  unfold closeBundle
  dsimp only
  split
  · exact .inl rfl
  · exact .inr ⟨_, raiseHeld_reported ..⟩

/-! LIVE values and epochs (R199, R231, R301, R302). -/

@[simp] theorem sendLiveSet_reg (r s : Nat) (ws : List (Nat × Nat × Nat × BitVec 64)) (p : Panel) : (sendLiveSet r s ws p).reg = p.reg :=
  (toSite_reg ..).trans (each_reg ws _ (by intros; exact toSite_reg ..))

@[simp] theorem settleLive_reg (p : Panel) : (settleLive p).reg = p.reg := rfl

@[simp] theorem sendEpoch_reg (part : Nat) (trun : Bool) (tqid ep : Nat) (p : Panel) : (sendEpoch part trun tqid ep p).reg = p.reg := by
  unfold sendEpoch
  exact toGroup_reg ..

@[simp] theorem advanceEpoch_reg (q : Nat) (p : Panel) : (advanceEpoch q p).reg = p.reg := sendEpoch_reg ..

/-! Queries, their completions, and the passes of a Sieve (R255-R258, R324). -/

@[simp] theorem settleQuery_reg (q : Nat) (p : Panel) : (settleQuery q p).reg = p.reg := ite_reg rfl rfl

@[simp] theorem signalCq_reg (f n : Nat) (p : Panel) : (signalCq f n p).reg = p.reg := (raiseVector_reported ..).reg

@[simp] theorem writeCompletion_reg (f : Nat) (c : Completion) (p : Panel) : (writeCompletion f c p).reg = p.reg := by
  unfold writeCompletion
  extract_lets q u v w x
  have hw : w.reg = p.reg := rfl
  have hx : x.reg = p.reg := ite_reg ((signalCq_reg ..).trans hw) hw
  split
  · exact (settleQuery_reg ..).trans hx
  · exact hx

@[simp] theorem postCompletion_reg (f : Nat) (c : Completion) (p : Panel) : (postCompletion f c p).reg = p.reg := by
  unfold postCompletion
  dsimp only
  split
  · split
    · exact settleQuery_reg ..
    · rfl
  · split
    · exact raise_reg ..
    · exact ite_reg rfl (writeCompletion_reg ..)

@[simp] theorem completeQuery_reg (q status stage : Nat) (pairs : List Nat) (p : Panel) :
    (completeQuery q status stage pairs p).reg = p.reg :=
  ite_reg (settleQuery_reg ..) (postCompletion_reg ..)

@[simp] theorem abandonLane_reg (l : Lane) (p : Panel) : (abandonLane l p).reg = p.reg := by
  unfold abandonLane
  exact ite_reg (ite_reg (settleQuery_reg ..) (completeQuery_reg ..)) (ite_reg rfl (advanceEpoch_reg ..))

@[simp] theorem bindLane_reg (r : Nat) (l : List Lane) (b : List Byte) (p : Panel) : (bindLane r l b p).reg = p.reg := by
  unfold bindLane
  dsimp only
  split <;> rfl

@[simp] theorem armBatch_reg (r t : Nat) (p : Panel) : (armBatch r t p).reg = p.reg := each_reg _ p

/-! Directory entries and keys that follow a duty (R225, R239, R264). -/

@[simp] theorem askScan_reg (s : Nat) (p : Panel) : (askScan s p).reg = p.reg := by
  unfold askScan
  dsimp only
  split
  · rfl
  · split <;> rfl

@[simp] theorem beginScan_reg (s : Nat) (p : Panel) : (beginScan s p).reg = p.reg := by
  unfold beginScan
  split
  · rfl
  · exact ite_reg (askScan_reg ..) rfl

@[simp] theorem askCheck_reg (s ga len : Nat) (why : ScanFor) (p : Panel) : (askCheck s ga len why p).reg = p.reg :=
  ite_reg (beginScan_reg ..) rfl

@[simp] theorem pumpShards_reg (s : Nat) (p : Panel) : (pumpShards s p).reg = p.reg :=
  each_reg _ p (by intros; exact ite_reg (askCheck_reg ..) rfl)

@[simp] theorem verifyShard_reg (e : Nat) (p : Panel) : (verifyShard e p).reg = p.reg := pumpShards_reg ..

@[simp] theorem loseEntry_reg (i : Nat) (p : Panel) : (loseEntry i p).reg = p.reg := ite_reg rfl (raise_reg ..)

@[simp] theorem moveShards_reg (part failed sub : Nat) (p : Panel) : (moveShards part failed sub p).reg = p.reg := by
  refine each_reg _ p fun e q => ?_
  simp only [apply_ite Panel.reg, verifyShard_reg, raise_reg, Panel.modDir_reg, loseEntry_reg, ite_self]

@[simp] theorem bumpGen_reg (p : Panel) : (bumpGen p).reg = p.reg := raise_reg ..

@[simp] theorem loadKey_reg (n s : Nat) (p : Panel) : (loadKey n s p).reg = p.reg := rfl

/-! Operations that leave the course of a region: its phase, its step, the barrier at which it arrives, and the release under way. -/

/-- `h` stands in its run where `g` does. -/
structure SameCourse (g h : Region) : Prop where
  phase : h.phase = g.phase
  step : h.step = g.step
  bar : h.bar = g.bar
  starting : h.starting = g.starting
  restart : h.restart = g.restart

/-- Region `r` stands in its run in `q` where it does in `p`. -/
abbrev KeepsCourse (r : Nat) (p q : Panel) : Prop := SameCourse (p.getReg r) (q.getReg r)

theorem SameCourse.refl (g : Region) : SameCourse g g := ⟨rfl, rfl, rfl, rfl, rfl⟩

theorem SameCourse.trans {f g h : Region} (hg : SameCourse f g) (hh : SameCourse g h) : SameCourse f h :=
  ⟨hh.phase.trans hg.phase, hh.step.trans hg.step, hh.bar.trans hg.bar, hh.starting.trans hg.starting, hh.restart.trans hg.restart⟩

theorem Panel.getReg_of_reg (h : q.reg = p.reg) (r : Nat) : q.getReg r = p.getReg r := by
  rw [Panel.getReg, h]
  rfl

theorem keepsCourse_of_reg (h : q.reg = p.reg) (r : Nat) : KeepsCourse r p q := by
  rw [KeepsCourse, Panel.getReg_of_reg h]
  exact .refl _

theorem modReg_keepsCourse {f : Region → Region} (r j : Nat) (p : Panel)
    (hf : ∀ g, SameCourse g (f g) := by intro _; exact ⟨rfl, rfl, rfl, rfl, rfl⟩) : KeepsCourse r p (p.modReg j f) := by
  by_cases h : r = j
  · subst h
    rw [KeepsCourse, Panel.modReg_same]
    exact hf _
  · rw [KeepsCourse, Panel.modReg_ne _ _ h]
    exact .refl _

theorem each_keepsCourse {α : Type} {r : Nat} (l : List α) {f : α → Panel → Panel} (h : ∀ a p, KeepsCourse r p (f a p)) (p : Panel) :
    KeepsCourse r p (each l f p) :=
  each_keeps (P := KeepsCourse r p) l (fun a q hq => hq.trans (h a q)) (.refl _)

theorem ite_keepsCourse {r : Nat} {c : Prop} [Decidable c] {u : Panel} (hq : KeepsCourse r p q) (hu : KeepsCourse r p u) :
    KeepsCourse r p (if c then q else u) := by
  split
  · exact hq
  · exact hu

/-! A die that freezes (R221, R222). -/

/-- `q` has the regions, the supply and the units of `p`. -/
structure SameUnits (p q : Panel) : Prop where
  reg : q.reg = p.reg
  pwr : q.pwr = p.pwr
  unit : q.book.unit = p.book.unit

theorem SameUnits.trans {u : Panel} (hq : SameUnits p q) (hu : SameUnits q u) : SameUnits p u :=
  ⟨hu.reg.trans hq.reg, hu.pwr.trans hq.pwr, hu.unit.trans hq.unit⟩

theorem each_sameUnits {α : Type} (l : List α) {f : α → Panel → Panel} (p : Panel)
    (h : ∀ a p, SameUnits p (f a p) := by intros; exact ⟨rfl, rfl, rfl⟩) : SameUnits p (each l f p) :=
  each_keeps (P := SameUnits p) l (fun a q hq => hq.trans (h a q)) ⟨rfl, rfl, rfl⟩

theorem closeBundle_sameUnits (k : Nat) (p : Panel) : SameUnits p (closeBundle k p) := by
  obtain h | ⟨c, h⟩ := closeBundle_cases k p
  · rw [h]
    exact ⟨rfl, rfl, rfl⟩
  · exact ⟨h.reg, h.pwr, h.book_unit⟩

theorem flushTracks_sameUnits (c : Prop) [Decidable c] (s : Nat) (p : Panel) : SameUnits p (if c then (0, p) else flushTracks s p).2 := by
  split <;> exact ⟨rfl, rfl, rfl⟩

/-- A die that is not frozen freezes: it is frozen, its segment is abandoned, and what it discards is counted with its region. -/
theorem freezeDie_cases {s : Nat} (h : (p.getDie s).frozen = false) : ∃ q, SameUnits p q ∧ (q.getDie s).frozen = true
    ∧ (q.getRtr s).exec = none ∧ (freezeDie s p = q ∨ ∃ j f, freezeDie s p = q.modReg j f) := by
  rw [freezeDie, if_neg (ne_true_of_eq_false h)]
  extract_lets rt keep held p1 posts p2 fl p3 p4 p5
  have hunits : SameUnits p p5 :=
    (((each_sameUnits (coresOf s) p closeBundle_sameUnits).trans (each_sameUnits (coresOf s) p1)).trans
      (flushTracks_sameUnits (keep = true) s p2)).trans ⟨rfl, rfl, rfl⟩
  have hexec : (p4.getRtr s).exec = none := congrArg Router.exec (Panel.modRtr_same fl.2 s _)
  refine ⟨p5, hunits, congrArg DieRun.frozen (Panel.modDie_same p4 s _), hexec, ?_⟩
  generalize p5.regionOf s = o
  cases o with
  | none => exact .inl rfl
  | some j => exact .inr ⟨j, _, rfl⟩

/-- A page entered in a region's map is noted with the region (R277). -/
theorem applyPage_keepsCourse (r j k pg : Nat) (acc : Panel × Nat × Nat) : KeepsCourse r acc.1 (applyPage j k pg acc).1 := by
  unfold applyPage
  dsimp only
  split
  · exact .refl _
  · split
    · exact .refl _
    · split
      · refine keepsCourse_of_reg ?_ r
        exact gaRefuse_reg ..
      · exact (keepsCourse_of_reg (q := acc.1.modCore k _) rfl r).trans (modReg_keepsCourse r j _)

/-- A fold over a panel and two counts that keeps the course at every element. -/
theorem each_acc_keepsCourse {α : Type} {r : Nat} {f : α → Panel × Nat × Nat → Panel × Nat × Nat} (l : List α)
    (h : ∀ a acc, KeepsCourse r acc.1 (f a acc).1) (acc : Panel × Nat × Nat) : KeepsCourse r acc.1 (each l f acc).1 :=
  each_keeps (P := fun x : Panel × Nat × Nat => KeepsCourse r acc.1 x.1) l (fun a x hx => hx.trans (h a x)) (.refl _)

theorem applyCore_keepsCourse (r j k n : Nat) (acc : Panel × Nat × Nat) : KeepsCourse r acc.1 (applyCore j k n acc).1 :=
  each_acc_keepsCourse (List.range n) (applyPage_keepsCourse r j k) (acc.1, acc.2.1, 0)

theorem applyLength_keepsCourse (r j len : Nat) (p : Panel) : KeepsCourse r p (applyLength j len p) := by
  unfold applyLength
  extract_lets x largest q bound took fresh u
  have hx : KeepsCourse r p x.1 :=
    each_acc_keepsCourse (Sq.places p j)
      (fun e acc => each_acc_keepsCourse (coresOf e.2) (fun k acc => applyCore_keepsCourse r j k _ acc) acc) (p, 0, 0)
  have hu : KeepsCourse r x.1 u := by
    exact (keepsCourse_of_reg (q := q.freeNat.2) rfl r).trans (modReg_keepsCourse r j _)
  exact ite_keepsCourse ((hx.trans hu).trans (keepsCourse_of_reg (raiseAs_reg ..) r)) (hx.trans hu)

/-- The end of a batch that a region abandons is of its batches and queries (R263). -/
theorem abandonBatch_keepsCourse (r j : Nat) (p : Panel) : KeepsCourse r p (abandonBatch j p) := by
  unfold abandonBatch
  refine ite_keepsCourse (.refl _) ?_
  extract_lets bs q
  have hq : KeepsCourse r p q :=
    (keepsCourse_of_reg (each_reg _ p) r).trans (modReg_keepsCourse r j _)
  exact ite_keepsCourse hq (hq.trans (keepsCourse_of_reg ((raise_reg ..).trans (each_reg _ _ abandonLane_reg)) r))

end Sys2Proof.Machine
end

section
/-! PROOFS. The root's work on a region: the stages of a release, and the release itself (R214, R215, R230, R231). -/

namespace Sys2Proof.Machine

variable {p : Panel} {s : State} {r d : Nat}

/-! The stages of a release keep the course of the region. -/

theorem enterRun_reg (r d : Nat) (p : Panel) : (enterRun r d p).reg = p.reg :=
  each_reg _ p (by intros; exact serveSite_reg ..)

theorem beginLive_keepsCourse (r : Nat) (p : Panel) : KeepsCourse r p (beginLive r p) := by
  unfold beginLive
  extract_lets g vals q
  have hq : KeepsCourse r p q := modReg_keepsCourse r r p
  exact ite_keepsCourse hq (hq.trans (keepsCourse_of_reg (each_reg _ q (by intros; exact sendLiveSet_reg ..)) r))

theorem laneRecord_reg (r : Nat) (l : Lane) (s : State) : (laneRecord r l s).p.reg = s.p.reg := by
  unfold laneRecord
  dsimp only
  split
  · refine each_keeps (P := fun t : State => t.p.reg = s.p.reg) _ ?_ rfl
    exact fun _ _ h => h
  · rfl

theorem bindBatch_keepsCourse (r : Nat) (s : State) : KeepsCourse r s.p (bindBatch r s).p := by
  unfold bindBatch
  extract_lets p f p1 lanes part p2 p3 p4 p5 p6
  have h1 : p1.reg = s.p.reg := each_reg f.2 p (by intros; exact completeQuery_reg ..)
  have h2 : KeepsCourse r p1 p2 := modReg_keepsCourse r r p1
  have h4 : p4.reg = p2.reg := each_reg lanes p3 (by intros; exact ite_reg (completeQuery_reg ..) rfl)
  have h6 : p6.reg = p4.reg := (each_reg _ p5 (by intros; rfl)).trans (each_reg _ p4 (by intros; exact bindLane_reg ..))
  have hrecords : (each lanes (laneRecord r) { s with p := p6 }).p.reg = p6.reg :=
    each_keeps (P := fun t : State => t.p.reg = p6.reg) lanes (fun l t ht => (laneRecord_reg r l t).trans ht) rfl
  exact ((keepsCourse_of_reg h1 r).trans h2).trans (keepsCourse_of_reg (hrecords.trans (h6.trans h4)) r)

theorem endLive_keepsCourse (r : Nat) (s : State) : KeepsCourse r s.p (endLive r s).p := by
  unfold endLive
  extract_lets g s1 s2
  have h1 : KeepsCourse r s.p s1.p :=
    ((modReg_keepsCourse r r s.p).trans (keepsCourse_of_reg (settleLive_reg _) r)).trans
      (each_keepsCourse _ (fun len q => applyLength_keepsCourse r r len q) _)
  have h2 : KeepsCourse r s1.p s2.p := by
    show KeepsCourse r s1.p (if _ then _ else _ : State).p
    split
    · exact bindBatch_keepsCourse r s1
    · exact .refl _
  have h3 : KeepsCourse r s2.p (s2.p.modReg r fun g => { g with stage := .admission, admitTick := s2.p.now }) :=
    modReg_keepsCourse ..
  exact (h1.trans h2).trans h3

theorem admitStep_keepsCourse (r : Nat) (p : Panel) : KeepsCourse r p (admitStep r p) := by
  unfold admitStep
  extract_lets n e above p1 p2
  have h2 : KeepsCourse r p p2 := (keepsCourse_of_reg (q := p1) rfl r).trans (modReg_keepsCourse r r p1)
  exact ite_keepsCourse (ite_keepsCourse (h2.trans (keepsCourse_of_reg (raise_reg ..) r)) h2) (.refl _)

/-! The release (R214, R215). -/

/-- The region `g` after the release of barrier `d` at tick `now`. -/
def released (d : Nat) (restore : Bool) (now : Nat) (g : Region) : Region :=
  { g with
    bar := none, arrived := [], cur := d, restoring := restore, relTick := now + g.lim.2.1, stage := .arriving, starting := false,
    forced := false, seq := { g.seq with raised := false }
    ctr := { g.ctr with admission := g.ctr.admission + (if g.stage = .admitted then now - g.admitTick else 0) } }

theorem release_getReg (r d : Nat) (restore : Bool) (p : Panel) :
    (release r d restore p).getReg r = released d restore p.now (p.getReg r) :=
  (Panel.getReg_of_reg (toGroup_reg ..) r).trans (Panel.modReg_same ..)

theorem retrievalRelease_getReg (r d : Nat) (p : Panel) : ∃ l, (retrievalRelease r d p).getReg r = { p.getReg r with batches := l } := by
  unfold retrievalRelease
  split
  · exact ⟨_, rfl⟩
  · extract_lets t lanes p1 p2
    have h1 : p1.reg = p.reg := ite_reg (armBatch_reg ..) rfl
    have h2 : p2.reg = p1.reg := ite_reg (each_reg lanes p1 (by intros; exact ite_reg rfl rfl)) rfl
    have hreg := Panel.getReg_of_reg (h2.trans h1) r
    split
    · rw [Panel.modReg_same, hreg]
      exact ⟨_, rfl⟩
    · exact ⟨_, hreg⟩

/-- The judgement of a step that ends is of the region's slip and counters. -/
theorem judgeStep_getReg (r : Nat) (p : Panel) :
    ∃ slip ctr, (judgeStep r p).getReg r = { p.getReg r with slip := slip, ctr := ctr } := by
  unfold judgeStep
  extract_lets g x slip above q
  have hq : q.getReg r = _ := Panel.modReg_same p r _
  split
  · exact ⟨_, _, (Panel.getReg_of_reg (raise_reg ..) r).trans hq⟩
  · exact ⟨_, _, hq⟩

theorem endStep_getReg (r : Nat) (p : Panel) :
    ∃ slip ctr, (endStep r p).getReg r = { p.getReg r with slip := slip, ctr := ctr } := by
  obtain ⟨slip, ctr, h⟩ := judgeStep_getReg r (p.modReg r fun g => { g with ctr := { g.ctr with completed := g.ctr.completed + 1 } })
  rw [Panel.modReg_same] at h
  exact ⟨slip, ctr, h⟩

theorem judgeStep_now (r : Nat) (p : Panel) : (judgeStep r p).now = p.now := by
  unfold judgeStep
  dsimp only
  split
  · exact raise_now ..
  · rfl

/-- Region `h` after a release of barrier `d` at tick `now`: `g` with no barrier open and the barrier's descriptor in force. -/
structure ReleasedAs (d now : Nat) (g h : Region) : Prop where
  phase : h.phase = g.phase
  bar : h.bar = none
  cur : h.cur = d
  relTick : h.relTick = now + g.lim.2.1

/-- The release of START and of a restart ends no step. -/
theorem releaseBarrier_of_entering (h : (p.getReg r).starting = true ∨ (p.getReg r).restart.isSome = true) :
    ReleasedAs d p.now (p.getReg r) ((releaseBarrier r d p).getReg r) ∧ ((releaseBarrier r d p).getReg r).step = (p.getReg r).step := by
  unfold releaseBarrier
  dsimp only
  by_cases hst : (p.getReg r).starting = true
  case pos =>
    rw [if_pos hst]
    obtain ⟨l, hl⟩ := retrievalRelease_getReg r d (release r d false p)
    rw [hl, release_getReg]
    exact ⟨⟨rfl, rfl, rfl, rfl⟩, rfl⟩
  case neg =>
    rw [if_neg hst, if_pos (h.resolve_left hst), Panel.getReg_of_reg (raise_reg ..), release_getReg, Panel.modReg_same]
    exact ⟨⟨rfl, rfl, rfl, rfl⟩, rfl⟩

/-- Any other release ends a step, and STEP counts it. -/
theorem releaseBarrier_of_running (hst : (p.getReg r).starting = false) (hre : (p.getReg r).restart = none) :
    ReleasedAs d p.now (p.getReg r) ((releaseBarrier r d p).getReg r)
      ∧ ((releaseBarrier r d p).getReg r).step = ((p.getReg r).step + 1) % 2 ^ 32 := by
  unfold releaseBarrier
  simp only [hst, hre, Option.isSome_none, Bool.false_eq_true, if_false]
  obtain ⟨l, hl⟩ := retrievalRelease_getReg r d (release r d false ((endStep r p).modReg r fun g =>
    { g with slots := commitSlot d p (p.getReg r) r, step := (g.step + 1) % 2 ^ 32 }))
  obtain ⟨slip, ctr, hend⟩ := endStep_getReg r p
  have hnow : (endStep r p).now = p.now := judgeStep_now ..
  rw [hl, release_getReg, Panel.modReg_same, hend, ← hnow]
  exact ⟨⟨rfl, rfl, rfl, rfl⟩, rfl⟩

theorem releaseBarrier_released (r d : Nat) (p : Panel) : ReleasedAs d p.now (p.getReg r) ((releaseBarrier r d p).getReg r) := by
  by_cases h : (p.getReg r).starting = true ∨ (p.getReg r).restart.isSome = true
  · exact (releaseBarrier_of_entering h).1
  · obtain ⟨hst, hre⟩ := not_or.mp h
    exact (releaseBarrier_of_running (eq_false_of_ne_true hst) (Option.not_isSome_iff_eq_none.mp hre)).1

/-! As far as the conditions of R214 let it go. -/

/-- The root's work keeps the course of the region, or ends with a release of a region that was at the same place in its run. -/
theorem progress_cases (r : Nat) (s : State) :
    KeepsCourse r s.p (progress r s).p ∨ ∃ q d, KeepsCourse r s.p q ∧ (progress r s).p = releaseBarrier r d q := by
  unfold progress
  extract_lets g
  split
  case h_1 => exact .inl (.refl _)
  case h_2 d _ =>
    split
    case isTrue => exact .inl (.refl _)
    case isFalse =>
      extract_lets s1 s2 s3
      have h1 : KeepsCourse r s.p s1.p := by
        show KeepsCourse r s.p (if _ then _ else _ : State).p
        split
        · exact beginLive_keepsCourse ..
        · exact .refl _
      have h2 : KeepsCourse r s1.p s2.p := by
        show KeepsCourse r s1.p (if _ then _ else _ : State).p
        split
        · exact endLive_keepsCourse ..
        · exact .refl _
      have h3 : KeepsCourse r s2.p s3.p := by
        show KeepsCourse r s2.p (if _ then _ else _ : State).p
        split
        · exact admitStep_keepsCourse ..
        · exact .refl _
      split
      · exact .inr ⟨s3.p, d, (h1.trans h2).trans h3, rfl⟩
      · exact .inl ((h1.trans h2).trans h3)

theorem progress_phase (r : Nat) (s : State) : ((progress r s).p.getReg r).phase = (s.p.getReg r).phase := by
  obtain h | ⟨q, d, h, heq⟩ := progress_cases r s
  · exact h.phase
  · rw [heq]
    exact (releaseBarrier_released r d q).phase.trans h.phase

/-- Without a barrier the root has nothing to do. -/
theorem progress_of_no_barrier (h : (s.p.getReg r).bar = none) : progress r s = s := by
  rw [progress, h]

/-- Nor while a freeze is pending. -/
theorem progress_of_freezing (h : (s.p.getReg r).freezing = true) : progress r s = s := by
  unfold progress
  dsimp only
  split
  · rfl
  · rw [if_pos (.inr h)]

/-- An admitted barrier of a region that no block holds is released. -/
theorem progress_of_admitted (hph : (s.p.getReg r).phase = .active) (hfr : (s.p.getReg r).freezing = false)
    (hbar : (s.p.getReg r).bar = some d) (hst : (s.p.getReg r).stage = .admitted) (hheld : regionHeld s.p r = false) :
    progress r s = s.onP (releaseBarrier r d) := by
  simp [progress, hbar, hph, hfr, hst, hheld]

/-- A restart's release, due or done: STEP stands, and until it is done the restart is under way. -/
theorem progress_of_restarting (h : (s.p.getReg r).restart.isSome = true ∨ (s.p.getReg r).bar = none) :
    ((progress r s).p.getReg r).step = (s.p.getReg r).step
      ∧ (((progress r s).p.getReg r).restart.isSome = true ∨ ((progress r s).p.getReg r).bar = none) := by
  by_cases hbar : (s.p.getReg r).bar = none
  case pos =>
    rw [progress_of_no_barrier hbar]
    exact ⟨rfl, h⟩
  case neg =>
    obtain hc | ⟨q, d, hc, heq⟩ := progress_cases r s
    · exact ⟨hc.step, .inl (hc.restart ▸ h.resolve_right hbar)⟩
    · obtain ⟨hr, hstep⟩ := releaseBarrier_of_entering (d := d) (.inr (hc.restart ▸ h.resolve_right hbar))
      rw [heq]
      exact ⟨hstep.trans hc.step, .inr hr.bar⟩

end Sys2Proof.Machine
end

section
/-! PROOFS. The control commands of a region (R206-R209, R220, R222, R276). -/

namespace Sys2Proof.Machine

variable {p : Panel} {s : State} {r part row0 col0 row1 col1 image restore : Nat}

theorem isRegion_of_lt (hr : r < 64) : isRegion r = true := decide_eq_true hr

/-- A change of the panel that leaves it leaves the state. -/
theorem State.onP_eq_self {f : Panel → Panel} (h : f s.p = s.p) : s.onP f = s := by
  rw [State.onP, h]

theorem refreshDuty_getReg (r : Nat) (p : Panel) : ∃ t, (refreshDuty r p).getReg r = { p.getReg r with duty := t } :=
  ⟨_, Panel.modReg_same ..⟩

/-! Definition (R206). -/

theorem exec_regionRecordCommit (hr : r < 64)
    (hw : part < 256 ∧ row0 < 256 ∧ col0 < 256 ∧ row1 < 256 ∧ col1 < 256 ∧ image < 2 ^ 64 ∧ restore < 256) :
    exec (.regionRecordCommit r part row0 col0 row1 col1 image restore) s
      = .next (s.onP fun p => (defineRegion r part row0 col0 row1 col1 image restore p).2) := by
  change execRegionRecordCommit r part row0 col0 row1 col1 image restore s = _
  rw [execRegionRecordCommit, isRegion_of_lt hr, State.runP_true, if_pos hw]
  rfl

theorem defineRegion_of_not_definable (h : regionDefinable p r part row0 col0 row1 col1 = false) :
    (defineRegion r part row0 col0 row1 col1 image restore p).2 = p := by
  rw [defineRegion, if_pos (ne_true_of_eq_false h)]

theorem defineRegion_getReg (h : regionDefinable p r part row0 col0 row1 col1 = true) :
    let g := (defineRegion r part row0 col0 row1 col1 image restore p).2.getReg r
    g.phase = .defined ∧ g.part = part ∧ g.image = image ∧ g.members = rectMembers p row0 col0 row1 col1 := by
  rw [defineRegion, if_neg (not_not_intro h)]
  extract_lets ms subs g0 p1 p2 g
  have hreg : (setGroup r true ms (each ms (serveSite .assigned) p2)).reg = p1.reg :=
    ((setGroup_reg ..).trans (each_reg ms p2 (serveSite_reg _))).trans (each_reg ms p1 (setPermits_reg _))
  obtain ⟨t, ht⟩ := refreshDuty_getReg r (setGroup r true ms (each ms (serveSite .assigned) p2))
  have hg : g = _ := ht.trans (by rw [Panel.getReg_of_reg hreg, Panel.modReg_same])
  rw [hg]
  exact ⟨rfl, rfl, rfl, rfl⟩

/-! ARM and START (R209). -/

theorem exec_arm (hr : r < 64) : exec (.arm r) s = .next (s.onP fun p => (armRegion r p).2) := by
  change execArm r s = _
  rw [execArm, isRegion_of_lt hr]
  rfl

theorem armRegion_of_not_defined (h : (p.getReg r).phase ≠ .defined) : (armRegion r p).2 = p := by
  rw [armRegion, if_neg fun hc => h hc.1]

theorem armRegion_getReg (hph : (p.getReg r).phase = .defined) (hd : descReady p r 0 = true)
    (hq : ∀ k ∈ regionCores p r, windowsQuiet (p.getCore k) = true) :
    ((armRegion r p).2.getReg r).phase = .armed ∧ ((armRegion r p).2.getReg r).members = (p.getReg r).members := by
  rw [armRegion, if_pos ⟨hph, hd, List.all_eq_true.mpr hq⟩]
  obtain ⟨t, ht⟩ := refreshDuty_getReg r (p.modReg r fun g => { g with phase := .armed })
  rw [ht, Panel.modReg_same]
  exact ⟨rfl, rfl⟩

theorem exec_start (hr : r < 64) : exec (.start r) s = .next (startRegion r s).2 := by
  change execStart r s = _
  rw [execStart, isRegion_of_lt hr, State.run_true]

theorem startRegion_of_not_armed (h : (s.p.getReg r).phase ≠ .armed) : (startRegion r s).2 = s := by
  rw [startRegion, if_pos h]

/-- START makes the region ACTIVE, and the root's work on its first release keeps it so. -/
theorem startRegion_phase (h : (s.p.getReg r).phase = .armed) : ((startRegion r s).2.p.getReg r).phase = .active := by
  rw [startRegion, if_neg (not_not_intro h), progress_phase, State.onP_p, Panel.getReg_of_reg (enterRun_reg ..),
    Panel.getReg_of_reg (each_reg _ _ fun m q => (setRunEpoch_reg ..).trans (each_reg (coresOf m) q)), Panel.modReg_same]

/-! FREEZE, and its completion (R209, R220, R222). -/

theorem exec_freezeCommand (hr : r < 64) : exec (.freezeCommand r) s = .next (s.onP fun p => (freezeRegion r p).2) := by
  change execFreezeCommand r s = _
  rw [execFreezeCommand, isRegion_of_lt hr]
  rfl

theorem freezeRegion_of_not_active (h : (p.getReg r).phase ≠ .active) : (freezeRegion r p).2 = p := by
  rw [freezeRegion, if_neg h]

/-- The ACTIVE region `g` after the trigger of a freeze at tick `now`. -/
def triggered (cause now : Nat) (g : Region) : Region :=
  { g with
    freezing := true, cause := cause, firstTick := now, stage := .arriving, lastCell := now
    ctr := { g.ctr with
      freezes := g.ctr.freezes + 1
      admission := g.ctr.admission + (if g.stage = .admission ∨ g.stage = .admitted then now - g.admitTick else 0) } }

theorem triggerFreeze_eq (hph : (p.getReg r).phase = .active) (hfr : (p.getReg r).freezing = false) (cause : Nat) :
    triggerFreeze r cause p = raise 0x070A 0xFF (keyRegion r) (some (BitVec.ofNat 64 cause)) (p.modReg r (triggered cause p.now)) := by
  simp only [triggerFreeze, hph, hfr, ne_eq, not_true_eq_false, Bool.false_eq_true, if_false]
  rfl

theorem triggerFreeze_getReg (hph : (p.getReg r).phase = .active) (hfr : (p.getReg r).freezing = false) (cause : Nat) :
    (triggerFreeze r cause p).getReg r = triggered cause p.now (p.getReg r) := by
  rw [triggerFreeze_eq hph hfr, Panel.getReg_of_reg (raise_reg ..), Panel.modReg_same]

theorem freezeRegion_of_active (h : (p.getReg r).phase = .active) : (freezeRegion r p).2 = triggerFreeze r 0x070A p := by
  rw [freezeRegion, if_pos h]

/-- A freeze that has stopped its footprint, no cell having come for 100 ticks, leaves the region FROZEN. -/
theorem exec_freezeComplete (hr : r < 64) (hph : (s.p.getReg r).phase = .active) (hfr : (s.p.getReg r).freezing = true)
    (hstop : footprintStopped s.p r = true) (hcell : (s.p.getReg r).lastCell + 100 ≤ s.p.now) :
    ∃ t, exec (.freezeComplete r) s = .next t ∧ t.mem = s.mem ∧ (t.p.getReg r).phase = .frozen := by
  change ∃ t, execFreezeComplete r s = .next t ∧ _
  rw [execFreezeComplete, isRegion_of_lt hr, State.runP_true]
  refine ⟨_, rfl, rfl, ?_⟩
  rw [if_pos ⟨hph, hfr, hstop, hcell⟩]
  extract_lets p1 p2 p3 p4 p5
  have h3 : (p3.getReg r).phase = .frozen := congrArg Region.phase (Panel.modReg_same p2 r _)
  have h5 : p5.reg = p3.reg := each_reg _ p3 fun m q => ite_reg (serveSite_reg .assigned m q) rfl
  exact (abandonBatch_keepsCourse r r p5).phase.trans ((congrArg Region.phase (Panel.getReg_of_reg h5 r)).trans h3)

/-! DISSOLVE (R209, R276). -/

theorem exec_regionDissolve (hr : r < 64) : exec (.regionDissolve r) s = .next (s.onP fun p => (dissolveRegion r p).2) := by
  change execRegionDissolve r s = _
  rw [execRegionDissolve, isRegion_of_lt hr]
  rfl

theorem dissolveRegion_of_free_or_active (h : (p.getReg r).phase = .free ∨ (p.getReg r).phase = .active) :
    (dissolveRegion r p).2 = p := by
  obtain h | h := h <;> simp [dissolveRegion, h]

theorem dissolveRegion_getReg
    (h : (p.getReg r).phase = .defined ∨ (p.getReg r).phase = .armed ∨ (p.getReg r).phase = .frozen ∨ (p.getReg r).phase = .ended) :
    ((dissolveRegion r p).2.getReg r).phase = .free ∧ ((dissolveRegion r p).2.getReg r).members = [] := by
  rw [dissolveRegion, if_neg (not_not_intro h)]
  dsimp only
  rw [Panel.getReg_of_reg (setGroup_reg ..), Panel.modReg_same]
  exact ⟨rfl, rfl⟩

end Sys2Proof.Machine
end

section
open Sys2Proof Sys2Proof.Machine

/-- Settles O27: each command's effect on the panel, and then the region in it. -/
theorem regionCommandsMoveThePhase : Obligations.RegionCommandsMoveThePhase := by
  intro r s hr g
  refine ⟨fun part row0 col0 row1 col1 image restore h1 h2 h3 h4 h5 h6 h7 => ⟨fun hdef => ?define, fun hnot => ?notDefinable⟩,
    fun hph hd hq => ?arm, fun hph => ?notDefined, fun hph => ?start, fun hph => ?notArmed, fun hph hfr => ?freeze,
    fun hph => ?notActive, fun hph hfr hstop hcell => exec_freezeComplete hr hph hfr hstop hcell, fun hph => ?dissolve,
    fun hph => ?notDissolved⟩
  case define => exact ⟨_, exec_regionRecordCommit hr ⟨h1, h2, h3, h4, h5, h6, h7⟩, rfl, defineRegion_getReg hdef⟩
  case notDefinable =>
    rw [exec_regionRecordCommit hr ⟨h1, h2, h3, h4, h5, h6, h7⟩, State.onP_eq_self (defineRegion_of_not_definable hnot)]
  case arm => exact ⟨_, exec_arm hr, rfl, armRegion_getReg hph hd hq⟩
  case notDefined => rw [exec_arm hr, State.onP_eq_self (armRegion_of_not_defined hph)]
  case start => exact ⟨_, exec_start hr, startRegion_phase hph⟩
  case notArmed => rw [exec_start hr, startRegion_of_not_armed hph]
  case freeze =>
    refine ⟨_, exec_freezeCommand hr, rfl, ?_⟩
    rw [State.onP_p, freezeRegion_of_active hph, triggerFreeze_getReg hph hfr]
    exact ⟨hph, rfl, rfl⟩
  case notActive => rw [exec_freezeCommand hr, State.onP_eq_self (freezeRegion_of_not_active hph)]
  case dissolve => exact ⟨_, exec_regionDissolve hr, rfl, dissolveRegion_getReg hph⟩
  case notDissolved => rw [exec_regionDissolve hr, State.onP_eq_self (dissolveRegion_of_free_or_active hph)]

end

section
/-! PROOFS. Freezes at the hub, and messages that a node takes (R216, R220-R222, R294, R300, R304). -/

namespace Sys2Proof.Machine

variable {p : Panel} {s : State} {r c d b m cause ev node : Nat} {k : Pkt}

/-! A message that a node takes (R294). -/

theorem takePkt_of_delivered (h : Delivered node k p) : takePkt node k p = some (taken node p) := if_pos h.2

/-- A message that is not for the active hub alone is acted on where it was delivered. -/
theorem onPkt_of_delivered (h : Delivered node k p) (hd : k.dmode ≠ 1) (f : Panel → Panel) : onPkt node k f p = f (taken node p) := by
  rw [onPkt, takePkt_of_delivered h]
  simp [idleHub, hd]

/-- The active hub acts on what is delivered to it. -/
theorem onPktS_of_delivered (h : Delivered s.p.activeHub k s.p) (f : State → State) :
    onPktS k s.p.activeHub f s = f (s.onP (taken s.p.activeHub)) := by
  have hactive : (taken s.p.activeHub s.p).activeHub = s.p.activeHub := rfl
  rw [onPktS, takePkt_of_delivered h]
  simp [idleHub, hactive, State.onP]

/-! An immediate freeze (R216, R221). -/

section
variable (hph : (p.getReg r).phase = .active) (hfr : (p.getReg r).freezing = false)
include hph hfr

theorem triggerFreeze_logged (h : NewestLogged ev p) : Logged ev (triggerFreeze r cause p) := by
  rw [triggerFreeze_eq hph hfr]
  have hspan : evSpan 0x070A = .always := by decide
  have hmod : NewestLogged ev (p.modReg r (triggered cause p.now)) := h.congr rfl rfl
  exact hmod.raise hspan ..

/-- The region as its immediate freeze leaves it: FREEZE is sent where the freeze was not immediate before. -/
theorem immediateFreeze_cases (cause : Nat) :
    ((p.getReg r).immediate = true ∧ immediateFreeze r cause p = triggerFreeze r cause p)
      ∨ (p.getReg r).immediate = false ∧ immediateFreeze r cause p = toGroup 2 r (.freeze r cause)
          ((triggerFreeze r cause p).modReg r fun g => { g with immediate := true, lastCell := (triggerFreeze r cause p).now }) := by
  have hg := triggerFreeze_getReg hph hfr cause
  have hphase : ((triggerFreeze r cause p).getReg r).phase = .active := by rw [hg]; exact hph
  have himm : ((triggerFreeze r cause p).getReg r).immediate = (p.getReg r).immediate := by rw [hg]; rfl
  have hcause : ((triggerFreeze r cause p).getReg r).cause = cause := by rw [hg]; rfl
  cases hi : (p.getReg r).immediate with
  | true => exact .inl ⟨rfl, by simp [immediateFreeze, himm, hi]⟩
  | false => exact .inr ⟨rfl, by simp [immediateFreeze, hphase, himm, hi, hcause]⟩

theorem immediateFreeze_getReg (cause : Nat) :
    ((immediateFreeze r cause p).getReg r).freezing = true ∧ ((immediateFreeze r cause p).getReg r).cause = cause
      ∧ ((immediateFreeze r cause p).getReg r).immediate = true := by
  have hg := triggerFreeze_getReg hph hfr cause
  obtain ⟨himm, h⟩ | ⟨-, h⟩ := immediateFreeze_cases hph hfr cause
  · rw [h, hg]
    exact ⟨rfl, rfl, himm⟩
  · rw [h, Panel.getReg_of_reg (toGroup_reg ..), Panel.modReg_same, hg]
    exact ⟨rfl, rfl, rfl⟩

theorem immediateFreeze_logged (cause : Nat) (h : NewestLogged ev p) : Logged ev (immediateFreeze r cause p) := by
  have hlog := triggerFreeze_logged (cause := cause) hph hfr h
  obtain ⟨-, heq⟩ | ⟨-, heq⟩ := immediateFreeze_cases hph hfr cause
  · rw [heq]
    exact hlog
  · have hctl := toGroup_onlyCtl 2 r (.freeze r cause)
      ((triggerFreeze r cause p).modReg r fun g => { g with immediate := true, lastCell := (triggerFreeze r cause p).now })
    rw [heq]
    exact hlog.congr hctl.book hctl.now

/-- FREEZE is on its way from a hub that can flood. -/
theorem immediateFreeze_sent (himm : (p.getReg r).immediate = false) (cause : Nat) (hf : hubFloods p) :
    Sent (immediateFreeze r cause p).activeHub (.freeze r cause) (immediateFreeze r cause p) := by
  obtain ⟨h, -⟩ | ⟨-, heq⟩ := immediateFreeze_cases hph hfr cause
  · rw [himm] at h
    cases h
  · have hf' : hubFloods ((triggerFreeze r cause p).modReg r fun g =>
        { g with immediate := true, lastCell := (triggerFreeze r cause p).now }) := by
      rw [triggerFreeze_eq hph hfr]
      exact hubFloods_congr (raise_pwr ..) (raise_book_unit ..) (raise_book_active ..) (raise_ctl ..) hf
    have hactive := (toGroup_onlyCtl 2 r (.freeze r cause)
      ((triggerFreeze r cause p).modReg r fun g => { g with immediate := true, lastCell := (triggerFreeze r cause p).now })).book
    rw [heq, Panel.activeHub, hactive]
    exact toGroup_sent hf' (Nat.le_refl 2) r (by simp)

end

/-- The hub raises an event on a region and freezes it at once, for that cause (R216). -/
def stopRegion (r ev : Nat) (p : Panel) : Panel := immediateFreeze r ev (raise ev 0xFF (keyRegion r) none p)

theorem stopRegion_stops (hph : (p.getReg r).phase = .active) (hfr : (p.getReg r).freezing = false) (hev : evSpan ev = .always) :
    Logged ev (stopRegion r ev p) ∧ ((stopRegion r ev p).getReg r).freezing = true
      ∧ ((stopRegion r ev p).getReg r).immediate = true ∧ ((stopRegion r ev p).getReg r).cause = ev := by
  have hreg : (raise ev 0xFF (keyRegion r) none p).getReg r = p.getReg r := Panel.getReg_of_reg (raise_reg ..) r
  rw [← hreg] at hph hfr
  obtain ⟨hfreezing, hcause, himm⟩ := immediateFreeze_getReg hph hfr ev
  exact ⟨immediateFreeze_logged hph hfr ev (raise_newestLogged hev ..), hfreezing, himm, hcause⟩

theorem stopRegion_sent (hph : (p.getReg r).phase = .active) (hfr : (p.getReg r).freezing = false)
    (himm : (p.getReg r).immediate = false) (hf : hubFloods p) :
    Sent (stopRegion r ev p).activeHub (.freeze r ev) (stopRegion r ev p) := by
  have hreg : (raise ev 0xFF (keyRegion r) none p).getReg r = p.getReg r := Panel.getReg_of_reg (raise_reg ..) r
  rw [← hreg] at hph hfr himm
  exact immediateFreeze_sent hph hfr himm ev
    (hubFloods_congr (raise_pwr ..) (raise_book_unit ..) (raise_book_active ..) (raise_ctl ..) hf)

end Sys2Proof.Machine
end

section
/-! PROOFS. Arrivals, releases, and the start of a step at a die (R213-R215, R293, R300). -/

namespace Sys2Proof.Machine

variable {p : Panel} {s : State} {cs r d b m : Nat} {k : Pkt}

/-! The arrival of a die (R213). -/

/-- Die `cs` has kept its arrival at barrier `d` as unanswered. -/
def arrivedAt (cs d : Nat) (p : Panel) : Panel := countArrival cs (p.modDie cs fun x => { x with sent := some d, sentAt := p.now })

theorem arrivedAt_sent (cs d : Nat) (p : Panel) : ((arrivedAt cs d p).getDie cs).sent = some d := by
  rw [arrivedAt, countArrival, Panel.modDie_same, Panel.modDie_same]

theorem exec_dieBarrierArrival (hcs : isCompute cs = true) (hd : dieBarriers s.p cs = [d]) (ha : dieArrives s.p cs d = true)
    (hr : (s.p.getDie cs).region = some r) : exec (.dieBarrierArrival cs) s
      = .next (s.onP fun p => toHub cs 0 (.arrive r d (blockOf cs) (2 ^ blockBit cs)) (arrivedAt cs d p)) := by
  change execDieBarrierArrival cs s = _
  rw [execDieBarrierArrival, hcs, State.runP_true]
  simp only [hr, hd, ha, if_true]
  rfl

/-! ARRIVE at a node (R300). -/

theorem exec_arrive_forwarded {node : Nat} (hk : k.msg = .arrive r d b m) (h : Delivered node k s.p)
    (hto : unicastTo (s.p.getNode node) k ≠ node) :
    exec (.arrive node k) s = .next { s with p := forwardUnicast node k (taken node s.p) } := by
  change execArrive node k s = _
  rw [execArrive, h.1, State.run_true]
  simp only [hk, if_neg hto, State.onP, takePkt_of_delivered h]

theorem exec_arrive_root (hk : k.msg = .arrive r d b m) (h : Delivered s.p.activeHub k s.p)
    (hto : unicastTo (s.p.getNode s.p.activeHub) k = s.p.activeHub) :
    exec (.arrive s.p.activeHub k) s = .next (rootArrive r d b m (s.onP (taken s.p.activeHub))) := by
  change execArrive s.p.activeHub k s = _
  rw [execArrive, h.1, State.run_true]
  simp only [hk, if_pos hto]
  rw [onPktS_of_delivered h]

/-- The barred dies of an arrival: each gives a sign of health (R499). -/
def signs (b m : Nat) (p : Panel) : Panel := each (((bitsSet 9 m).map (blockSite b)).filter (barred p)) healthSign p

@[simp] theorem signs_reg (b m : Nat) (p : Panel) : (signs b m p).reg = p.reg := each_reg _ p (by intros; exact raiseAs_reg ..)

@[simp] theorem signs_ctl (b m : Nat) (p : Panel) : (signs b m p).ctl = p.ctl := by
  refine each_keeps (P := fun q : Panel => q.ctl = p.ctl) _ (fun key q hq => ?_) rfl
  exact (raiseAs_ctl ..).trans hq

theorem rootArrive_of_not_active (h : (s.p.getReg r).phase ≠ .active) : rootArrive r d b m s = s.onP (signs b m) := by
  rw [rootArrive, if_pos (.inl h)]
  rfl

/-- An arrival at another barrier than the one open stops the region (R216). -/
theorem rootArrive_of_mismatch {e : Nat} (hph : (s.p.getReg r).phase = .active) (hbar : (s.p.getReg r).bar = some e) (he : e ≠ d)
    (hone : ∃ y ∈ (bitsSet 9 m).map (blockSite b), barred s.p y = false) :
    rootArrive r d b m s = (s.onP (signs b m)).onP (stopRegion r 0x0707) := by
  obtain ⟨y, hy, hyb⟩ := hone
  have hsome : (((bitsSet 9 m).map (blockSite b)).filter fun x => !barred s.p x).isEmpty = false := by
    rw [List.isEmpty_eq_false_iff_exists_mem]
    exact ⟨y, List.mem_filter.mpr ⟨hy, by rw [hyb]; rfl⟩⟩
  simp only [rootArrive, hph, hbar, hsome, he, ne_eq, not_true_eq_false, Bool.false_eq_true, or_self, if_false, Option.isSome_some,
    Option.some.injEq, not_false_eq_true, and_self, if_true]
  rfl

/-! The release of a barrier at the root (R214, R230). -/

theorem exec_barrierRelease (hr : r < 64) : exec (.barrierRelease r) s = .next (progress r (progressRestart r s)) := by
  change execBarrierRelease r s = _
  rw [execBarrierRelease, isRegion_of_lt hr, State.run_true]

theorem progressRestart_of_none (h : (s.p.getReg r).restart = none) : progressRestart r s = s := by
  rw [progressRestart, h]

/-! RELEASE at a die, and the start of its step (R215). -/

/-- A release that answers the die's arrival, not late, arms its start tick. -/
theorem exec_release {rst : Bool} {tick : Nat} (hk : k.msg = .release r d rst tick) (h : Delivered cs k s.p) (hd : k.dmode ≠ 1)
    (hreg : (s.p.getDie cs).region = some r) (hsent : (s.p.getDie cs).sent = some d) (hrel : (s.p.getDie cs).rel = none)
    (hstop : (s.p.getDie cs).stopAsked = none) (hfr : (s.p.getDie cs).frozen = false) (hnow : s.p.now ≤ tick) :
    exec (.release cs k) s = .next (s.onP fun p => (taken cs p).modDie cs fun x => { x with rel := some (d, rst, tick) }) := by
  have hdie : (taken cs s.p).getDie cs = s.p.getDie cs := rfl
  have htb : (taken cs s.p).now = s.p.now := rfl
  change execRelease cs k s = _
  rw [execRelease, h.1, State.runP_true, onPkt_of_delivered h hd]
  simp only [hk, hdie, htb, hreg, hsent, hrel, hstop, hfr, Option.isNone_none, Bool.false_eq_true, not_false_eq_true, and_self, if_true,
    if_neg (Nat.not_lt.mpr hnow)]
  rfl

/-- The die `x` at run cycle 0 of a step that starts at `tick`. -/
def atCycle0 (tick : Nat) (x : DieRun) : DieRun :=
  { x with rel := none, sent := none, tick := tick, clocked := none, fresh := false, running := true, stopAsked := none }

/-- Run cycle 0 of a step: the release and the arrival are gone, and the router is at cycle 0 of the descriptor's segment. -/
theorem startDie_fields (hreg : (p.getDie cs).region = some r) (rst : Bool) (tick : Nat) :
    ((startDie cs d rst tick p).getDie cs).rel = none ∧ ((startDie cs d rst tick p).getDie cs).sent = none
      ∧ ((startDie cs d rst tick p).getDie cs).tick = tick ∧ ((startDie cs d rst tick p).getRtr cs).cyc = 0
      ∧ ((startDie cs d rst tick p).getRtr cs).exec = some (Step.seg (stepDesc p r d)) := by
  simp only [startDie, hreg]
  generalize hq : stepLatches cs _ = q
  apply each_keeps (P := fun u : Panel => (u.getDie cs).rel = none ∧ (u.getDie cs).sent = none ∧ (u.getDie cs).tick = tick
    ∧ (u.getRtr cs).cyc = 0 ∧ (u.getRtr cs).exec = some (Step.seg (stepDesc p r d)))
  case h => exact fun _ _ hu => hu
  case hb =>
    have hdie : q.getDie cs = atCycle0 tick (p.getDie cs) := by
      rw [← hq]
      exact Panel.modDie_same p cs (atCycle0 tick)
    have hrtr : q.getRtr cs = startRouter (Step.seg (stepDesc p r d)) (p.getRtr cs) := by
      rw [← hq]
      exact Panel.modRtr_same (p.modDie cs (atCycle0 tick)) cs _
    rw [hdie, hrtr]
    exact ⟨rfl, rfl, rfl, rfl, rfl⟩

theorem exec_stepStart (hcs : isCompute cs = true) {rst : Bool} {tick : Nat} (hrel : (s.p.getDie cs).rel = some (d, rst, tick))
    (hfr : (s.p.getDie cs).frozen = false) (hnow : tick ≤ s.p.now) (hclk : (s.p.getDie cs).clkT ≤ (s.p.getClk cs).clk) :
    exec (.stepStart cs) s = .next (s.onP (startDie cs d rst tick)) := by
  change execStepStart cs s = _
  rw [execStepStart, hcs, State.runP_true]
  simp only [hrel, hfr, hnow, hclk, Bool.false_eq_true, not_false_eq_true, and_self, if_true]
  rfl

theorem exec_stepStart_early (hcs : isCompute cs = true) {rst : Bool} {tick : Nat}
    (hrel : (s.p.getDie cs).rel = some (d, rst, tick)) (hnow : s.p.now < tick) : exec (.stepStart cs) s = .next s := by
  change execStepStart cs s = _
  rw [execStepStart, hcs, State.runP_true]
  simp only [hrel, Nat.not_le.mpr hnow, false_and, if_false]

end Sys2Proof.Machine
end

section
open Sys2Proof Sys2Proof.Machine

/-- Settles O28: each command's effect on the panel, and then the fields of that effect. -/
theorem barriersAreArrivedAtAndReleased : Obligations.BarriersAreArrivedAtAndReleased := by
  intro cs r d s hcs hr g x
  refine ⟨fun hds ha hreg => ?arrival, fun k b m hk h hto => exec_arrive_forwarded hk h hto,
    fun k b m hk h hto => ⟨fun hph => ?notActive, fun e hph hfr hbar he hone => ?mismatch⟩,
    fun hph hfr hbar hst hstart hre hheld => ?released, fun hre hnone => ?notReleased,
    fun k rst tick hk h hd hreg hsent hrel hstop hfr hnow => ?armed,
    fun rst tick hrel hfr hreg => ⟨fun hnow hclk => ?started, fun hnow => exec_stepStart_early hcs hrel hnow⟩⟩
  case arrival =>
    refine ⟨_, exec_dieBarrierArrival hcs hds ha hreg, rfl, ?_, fun ht => toHub_arrive_sent ?_ hcs 0 r d (blockOf cs) (blockBit cs)⟩
    · rw [State.onP_p, Panel.getDie, toHub_die]
      exact arrivedAt_sent cs d s.p
    · rw [takesPart_congr (q := arrivedAt cs d s.p) (p := s.p) rfl rfl, ht]
  case notActive =>
    have hexec := exec_arrive_root hk h hto
    rw [rootArrive_of_not_active (s := s.onP (taken s.p.activeHub)) hph] at hexec
    exact ⟨_, hexec, rfl, Panel.getReg_of_reg (signs_reg ..) r, signs_ctl ..⟩
  case mismatch =>
    have hexec := exec_arrive_root hk h hto
    rw [rootArrive_of_mismatch (s := s.onP (taken s.p.activeHub)) hph hbar he hone] at hexec
    have hg : (signs b m (taken s.p.activeHub s.p)).getReg r = g := Panel.getReg_of_reg (signs_reg ..) r
    obtain ⟨hlog, hfreezing, -, hcause⟩ := stopRegion_stops (hg ▸ hph) (hg ▸ hfr) (show evSpan 0x0707 = .always by decide)
    exact ⟨_, hexec, rfl, hlog, hfreezing, hcause⟩
  case released =>
    have hexec := exec_barrierRelease (s := s) hr
    rw [progressRestart_of_none hre, progress_of_admitted hph hfr hbar hst hheld] at hexec
    obtain ⟨hrel, hstep⟩ := releaseBarrier_of_running (d := d) hstart hre
    exact ⟨_, hexec, rfl, hrel.bar, hrel.cur, hstep, hrel.relTick⟩
  case notReleased =>
    rw [exec_barrierRelease hr, progressRestart_of_none hre]
    obtain hbar | hfr := hnone
    · rw [progress_of_no_barrier hbar]
    · rw [progress_of_freezing hfr]
  case armed =>
    refine ⟨_, exec_release hk h hd hreg hsent hrel hstop hfr hnow, rfl, ?_⟩
    rw [State.onP_p, Panel.modDie_same]
    exact ⟨rfl, hsent⟩
  case started => exact ⟨_, exec_stepStart hcs hrel hfr hnow hclk, rfl, startDie_fields hreg rst tick⟩

end

section
/-! PROOFS. The barrier timeout, the step watchdog, and FREEZE at a member die (R216, R221, R222, R304). -/

namespace Sys2Proof.Machine

variable {p : Panel} {s : State} {r cs cause : Nat} {k : Pkt}

/-- Evidence against dies waits in the book for the hub to act on it. -/
theorem each_pendEvidence (l : List Nat) (cause : Nat) (p : Panel) :
    ∃ e, each l (fun m => pendEvidence m cause) p = p.modBook fun b => { b with pendingEvid := e } := by
  refine each_keeps (P := fun q : Panel => ∃ e, q = p.modBook fun b => { b with pendingEvid := e }) l (fun m q hq => ?_) ⟨_, rfl⟩
  obtain ⟨e, rfl⟩ := hq
  exact ⟨_, rfl⟩

/-- An expired barrier stops its region, with evidence against the dies that have not arrived. -/
theorem exec_barrierTimeout (hr : r < 64) (hph : (s.p.getReg r).phase = .active) (hbar : (s.p.getReg r).bar.isSome = true)
    (himm : (s.p.getReg r).immediate = false) (hst : (s.p.getReg r).stage = .arriving) (hmet : barrierMet s.p r = false)
    (hlate : (s.p.getReg r).firstTick + (s.p.getReg r).lim.1 ≤ s.p.now) :
    ∃ e, exec (.barrierTimeout r) s
      = .next (s.onP fun p => stopRegion r 0x0706 (p.modBook fun b => { b with pendingEvid := e })) := by
  obtain ⟨e, he⟩ := each_pendEvidence ((s.p.getReg r).members.filter fun m =>
    !(s.p.getReg r).arrived.contains m && !dieReady s.p m none && !((coresOf m).any fun k => decide ((s.p.getCore k).a.run = .faulted)))
    0x0706 s.p
  refine ⟨e, ?_⟩
  change execBarrierTimeout r s = _
  rw [execBarrierTimeout, isRegion_of_lt hr, State.runP_true]
  simp only [hph, hbar, himm, hst, hmet, hlate, true_or, Bool.false_eq_true, not_false_eq_true, and_self, if_true, he]
  rfl

theorem exec_stepWatchdog (hr : r < 64) (hph : (s.p.getReg r).phase = .active) (hbar : (s.p.getReg r).bar = none)
    (himm : (s.p.getReg r).immediate = false)
    (hlate : (s.p.getReg r).relTick + (s.p.getReg r).lim.2.2 ≤ s.p.now + (s.p.getReg r).lim.2.1) :
    exec (.stepWatchdog r) s = .next (s.onP (stopRegion r 0x0709)) := by
  change execStepWatchdog r s = _
  rw [execStepWatchdog, isRegion_of_lt hr, State.runP_true]
  simp only [hph, hbar, himm, hlate, Bool.false_eq_true, not_false_eq_true, and_self, if_true]
  rfl

theorem exec_stepWatchdog_of_barrier (hr : r < 64) (hbar : (s.p.getReg r).bar.isSome = true) : exec (.stepWatchdog r) s = .next s := by
  have hne : (s.p.getReg r).bar ≠ none := Option.isSome_iff_ne_none.mp hbar
  change execStepWatchdog r s = _
  rw [execStepWatchdog, isRegion_of_lt hr, State.runP_true]
  simp only [hne, false_and, and_false, if_false]

/-- Die `cs` has taken FREEZE for region `r`, and is asked to stop. -/
def stopTaken (cs r cause : Nat) (p : Panel) : Panel := (taken cs p).modDie cs fun x => { x with stopAsked := some (r, cause) }

theorem exec_freeze (hcs : isCompute cs = true) (hk : k.msg = .freeze r cause) (h : Delivered cs k s.p) (hd : k.dmode ≠ 1)
    (hmem : (s.p.getReg r).members.contains cs = true) :
    exec (.freeze cs k) s = .next (s.onP fun p => toHub cs 3 (.ack 0 r) (freezeDie cs (stopTaken cs r cause p))) := by
  have hreg : (taken cs s.p).getReg r = s.p.getReg r := rfl
  change execFreeze cs k s = _
  rw [execFreeze, h.1, State.runP_true, onPkt_of_delivered h hd]
  simp only [hk, hcs, hreg, hmem, and_self, if_true]
  rfl

/-- A member that takes FREEZE and is not frozen is frozen, its segment is abandoned, and its acknowledgement is on its way. -/
theorem freezeDie_acknowledged (hcs : isCompute cs = true) (hfr : (p.getDie cs).frozen = false) (ht : takesPart p cs = true) :
    let q := toHub cs 3 (.ack 0 r) (freezeDie cs p)
    (q.getDie cs).frozen = true ∧ (q.getRtr cs).exec = none ∧ Sent cs (.ack 0 r) q := by
  obtain ⟨u, hu, hfrozen, hexec, hcases⟩ := freezeDie_cases hfr
  have hsame : (freezeDie cs p).die = u.die ∧ (freezeDie cs p).rtr = u.rtr ∧ (freezeDie cs p).pwr = u.pwr
      ∧ (freezeDie cs p).book = u.book := by
    obtain h | ⟨j, f, h⟩ := hcases <;> rw [h] <;> exact ⟨rfl, rfl, rfl, rfl⟩
  obtain ⟨hdie, hrtr, hpwr, hbook⟩ := hsame
  refine ⟨?_, ?_, toHub_sent ?_ hcs 3 (by simp)⟩
  · rw [Panel.getDie, toHub_die, hdie]
    exact hfrozen
  · rw [Panel.getRtr, toHub_rtr, hrtr]
    exact hexec
  · rw [takesPart_congr (hpwr.trans hu.pwr) ((congrArg Book.unit hbook).trans hu.unit), ht]

end Sys2Proof.Machine
end

section
open Sys2Proof Sys2Proof.Machine

/-- Settles O29: a limit that has passed stops the region at the hub; a member that takes FREEZE stops. -/
theorem timeoutsAndFreezesStopARegion : Obligations.TimeoutsAndFreezesStopARegion := by
  intro r s hr g hph hfr himm
  refine ⟨fun hbar hst hmet hlate => ?timeout, fun hbar hlate => ?watchdog, fun hbar => exec_stepWatchdog_of_barrier hr hbar,
    fun cs cause k hcs hk h hd hmem hdie => ?freeze⟩
  case timeout =>
    obtain ⟨e, hexec⟩ := exec_barrierTimeout hr hph hbar himm hst hmet hlate
    obtain ⟨hlog, hfreezing, himmediate, hcause⟩ :=
      stopRegion_stops (p := s.p.modBook fun b => { b with pendingEvid := e }) hph hfr (show evSpan 0x0706 = .always by decide)
    exact ⟨_, hexec, rfl, hlog, hfreezing, himmediate, hcause, fun hf =>
      stopRegion_sent hph hfr himm (hubFloods_congr rfl rfl rfl rfl hf)⟩
  case watchdog =>
    obtain ⟨hlog, hfreezing, himmediate, hcause⟩ := stopRegion_stops hph hfr (show evSpan 0x0709 = .always by decide)
    exact ⟨_, exec_stepWatchdog hr hph hbar himm hlate, rfl, hlog, hfreezing, himmediate, hcause, stopRegion_sent hph hfr himm⟩
  case freeze =>
    have ht : takesPart (stopTaken cs r cause s.p) cs = true := by
      rw [takesPart_congr (q := stopTaken cs r cause s.p) (p := s.p) rfl rfl]
      exact h.2.1
    have hdie' : ((stopTaken cs r cause s.p).getDie cs).frozen = false := by
      rw [stopTaken, Panel.modDie_same]
      exact hdie
    exact ⟨_, exec_freeze hcs hk h hd hmem, rfl, freezeDie_acknowledged hcs hdie' ht⟩

end

section
/-! PROOFS. RESTART, substitution, and the variants of a region (R223-R226, R229, R230). -/

namespace Sys2Proof.Machine

variable {p : Panel} {s : State} {r site n h : Nat} {l : List (Nat × Nat)}

/-! RESTART (R229, R230). -/

theorem exec_restart (hr : r < 64) : exec (.restart r) s = .next (restartRegion r s).2 := by
  change execRestart r s = _
  rw [execRestart, isRegion_of_lt hr, State.run_true]

theorem restartRegion_of_not_frozen (hph : (s.p.getReg r).phase ≠ .frozen) : (restartRegion r s).2 = s := by
  have hno : restartable s.p r = false := by simp [restartable, hph]
  rw [restartRegion, if_pos (.inl hno)]

section
variable (hok : restartable s.p r = true) (hnew : (s.p.getReg r).restart = none)
include hok hnew

theorem restartRegion_of_no_slot (hslot : pickSlot s r = none) :
    (restartRegion r s).2 = s.onP (raise 0x070D 0xFF (keyRegion r) none) := by
  simp [restartRegion, hok, hnew, hslot]

/-- A restart that finds a valid slot notes it, and resets every core of the region. -/
theorem restartRegion_of_slot {slot : Nat} {gens : List (Nat × List Byte)} (hslot : pickSlot s r = some (slot, gens)) :
    (restartRegion r s).2 = s.onP fun p =>
      each (regionCores p r) coreReset (p.modReg r fun g => { g with restart := some ⟨.resets, slot, gens⟩ }) := by
  simp [restartRegion, hok, hnew, hslot]

end

/-- Core `k` is in a core reset that has just begun. -/
def InReset (k : Nat) (p : Panel) : Prop := (p.getCore k).a.run = .resetting ∧ (p.getCore k).clearing = clearCycles

theorem coreReset_inReset (k : Nat) (p : Panel) : InReset k (coreReset k p) := by
  have hcore : (coreReset k p).getCore k = resetCore .resetting clearCycles (p.getCore k) := Panel.modCore_same p k _
  rw [InReset, hcore]
  exact ⟨rfl, rfl⟩

theorem InReset.coreReset {k : Nat} (hk : InReset k p) (j : Nat) : InReset k (coreReset j p) := by
  by_cases hj : k = j
  · subst hj
    exact coreReset_inReset k p
  · have hcore : (Machine.coreReset j p).getCore k = p.getCore k := Panel.modCore_ne p _ hj
    rw [InReset, hcore]
    exact hk

theorem each_coreReset_inReset {k : Nat} {l : List Nat} (hk : k ∈ l) (p : Panel) : InReset k (each l coreReset p) := by
  induction l generalizing p with
  | nil => cases hk
  | cons j l ih =>
    obtain rfl | hk := List.mem_cons.mp hk
    · exact each_keeps (P := InReset k) l (fun j _ h => h.coreReset j) (coreReset_inReset k p)
    · exact ih hk (coreReset j p)

/-- The region that restarts from a slot, its routers having acknowledged: ACTIVE at the step of its slot, the release under way. -/
theorem restartRun_getReg (r : Nat) (x : Restart) (p : Panel) :
    ((restartRun r x p).getReg r).phase = .active ∧ ((restartRun r x p).getReg r).step = (Tab.get default (p.getReg r).slots x.slot).step
      ∧ ((restartRun r x p).getReg r).restart.isSome = true := by
  unfold restartRun
  dsimp only
  rw [Panel.getReg_of_reg (enterRun_reg ..), Panel.modReg_same]
  exact ⟨rfl, rfl, rfl⟩

/-- Once its epoch set is acknowledged, a restart runs the region, and the root goes on with its release. -/
theorem progressRestart_of_acknowledged {q slot : Nat} {gens : List (Nat × List Byte)} (hok : restartable s.p r = true)
    (hre : (s.p.getReg r).restart = some ⟨.epochs q, slot, gens⟩) (hack : ∀ e ∈ s.p.ctl.epochs, e.seq ≠ q) :
    progressRestart r s = progress r (s.onP (restartRun r ⟨.epochs q, slot, gens⟩)) := by
  have hnone : (s.p.ctl.epochs.any fun e => decide (e.seq = q)) = false := by simpa using hack
  simp [progressRestart, hre, hnone, hok]

/-- Such a region is ACTIVE at the step of its slot, as far as the root's work on it goes. -/
theorem restart_of_acknowledged {q slot : Nat} {gens : List (Nat × List Byte)} (hok : restartable s.p r = true)
    (hre : (s.p.getReg r).restart = some ⟨.epochs q, slot, gens⟩) (hack : ∀ e ∈ s.p.ctl.epochs, e.seq ≠ q) :
    ((progress r (progressRestart r s)).p.getReg r).phase = .active
      ∧ ((progress r (progressRestart r s)).p.getReg r).step = (Tab.get default (s.p.getReg r).slots slot).step := by
  have hrun := restartRun_getReg r ⟨.epochs q, slot, gens⟩ s.p
  rw [← State.onP_p s (restartRun r _)] at hrun
  rw [progressRestart_of_acknowledged hok hre hack]
  generalize s.onP (restartRun r ⟨.epochs q, slot, gens⟩) = t at hrun
  obtain ⟨hphase, hstep, hunder⟩ := hrun
  obtain ⟨hstep1, hunder1⟩ := progress_of_restarting (s := t) (.inl hunder)
  obtain ⟨hstep2, -⟩ := progress_of_restarting hunder1
  rw [progress_phase, progress_phase, hstep2, hstep1]
  exact ⟨hphase, hstep⟩

/-! Substitution (R223-R225). -/

theorem each_modA_reg (l : List Nat) (f : Nat → CoreA → CoreA) (p : Panel) : (each l (fun k p => p.modA k (f k)) p).reg = p.reg :=
  each_reg l p

section
variable (hr : r < 64) (hs : isCompute site = true) (hn : dutyOf s.p r site = some n) (hh : substituteOf s.p r site = some h)
  (hm : (s.p.getReg r).members.contains site = true) (hf : s.p.ust site = .failed) (hph : (s.p.getReg r).phase ≠ .free)
include hr hs hn hh hm hf hph

theorem exec_substitution_not_listed :
    exec (.substitution r site false) s = .next (s.onP (raise 0x070C site (keyRegion r) none)) := by
  change execSubstitution r site false s = _
  rw [execSubstitution, isRegion_of_lt hr, hs, Bool.and_self, State.runP_true]
  simp only [hn, hh, hm, hf, hph, ne_eq, not_false_eq_true, decide_true, Bool.and_self, not_true_eq_false, Bool.false_eq_true, if_false,
    if_true]
  rfl

/-- The region whose member's duty has moved to the substitute. -/
def dutyMoved (site n h : Nat) (g : Region) : Region :=
  { g with
    members := (g.members.filter fun m => decide (m ≠ site)) ++ [h], duty := Tab.set n h g.duty, moved := g.moved ++ [(n, h)]
    subst := Tab.del site g.subst }

/-- What follows at the substitute, in the book, the groups and the directory leaves the region so, and the event comes last. -/
theorem exec_substitution_listed : ∃ t q, exec (.substitution r site true) s = .next t ∧ t.mem = s.mem
    ∧ t.p = raise 0x070B site (keyRegion r) (some (BitVec.ofNat 64 (site * 2 ^ 24 + h * 2 ^ 16 + n))) q
    ∧ q.getReg r = dutyMoved site n h (s.p.getReg r) := by
  change ∃ t q, execSubstitution r site true s = .next t ∧ _
  rw [execSubstitution, isRegion_of_lt hr, hs, Bool.and_self, State.runP_true]
  simp only [hn, hh, hm, hf, hph, ne_eq, not_false_eq_true, decide_true, Bool.and_self, not_true_eq_false, if_false]
  refine ⟨_, _, rfl, rfl, rfl, ?_⟩
  rw [Panel.getReg_of_reg (each_reg _ _ (setPermits_reg _)), Panel.getReg_of_reg (each_modA_reg ..),
    Panel.getReg_of_reg (moveShards_reg ..), Panel.getReg_of_reg (bumpGen_reg ..), Panel.getReg_of_reg (loadKey_reg ..),
    Panel.getReg_of_reg (Panel.modStk_reg ..), Panel.getReg_of_reg (setGroup_reg ..), Panel.getReg_of_reg (serveSite_reg ..),
    Panel.getReg_of_reg (Panel.modPart_reg ..), Panel.getReg_of_reg (setGroup_reg ..), Panel.modReg_same]
  rfl

end

/-! The variant in force, and staged sites (R226). -/

theorem exec_variantInForceWrite (hr : r < 64) (hl : l.length ≤ 16) :
    exec (.variantInForceWrite r l) s = .next (s.onP fun p => (putVariant r l p).2) := by
  change execVariantInForceWrite r l s = _
  rw [execVariantInForceWrite, isRegion_of_lt hr, State.runP_true, if_pos hl]
  rfl

/-- A write of the variant in force is refused, or finds the region FROZEN and is its only change. -/
theorem putVariant_cases (r : Nat) (l : List (Nat × Nat)) (p : Panel) : putVariant r l p = (conflict9, p)
    ∨ (p.getReg r).phase = .frozen ∧ putVariant r l p = (0, p.modReg r fun g => { g with variant := l }) := by
  unfold putVariant
  dsimp only
  split
  · next hok => exact .inr ⟨hok.1, rfl⟩
  · exact .inl rfl

theorem putVariant_of_not_frozen (hph : (p.getReg r).phase ≠ .frozen) : putVariant r l p = (conflict9, p) :=
  (putVariant_cases r l p).resolve_right fun h => hph h.1

theorem putVariant_of_accepted (h : (putVariant r l p).1 = 0) :
    (p.getReg r).phase = .frozen ∧ (putVariant r l p).2 = p.modReg r fun g => { g with variant := l } := by
  obtain heq | ⟨hph, heq⟩ := putVariant_cases r l p
  · have hcode : conflict9 ≠ 0 := by decide
    rw [heq] at h
    exact absurd h hcode
  · exact ⟨hph, congrArg Prod.snd heq⟩

theorem exec_variantStagingWrite (hr : r < 64) (hl : l.length ≤ 16)
    (hfree : ∀ e ∈ l, ∀ o ∈ s.p.reg, o.1 ≠ r → ∀ y ∈ o.2.staging, y.2 ≠ e.2) :
    exec (.variantStagingWrite r l) s = .next (s.onP fun p => p.modReg r fun g => { g with staging := l }) := by
  have hnone : (l.any fun e => s.p.reg.any fun o => decide (o.1 ≠ r) && o.2.staging.any fun y => decide (y.2 = e.2)) = false := by
    simp only [List.any_eq_false, List.any_eq_true, Bool.and_eq_true, decide_eq_true_eq, not_exists, not_and]
    exact hfree
  change execVariantStagingWrite r l s = _
  rw [execVariantStagingWrite, isRegion_of_lt hr, State.runP_true, if_pos hl, stageVariant, hnone]
  rfl

end Sys2Proof.Machine
end

section
open Sys2Proof Sys2Proof.Machine

/-- Settles O30: each command's effect on the panel, and then the region in it. -/
theorem restartSubstitutionAndVariants : Obligations.RestartSubstitutionAndVariants := by
  intro r site n h l s hr hs g
  refine ⟨fun hph => ?notFrozen, fun hok hnew => ⟨fun slot gens hslot => ?slot, fun hslot => ?noSlot⟩,
    fun q slot gens hok hre hack => ?acknowledged, fun hn hh hm hf hph => ⟨?listed, ?notListed⟩, fun hl h0 => ?variant,
    fun hl hph => ?notAccepted, fun hl hfree => ?staged⟩
  case notFrozen => rw [exec_restart hr, restartRegion_of_not_frozen hph]
  case slot =>
    refine ⟨_, exec_restart hr, ?_⟩
    rw [restartRegion_of_slot hok hnew hslot]
    refine ⟨rfl, ?_, fun k hk => each_coreReset_inReset hk _⟩
    rw [State.onP_p, Panel.getReg_of_reg (each_reg _ _ coreReset_reg), Panel.modReg_same]
  case noSlot =>
    refine ⟨_, exec_restart hr, ?_⟩
    rw [restartRegion_of_no_slot hok hnew hslot]
    exact ⟨rfl, raise_reg .., raise_logged (show evSpan 0x070D = .always by decide) ..⟩
  case acknowledged => exact ⟨_, exec_barrierRelease hr, restart_of_acknowledged hok hre hack⟩
  case listed =>
    obtain ⟨t, q, hexec, hmem, ht, hq⟩ := exec_substitution_listed hr hs hn hh hm hf hph
    refine ⟨t, hexec, hmem, ?_⟩
    rw [ht, Panel.getReg_of_reg (raise_reg ..), hq]
    exact ⟨raise_logged (show evSpan 0x070B = .always by decide) .., rfl, Tab.get_set_same .., rfl⟩
  case notListed =>
    exact ⟨_, exec_substitution_not_listed hr hs hn hh hm hf hph, rfl, raise_reg ..,
      raise_logged (show evSpan 0x070C = .always by decide) ..⟩
  case variant =>
    obtain ⟨hph, hput⟩ := putVariant_of_accepted h0
    refine ⟨_, exec_variantInForceWrite hr hl, rfl, hph, ?_⟩
    rw [State.onP_p, hput, Panel.modReg_same]
    exact ⟨rfl, rfl⟩
  case notAccepted =>
    rw [exec_variantInForceWrite hr hl, State.onP_eq_self (congrArg Prod.snd (putVariant_of_not_frozen hph))]
  case staged =>
    refine ⟨_, exec_variantStagingWrite hr hl hfree, rfl, ?_⟩
    rw [State.onP_p, Panel.modReg_same]
    exact ⟨rfl, rfl⟩

end

section
/-! PROOFS. The passes of a Sieve: what a scan changes, the list and the report at its end, and the report at the hub
(R243-R249, R255). -/

namespace Sys2Proof.Machine

variable {p : Panel} {s : State} {cs : Nat} {k : Pkt} {v : Sieve} {cells : Tab (List Cell)}

/-! What reading row words leaves: every Sieve (R127, R128, R138, R139). -/

@[simp] theorem stackRaise_sve (s ev : Nat) (d : Dat) (p : Panel) : (stackRaise s ev d p).sve = p.sve := dieRaise_sve ..

theorem ite_sve {c : Prop} [Decidable c] {q r : Panel} (hq : q.sve = p.sve) (hr : r.sve = p.sve) : (if c then q else r).sve = p.sve := by
  split
  · exact hq
  · exact hr

@[simp] theorem retire_sve (s layer w origin pois : Nat) (p : Panel) : (retire s layer w origin pois p).sve = p.sve := by
  unfold retire
  refine ite_sve rfl ?_
  split
  · exact stackRaise_sve ..
  · exact ite_sve (stackRaise_sve ..) rfl

@[simp] theorem track_sve (s layer w : Nat) (p : Panel) : (track s layer w p).sve = p.sve := by
  unfold track
  dsimp only
  split
  · exact ite_sve (retire_sve ..) rfl
  · have hfull (c : Prop) [Decidable c] (q : Panel) : (if c then stackRaise s 0x0406 none q else q).sve = q.sve :=
      ite_sve (stackRaise_sve ..) rfl
    exact ite_sve ((retire_sve ..).trans (hfull ..)) (hfull ..)

@[simp] theorem rowCheck_sve (s w : Nat) (rq : Requester) (core : Nat) (c : RowChk) (p : Panel) : (rowCheck s w rq core c p).2.sve = p.sve := by
  have hraised (c : Prop) [Decidable c] (ev : Nat) (q : Panel) : (if c then q else stackRaise s ev none q).sve = q.sve :=
    ite_sve rfl (stackRaise_sve ..)
  unfold rowCheck
  dsimp only
  split
  case h_1 | h_2 => rfl
  case h_3 =>
    rw [apply_ite Prod.snd]
    refine ite_sve rfl (ite_sve (hraised ..) ?_)
    exact each_keeps (P := fun q : Panel => q.sve = p.sve) _ (fun l q hq => (retire_sve ..).trans hq) (hraised ..)
  case h_4 =>
    rw [apply_ite Prod.snd]
    exact ite_sve rfl ((track_sve ..).trans (stackRaise_sve ..))

@[simp] theorem scanWords_sve (rq : Requester) (s a : Nat) (l : List (Nat × RowChk)) (p : Panel) : (scanWords rq s a l p).2.sve = p.sve := by
  induction l generalizing p with
  | nil => rfl
  | cons e l ih =>
    rw [scanWords, apply_ite Prod.snd]
    exact ite_sve (rowCheck_sve ..) ((ih _).trans (rowCheck_sve ..))

@[simp] theorem sieveRead_sve (s a n : Nat) (rows : List (Nat × RowChk)) (p : Panel) : (sieveRead s a n rows p).2.2.sve = p.sve := by
  unfold sieveRead
  dsimp only
  split
  · next h => exact (congrArg (·.2.sve) h).symm.trans (scanWords_sve ..)
  · next h => exact (congrArg (·.2.sve) h).symm.trans (scanWords_sve ..)

theorem Panel.getSve_of_sve {q : Panel} (h : q.sve = p.sve) (s : Nat) : q.getSve s = p.getSve s := by
  rw [Panel.getSve, h]
  rfl

/-! A pass that scans (R245, R249, R262). -/

/-- A pass scans: none is armed or held, and the emission buffers hold `cells`. -/
structure ScansBeside (cells : Tab (List Cell)) (v : Sieve) : Prop where
  st : v.st = .scanning
  armed : v.armed = false
  heldFrom : v.heldFrom = none
  emit : v.emit = cells

theorem ScansBeside.offer (h : ScansBeside cells v) (w k id : Nat) (lanes code : List Nat) : ScansBeside cells (v.offer w k id lanes code) :=
  ⟨h.st, h.armed, h.heldFrom, h.emit⟩

theorem shardError_scansBeside (j : Nat) (e : BitVec 64) (h : ScansBeside cells (p.getSve cs)) :
    ScansBeside cells ((shardError cs j e p).getSve cs) := by
  rw [shardError, Panel.getSve_of_sve (dieRaise_sve ..), Panel.modSve_same]
  exact ⟨h.st, h.armed, h.heldFrom, h.emit⟩

/-- A shard is scanned in the panel alone, and the pass goes on: codes are offered, or the shard's lanes marked. -/
theorem scanShard_scansBeside (prof : Nat) (rows : List (Nat × RowChk)) (t : State) (j : Nat) (h : ScansBeside cells (t.p.getSve cs)) :
    (scanShard cs prof rows t j).mem = t.mem ∧ ScansBeside cells ((scanShard cs prof rows t j).p.getSve cs) := by
  have hcounted (q : Panel) (n : Nat) (hq : ScansBeside cells (q.getSve cs)) :
      ScansBeside cells ((q.modSve cs fun v => { v with ctr := { v.ctr with bytes := v.ctr.bytes + n } }).getSve cs) := by
    rw [Panel.modSve_same]
    exact ⟨hq.st, hq.armed, hq.heldFrom, hq.emit⟩
  have hread (q : Panel) (a n : Nat) (rows : List (Nat × RowChk)) (hq : ScansBeside cells (q.getSve cs)) :
      ScansBeside cells ((sieveRead cs a n rows q).2.2.getSve cs) := by
    rw [Panel.getSve_of_sve (sieveRead_sve ..)]
    exact hq
  unfold scanShard
  extract_lets v e w lanes r p1 head n z a r2 codes p2
  have h1 : ScansBeside cells (p1.getSve cs) := hcounted _ _ (hread _ _ _ _ h)
  have h2 : ScansBeside cells (p2.getSve cs) := by
    have hq := hread p1 a (n * z) (rows.filter fun x => decide (x.1 ≠ ShardE.base e / 256)) h1
    rw [Panel.modSve_same]
    exact each_keeps (P := ScansBeside cells) _ (fun i v hv => hv.offer ..) ⟨hq.st, hq.armed, hq.heldFrom, hq.emit⟩
  split
  · exact ⟨rfl, h⟩
  · split
    · exact ⟨rfl, shardError_scansBeside j e h1⟩
    · refine ⟨rfl, ?_⟩
      dsimp only
      split
      · exact shardError_scansBeside j e h2
      · exact h2

/-- The Sieve whose armed pass begins to scan at tick `now`. -/
def Sieve.begun (now : Nat) (v : Sieve) : Sieve :=
  { v with
    st := .scanning, armed := false, cur := v.pass, heaps := [], mask := 0, heldFrom := none,
    ctr := { v.ctr with waitTicks := v.ctr.waitTicks + (match v.heldFrom with | some t => now - t | none => 0) } }

/-- The Sieve whose armed pass is held from tick `now`. -/
def Sieve.heldAt (now : Nat) (v : Sieve) : Sieve := { v with heldFrom := some now, ctr := { v.ctr with waits := v.ctr.waits + 1 } }

theorem exec_sievePassStart_idle (hcs : isCompute cs = true) (rows : RowErrs)
    (h : (s.p.getSve cs).armed = false ∨ (s.p.getSve cs).st = .scanning ∨ s.p.now < Pass.t (s.p.getSve cs).pass) :
    exec (.sievePassStart cs rows) s = .next s := by
  change execSievePassStart cs rows s = _
  rw [execSievePassStart, hcs, State.run_true]
  exact congrArg _ (if_pos (h.imp_left fun hno => by simp [hno]))

section
variable (hcs : isCompute cs = true) (harmed : (s.p.getSve cs).armed = true) (hst : (s.p.getSve cs).st ≠ .scanning)
  (hnow : Pass.t (s.p.getSve cs).pass ≤ s.p.now)
include hcs harmed hst hnow

theorem exec_sievePassStart_held (rows : RowErrs) (hemit : Tab.get [] (s.p.getSve cs).emit (s.p.getSve cs).buffer ≠ [])
    (hheld : (s.p.getSve cs).heldFrom = none) :
    exec (.sievePassStart cs rows) s = .next (s.onP fun p => p.modSve cs (Sieve.heldAt s.p.now)) := by
  change execSievePassStart cs rows s = _
  rw [execSievePassStart, hcs, State.run_true]
  simp [harmed, hst, Nat.not_lt.mpr hnow, hemit, hheld, State.onP, Panel.modSve, Sieve.heldAt]

/-- The pass begins, and scans the shard list that its descriptor gives it. -/
theorem exec_sievePassStart_scans (rows : RowErrs) (hemit : Tab.get [] (s.p.getSve cs).emit (s.p.getSve cs).buffer = []) :
    ∃ prof chk, exec (.sievePassStart cs rows) s = .next (each (List.range (min 64 (Pass.nsh (s.p.getSve cs).pass)))
      (fun j t => scanShard cs prof chk t j) (s.onP fun p => p.modSve cs (Sieve.begun s.p.now))) := by
  rw [show exec (.sievePassStart cs rows) s = execSievePassStart cs rows s from rfl, execSievePassStart, hcs, State.run_true]
  simp only [harmed, hst, Nat.not_lt.mpr hnow, hemit, not_true_eq_false, or_self, if_false, List.isEmpty_nil]
  exact ⟨_, _, rfl⟩

end

/-! The end of a scan (R245, R248). -/

/-- The Sieve at the end of its scan, `cells` being its lists. -/
def Sieve.ended (cells : List Cell) (v : Sieve) : Sieve :=
  { v with
    st := .ready, errMask := v.mask, passes := (v.passes + 1) % 2 ^ 32, buffer := 1 - v.buffer % 2,
    emit := Tab.set v.buffer cells v.emit,
    emitCode := Tab.set v.buffer (trackCode (Pass.ecore v.cur) (Pass.etrk v.cur)) v.emitCode,
    ctr := { v.ctr with passes := v.ctr.passes + 1 } }

/-- The panel at the end of the scan of site `cs`: its lists stand in the pass's buffer, and the counter of the emit core is up. -/
def passEnded (cs : Nat) (p : Panel) : Panel :=
  (p.modSve cs (Sieve.ended ((List.range 64).flatMap (laneCells p cs (p.getSve cs))))).modA (4 * cs + Pass.ecore (p.getSve cs).cur)
    (bumpC (Pass.ectr (p.getSve cs).cur))

theorem passEnded_getSve (cs : Nat) (p : Panel) :
    (passEnded cs p).getSve cs = (p.getSve cs).ended ((List.range 64).flatMap (laneCells p cs (p.getSve cs))) :=
  Panel.modSve_same ..

theorem exec_sievePassDone (hcs : isCompute cs = true) (hst : (s.p.getSve cs).st = .scanning) :
    exec (.sievePassDone cs) s = .next (s.onP fun p =>
      toHub cs 0 (.sieveDone (((p.getSve cs).passes + 1) % 2 ^ 32) (BitVec.ofNat 64 (p.getSve cs).mask)) (passEnded cs p)) := by
  change execSievePassDone cs s = _
  rw [execSievePassDone, hcs, State.runP_true]
  simp only [hst, ne_eq, not_true_eq_false, if_false]
  rfl

theorem exec_sievePassDone_idle (hcs : isCompute cs = true) (hst : (s.p.getSve cs).st ≠ .scanning) : exec (.sievePassDone cs) s = .next s := by
  change execSievePassDone cs s = _
  rw [execSievePassDone, hcs, State.runP_true]
  simp only [hst, ne_eq, not_false_eq_true, if_true]

/-! SIEVE_PASS_GO (R243). -/

theorem exec_sievePassGo (hcs : isCompute cs = true) (x : BitVec 512) :
    exec (.sievePassGo cs x) s = .next (s.onP fun p => if siteOpen p cs then p.modSve cs (armPass x) else gaRefuse cs p) := by
  change execSievePassGo cs x s = _
  rw [execSievePassGo, hcs, State.runP_true]
  rfl

/-! The report at the hub (R255, R304). -/

/-- The active hub acts on what is delivered to it. -/
theorem onPkt_hub_of_delivered (h : Delivered p.activeHub k p) (f : Panel → Panel) :
    onPkt p.activeHub k f p = f (taken p.activeHub p) := by
  have hactive : (taken p.activeHub p).activeHub = p.activeHub := rfl
  rw [onPkt, takePkt_of_delivered h]
  simp [idleHub, hactive]

theorem exec_sieveDone {n : Nat} {errs : BitVec 64} (hk : k.msg = .sieveDone n errs) (h : Delivered s.p.activeHub k s.p) :
    exec (.sieveDone s.p.activeHub k) s = .next (s.onP fun p => sieveReport k.src errs (taken p.activeHub p)) := by
  change execSieveDone s.p.activeHub k s = _
  rw [execSieveDone, h.1, State.runP_true]
  simp only [hk]
  rw [onPkt_hub_of_delivered h]
  rfl

/-- The region after member `site` has reported batch `b`. -/
def Region.scannedBy (site : Nat) (b : Batch) (g : Region) : Region :=
  { g with batches := g.batches.map fun x => if x = b then { x with scanned := x.scanned ++ [site] } else x }

/-- The report without errors of a region's only member, whose batch binds one query, has that query merge. -/
theorem sieveReport_of_only_member {r e : Nat} {l : Lane} (hr : p.regionOf cs = some r) (hb : (p.getReg r).batches = [⟨[l], [], e⟩])
    (hm : (p.getReg r).members = [cs]) (hq : (p.getQuery l.qid).st = .scanning) :
    sieveReport cs 0 p = setQuery l.qid .merging 0 (p.modReg r (Region.scannedBy cs ⟨[l], [], e⟩)) := by
  have hbit : bit (0 : BitVec 64) l.lane = false := BitVec.getLsbD_zero
  have hquery (f : Region → Region) : (p.modReg r f).getQuery l.qid = p.getQuery l.qid := rfl
  simp only [sieveReport, hr, hb, hm, each, List.find?_cons, List.contains_nil, Bool.not_false, List.foldl_cons, List.foldl_nil, hbit,
    Bool.false_and, Bool.false_eq_true, if_false, List.all_cons, List.all_nil, List.contains_cons, BEq.rfl, Bool.true_or, Bool.and_true,
    if_true, hquery, hq]
  rfl

end Sys2Proof.Machine
end

section
open Sys2Proof Sys2Proof.Machine

/-- Settles O31: each command's effect on the panel, and then the Sieve, or the query, in it. -/
theorem sievePassesRunFromGoToReport : Obligations.SievePassesRunFromGoToReport := by
  intro cs s hcs v
  refine ⟨fun x => ⟨fun hopen => ?armed, fun hclosed => ?refused⟩,
    fun rows harmed hst hnow => ⟨fun hemit => ?scans, fun hemit hheld => ?held⟩,
    fun rows h => exec_sievePassStart_idle hcs rows h, fun hst => ?ended, fun hst => exec_sievePassDone_idle hcs hst,
    fun k n r e l hk hsrc h hr hb hm hq => ?reported⟩
  case armed =>
    refine ⟨_, exec_sievePassGo hcs x, rfl, ?_⟩
    rw [State.onP_p, if_pos hopen, Panel.modSve_same]
    exact ⟨rfl, rfl, rfl, rfl, rfl⟩
  case refused =>
    refine ⟨_, exec_sievePassGo hcs x, rfl, ?_⟩
    rw [State.onP_p, if_neg (ne_true_of_eq_false hclosed)]
    exact ⟨raise_sve .., raise_gaRefusals ..⟩
  case scans =>
    obtain ⟨prof, chk, hexec⟩ := exec_sievePassStart_scans hcs harmed hst hnow rows hemit
    have hbegun : (s.p.modSve cs (Sieve.begun s.p.now)).getSve cs = v.begun s.p.now := Panel.modSve_same ..
    obtain ⟨hmem, hscan⟩ := each_keeps (P := fun t : State => t.mem = s.mem ∧ ScansBeside v.emit (t.p.getSve cs))
      (List.range (min 64 (Pass.nsh v.pass)))
      (fun j t ht => (scanShard_scansBeside prof chk t j ht.2).imp_left (·.trans ht.1))
      (b := s.onP fun p => p.modSve cs (Sieve.begun s.p.now)) ⟨rfl, by rw [State.onP_p, hbegun]; exact ⟨rfl, rfl, rfl, rfl⟩⟩
    refine ⟨_, hexec, hmem, hscan.st, hscan.armed, hscan.heldFrom, hscan.emit, fun hnone => ?_⟩
    rw [hnone]
    exact ⟨congrArg Sieve.heaps hbegun, congrArg Sieve.mask hbegun⟩
  case held =>
    exact ⟨_, exec_sievePassStart_held hcs harmed hst hnow rows hemit hheld, rfl, Panel.modSve_same ..⟩
  case ended =>
    refine ⟨_, exec_sievePassDone hcs hst, rfl, ?_⟩
    rw [State.onP_p, Panel.getSve_of_sve (toHub_sve ..), passEnded_getSve]
    refine ⟨rfl, rfl, rfl, rfl, Tab.get_set_same .., fun ht => toHub_sent ?_ hcs 0 (by simp)⟩
    rw [takesPart_congr (q := passEnded cs s.p) (p := s.p) rfl rfl, ht]
  case reported =>
    have hexec := exec_sieveDone hk h
    rw [hsrc] at hexec
    refine ⟨_, hexec, rfl, ?_⟩
    rw [State.onP_p, sieveReport_of_only_member (p := taken s.p.activeHub s.p) hr hb hm hq, setQuery, Panel.modQuery_same]

end

section
/-! PROOFS. The query ledger: what completions and epochs leave of it, and how a query ends (R253-R260, R324-R327). -/

namespace Sys2Proof.Machine

variable {p q r : Panel} {i status : Nat}

/-! The completion of a command, posted or held (R324-R328). -/

/-- The panel once a completion has been written: the query that it names, if any, may be FREE. -/
def noteWritten : Option Nat → Panel → Panel
  | some i, p => settleQuery i (p.modQuery i fun y => { y with written := true })
  | none, p => p

theorem signalCq_reported (f n : Nat) (p : Panel) : Reported p (signalCq f n p) := (Reported.modFn ..).trans (raiseVector_reported ..)

theorem writeCompletion_cases (f : Nat) (c : Completion) (p : Panel) : ∃ x, Reported p x ∧ writeCompletion f c p = noteWritten c.qid x := by
  unfold writeCompletion
  extract_lets _ u v w x
  have hw : Reported p w := ((hostWrite_reported ..).trans (Reported.modFn ..)).trans (Reported.modFn ..)
  refine ⟨x, .ite (hw.trans (signalCq_reported ..)) hw, ?_⟩
  cases c.qid <;> rfl

/-- A completion is posted or dropped, or it waits. -/
theorem postCompletion_cases (f : Nat) (c : Completion) (p : Panel) :
    ∃ x, Reported p x ∧ (postCompletion f c p = noteWritten c.qid x ∨ postCompletion f c p = x) := by
  unfold postCompletion
  dsimp only
  split
  · refine ⟨p.modFn f fun x => { x with ctr := { x.ctr with dropped := x.ctr.dropped + 1 } }, Reported.modFn .., .inl ?_⟩
    cases c.qid <;> rfl
  · split
    · exact ⟨_, (Reported.modFn ..).trans (raise_reported ..), .inr rfl⟩
    · split
      · exact ⟨_, Reported.modFn .., .inr rfl⟩
      · obtain ⟨x, hx, h⟩ := writeCompletion_cases f c p
        exact ⟨x, hx, .inl h⟩

/-- A completion that names no query leaves the retrieval state. -/
theorem postCompletion_ret (f : Nat) {c : Completion} (hc : c.qid = none) (p : Panel) : (postCompletion f c p).ret = p.ret := by
  obtain ⟨x, hx, h⟩ := postCompletion_cases f c p
  rw [hc] at h
  rw [h.elim id id]
  exact hx.ret

@[simp] theorem finishCmd_ret (f n : Nat) (e : BitVec 512) (status info1 info2 : Nat) (p : Panel) :
    (finishCmd f n e status info1 info2 p).ret = p.ret := postCompletion_ret f rfl p

@[simp] theorem advanceEpoch_ret (i : Nat) (p : Panel) : (advanceEpoch i p).ret = p.ret := by
  unfold advanceEpoch sendEpoch
  exact toGroup_ret ..

@[simp] theorem advanceEpoch_clk (i : Nat) (p : Panel) : (advanceEpoch i p).clk = p.clk := by
  unfold advanceEpoch sendEpoch
  exact toGroup_clk ..

theorem Panel.getQuery_of_ret (h : q.ret = p.ret) (j : Nat) : q.getQuery j = p.getQuery j := by
  rw [Panel.getQuery, h]
  rfl

/-! Operations on one query. -/

/-- The clocks stand, and every query but `i` is as before. -/
structure OnlyQuery (i : Nat) (p q : Panel) : Prop where
  clk : q.clk = p.clk
  others : ∀ j, j ≠ i → q.getQuery j = p.getQuery j

theorem OnlyQuery.trans (hq : OnlyQuery i p q) (hr : OnlyQuery i q r) : OnlyQuery i p r :=
  ⟨hr.clk.trans hq.clk, fun j hj => (hr.others j hj).trans (hq.others j hj)⟩

theorem onlyQuery_of_ret (hclk : q.clk = p.clk) (h : q.ret = p.ret) : OnlyQuery i p q := ⟨hclk, fun j _ => Panel.getQuery_of_ret h j⟩

theorem modQuery_onlyQuery (i : Nat) (f : Query → Query) (p : Panel) : OnlyQuery i p (p.modQuery i f) :=
  ⟨rfl, fun _ hj => Panel.modQuery_ne _ _ hj⟩

/-- Query `i` keeps its state, or its entry becomes FREE, and the others are as before. -/
structure SettlesAtMost (i : Nat) (p q : Panel) : Prop extends OnlyQuery i p q where
  own : (q.getQuery i).st = (p.getQuery i).st ∨ (q.getQuery i).st = .free

theorem SettlesAtMost.trans (hq : SettlesAtMost i p q) (hr : SettlesAtMost i q r) : SettlesAtMost i p r := by
  refine ⟨hq.toOnlyQuery.trans hr.toOnlyQuery, ?_⟩
  obtain h | h := hr.own
  · rw [h]
    exact hq.own
  · exact .inr h

theorem SettlesAtMost.ite {c : Prop} [Decidable c] (hq : SettlesAtMost i p q) (hr : SettlesAtMost i p r) :
    SettlesAtMost i p (if c then q else r) := by
  split
  · exact hq
  · exact hr

theorem settlesAtMost_of_ret (hclk : q.clk = p.clk) (h : q.ret = p.ret) : SettlesAtMost i p q :=
  ⟨onlyQuery_of_ret hclk h, .inl (congrArg Query.st (Panel.getQuery_of_ret h i))⟩

theorem settlesAtMost_of_reported (h : Reported p q) : SettlesAtMost i p q := settlesAtMost_of_ret h.clk h.ret

theorem modQuery_settlesAtMost {f : Query → Query} (hf : (f (p.getQuery i)).st = (p.getQuery i).st) : SettlesAtMost i p (p.modQuery i f) :=
  ⟨modQuery_onlyQuery i f p, .inl (by rw [Panel.modQuery_same, hf])⟩

theorem modLedger_settlesAtMost (i n : Nat) (f : LedgerCtr → LedgerCtr) (p : Panel) : SettlesAtMost i p (modLedger n f p) :=
  ⟨⟨rfl, fun _ _ => rfl⟩, .inl rfl⟩

theorem settleQuery_of_not_written (h : (p.getQuery i).written = false) : settleQuery i p = p := by
  simp [settleQuery, h]

theorem settleQuery_settlesAtMost (i : Nat) (p : Panel) : SettlesAtMost i p (settleQuery i p) := by
  have hrefl : SettlesAtMost i p p := settlesAtMost_of_ret rfl rfl
  have hfree : SettlesAtMost i p (p.modQuery i fun x => { query0 with epoch := x.epoch }) :=
    ⟨modQuery_onlyQuery .., .inr (by rw [Panel.modQuery_same]; rfl)⟩
  have hsettled : SettlesAtMost i p ((p.modQuery i fun x => { query0 with epoch := x.epoch }).modRet fun r =>
      { r with order := r.order.filter fun y => decide (y ≠ i) }) := ⟨⟨hfree.clk, hfree.others⟩, hfree.own⟩
  exact .ite hsettled hrefl

theorem noteWritten_settlesAtMost (i : Nat) (p : Panel) : SettlesAtMost i p (noteWritten (some i) p) :=
  (modQuery_settlesAtMost rfl).trans (settleQuery_settlesAtMost ..)

theorem postCompletion_settlesAtMost (f : Nat) {c : Completion} (hc : c.qid = some i) (p : Panel) :
    SettlesAtMost i p (postCompletion f c p) := by
  obtain ⟨x, hx, h⟩ := postCompletion_cases f c p
  rw [hc] at h
  obtain h | h := h <;> rw [h]
  · exact (settlesAtMost_of_reported hx).trans (noteWritten_settlesAtMost ..)
  · exact settlesAtMost_of_reported hx

theorem completeQuery_settlesAtMost (i status stage : Nat) (pairs : List Nat) (p : Panel) :
    SettlesAtMost i p (completeQuery i status stage pairs p) := by
  unfold completeQuery
  extract_lets x u v
  have hu : SettlesAtMost i p u :=
    (modQuery_settlesAtMost (f := fun y => { y with posted := true }) rfl).trans (modLedger_settlesAtMost ..)
  have hv : SettlesAtMost i u v := settlesAtMost_of_reported (hostWrite_reported ..)
  exact .ite (hu.trans (noteWritten_settlesAtMost ..)) ((hu.trans hv).trans (postCompletion_settlesAtMost _ rfl _))

/-! How a query ends (R260). -/

/-- Query `i` is ENDING, or FREE already, and the others are as before. -/
structure Ends (i : Nat) (p q : Panel) : Prop extends OnlyQuery i p q where
  own : (q.getQuery i).st = .ending ∨ (q.getQuery i).st = .free

theorem setQuery_ends (i status : Nat) (p : Panel) : Ends i p (setQuery i .ending status p) :=
  ⟨modQuery_onlyQuery .., .inl (by rw [setQuery, Panel.modQuery_same])⟩

theorem Ends.settle (h : Ends i p q) (hr : SettlesAtMost i q r) : Ends i p r := by
  refine ⟨h.toOnlyQuery.trans hr.toOnlyQuery, ?_⟩
  obtain h' | h' := hr.own
  · rw [h']
    exact h.own
  · exact .inr h'

theorem advanceEpoch_onlyQuery (i : Nat) (p : Panel) : OnlyQuery i p (advanceEpoch i p) :=
  onlyQuery_of_ret (advanceEpoch_clk ..) (advanceEpoch_ret ..)

theorem OnlyQuery.ends (h : OnlyQuery i p q) (hr : Ends i q r) : Ends i p r := ⟨h.trans hr.toOnlyQuery, hr.own⟩

theorem failBound_ends (i status : Nat) (p : Panel) : Ends i p (failBound i status p) :=
  (advanceEpoch_onlyQuery i p).ends ((setQuery_ends ..).settle (completeQuery_settlesAtMost ..))

theorem endQuery_of_reranking (hst : (p.getQuery i).st = .reranking) (h : status ≠ 1) :
    endQuery i status p = setQuery i .ending status (advanceEpoch i p) := by
  rw [endQuery, hst]
  exact if_neg h

theorem endQuery_ends (i status : Nat) (p : Panel) : Ends i p (endQuery i status p) := by
  have hself : OnlyQuery i p p := onlyQuery_of_ret rfl rfl
  cases hst : (p.getQuery i).st with
  | free =>
    rw [endQuery, hst]
    exact ⟨hself, .inr hst⟩
  | queued =>
    rw [endQuery, hst]
    exact (setQuery_ends ..).settle (completeQuery_settlesAtMost ..)
  | scanning | merging =>
    rw [endQuery, hst]
    exact failBound_ends ..
  | reranking =>
    by_cases h : status = 1
    · rw [endQuery, hst]
      simp only [if_pos h]
      exact failBound_ends ..
    · rw [endQuery_of_reranking hst h]
      exact (advanceEpoch_onlyQuery i p).ends (setQuery_ends ..)
  | ending =>
    rw [endQuery, hst]
    exact ⟨hself, .inl hst⟩

/-- An early exit or an expiry leaves a RERANKING query ENDING with its status, the rest of it as it was. -/
theorem endQuery_getQuery_of_reranking (hst : (p.getQuery i).st = .reranking) (h : status ≠ 1) :
    (endQuery i status p).getQuery i = { p.getQuery i with st := .ending, status := status } := by
  rw [endQuery_of_reranking hst h, setQuery, Panel.modQuery_same, Panel.getQuery_of_ret (advanceEpoch_ret ..)]

end Sys2Proof.Machine
end

section
/-! PROOFS. The host's entries about queries: QUERY, CANCEL and EARLY_EXIT (R253, R254, R260, R319-R322). -/

namespace Sys2Proof.Machine

variable {p : Panel} {s : State} {f n q status : Nat} {e : BitVec 512} {act : State → State}

/-! An entry of a submission queue (R319, R320). -/

theorem runEntry_of_not_taken (h : canTake s.p f n = false) (opc : Nat) : runEntry opc f n e act s = s :=
  if_pos (.inl (by simp [h]))

theorem runEntry_of_taken (h : canTake s.p f n = true) (hok : Sqe.ok e = true) :
    runEntry (Sqe.opc e) f n e act s = act (s.onP (takeEntry f n)) := by
  simp [runEntry, h, hok]

theorem isFn_and_sq_lt (hf : f ≤ 16) (hn : n < 16) : (isFn f && decide (n < 16)) = true := by
  simp [isFn, hf, hn]

/-! QUERY (R253, R254, R321). -/

/-- The panel whose ledger has counted a submission of function `f`'s partition. -/
def submitted (f : Nat) (p : Panel) : Panel :=
  if (fnPart f).isSome then modLedger ((fnPart f).getD 0) (fun c => { c with submitted := c.submitted + 1 }) p else p

theorem exec_query (hf : f ≤ 16) (hn : n < 16) (d : Option (List Byte)) :
    ∃ act, exec (.query f n e d) s = .next (runEntry 0x10 f n e act s) := by
  rw [show exec (.query f n e d) s = execQuery f n e d s from rfl, execQuery, isFn_and_sq_lt hf hn, State.run_true]
  exact ⟨_, rfl⟩

/-- Taking and counting a submission leaves the queries, their order, the directory and the settings. -/
theorem submitted_takeEntry_eq (f n : Nat) (p : Panel) :
    ∃ h c, submitted f (takeEntry f n p) = { p with host := h, ret := { p.ret with ctr := c } } := by
  unfold submitted
  split
  · exact ⟨_, _, rfl⟩
  · exact ⟨_, p.ret.ctr, rfl⟩

theorem turnAway_ledger (f n : Nat) (e : BitVec 512) (status ev : Nat) (p : Panel) :
    (turnAway f n e status ev p).ret.query = p.ret.query ∧ (turnAway f n e status ev p).ret.order = p.ret.order := by
  unfold turnAway
  extract_lets key u
  rw [postCompletion_ret _ rfl, raise_ret]
  have hu : u.ret.query = p.ret.query ∧ u.ret.order = p.ret.order := by
    unfold u
    split <;> exact ⟨rfl, rfl⟩
  exact hu

/-- Whether a submission is refused does not rest on what taking and counting it changes. -/
theorem queryRefused_submitted (f n : Nat) (e : BitVec 512) (p : Panel) :
    queryRefused (submitted f (takeEntry f n p)) f n e = queryRefused p f n e := by
  obtain ⟨_, _, heq⟩ := submitted_takeEntry_eq f n p
  rw [heq]
  rfl

/-- The PF carries no partition, and submits no query. -/
theorem fnPart_of_not_refused (h : queryRefused p f n e = false) : fnPart f = some (f - 1) := by
  by_cases hf : f = 0
  · subst hf
    cases h
  · exact if_neg hf

section
variable (hf : f ≤ 16) (hn : n < 16) (h : canTake s.p f n = true) (hok : Sqe.ok e = true) (hopc : Sqe.opc e = 0x10)
include hf hn h hok hopc

theorem exec_query_refused (href : queryRefused s.p f n e = true) (d : Option (List Byte)) :
    exec (.query f n e d) s = .next (s.onP fun p => turnAway f n e 6 0x0804 (submitted f (takeEntry f n p))) := by
  have hr := (queryRefused_submitted f n e s.p).trans href
  rw [submitted] at hr
  change execQuery f n e d s = _
  rw [execQuery, isFn_and_sq_lt hf hn, State.run_true, ← hopc, runEntry_of_taken h hok]
  simp only [State.onP, hr, if_true, submitted]

theorem exec_query_accepted {b : List Byte} (href : queryRefused s.p f n e = false) (hlen : b.length = Qry.plen1 e + Qry.plen2 e)
    (hcrc : (crcHost b).toNat = Qry.pcrc e)
    (hquota : ((liveQueries s.p).filter fun q => decide (q.2.part = f - 1)).length < cfg s.p 0x8001 (f - 1) 3) :
    exec (.query f n e (some b)) s = .next (s.onP fun p => acceptQuery f n e b (submitted f (takeEntry f n p))) := by
  have hpart := fnPart_of_not_refused href
  have hr := (queryRefused_submitted f n e s.p).trans href
  have hq : ((liveQueries (submitted f (takeEntry f n s.p))).filter fun q => decide (q.2.part = f - 1)).length
      < cfg (submitted f (takeEntry f n s.p)) 0x8001 (f - 1) 3 := by
    obtain ⟨_, _, heq⟩ := submitted_takeEntry_eq f n s.p
    rw [heq]
    exact hquota
  simp only [submitted, hpart, Option.isSome_some, Option.getD_some, if_true] at hr hq
  change execQuery f n e (some b) s = _
  rw [execQuery, isFn_and_sq_lt hf hn, State.run_true, ← hopc, runEntry_of_taken h hok]
  simp only [State.onP, submitted, hpart, Option.isSome_some, Option.getD_some, if_true, hr, hlen, hcrc, Nat.not_le.mpr hq, ne_eq,
    not_true_eq_false, or_self, Bool.false_eq_true, if_false]

end

/-- A query accepted is QUEUED under the next epoch and last in submission order, and the others are as before. -/
theorem acceptQuery_ledger {part : Nat} (hpart : fnPart f = some part) (b : List Byte) (p : Panel) :
    let t := acceptQuery f n e b p
    let x := t.getQuery (freeQuery p)
    x.st = .queued ∧ x.epoch = (queryEpoch p (freeQuery p) + 1) % 2 ^ 16 ∧ x.part = part ∧ x.km1 = Qry.k e - 1
      ∧ t.ret.order = p.ret.order ++ [freeQuery p] ∧ ∀ j, j ≠ freeQuery p → t.getQuery j = p.getQuery j := by
  have hget (q : Panel) (l : List Nat) (j : Nat) : (q.modRet fun r => { r with order := r.order ++ l }).getQuery j = q.getQuery j := rfl
  simp only [acceptQuery, hpart, Option.getD_some, hget, Panel.modQuery_same]
  simp only [true_and]
  exact ⟨rfl, fun j hj => Panel.modQuery_ne _ _ hj⟩

/-! CANCEL and EARLY_EXIT (R260, R322). -/

theorem exec_cancel (hf : f ≤ 16) (hn : n < 16) :
    exec (.cancel f n e) s = .next (runEntry 0x11 f n e (fun s => s.onP (endCmd f n e 1)) s) := by
  change execCancel f n e s = _
  rw [execCancel, isFn_and_sq_lt hf hn, State.run_true]

theorem exec_earlyExit (hf : f ≤ 16) (hn : n < 16) :
    exec (.earlyExit f n e) s = .next (runEntry 0x12 f n e (fun s => s.onP (endCmd f n e 2)) s) := by
  change execEarlyExit f n e s = _
  rw [execEarlyExit, isFn_and_sq_lt hf hn, State.run_true]

/-- Both commands, taken: `status` is 1 for CANCEL and 2 for EARLY_EXIT. -/
theorem exec_endCmd_of_taken {i : Instr} (hf : f ≤ 16) (hn : n < 16) (h : canTake s.p f n = true) (hok : Sqe.ok e = true)
    (hi : (i = .cancel f n e ∧ Sqe.opc e = 0x11 ∧ status = 1) ∨ (i = .earlyExit f n e ∧ Sqe.opc e = 0x12 ∧ status = 2)) :
    exec i s = .next (s.onP fun p => endCmd f n e status (takeEntry f n p)) := by
  obtain ⟨rfl, hopc, rfl⟩ | ⟨rfl, hopc, rfl⟩ := hi
  · rw [exec_cancel hf hn, ← hopc, runEntry_of_taken h hok]
    simp only [State.onP]
  · rw [exec_earlyExit hf hn, ← hopc, runEntry_of_taken h hok]
    simp only [State.onP]

theorem endCmd_ret_of_no_target (h : targetQuery p f n e = none) (status : Nat) : (endCmd f n e status p).ret = p.ret := by
  simp only [endCmd, h]
  exact finishCmd_ret ..

section
variable (ht : targetQuery p f n e = some q) (hst : (p.getQuery q).st ≠ .ending)
include ht hst

theorem endCmd_ret_of_wrong_alive (h : fld e 391 384 ≠ ((p.getQuery q).alive + 1) % 256) (status : Nat) :
    (endCmd f n e status p).ret = p.ret := by
  simp only [endCmd, ht, hst, h, ne_eq, not_false_eq_true, if_true, if_false]
  exact (finishCmd_ret ..).trans (raise_ret ..)

/-- The right alive value is taken, and the query ends. -/
theorem endCmd_ret_of_alive (h : fld e 391 384 = ((p.getQuery q).alive + 1) % 256) (status : Nat) :
    (endCmd f n e status p).ret = (endQuery q status (p.modQuery q fun y => { y with alive := fld e 391 384 })).ret := by
  simp only [endCmd, ht, hst, h, ne_eq, not_true_eq_false, if_false]
  exact finishCmd_ret ..

end

end Sys2Proof.Machine
end

section
open Sys2Proof Sys2Proof.Machine

/-- Settles O32: what each entry does once it is taken, and then the ledger. -/
theorem queriesAreAcceptedOrTurnedAway : Obligations.QueriesAreAcceptedOrTurnedAway := by
  intro f n e s hf hn
  refine ⟨fun hno d => ⟨?_, ?_, ?_⟩, fun htake hok => ⟨fun b hopc href hlen hcrc hquota => ?accepted, fun d hopc href => ?refused,
    fun i st hi => ⟨fun hnone => ?noTarget, fun q ht hst halive h2 => ?reranking, fun q ht hst halive => ?queued,
      fun q ht hst halive => ?wrongAlive⟩⟩⟩
  · obtain ⟨act, hexec⟩ := exec_query (s := s) (e := e) hf hn d
    rw [hexec, runEntry_of_not_taken hno]
  · rw [exec_cancel hf hn, runEntry_of_not_taken hno]
  · rw [exec_earlyExit hf hn, runEntry_of_not_taken hno]
  case accepted =>
    obtain ⟨_, _, heq⟩ := submitted_takeEntry_eq f n s.p
    refine ⟨_, exec_query_accepted hf hn htake hok hopc href hlen hcrc hquota, rfl, ?_⟩
    rw [State.onP_p, heq]
    exact acceptQuery_ledger (fnPart_of_not_refused href) b _
  case refused =>
    obtain ⟨_, _, heq⟩ := submitted_takeEntry_eq f n s.p
    refine ⟨_, exec_query_refused hf hn htake hok hopc href d, rfl, ?_⟩
    rw [State.onP_p, heq]
    exact turnAway_ledger ..
  all_goals
    have hexec := exec_endCmd_of_taken hf hn htake hok hi
    refine ⟨_, hexec, rfl, ?_⟩
  case noTarget => exact endCmd_ret_of_no_target (p := takeEntry f n s.p) hnone st
  case wrongAlive => exact endCmd_ret_of_wrong_alive (p := takeEntry f n s.p) ht hst halive st
  case queued =>
    have hne : (s.p.getQuery q).st ≠ .ending := by simp [hst]
    rw [State.onP_p, Panel.getQuery_of_ret (endCmd_ret_of_alive (p := takeEntry f n s.p) ht hne halive st)]
    exact (endQuery_ends ..).own
  case reranking =>
    have hne : (s.p.getQuery q).st ≠ .ending := by simp [hst]
    have hmod : ((takeEntry f n s.p).modQuery q fun y => { y with alive := fld e 391 384 }).getQuery q
        = { s.p.getQuery q with alive := fld e 391 384 } := Panel.modQuery_same ..
    rw [State.onP_p, Panel.getQuery_of_ret (endCmd_ret_of_alive (p := takeEntry f n s.p) ht hne halive st),
      endQuery_getQuery_of_reranking (by rw [hmod]; exact hst) (by omega), hmod]
    exact ⟨rfl, h2, rfl, rfl⟩

end

section
/-! PROOFS. Deadlines, and the completion of a batch (R258-R260). -/

namespace Sys2Proof.Machine

variable {p q : Panel} {s : State} {i r : Nat}

/-! Expiry (R260). -/

/-- Has query `i` expired while it was neither FREE nor ENDING? -/
abbrev Expires (i : Nat) (p : Panel) : Prop :=
  (p.getQuery i).deadline ≠ 0 ∧ (p.getQuery i).deadline ≤ p.now ∧ (p.getQuery i).st ≠ .ending ∧ (p.getQuery i).st ≠ .free

/-- DEADLINE_CHECK's work on one query. -/
def expireQuery (i : Nat) (p : Panel) : Panel :=
  if Expires i p then raise 0x0806 0xFF (keyPart (p.getQuery i).part) none (endQuery i 3 p) else p

theorem exec_deadlineCheck (s : State) :
    exec .deadlineCheck s = .next (s.onP fun p => each (liveQueries p) (fun e => expireQuery e.1) p) := rfl

theorem expireQuery_of_not (h : ¬ Expires i p) : expireQuery i p = p := if_neg h

theorem expireQuery_getQuery (h : Expires i p) (j : Nat) : (expireQuery i p).getQuery j = (endQuery i 3 p).getQuery j := by
  rw [expireQuery, if_pos h, Panel.getQuery_of_ret (raise_ret ..)]

theorem expireQuery_onlyQuery (i : Nat) (p : Panel) : OnlyQuery i p (expireQuery i p) := by
  by_cases h : Expires i p
  · rw [expireQuery, if_pos h]
    exact (endQuery_ends i 3 p).toOnlyQuery.trans (onlyQuery_of_ret (raise_clk ..) (raise_ret ..))
  · rw [expireQuery_of_not h]
    exact onlyQuery_of_ret rfl rfl

theorem expireQuery_not_expires (i : Nat) (p : Panel) : ¬ Expires i (expireQuery i p) := by
  by_cases h : Expires i p
  · rintro ⟨-, -, hending, hfree⟩
    rw [expireQuery_getQuery h] at hending hfree
    exact (endQuery_ends i 3 p).own.elim hending hfree
  · rwa [expireQuery_of_not h]

/-- Whether a query expires is said by the query and the timebase. -/
theorem expires_congr (hclk : q.clk = p.clk) (hquery : q.getQuery i = p.getQuery i) : Expires i q ↔ Expires i p := by
  rw [Expires, Expires, hquery, Panel.now, hclk]
  rfl

/-- A query that does not expire stands through the check of any others. -/
theorem each_expireQuery_of_not (h : ¬ Expires i p) (l : List (Nat × Query)) :
    (each l (fun e => expireQuery e.1) p).getQuery i = p.getQuery i := by
  refine (each_keeps (P := fun u : Panel => u.clk = p.clk ∧ u.getQuery i = p.getQuery i) l (fun e u hu => ?_) ⟨rfl, rfl⟩).2
  obtain ⟨hclk, hquery⟩ := hu
  by_cases he : e.1 = i
  · rw [he, expireQuery_of_not (mt (expires_congr hclk hquery).mp h)]
    exact ⟨hclk, hquery⟩
  · have hstep := expireQuery_onlyQuery e.1 u
    exact ⟨hstep.clk.trans hclk, (hstep.others i (Ne.symm he)).trans hquery⟩

/-- A query in the list that expires ends, once, when its turn comes. -/
theorem each_expireQuery_of_expires (h : Expires i p) {l : List (Nat × Query)} (hl : ∃ e ∈ l, e.1 = i) :
    ∃ u, u.getQuery i = p.getQuery i ∧ (each l (fun e => expireQuery e.1) p).getQuery i = (endQuery i 3 u).getQuery i := by
  induction l generalizing p with
  | nil => simp at hl
  | cons a l ih =>
    by_cases ha : a.1 = i
    · refine ⟨p, rfl, ?_⟩
      have hrest := each_expireQuery_of_not (expireQuery_not_expires i p) l
      rw [← expireQuery_getQuery h, ← hrest, ← ha]
      rfl
    · have hstep := expireQuery_onlyQuery a.1 p
      have hquery := hstep.others i (Ne.symm ha)
      have hl' : ∃ e ∈ l, e.1 = i := by simpa [ha] using hl
      obtain ⟨u, hu, hends⟩ := ih ((expires_congr hstep.clk hquery).mpr h) hl'
      exact ⟨u, hu.trans hquery, hends⟩

/-- A query that is not FREE is among the live ones. -/
theorem mem_liveQueries (h : (p.getQuery i).st ≠ .free) : ∃ e ∈ liveQueries p, e.1 = i := by
  obtain hnone | hmem := Tab.get_eq_default_or_mem query0 p.ret.query i
  · rw [Panel.getQuery, hnone] at h
    exact absurd rfl h
  · exact ⟨_, List.mem_filter.mpr ⟨hmem, decide_eq_true h⟩, rfl⟩

/-- DEADLINE_CHECK ends a query that expires. -/
theorem each_liveQueries_of_expires (h : Expires i p) : ∃ u, u.getQuery i = p.getQuery i
    ∧ (each (liveQueries p) (fun e => expireQuery e.1) p).getQuery i = (endQuery i 3 u).getQuery i := by
  have ⟨_, _, _, hfree⟩ := h
  exact each_expireQuery_of_expires h (mem_liveQueries hfree)

/-! QUERY_COMPLETION (R258). -/

theorem completeLane_frame (r : Nat) (l : Lane) (s : State) :
    (completeLane r l s).mem = s.mem ∧ (completeLane r l s).p.reg = s.p.reg := by
  have hcomplete (status stage : Nat) (pairs : List Nat) (u : Panel) (hu : u.reg = s.p.reg) :
      (completeQuery l.qid status stage pairs u).reg = s.p.reg := (completeQuery_reg ..).trans hu
  unfold completeLane
  dsimp only
  split
  · split <;> exact ⟨rfl, hcomplete _ _ _ _ rfl⟩
  · split
    · exact ⟨rfl, rfl⟩
    · exact ⟨rfl, hcomplete _ _ _ _ rfl⟩
  all_goals exact ⟨rfl, rfl⟩

/-- A query still SCANNING at the completion barrier returns to QUEUED. -/
theorem completeLane_of_scanning {l : Lane} (hst : (s.p.getQuery l.qid).st = .scanning) (r : Nat) :
    completeLane r l s = s.onP (setQuery l.qid .queued 0) := by
  simp only [completeLane, hst]

/-- The panel whose region `r` has unbound its oldest batch, the queries of `lanes` FREE where they may be. -/
def unbound (r : Nat) (lanes : List Lane) (p : Panel) : Panel :=
  each lanes (fun l p => settleQuery l.qid p) (p.modReg r fun g => { g with batches := g.batches.drop 1 })

theorem unbound_batches (r : Nat) (lanes : List Lane) (p : Panel) :
    ((unbound r lanes p).getReg r).batches = (p.getReg r).batches.drop 1 := by
  rw [unbound, Panel.getReg_of_reg (each_reg lanes _ fun l u => settleQuery_reg l.qid u), Panel.modReg_same]

/-- The one query of a batch, still SCANNING and its completion not written, is QUEUED once its lane is unbound. -/
theorem completeLane_unbound_queued {l : Lane} (hst : (s.p.getQuery l.qid).st = .scanning) (hw : (s.p.getQuery l.qid).written = false)
    (r : Nat) : ((unbound r [l] (completeLane r l s).p).getQuery l.qid).st = .queued := by
  rw [completeLane_of_scanning hst, State.onP_p]
  have hkeep (f : Region → Region) (u : Panel) : (u.modReg r f).getQuery l.qid = u.getQuery l.qid := rfl
  have hquery (f : Region → Region) : ((setQuery l.qid .queued 0 s.p).modReg r f).getQuery l.qid
      = { s.p.getQuery l.qid with st := .queued, status := 0 } := by
    rw [hkeep, setQuery, Panel.modQuery_same]
  change ((settleQuery l.qid ((setQuery l.qid .queued 0 s.p).modReg r _)).getQuery l.qid).st = _
  rw [settleQuery_of_not_written (by rw [hquery]; exact hw), hquery]

theorem exec_queryCompletion_without_batch (hr : r < 64) (h : (s.p.getReg r).batches = []) : exec (.queryCompletion r) s = .next s := by
  change execQueryCompletion r s = _
  rw [execQueryCompletion, isRegion_of_lt hr, State.run_true, h]

section
variable {b : Batch} {rest : List Batch} (hr : r < 64) (hb : (s.p.getReg r).batches = b :: rest)
include hr hb

theorem exec_queryCompletion_early (h : b.endAt = 0 ∨ s.p.now < b.endAt) : exec (.queryCompletion r) s = .next s := by
  change execQueryCompletion r s = _
  rw [execQueryCompletion, isRegion_of_lt hr, State.run_true]
  simp only [hb, if_pos h]

theorem exec_queryCompletion (h0 : b.endAt ≠ 0) (h : b.endAt ≤ s.p.now) :
    exec (.queryCompletion r) s = .next ((each b.lanes (completeLane r) s).onP (unbound r b.lanes)) := by
  have hdue : ¬ (b.endAt = 0 ∨ s.p.now < b.endAt) := by omega
  change execQueryCompletion r s = _
  rw [execQueryCompletion, isRegion_of_lt hr, State.run_true]
  simp only [hb, if_neg hdue]
  rfl

end

end Sys2Proof.Machine
end

section
/-! PROOFS. The Shard Directory: writes of its entries, and their verification (R237-R239). -/

namespace Sys2Proof.Machine

variable {p q : Panel} {s : State} {i n : Nat} {x : BitVec 128}

/-! What placing keys and asking for scans leaves (R144, R239, R485). -/

@[simp] theorem sendKey_ret (n j : Nat) (p : Panel) : (sendKey n j p).ret = p.ret := rfl

@[simp] theorem placeKeys_ret (j : Nat) (p : Panel) : (placeKeys j p).ret = p.ret := by
  unfold placeKeys
  dsimp only
  split
  · rfl
  · exact each_keeps (P := fun u : Panel => u.ret = p.ret) _ (fun n u hu => (sendKey_ret n j u).trans hu) rfl

theorem each_placeKeys_ret (l : List Nat) (p : Panel) : (each l placeKeys p).ret = p.ret :=
  each_keeps (P := fun u : Panel => u.ret = p.ret) l (fun j u hu => (placeKeys_ret j u).trans hu) rfl

/-- `q` is `p` but for the check engines, the cores whose scratchpads they read, and the verifications still to be asked for. -/
def OnlyScans (p q : Panel) : Prop :=
  ∃ core chk acc v, q = { p with core := core, chk := chk, nextAcc := acc, ret := { p.ret with verify := v } }

theorem OnlyScans.refl (p : Panel) : OnlyScans p p := ⟨_, _, _, _, rfl⟩

theorem OnlyScans.trans {u : Panel} (hq : OnlyScans p q) (hu : OnlyScans q u) : OnlyScans p u := by
  obtain ⟨_, _, _, _, rfl⟩ := hq
  obtain ⟨_, _, _, _, rfl⟩ := hu
  exact ⟨_, _, _, _, rfl⟩

theorem OnlyScans.ite {u : Panel} {c : Prop} [Decidable c] (hq : OnlyScans p q) (hu : OnlyScans p u) : OnlyScans p (if c then q else u) := by
  split
  · exact hq
  · exact hu

theorem OnlyScans.getDir (h : OnlyScans p q) (j : Nat) : q.getDir j = p.getDir j := by obtain ⟨_, _, _, _, rfl⟩ := h; rfl

theorem modChk_onlyScans (j : Nat) (f : CheckEng → CheckEng) (p : Panel) : OnlyScans p (p.modChk j f) := ⟨_, _, _, _, rfl⟩

theorem askScan_onlyScans (j : Nat) (p : Panel) : OnlyScans p (askScan j p) := by
  unfold askScan
  dsimp only
  split
  · exact .refl p
  · split
    · exact .refl p
    · exact ⟨_, _, _, _, rfl⟩

theorem beginScan_onlyScans (j : Nat) (p : Panel) : OnlyScans p (beginScan j p) := by
  unfold beginScan
  split
  · exact .refl p
  · refine .ite (.trans ?_ (askScan_onlyScans ..)) (.refl p)
    exact ⟨_, _, _, _, rfl⟩

theorem askCheck_onlyScans (j ga len : Nat) (why : ScanFor) (p : Panel) : OnlyScans p (askCheck j ga len why p) :=
  .ite ((modChk_onlyScans ..).trans (beginScan_onlyScans ..)) (.refl p)

theorem modVerify_onlyScans (f : List Nat → List Nat) (p : Panel) : OnlyScans p (p.modRet fun r => { r with verify := f r.verify }) :=
  ⟨_, _, _, _, rfl⟩

theorem pumpShards_onlyScans (j : Nat) (p : Panel) : OnlyScans p (pumpShards j p) :=
  each_keeps (P := OnlyScans p) _ (fun e u hu =>
    hu.trans (.ite ((modVerify_onlyScans (·.filter fun y => decide (y ≠ e)) u).trans (askCheck_onlyScans ..)) (.refl u))) (.refl p)

theorem verifyShard_onlyScans (i : Nat) (p : Panel) : OnlyScans p (verifyShard i p) :=
  (modVerify_onlyScans (fun v => v.filter (fun y => decide (y ≠ i)) ++ [i]) p).trans (pumpShards_onlyScans ..)

/-! Writes of directory entries (R238, R239). -/

theorem Panel.getDir_of_dir (h : q.ret.dir = p.ret.dir) (j : Nat) : q.getDir j = p.getDir j := by
  rw [Panel.getDir, h]
  rfl

/-- An entry that is VERIFYING becomes LOST, and the others are as before. -/
theorem loseEntry_getDir (h : (p.getDir i).st = .verifying) (j : Nat) :
    (loseEntry i p).getDir j = (p.modDir i fun d => { d with st := .lost }).getDir j := by
  unfold loseEntry
  rw [if_neg (by simp [h]), Panel.getDir_of_dir (congrArg Retrieval.dir (raise_ret ..))]

/-- The entry that a write leaves (R239). -/
def dirWritten (p : Panel) (x : BitVec 128) : DirEntry :=
  ⟨x, if DirE.len x = 0 then .empty else if entryLost p x = true then .lost else .verifying⟩

/-- The session of the partition that owns an entry writes it as one of no partition does. -/
theorem writeDir_of_owner {part : Option Nat} (hown : dirOwner p i = some n) (hpart : part = none ∨ part = some n) :
    writeDir part i x p = writeDir none i x p := by
  obtain rfl | rfl := hpart
  · rfl
  · simp [writeDir, hown]

theorem writeDir_getDir {part : Option Nat} (hown : dirOwner p i = some n) (hpart : part = none ∨ part = some n)
    (hok : dirSitesOk p n x = true) (j : Nat) :
    (writeDir part i x p).2.getDir j = (p.modDir i fun _ => dirWritten p x).getDir j := by
  have hkeys (l : List Nat) (u : Panel) : (each l placeKeys u).getDir j = u.getDir j :=
    Panel.getDir_of_dir (congrArg Retrieval.dir (each_placeKeys_ret l u)) j
  rw [writeDir_of_owner hown hpart]
  simp only [writeDir, hown, hok, dirWritten, Bool.false_eq_true, if_false, not_true_eq_false]
  by_cases hlen : DirE.len x = 0
  · simp only [if_pos hlen, hkeys]
    exact (modVerify_onlyScans (·.filter fun y => decide (y ≠ i)) _).getDir j
  · by_cases hlost : entryLost p x = true
    · simp only [if_neg hlen, if_pos hlost, hkeys]
      rw [loseEntry_getDir (by rw [Panel.modDir_same])]
      by_cases hj : j = i
      · subst hj
        simp only [Panel.modDir_same]
      · simp only [Panel.modDir_ne _ _ hj]
    · simp only [if_neg hlen, if_neg hlost]
      rw [(verifyShard_onlyScans ..).getDir, hkeys]

theorem writeDir_of_bad_sites {part : Option Nat} (hown : dirOwner p i = some n) (hok : dirSitesOk p n x = false) :
    (writeDir part i x p).2 = p := by
  simp [writeDir, hown, hok, apply_ite Prod.snd]

theorem writeDir_of_other_partition {m : Nat} (hown : dirOwner p i = some n) (hm : m ≠ n) : (writeDir (some m) i x p).2 = p := by
  simp [writeDir, hown, hm]

theorem writeDir_of_no_owner {part : Option Nat} (hown : dirOwner p i = none) : (writeDir part i x p).2 = p := by
  simp [writeDir, hown]

theorem exec_directoryEntryWrite (hi : i < 524288) (part : Option Nat) (x : BitVec 128) (s : State) :
    exec (.directoryEntryWrite part i x) s = .next (s.onP fun p => (writeDir part i x p).2) := by
  change execDirectoryEntryWrite part i x s = _
  rw [execDirectoryEntryWrite, State.runP_true, if_pos hi]
  rfl

theorem exec_directoryEntryWrite_outside (hi : 524288 ≤ i) (part : Option Nat) (x : BitVec 128) (s : State) :
    exec (.directoryEntryWrite part i x) s = .next s := by
  change execDirectoryEntryWrite part i x s = _
  rw [execDirectoryEntryWrite, State.runP_true, if_neg (Nat.not_lt.mpr hi)]

/-! The end of a verification (R239, R486). -/

/-- The panel in which the hub has taken the one result of site `j`, and asked for the verifications that wait there. -/
def resultTaken (j : Nat) (w : ScanRes) (p : Panel) : Panel :=
  pumpShards j (p.modChk j fun e => { e with ready := e.ready.erase w })

theorem resultTaken_onlyScans (j : Nat) (w : ScanRes) (p : Panel) : OnlyScans p (resultTaken j w p) :=
  (modChk_onlyScans ..).trans (pumpShards_onlyScans ..)

/-- A shard's header is read from the stacks, under the settings. -/
theorem OnlyScans.shardHeaderOk (h : OnlyScans s.p q) (i : Nat) (x : BitVec 128) :
    Machine.shardHeaderOk { s with p := q } i x = Machine.shardHeaderOk s i x := by
  obtain ⟨_, _, _, _, rfl⟩ := h
  rfl

/-- The panel whose entry `i` has failed its verification. -/
def verifyFailed (home key i : Nat) (p : Panel) : Panel :=
  raise 0x0802 home key (some (BitVec.ofNat 64 i)) (p.modDir i fun y => { y with st := .bad })

section
variable {reason : Nat} {crc : BitVec 64} {l : List Byte} (hst : (s.p.getDir i).st = .verifying)
  (hready : (s.p.getChk (DirE.home (s.p.getDir i).bits)).ready = [⟨.shard i (s.p.getDir i).bits, reason, crc, l⟩])
include hst hready

theorem exec_shardVerifyDone_good (hreason : reason = 0) (hcrc : crc.toNat = DirE.crc (s.p.getDir i).bits)
    (hhead : shardHeaderOk s i (s.p.getDir i).bits = true) : ∃ q, OnlyScans s.p q ∧
    exec (.shardVerifyDone i) s = .next { s with p := q.modDir i fun y => { y with st := if y.st = .verifying then .usable else y.st } } := by
  have htake := resultTaken_onlyScans (DirE.home (s.p.getDir i).bits) ⟨.shard i (s.p.getDir i).bits, reason, crc, l⟩ s.p
  rw [← htake.shardHeaderOk] at hhead
  refine ⟨_, htake, ?_⟩
  change execShardVerifyDone i s = _
  rw [execShardVerifyDone, State.run_true]
  simp only [takeReady, hready, hst, List.find?_cons, decide_true, ne_eq, not_true_eq_false, if_false, reduceCtorEq]
  exact congrArg _ (if_pos ⟨hreason, hcrc, hhead⟩)

theorem exec_shardVerifyDone_bad (hbad : reason ≠ 0 ∨ crc.toNat ≠ DirE.crc (s.p.getDir i).bits
    ∨ shardHeaderOk s i (s.p.getDir i).bits = false) : ∃ q key, OnlyScans s.p q ∧
    exec (.shardVerifyDone i) s = .next { s with p := verifyFailed (DirE.home (s.p.getDir i).bits) key i q } := by
  have htake := resultTaken_onlyScans (DirE.home (s.p.getDir i).bits) ⟨.shard i (s.p.getDir i).bits, reason, crc, l⟩ s.p
  rw [show exec (.shardVerifyDone i) s = execShardVerifyDone i s from rfl, execShardVerifyDone, State.run_true]
  simp only [takeReady, hready, hst, List.find?_cons, decide_true, ne_eq, not_true_eq_false, if_false, reduceCtorEq]
  refine ⟨_, _, htake, congrArg _ (if_neg ?_)⟩
  rintro ⟨hreason, hcrc, hhead⟩
  have hhead' := htake.shardHeaderOk .. ▸ hhead
  exact hbad.elim (· hreason) (·.elim (· hcrc) (ne_true_of_eq_false · hhead'))

end

end Sys2Proof.Machine
end

section
open Sys2Proof Sys2Proof.Machine

/-- Settles O33: each command's effect on the panel, and then the queries, the batches and the directory in it. -/
theorem deadlinesCompletionsAndTheDirectory : Obligations.DeadlinesCompletionsAndTheDirectory := by
  intro r s hr
  refine ⟨⟨_, exec_deadlineCheck s, rfl, fun q => ⟨fun hno => ?kept, fun hd hnow hst => ?reranking, fun hd hnow hst => ?queued⟩⟩,
    fun hnone => exec_queryCompletion_without_batch hr hnone,
    fun b rest hb => ⟨fun hearly => exec_queryCompletion_early hr hb hearly, fun h0 hdue => ?completed⟩,
    fun part i n x hi hown hpart => ⟨fun hok => ?written, fun hbad => ?badSites, fun m hm => ?otherPartition⟩,
    fun part i x hout => ?notOwned, fun i reason crc l hst hready => ⟨fun hreason hcrc hhead => ?usable, fun hbad => ?bad⟩⟩
  case kept =>
    refine each_expireQuery_of_not ?_ _
    rintro ⟨hd, hnow, hending, hfree⟩
    obtain h | h | h | h := hno
    · exact hd h
    · exact Nat.not_le.mpr h hnow
    · exact hfree h
    · exact hending h
  case reranking =>
    obtain ⟨u, hu, hends⟩ := each_liveQueries_of_expires (p := s.p) ⟨hd, hnow, by simp [hst], by simp [hst]⟩
    have hst' : (u.getQuery q).st = .reranking := by rw [hu, hst]
    rw [State.onP_p, hends, endQuery_getQuery_of_reranking hst' (by decide)]
    exact ⟨rfl, rfl⟩
  case queued =>
    obtain ⟨u, -, hends⟩ := each_liveQueries_of_expires (p := s.p) ⟨hd, hnow, by simp [hst], by simp [hst]⟩
    rw [State.onP_p, hends]
    exact (endQuery_ends q 3 u).own
  case completed =>
    obtain ⟨hmem, hreg⟩ := each_keeps (P := fun t : State => t.mem = s.mem ∧ t.p.reg = s.p.reg) b.lanes
      (fun l t ht => ⟨(completeLane_frame r l t).1.trans ht.1, (completeLane_frame r l t).2.trans ht.2⟩) (b := s) ⟨rfl, rfl⟩
    refine ⟨_, exec_queryCompletion hr hb h0 hdue, hmem, ?_, fun l hl hst hwritten => ?_⟩
    · rw [State.onP_p, unbound_batches, Panel.getReg_of_reg hreg, hb]
      rfl
    · rw [hl]
      exact completeLane_unbound_queued hst hwritten r
  case written =>
    refine ⟨_, exec_directoryEntryWrite hi part x s, rfl, ?_, fun j hj => ?_⟩ <;> rw [State.onP_p, writeDir_getDir hown hpart hok]
    · rw [Panel.modDir_same]
      rfl
    · exact Panel.modDir_ne _ _ hj
  case badSites => rw [exec_directoryEntryWrite hi, State.onP_eq_self (writeDir_of_bad_sites hown hbad)]
  case otherPartition => rw [exec_directoryEntryWrite hi, State.onP_eq_self (writeDir_of_other_partition hown hm)]
  case notOwned =>
    by_cases hi : i < 524288
    · rw [exec_directoryEntryWrite hi, State.onP_eq_self (writeDir_of_no_owner (hout.resolve_left (Nat.not_le.mpr hi)))]
    · exact exec_directoryEntryWrite_outside (Nat.not_lt.mp hi) part x s
  case usable =>
    obtain ⟨q, hq, hexec⟩ := exec_shardVerifyDone_good hst hready hreason hcrc hhead
    refine ⟨_, hexec, rfl, ?_⟩
    have hdir : q.getDir i = s.p.getDir i := hq.getDir i
    rw [Panel.modDir_same, hdir, if_pos hst]
  case bad =>
    obtain ⟨q, key, hq, hexec⟩ := exec_shardVerifyDone_bad hst hready hbad
    have hdir : q.getDir i = s.p.getDir i := hq.getDir i
    refine ⟨_, hexec, rfl, ?_, raise_logged (show evSpan 0x0802 = .always by decide) ..⟩
    rw [verifyFailed, Panel.getDir_of_dir (congrArg Retrieval.dir (raise_ret ..)), Panel.modDir_same, hdir]

end

section
/-! PROOFS. Sequence records, ring orders and lengths (R268, R272, R273, R276). -/

namespace Sys2Proof.Machine

variable {p : Panel} {s : State} {r x : Nat} {ring : Bool} {data : List Byte}

/-! A setting after one is stored. -/

theorem Tab.find?_set {α : Type} (k j : Nat) (v : α) (t : Tab α) :
    Tab.find? (Tab.set k v t) j = if j = k then some v else Tab.find? t j := by
  induction t with
  | nil => simp [Tab.set, Tab.find?, eq_comm]
  | cons e t ih =>
    obtain ⟨i, y⟩ := e
    by_cases hi : i = k
    · subst hi
      by_cases hj : j = i <;> simp [Tab.set, Tab.find?, hj, eq_comm (a := i)]
    · by_cases hk : k < i
      · simp [Tab.set, Tab.find?, hi, hk, eq_comm]
      · by_cases hj : i = j
        · subst hj; simp [Tab.set, Tab.find?, hi, hk]
        · simp [Tab.set, Tab.find?, hi, hk, hj, ih]

theorem odBytes_odPut_same (i r : Nat) (b : List Byte) (p : Panel) : odBytes (odPut i r b p) i r = b := by
  rw [odBytes, odPut, Tab.find?_set, if_pos rfl]

theorem odBytes_odPut_ne {i j r n : Nat} (h : 256 * j + n ≠ 256 * i + r) (b : List Byte) (p : Panel) :
    odBytes (odPut i r b p) j n = odBytes p j n := by
  rw [odBytes, odPut, Tab.find?_set, if_neg h]
  rfl

/-! The commit of a sequence record or a ring order (R268, R272). -/

theorem exec_sequenceRecordCommit (hr : r < 64) (hlen : data.length = if ring then 128 else 17) (s : State) :
    exec (.sequenceRecordCommit r ring data) s = .next (s.onP fun p => (commitSequence r ring data p).2) := by
  change execSequenceRecordCommit r ring data s = _
  rw [execSequenceRecordCommit, isRegion_of_lt hr, State.runP_true, if_pos hlen]
  rfl

/-- Out of DEFINED, a commit is refused for a field or for the phase, and changes nothing. -/
theorem commitSequence_of_not_defined (h : (p.getReg r).phase ≠ .defined) :
    (commitSequence r ring data p).1 ≠ 0 ∧ (commitSequence r ring data p).2 = p := by
  unfold commitSequence
  extract_lets q f l lim body bad
  have hq : q = p := if_neg h
  clear_value bad
  cases bad with
  | some n => exact ⟨by simp [abortOf], hq⟩
  | none =>
    rw [hq, if_pos h]
    exact ⟨by simp [abortOf], rfl⟩

/-- A commit that answers 0 was of a DEFINED region; it stores the record with its LIMIT, and the ring order if it is one. -/
theorem commitSequence_of_taken (h : (commitSequence r ring data p).1 = 0) : (p.getReg r).phase = .defined
    ∧ ∃ lim, (commitSequence r ring data p).2 =
      odPut 0x5060 r ((if ring then odBytes p 0x5060 r else data).take 13 ++ leBytes 4 lim)
        (if ring then odPut 0x5061 r data (refreshDuty r p) else refreshDuty r p) := by
  have hph : (p.getReg r).phase = .defined :=
    Decidable.byContradiction fun hph => (commitSequence_of_not_defined hph).1 h
  refine ⟨hph, ?_⟩
  revert h
  unfold commitSequence
  rw [if_pos hph]
  extract_lets q f l lim body bad
  clear_value bad
  cases bad with
  | some n => simp [abortOf]
  | none =>
    dsimp only
    split
    · simp [abortOf]
    · split
      · intro _
        refine ⟨lim, ?_⟩
        cases ring <;> rfl
      · simp [abortOf]

/-! The write of a length (R273, R276). -/

theorem exec_sequenceLengthWrite (hr : r < 64) (x : BitVec 32) (s : State) :
    exec (.sequenceLengthWrite r x) s = .next (s.onP fun p => (writeLength r x.toNat p).2) := by
  change execSequenceLengthWrite r x s = _
  rw [execSequenceLengthWrite, isRegion_of_lt hr]
  rfl

theorem writeLength_of_above_limit (hph : (p.getReg r).phase ≠ .defined) (h : Sq.limit p r < x) : (writeLength r x p).2 = p := by
  simp [writeLength, hph, h]

theorem writeLength_of_below_in_run (hph : (p.getReg r).phase = .active ∨ (p.getReg r).phase = .armed)
    (h : x < (p.getReg r).seq.length) : (writeLength r x p).2 = p := by
  by_cases hlim : Sq.limit p r < x
  · obtain hph | hph := hph <;> exact writeLength_of_above_limit (by simp [hph]) hlim
  · obtain hph | hph := hph <;> simp [writeLength, hph, h, hlim]

theorem writeLength_of_active (hph : (p.getReg r).phase = .active) (hlim : x ≤ Sq.limit p r) (h : (p.getReg r).seq.length ≤ x) :
    (writeLength r x p).2 = p.modReg r fun g => { g with seq := { g.seq with staged := g.seq.staged ++ [x] } } := by
  simp [writeLength, hph, Nat.not_lt.mpr h, Nat.not_lt.mpr hlim]

theorem writeLength_of_at_rest
    (hph : (p.getReg r).phase = .frozen ∨ (p.getReg r).phase = .ended ∨ (p.getReg r).phase = .free) (hlim : x ≤ Sq.limit p r) :
    (writeLength r x p).2 = if x < (p.getReg r).seq.length then shrinkLength r x p else applyLength r x p := by
  obtain hph | hph | hph := hph <;> simp [writeLength, hph, Nat.not_lt.mpr hlim, apply_ite Prod.snd]

/-! A length in force (R273, R276), and the lengths that stay staged (R281). -/

theorem dropPage_reg (w : Nat × Nat × BitVec 32) (p : Panel) : (dropPage w p).reg = p.reg := ite_reg rfl rfl

theorem shrinkLength_seq (r len : Nat) (p : Panel) : ((shrinkLength r len p).getReg r).seq.length = len
    ∧ ((shrinkLength r len p).getReg r).seq.staged = (p.getReg r).seq.staged := by
  unfold shrinkLength
  extract_lets seq stays largest
  rw [Panel.modReg_same, Panel.getReg_of_reg (each_reg _ p dropPage_reg)]
  exact ⟨rfl, rfl⟩

/-- The pages made valid are noted with the region's sequence, and the lengths that it has staged stay. -/
theorem applyPage_staged (r k pg : Nat) (acc : Panel × Nat × Nat) :
    ((applyPage r k pg acc).1.getReg r).seq.staged = (acc.1.getReg r).seq.staged := by
  unfold applyPage
  extract_lets p old new q
  split
  · rfl
  · split
    · rfl
    · split
      · rw [Panel.getReg_of_reg (gaRefuse_reg ..)]
        rfl
      · rw [Panel.modReg_same]
        rfl

theorem applyCore_staged (r k n : Nat) (acc : Panel × Nat × Nat) :
    ((applyCore r k n acc).1.getReg r).seq.staged = (acc.1.getReg r).seq.staged :=
  each_keeps (P := fun x : Panel × Nat × Nat => (x.1.getReg r).seq.staged = (acc.1.getReg r).seq.staged) _
    (fun pg x hx => (applyPage_staged r k pg x).trans hx) rfl

theorem applyLength_seq (r len : Nat) (p : Panel) : ((applyLength r len p).getReg r).seq.length = len
    ∧ ((applyLength r len p).getReg r).seq.staged = (p.getReg r).seq.staged := by
  unfold applyLength
  extract_lets x largest q bound took fresh u
  have hx : (x.1.getReg r).seq.staged = (p.getReg r).seq.staged :=
    each_keeps (P := fun y : Panel × Nat × Nat => (y.1.getReg r).seq.staged = (p.getReg r).seq.staged) _
      (fun e y hy => each_keeps (P := fun z : Panel × Nat × Nat => (z.1.getReg r).seq.staged = (p.getReg r).seq.staged) _
        (fun k z hz => (applyCore_staged r k _ z).trans hz) hy) rfl
  have hu : (u.getReg r).seq.length = len ∧ (u.getReg r).seq.staged = (p.getReg r).seq.staged := by
    rw [Panel.modReg_same]
    exact ⟨rfl, hx⟩
  rwa [Panel.getReg_of_reg (ite_reg (raiseAs_reg ..) rfl)]

end Sys2Proof.Machine
end

section
open Sys2Proof Sys2Proof.Machine

/-- Settles O34: each command's effect on the panel, and then the settings and the sequence in it. -/
theorem sequenceRecordsAndLengths : Obligations.SequenceRecordsAndLengths := by
  intro r s hr g
  refine ⟨fun data hlen htaken => ?record, fun data hlen htaken => ?ring, fun ring data hlen hph => ?notDefined,
    fun x => ⟨fun hph hlim hle => ?staged, fun hph hlim => ?aboveLimit, fun hph hlt => ?below, fun hph hlim => ?inForce⟩⟩
  case record =>
    obtain ⟨hph, lim, hcommit⟩ := commitSequence_of_taken htaken
    refine ⟨_, lim, exec_sequenceRecordCommit hr hlen s, rfl, hph, ?_⟩
    rw [State.onP_p, hcommit, odBytes_odPut_same, odBytes_odPut_ne (by omega)]
    exact ⟨rfl, rfl⟩
  case ring =>
    obtain ⟨-, lim, hcommit⟩ := commitSequence_of_taken htaken
    refine ⟨_, exec_sequenceRecordCommit hr hlen s, rfl, ?_⟩
    rw [State.onP_p, hcommit, if_pos rfl, odBytes_odPut_ne (by omega)]
    exact odBytes_odPut_same ..
  case notDefined => rw [exec_sequenceRecordCommit hr hlen, State.onP_eq_self (commitSequence_of_not_defined hph).2]
  case staged =>
    refine ⟨_, exec_sequenceLengthWrite hr x s, rfl, ?_⟩
    rw [State.onP_p, writeLength_of_active hph hlim hle, Panel.modReg_same]
    exact ⟨rfl, rfl⟩
  case aboveLimit => rw [exec_sequenceLengthWrite hr, State.onP_eq_self (writeLength_of_above_limit hph hlim)]
  case below => rw [exec_sequenceLengthWrite hr, State.onP_eq_self (writeLength_of_below_in_run hph hlt)]
  case inForce =>
    refine ⟨_, exec_sequenceLengthWrite hr x s, rfl, ?_⟩
    rw [State.onP_p, writeLength_of_at_rest hph hlim]
    split
    · exact shrinkLength_seq ..
    · exact applyLength_seq ..

end

section
/-! PROOFS. Messages that a node takes and unicasts that it sends (R289-R294), and what sending leaves of the nodes. -/

namespace Sys2Proof.Machine

variable {p q r : Panel} {s : State} {n src : Nat} {k : Pkt}

/-! Changes of the panel, one after another. -/

theorem State.onP_onP (f g : Panel → Panel) (s : State) : (s.onP f).onP g = s.onP fun p => g (f p) := rfl

theorem State.onP_congr {f g : Panel → Panel} (h : f s.p = g s.p) : s.onP f = s.onP g := congrArg (fun p => { s with p := p }) h

/-- A command on the panel alone, whose effect here is `g`. -/
theorem State.runP_eq {f g : Panel → Panel} (h : f s.p = g s.p) : s.runP true f = .next (s.onP g) :=
  congrArg Host.Outcome.next (State.onP_congr h)

theorem State.runP_same {f : Panel → Panel} (h : f s.p = s.p) : s.runP true f = .next s :=
  congrArg Host.Outcome.next (State.onP_eq_self h)

/-! A message that a node takes and acts on (R294). -/

theorem onPkt_of_acts (h : Delivered n k p) (hi : idleHub p n k = false) (f : Panel → Panel) : onPkt n k f p = f (taken n p) := by
  have hidle : idleHub (taken n p) n k = false := hi
  simp [onPkt, takePkt_of_delivered h, hidle]

theorem onPktS_of_acts (h : Delivered n k s.p) (hi : idleHub s.p n k = false) (f : State → State) :
    onPktS k n f s = f (s.onP (taken n)) := by
  have hidle : idleHub (taken n s.p) n k = false := hi
  simp [onPktS, takePkt_of_delivered h, hidle, State.onP]

theorem onHubPkt_of_acts (h : Delivered n k s.p) (hi : idleHub s.p n k = false) (f : State → State) :
    onHubPkt n k f s = f (s.onP (taken n)) := by
  rw [onHubPkt, if_neg (fun own => own.2.2 h.2.2), onPktS_of_acts h hi]

/-- A unicast that the active hub sends by its row (log 24). -/
theorem onHubPkt_of_own (hn : n = s.p.activeHub) (hsrc : k.src = n) (hnew : (s.p.getNode n).inbox.head? ≠ some k) (hd : k.dmode ≤ 1)
    (f : State → State) : onHubPkt n k f s = s.onP (sendPkt k) := by
  rw [onHubPkt, if_pos ⟨hn, hsrc, hnew⟩]
  simp only [if_pos hd]

/-! A unicast that a node sends (R289, R290, R293). -/

/-- A unicast, no ARRIVE, of a node that takes part is on its way. -/
theorem sendPkt_unicast_sent (ht : takesPart p k.src = true) (hd : k.dmode ≤ 1) (h : ∀ r d b m, k.msg ≠ .arrive r d b m) :
    Sent k.src k.msg (sendPkt k p) := by
  have hstands (c : Prop) [Decidable c] (p : Panel) : k ∈ ((if c then deliverTo k.src k p else forwardUnicast k.src k p).getNode k.src).pkts := by
    split
    · simp [deliverTo, Node.pkts]
    · exact enqueue_stands_alone h ..
  rw [sendPkt, if_pos ht, routeOn, if_pos hd]
  exact ⟨k, mem_allPkts (hstands _ _), rfl, rfl⟩

theorem toHub_unicast_sent (ht : takesPart p src = true) (tag : Nat) {m : Msg} (h : ∀ r d b x, m ≠ .arrive r d b x) :
    Sent src m (toHub src tag m p) :=
  sendPkt_unicast_sent (k := ⟨1, 0, src, tag, 0, m⟩) ht (Nat.le_refl 1) h

theorem toSite_unicast_sent (ht : takesPart p p.activeHub = true) (site tag : Nat) {m : Msg} (h : ∀ r d b x, m ≠ .arrive r d b x) :
    Sent p.activeHub m (toSite site tag m p) :=
  sendPkt_unicast_sent (k := ⟨0, site, p.activeHub, tag, 0, m⟩) ht (Nat.zero_le 1) h

/-! Changes made for each of a list, or in one of two ways. -/

theorem each_ctl {α : Type} (l : List α) {f : α → Panel → Panel} (p : Panel) (h : ∀ a p, (f a p).ctl = p.ctl := by intros; rfl) :
    (each l f p).ctl = p.ctl :=
  each_keeps (P := fun q : Panel => q.ctl = p.ctl) l (fun a q hq => (h a q).trans hq) rfl

theorem each_book {α : Type} (l : List α) {f : α → Panel → Panel} (p : Panel) (h : ∀ a p, (f a p).book = p.book := by intros; rfl) :
    (each l f p).book = p.book :=
  each_keeps (P := fun q : Panel => q.book = p.book) l (fun a q hq => (h a q).trans hq) rfl

theorem ite_book {c : Prop} [Decidable c] (hq : q.book = p.book) (hr : r.book = p.book) : (if c then q else r).book = p.book := by
  split
  · exact hq
  · exact hr

theorem ite_unit {c : Prop} [Decidable c] (hq : q.book.unit = p.book.unit) (hr : r.book.unit = p.book.unit) :
    (if c then q else r).book.unit = p.book.unit := by
  split
  · exact hq
  · exact hr

/-! What settings, links and nodes are read from. -/

/-- A node takes part by the supply and the units of the book. -/
theorem takesPart_of_congr (ht : takesPart p n = true) (hpwr : q.pwr = p.pwr) (hunit : q.book.unit = p.book.unit) : takesPart q n = true :=
  (takesPart_congr hpwr hunit n).trans ht

theorem cfg_congr (hvariant : q.variant = p.variant) (hval : q.od.val = p.od.val) (i j m : Nat) : cfg q i j m = cfg p i j m := by
  simp only [cfg, odBytes, hvariant, hval]

theorem ctlUp_congr (hpwr : q.pwr = p.pwr) (hunit : q.book.unit = p.book.unit)
    (hdown : ∀ j, (q.getNode j).linkDown = (p.getNode j).linkDown) (i port : Nat) : ctlUp q i port = ctlUp p i port := by
  simp only [ctlUp, takesPart_congr hpwr hunit, hdown]

/-! What sending leaves of the nodes: all but the messages that stand there, the sequences seen, and the counts. -/

/-- Every node of `q` is that of `p` but for its messages, the sequences that it has seen and its counts. -/
structure OnlyQueues (p q : Panel) : Prop where
  node : ∀ j, ∃ out inbox seen ctr, q.getNode j = { p.getNode j with out := out, inbox := inbox, seen := seen, ctr := ctr }

theorem OnlyQueues.refl (p : Panel) : OnlyQueues p p := ⟨fun _ => ⟨_, _, _, _, rfl⟩⟩

theorem OnlyQueues.trans (hq : OnlyQueues p q) (hr : OnlyQueues q r) : OnlyQueues p r := by
  refine ⟨fun j => ?_⟩
  obtain ⟨_, _, _, _, hq⟩ := hq.node j
  obtain ⟨out, inbox, seen, ctr, hr⟩ := hr.node j
  exact ⟨out, inbox, seen, ctr, by rw [hr, hq]⟩

theorem modNode_onlyQueues {f : Node → Node}
    (hf : ∀ m, ∃ out inbox seen ctr, f m = { m with out := out, inbox := inbox, seen := seen, ctr := ctr }) (i : Nat) (p : Panel) :
    OnlyQueues p (p.modNode i f) := by
  refine ⟨fun j => ?_⟩
  by_cases h : j = i
  · subst h
    rw [Panel.modNode_same]
    exact hf _
  · rw [Panel.modNode_ne _ _ h]
    exact ⟨_, _, _, _, rfl⟩

theorem enqueue_onlyQueues (i port : Nat) (k : Pkt) (p : Panel) : OnlyQueues p (enqueue i port k p) :=
  modNode_onlyQueues (fun _ => ⟨_, _, _, _, rfl⟩) i p

theorem deliverTo_onlyQueues (i : Nat) (k : Pkt) (p : Panel) : OnlyQueues p (deliverTo i k p) :=
  modNode_onlyQueues (fun _ => ⟨_, _, _, _, rfl⟩) i p

theorem routeOn_onlyQueues (i : Nat) (via : Option Nat) (k : Pkt) (p : Panel) : OnlyQueues p (routeOn i via k p) := by
  have hone (c : Prop) [Decidable c] (q : Panel) (hq : OnlyQueues p q) : OnlyQueues p (if c then deliverTo i k q else q) := by
    split
    · exact hq.trans (deliverTo_onlyQueues ..)
    · exact hq
  unfold routeOn
  split
  case isTrue =>
    have hunicast (c : Prop) [Decidable c] : OnlyQueues p (if c then deliverTo i k p else forwardUnicast i k p) := by
      split
      · exact deliverTo_onlyQueues ..
      · exact enqueue_onlyQueues ..
    exact hunicast _
  case isFalse =>
    split
    · exact modNode_onlyQueues (fun _ => ⟨_, _, _, _, rfl⟩) i p
    · refine hone _ _ (each_keeps (P := OnlyQueues p) _ (fun port q hq => hq.trans (enqueue_onlyQueues i port k q)) ?_)
      exact modNode_onlyQueues (fun _ => ⟨_, _, _, _, rfl⟩) i p

theorem sendPkt_onlyQueues (k : Pkt) (p : Panel) : OnlyQueues p (sendPkt k p) := by
  unfold sendPkt
  split
  · exact (modNode_onlyQueues (fun _ => ⟨_, _, _, _, rfl⟩) k.src p).trans (routeOn_onlyQueues ..)
  · exact .refl p

theorem fromHub_onlyQueues (hub dmode g : Nat) (m : Msg) (p : Panel) : OnlyQueues p (fromHub hub dmode g m p) := by
  unfold fromHub
  split
  · exact ⟨(sendPkt_onlyQueues _ (p.modCtl _)).node⟩
  · exact ⟨(sendPkt_onlyQueues _ (p.modCtl _)).node⟩

end Sys2Proof.Machine
end

section
/-! PROOFS. An ARRIVE that goes on by its route to a port at which an ARRIVE of the same barrier waits for the hub: the two merge
(R300), and what stands at the port is bound for the hub. -/

namespace Sys2Proof.Machine

/-- An ARRIVE of block 0 at barrier 0 of region 0, under DMODE `dmode`, to site 0x12 where it is a unicast to a site. -/
def arriveUnder (dmode mask : Nat) : Pkt := ⟨dmode, 0x12, 0x11, 0, 0, .arrive 0 0 0 mask⟩

/-- Compute dies 0x11 and 0x12 take part, and 0x11 reaches 0x12 by its port 1. An ARRIVE to the hub waits there, and one to 0x12 that
has found no live port waits under port 5. -/
def twoArrivesOfOneBarrier : State := State.reset.onP fun p =>
  (((p.modUnit 0x11 fun u => { u with st := .ready }).modUnit 0x12 fun u => { u with st := .ready }).modBlk
    (blockOf 0x11) fun b => { b with st := .up }).modNode 0x11 fun n => { n with
      route := [(0x12, 0xF1)], out := [(8 * 1 + 1, [(arriveUnder 1 1, 0)]), (8 * 5 + 1, [(arriveUnder 0 2, 0)])] }

/-- The ARRIVE to 0x12 goes on into the one that waits, which keeps its DMODE. -/
theorem ctlMessageForward_merges_into_the_hubs_arrive : ∃ t, exec (.ctlMessageForward 0x11 5) twoArrivesOfOneBarrier = .next t
    ∧ Tab.get [] (t.p.getNode 0x11).out (8 * 1 + 1) = [(arriveUnder 1 3, 0)] :=
  ⟨_, rfl, by decide +kernel⟩

end Sys2Proof.Machine
end

section
open Sys2Proof Sys2Proof.Machine

/-- Refutes O35: an ARRIVE to a site that goes on by its route merges into an ARRIVE of the same barrier that waits at the port for the
hub (R300), and no message to that site stands there. -/
theorem not_controlLinksRoutesAndForwarding : ¬ Obligations.ControlLinksRoutesAndForwarding := by
  unfold Obligations.ControlLinksRoutesAndForwarding
  intro h
  obtain ⟨-, -, -, forward, -⟩ := h 0x11 1 twoArrivesOfOneBarrier (by decide) (by decide)
  obtain ⟨-, -, noPort⟩ := forward (by decide +kernel)
  obtain ⟨t, ht, -, -, y, hy, -, hdmode, -⟩ :=
    (noPort (arriveUnder 0 2) 0 (by decide +kernel) rfl (by decide +kernel)).2 1 (by decide +kernel)
  obtain ⟨u, hu, hout⟩ := ctlMessageForward_merges_into_the_hubs_arrive
  obtain rfl : u = t := Host.Outcome.next.inj (hu.symm.trans ht)
  obtain rfl : y = (arriveUnder 1 3, 0) := List.mem_singleton.mp (hout ▸ hy)
  cases hdmode

end

section
/-! PROOFS. Epoch sets that are sent again (R301), and bulk sessions at their target (R56, R305). -/

namespace Sys2Proof.Machine

variable {p : Panel} {s : State} {n : Nat} {k : Pkt}

/-! EPOCH_SET_RETRY (R301). -/

/-- With no RESTART under way there is none to go on with. -/
theorem progressRestarts_of_none (h : ∀ g, (s.p.getReg g).restart = none) : progressRestarts s = s := by
  refine each_keeps (P := fun t : State => t = s) _ (fun g t ht => ?_) rfl
  rw [ht, progressRestart_of_none (h g)]

/-- The one epoch set after the attempt of number `tries`, made now. -/
def epochTried (e : EpochOut) (tries : Nat) (p : Panel) : Panel :=
  p.modCtl fun c => { c with epochs := [{ e with sentAt := p.now, tries := tries }] }

section
variable {e : EpochOut} (he : s.p.ctl.epochs = [e]) (hnone : ∀ g, (s.p.getReg g).restart = none)
include he hnone

theorem exec_epochSetRetry_early (hnow : s.p.now < e.sentAt + 10000) : exec (.epochSetRetry e.seq) s = .next s := by
  change execEpochSetRetry e.seq s = _
  rw [execEpochSetRetry, State.run_true, State.onP_eq_self, progressRestarts_of_none hnone]
  simp [he, hnow]

section
variable {m : Nat} (hnow : e.sentAt + 10000 ≤ s.p.now) (hm : e.missing = [m]) (hready : s.p.ust m = .ready)
include hnow hm hready

theorem exec_epochSetRetry_again (htries : e.tries < 3) : exec (.epochSetRetry e.seq) s = .next (s.onP fun p =>
    toGroup 2 (0x40 + e.part) (.epochSet e.seq e.part e.trun e.tqid e.epoch) (epochTried e (e.tries + 1) p)) := by
  obtain ⟨seq, part, trun, tqid, epoch, missing, sentAt, tries⟩ := e
  subst hm
  change execEpochSetRetry seq s = _
  rw [execEpochSetRetry, State.run_true, progressRestarts_of_none]
  · simp [State.onP, he, Nat.not_lt.mpr hnow, hready, htries, epochTried, Panel.modCtl]
  · simpa [he, Nat.not_lt.mpr hnow, hready, htries, Panel.getReg] using hnone

theorem exec_epochSetRetry_last (htries : e.tries = 3) : exec (.epochSetRetry e.seq) s = .next (s.onP fun p =>
    pendEvidence m 0x0E02 (epochTried e 4 p)) := by
  obtain ⟨seq, part, trun, tqid, epoch, missing, sentAt, tries⟩ := e
  subst hm
  subst htries
  change execEpochSetRetry seq s = _
  rw [execEpochSetRetry, State.run_true, progressRestarts_of_none]
  · simp [State.onP, he, Nat.not_lt.mpr hnow, hready, epochTried, Panel.modCtl, each]
  · simpa [he, Nat.not_lt.mpr hnow, hready, Panel.getReg, each, pendEvidence] using hnone

end
end

/-- The one epoch set is the hub's own record: a hub that can flood still can. -/
theorem hubFloods_epochTried (e : EpochOut) (tries : Nat) (h : hubFloods p) : hubFloods (epochTried e tries p) := by
  obtain ⟨ht, hlive, hnew⟩ := h
  refine ⟨?_, ?_, hnew⟩
  · exact takesPart_of_congr ht rfl rfl
  · rwa [livePorts_congr (p := p) (q := epochTried e tries p) rfl rfl fun _ => rfl]

/-! BULK_OPEN (R56, R305). -/

/-- Does a target refuse a session: the space is no target's, or a masked core is not stopped? -/
def bulkRefuses (n space mask : Nat) (p : Panel) : Bool :=
  !((decide (space = 2) && isCompute n) || decide (space = 4))
    || (isCompute n && !((List.range 4).filter mask.testBit).all fun c => coreIdle p (4 * n + c))

/-- The hub's record of a bulk session is no node's. -/
theorem noteBulk_getNode (sess group : Nat) (p : Panel) (j : Nat) : (noteBulk sess group p).getNode j = p.getNode j := by
  unfold noteBulk
  split <;> rfl

theorem exec_bulkOpen (h : Delivered n k s.p) (hi : idleHub s.p n k = false) {sess space mask base len : Nat}
    (hk : k.msg = .bulkOpen sess space mask base len) : exec (.bulkOpen n k) s = .next (s.onP fun p =>
      (noteBulk sess k.dst (taken n p)).modNode n fun x => { x with
        bulk := (x.bulk.filter fun b => decide (b.sess ≠ sess)) ++ [⟨sess, space, mask, base, len, bulkRefuses n space mask p, []⟩] }) := by
  change execBulkOpen n k s = _
  rw [execBulkOpen, h.1, State.run_true, onHubPkt_of_acts h hi]
  simp only [hk]
  rfl

theorem bulkRefuses_of_space {space mask : Nat} (h2 : space ≠ 2) (h4 : space ≠ 4) : bulkRefuses n space mask p = true := by
  simp [bulkRefuses, h2, h4]

theorem bulkRefuses_of_running {space mask c : Nat} (hn : isCompute n = true) (hc : c < 4) (hmask : mask.testBit c = true)
    (hrun : coreIdle p (4 * n + c) = false) : bulkRefuses n space mask p = true := by
  have hall : (((List.range 4).filter mask.testBit).all fun c => coreIdle p (4 * n + c)) = false :=
    List.all_eq_false.mpr ⟨c, List.mem_filter.mpr ⟨List.mem_range.mpr hc, hmask⟩, by rw [hrun]; exact Bool.false_ne_true⟩
  rw [bulkRefuses, hn, hall]
  exact Bool.or_true _

theorem bulkRefuses_no_core : bulkRefuses n 4 0 p = false := by simp [bulkRefuses]

theorem taken_bulk (n : Nat) (p : Panel) : ((taken n p).getNode n).bulk = (p.getNode n).bulk := by
  rw [taken, Panel.modNode_same]

/-! BULK_DATA (R56, R305). -/

/-- The panel as unit `i` of session `sess` finds it: the hub's records hold the unit too. -/
def unitNoted (sess i : Nat) (d : BitVec 64) (p : Panel) : Panel :=
  p.modCtl fun c => { c with bulks := c.bulks.map fun b => if b.sess = sess then { b with data := Tab.set i d b.data } else b }

theorem unitNoted_getNode (sess i : Nat) (d : BitVec 64) (p : Panel) (j : Nat) : (unitNoted sess i d p).getNode j = p.getNode j := rfl

/-- A program store is no node's. -/
theorem putProgram_getNode (c off : Nat) (l : List Byte) (t : State) (j : Nat) : (putProgram c off l t).p.getNode j = t.p.getNode j := by
  unfold putProgram programLoad
  split <;> rfl

theorem exec_bulkData (h : Delivered n k s.p) (hi : idleHub s.p n k = false) {i c : Nat} {d : BitVec 64} {b : BulkIn}
    (hk : k.msg = .bulkData b.sess i d) (hb : (s.p.getNode n).bulk = [b]) (hok : b.refused = false) (hlen : i < b.len)
    (hspace : b.space = 2) (hc : (List.range 4).filter b.mask.testBit = [c]) (hfree : programFree s.p (4 * n + c) = true)
    (hfit : b.base + 8 * i + 8 ≤ programBytes) : exec (.bulkData n k) s = .next
      ((putProgram (4 * n + c) (b.base + 8 * i) (leBytes 8 d.toNat) (s.onP fun p => unitNoted b.sess i d (taken n p))).onP fun p =>
        p.modNode n fun x => { x with bulk := x.bulk.map fun y => if y.sess = b.sess then { y with units := Tab.set i d y.units } else y }) := by
  change execBulkData n k s = _
  rw [execBulkData, h.1, State.run_true, onHubPkt_of_acts h hi]
  simp -zeta only [hk]
  extract_lets t
  have hbulk : (t.p.getNode n).bulk = [b] := (taken_bulk n s.p).trans hb
  have hfree' : programFree t.p (4 * n + c) = true := hfree
  have hput : bulkPut n b i d t = (true, putProgram (4 * n + c) (b.base + 8 * i) (leBytes 8 d.toNat) t) := by
    simp [bulkPut, hspace, hc, hfit, hfree', each]
  simp [hbulk, hok, Nat.not_le.mpr hlen, hput]
  rfl

/-! BULK_CLOSE (R304, R305). -/

/-- A session's end at the hub's records. -/
def closeNoted (sess : Nat) (crc : BitVec 64) (p : Panel) : Panel :=
  p.modCtl fun c => { c with bulks := c.bulks.map fun b => if b.sess = sess then { b with check := crc } else b }

theorem exec_bulkClose (h : Delivered n k s.p) (hi : idleHub s.p n k = false) {crc : BitVec 64} {b : BulkIn}
    (hk : k.msg = .bulkClose b.sess crc) (hb : (s.p.getNode n).bulk = [b]) : exec (.bulkClose n k) s = .next (s.onP fun p =>
      toHub n 0 (.bulkResult b.sess (bulkAnswer b crc).1 ((bulkAnswer b crc).2.1 % 2 ^ 20) (bulkAnswer b crc).2.2)
        (closeNoted b.sess crc (taken n p))) := by
  change execBulkClose n k s = _
  rw [execBulkClose, h.1, State.run_true, onHubPkt_of_acts h hi]
  simp only [hk, State.onP_onP]
  refine congrArg Host.Outcome.next (State.onP_congr ?_)
  have hbulk : ((closeNoted b.sess crc (taken n s.p)).getNode n).bulk = [b] := (taken_bulk n s.p).trans hb
  rw [closeNoted] at hbulk
  simp [hbulk, closeNoted]

theorem bulkAnswer_of_refused {b : BulkIn} (h : b.refused = true) (crc : BitVec 64) : (bulkAnswer b crc).1 = 3 := by
  simp [bulkAnswer, h]

end Sys2Proof.Machine
end

section
open Sys2Proof Sys2Proof.Machine

/-- Settles O38: each command's effect on the panel, and then the records and messages in it. -/
theorem retriesAndBulkWrites : Obligations.RetriesAndBulkWrites := by
  intro n s hn
  refine ⟨fun e he hnone => ⟨fun hnow => exec_epochSetRetry_early he hnone hnow, fun hnow m hm hready htries => ?again,
    fun hnow m hm hready htries => ?last⟩, fun k h hi => ⟨fun sess space mask base len hk hb => ?opened,
    fun sess i c d b hk hb hsess hok hlen hspace hc4 hc hfree hfit => ?written, fun sess crc b hk hb hsess => ?closed⟩⟩
  case again =>
    have hsent := toGroup_reported 2 (0x40 + e.part) (.epochSet e.seq e.part e.trun e.tqid e.epoch) (epochTried e (e.tries + 1) s.p)
    exact ⟨_, exec_epochSetRetry_again he hnone hnow hm hready htries, rfl, hsent.ctl_epochs,
      fun hf => toGroup_sent (hubFloods_epochTried e (e.tries + 1) hf) (Nat.le_refl 2) _ (by simp)⟩
  case last => exact ⟨_, exec_epochSetRetry_last he hnone hnow hm hready htries, rfl, rfl⟩
  case opened =>
    refine ⟨_, ⟨sess, space, mask, base, len, bulkRefuses n space mask s.p, []⟩, exec_bulkOpen h hi hk, rfl, ?_, rfl, rfl, rfl,
      bulkRefuses_of_space, fun c hc hcomp hmask hrun => bulkRefuses_of_running hcomp hc hmask hrun, ?_⟩
    · rw [State.onP_p, Panel.modNode_same, noteBulk_getNode, taken, Panel.modNode_same]
      simp [hb]
    · rintro rfl rfl
      exact bulkRefuses_no_core
  case written =>
    subst hsess
    refine ⟨_, exec_bulkData h hi hk hb hok hlen hspace hc hfree hfit, rfl, ?_⟩
    rw [State.onP_p, Panel.modNode_same]
    simp [putProgram_getNode, unitNoted_getNode, taken_bulk, hb]
  case closed =>
    subst hsess
    exact ⟨_, exec_bulkClose h hi hk hb, rfl, toHub_unicast_sent (p := closeNoted b.sess crc (taken n s.p))
      (takesPart_of_congr h.2.1 rfl rfl) 0 (by simp), fun href => bulkAnswer_of_refused href crc⟩

end

section
/-! PROOFS. Configuration by message (R304), and beats of hubs and nodes (R298, R299, R498, R499, R507). -/

namespace Sys2Proof.Machine

variable {p q : Panel} {s : State} {n : Nat} {k : Pkt}

/-! Configuration messages (R291, R304). -/

section
variable (h : Delivered n k s.p) (hi : idleHub s.p n k = false)
include h hi

theorem exec_cfgWrite_route {i : Nat} {v : BitVec 64} (hk : k.msg = .cfgWrite 0 i v) : exec (.cfgWrite n k) s = .next (s.onP fun p =>
    (taken n p).modNode n fun x => { x with route := Tab.set (i % 256) (fld v 7 0) x.route, routeWrites := x.routeWrites + 1 }) := by
  change execCfgWrite n k s = _
  rw [execCfgWrite, h.1, State.run_true, onHubPkt_of_acts h hi]
  simp only [hk]
  rfl

theorem exec_cfgWrite_hub {i : Nat} {v : BitVec 64} (hk : k.msg = .cfgWrite 2 i v) : exec (.cfgWrite n k) s = .next (s.onP fun p =>
    (taken n p).modNode n fun x => { x with hub := fld v 8 8, gen := fld v 7 0 }) := by
  change execCfgWrite n k s = _
  rw [execCfgWrite, h.1, State.run_true, onHubPkt_of_acts h hi]
  simp only [hk]
  rfl

theorem exec_cfgRead {table i : Nat} (hk : k.msg = .cfgRead table i) : exec (.cfgRead n k) s = .next (s.onP fun p =>
    sendPkt ⟨0, k.src, n, k.tag, 0, .cfgData table i (BitVec.ofNat 64 (cfgValue (taken n p) n table i))⟩ (taken n p)) := by
  change execCfgRead n k s = _
  rw [execCfgRead, h.1, State.run_true, onHubPkt_of_acts h hi]
  simp only [hk]
  rfl

theorem exec_cfgData {table i : Nat} {v : BitVec 64} (hk : k.msg = .cfgData table i v) (htable : table ≠ 3) :
    exec (.cfgData n k) s = .next (s.onP fun p => (taken n p).modCtl fun c => { c with
      reads := (c.reads.filter fun r => !(decide (r.1 = k.src * 64 + k.tag) && decide (r.2.1 = table) && decide (r.2.2.1 = i)))
        ++ [(k.src * 64 + k.tag, table, i, some v)] }) := by
  change execCfgData n k s = _
  rw [execCfgData, h.1, State.runP_true, onPkt_of_acts h hi]
  simp only [hk, htable, false_and, if_false]
  rfl

end

/-- What a configuration table reads does not rest on the messages that a node has taken. -/
theorem cfgValue_taken (n table i : Nat) (p : Panel) : cfgValue (taken n p) n table i = cfgValue p n table i := by
  have hnode : (taken n p).getNode n
      = { p.getNode n with inbox := (p.getNode n).inbox.drop 1, ctr := { (p.getNode n).ctr with received := (p.getNode n).ctr.received + 1 } } :=
    Panel.modNode_same ..
  simp only [cfgValue, groupMap, hnode]
  rfl

/-- The active hub sends a unicast by the row of its kind (log 24). -/
theorem exec_of_own (hnode : isNode n = true) (hn : n = s.p.activeHub) (hsrc : k.src = n) (hnew : (s.p.getNode n).inbox.head? ≠ some k)
    (hd : k.dmode ≤ 1) {i : Instr} (hrow : i = .cfgWrite n k ∨ i = .cfgRead n k ∨ i = .bulkOpen n k ∨ i = .bulkData n k ∨ i = .bulkClose n k) :
    exec i s = .next (s.onP (sendPkt k)) := by
  have hsend (f : State → State) : s.run (isNode n) (onHubPkt n k f) = .next (s.onP (sendPkt k)) := by
    rw [hnode, State.run_true, onHubPkt_of_own hn hsrc hnew hd]
  obtain rfl | rfl | rfl | rfl | rfl := hrow <;> exact hsend _

/-! HUB_BEAT at a node (R298, R299). -/

/-- Does a beat of generation `gen` name a newer active hub? -/
abbrev NamesHub (gen : Nat) (active : Bool) (x : Node) : Prop :=
  active = true ∧ 1 ≤ (gen + 256 - x.gen) % 256 ∧ (gen + 256 - x.gen) % 256 ≤ 127

/-- A node follows a beat that names a newer active hub, to which its unanswered arrival goes again (R217). -/
def followHub (n gen : Nat) (active : Bool) (src : Nat) (p : Panel) : Panel :=
  if NamesHub gen active (p.getNode n) then
    let q := p.modNode n fun x => { x with hub := hubNum src, gen := gen }
    if (p.getNode n).hub ≠ hubNum src ∧ isCompute n = true then resendArrival n q else q
  else p

/-- Each hub notes the other's beat. -/
def noteHubBeat (n src : Nat) (p : Panel) : Panel :=
  if n = 0xDD ∧ src = 0x00 then p.modCtl fun c => { c with hubBeatA := p.now, hubMissed := 0 }
  else if n = 0x00 ∧ src = 0xDD then p.modCtl fun c => { c with lastBeat := Tab.set 0xDD p.now c.lastBeat }
  else p

theorem exec_hubBeat (h : Delivered n k s.p) (hi : idleHub s.p n k = false) {gen tick : Nat} {active : Bool}
    (hk : k.msg = .hubBeat gen active tick) :
    exec (.hubBeat n k) s = .next (s.onP fun p => noteHubBeat n k.src (followHub n gen active k.src (taken n p))) := by
  change execHubBeat n k s = _
  rw [execHubBeat, h.1, State.runP_true, onPkt_of_acts h hi]
  simp only [hk]
  rfl

/-- An arrival that goes again is a message to the hub. -/
theorem resendArrival_cases (n : Nat) (p : Panel) : resendArrival n p = p ∨ ∃ m, resendArrival n p = toHub n 0 m p := by
  unfold resendArrival
  dsimp only
  split
  · split
    · exact .inr ⟨_, rfl⟩
    · exact .inl rfl
  · exact .inl rfl

theorem resendArrival_onlyQueues (n : Nat) (p : Panel) : OnlyQueues p (resendArrival n p) := by
  obtain h | ⟨m, h⟩ := resendArrival_cases n p
  · rw [h]
    exact .refl p
  · rw [h]
    exact sendPkt_onlyQueues ..

theorem resendArrival_now (n : Nat) (p : Panel) : (resendArrival n p).now = p.now := by
  obtain h | ⟨m, h⟩ := resendArrival_cases n p
  · rw [h]
  · rw [h]
    exact congrArg Clocks.tb (toHub_clk ..)

theorem followHub_of_names {gen : Nat} {active : Bool} (h : NamesHub gen active (p.getNode n)) (src : Nat) :
    ((followHub n gen active src p).getNode n).hub = hubNum src ∧ ((followHub n gen active src p).getNode n).gen = gen := by
  have hsame := Panel.modNode_same p n fun x => { x with hub := hubNum src, gen := gen }
  rw [followHub, if_pos h]
  dsimp only
  split
  · obtain ⟨_, _, _, _, hnode⟩ := (resendArrival_onlyQueues n (p.modNode n fun x => { x with hub := hubNum src, gen := gen })).node n
    rw [hnode, hsame]
    exact ⟨rfl, rfl⟩
  · rw [hsame]
    exact ⟨rfl, rfl⟩

theorem followHub_of_not_names {gen : Nat} {active : Bool} (h : ¬ NamesHub gen active (p.getNode n)) (src : Nat) :
    followHub n gen active src p = p := if_neg h

theorem followHub_now (gen : Nat) (active : Bool) (src : Nat) : (followHub n gen active src p).now = p.now := by
  unfold followHub
  split
  · dsimp only
    split
    · exact resendArrival_now ..
    · rfl
  · rfl

theorem noteHubBeat_getNode (src j : Nat) : (noteHubBeat n src p).getNode j = p.getNode j := by
  unfold noteHubBeat
  split
  · rfl
  · split <;> rfl

theorem noteHubBeat_of_hubA (p : Panel) : (noteHubBeat 0xDD 0x00 p).ctl.hubBeatA = p.now ∧ (noteHubBeat 0xDD 0x00 p).ctl.hubMissed = 0 :=
  ⟨rfl, rfl⟩

/-! NODE_BEAT at the hub (R299, R498, R499). -/

/-- A beat of a unit in service: noted, and its errors above the threshold are evidence. -/
def noteNodeBeat (src errs : Nat) (p : Panel) : Panel :=
  let q := p.modCtl fun c => { c with lastBeat := Tab.set src p.now c.lastBeat, missed := Tab.set src 0 c.missed }
  if cfg q 0xE020 0 4 < errs then pendEvidence src 0x0E02 q else q

theorem exec_nodeBeat (h : Delivered n k s.p) (hi : idleHub s.p n k = false) {errs tick : Nat} (hk : k.msg = .nodeBeat errs tick) :
    exec (.nodeBeat n k) s = .next (s.onP fun p =>
      if barred p k.src = true then healthSign k.src (taken n p) else noteNodeBeat k.src errs (taken n p)) := by
  change execNodeBeat n k s = _
  rw [execNodeBeat, h.1, State.runP_true, onPkt_of_acts h hi]
  simp only [hk]
  rfl

theorem noteNodeBeat_ctl (src errs : Nat) (p : Panel) :
    Tab.get 0 (noteNodeBeat src errs p).ctl.lastBeat src = p.now ∧ Tab.get 0 (noteNodeBeat src errs p).ctl.missed src = 0 := by
  have hctl : (noteNodeBeat src errs p).ctl
      = { p.ctl with lastBeat := Tab.set src p.now p.ctl.lastBeat, missed := Tab.set src 0 p.ctl.missed } := by
    unfold noteNodeBeat
    dsimp only
    split <;> rfl
  rw [hctl]
  exact ⟨Tab.get_set_same .., Tab.get_set_same ..⟩

/-- A sign of health counts against the unit and changes neither its state nor the control network (R499). -/
theorem healthSign_ctl (key : Nat) (p : Panel) : (healthSign key p).ctl = p.ctl := raiseAs_ctl ..

theorem healthSign_unit (key : Nat) (p : Panel) : (healthSign key p).unit key = { p.unit key with evid := (p.unit key).evid + 1 } := by
  have hunit : (healthSign key p).book.unit = (p.modUnit key fun r => { r with evid := r.evid + 1 }).book.unit :=
    (raiseAs_reported ..).book_unit
  rw [Panel.unit, hunit]
  exact Tab.get_set_same ..

/-! Beats that nodes and hubs send (R298, R299, R304). -/

theorem exec_nodeBeatSend_due (hn : isNode n = true) (ht : takesPart s.p n = true) (hhub : isHub n = false)
    (hdue : beatDue s.p n (cfg s.p 0x7024 0 3) = true) : exec (.nodeBeatSend n) s = .next (s.onP fun p =>
      toHub n 0 (.nodeBeat ((p.getNode n).errs % 2 ^ 32) p.now) (p.modNode n fun x => { x with errs := 0, beatAt := some p.now })) := by
  change execNodeBeatSend n s = _
  rw [execNodeBeatSend, hn, State.runP_true]
  simp [ht, hhub, hdue, State.onP]

theorem exec_nodeBeatSend_early (hn : isNode n = true) (hdue : beatDue s.p n (cfg s.p 0x7024 0 3) = false) :
    exec (.nodeBeatSend n) s = .next s := by
  change execNodeBeatSend n s = _
  rw [execNodeBeatSend, hn, State.runP_true]
  simp [hdue]

/-- Hub `n` when it sends its beat. -/
abbrev beatsNow (n : Nat) (p : Panel) : Panel := p.modNode n fun x => { x with beatAt := some p.now }

theorem exec_hubBeatSend_due (hhub : isHub n = true) (hruns : hubRuns s.p n = true) (hdue : beatDue s.p n (cfg s.p 0x7024 0 1) = true) :
    exec (.hubBeatSend n) s = .next (s.onP fun p =>
      fromHub n 3 0 (.hubBeat p.book.tgen (decide (n = p.activeHub)) p.now) (beatsNow n p)) := by
  change execHubBeatSend n s = _
  rw [execHubBeatSend, hhub, State.runP_true]
  simp [hruns, hdue, State.onP]

theorem exec_hubBeatSend_early (hhub : isHub n = true) (hdue : beatDue s.p n (cfg s.p 0x7024 0 1) = false) :
    exec (.hubBeatSend n) s = .next s := by
  change execHubBeatSend n s = _
  rw [execHubBeatSend, hhub, State.runP_true]
  simp [hdue]

theorem hubRuns_takesPart (h : hubRuns p n = true) : takesPart p n = true := by
  simp only [hubRuns, Bool.and_eq_true] at h
  exact h.1.1

/-- A multicast of a hub that takes part, has a live link, and has not recorded its own next sequence, is on its way. -/
theorem fromHub_sent (ht : takesPart p n = true) (hlive : livePorts p n ≠ [])
    (hnew : seeMseq (p.getNode n) (hubNum n) (if n = 0 then p.ctl.mseq else p.ctl.mseqB) ≠ none) {dmode : Nat} (hd : 2 ≤ dmode) (g : Nat)
    {m : Msg} (h : ∀ r d b x, m ≠ .arrive r d b x) : Sent n m (fromHub n dmode g m p) := by
  rw [fromHub]
  split
  case isTrue hA =>
    rw [if_pos hA] at hnew
    exact ⟨_, mem_allPkts (sendPkt_multicast_stands (k := ⟨dmode, g, n, 0, p.ctl.mseq, m⟩)
      (p := p.modCtl fun c => { c with mseq := (c.mseq + 1) % 2 ^ 13 }) ht hlive hnew hd h), rfl, rfl⟩
  case isFalse hB =>
    rw [if_neg hB] at hnew
    exact ⟨_, mem_allPkts (sendPkt_multicast_stands (k := ⟨dmode, g, n, 0, p.ctl.mseqB, m⟩)
      (p := p.modCtl fun c => { c with mseqB := (c.mseqB + 1) % 2 ^ 13 }) ht hlive hnew hd h), rfl, rfl⟩

/-- To note when it sends its beat changes nothing of what a hub floods by. -/
theorem hubBeat_sent (hruns : hubRuns p n = true) (hlive : livePorts p n ≠ [])
    (hnew : seeMseq (p.getNode n) (hubNum n) (if n = 0 then p.ctl.mseq else p.ctl.mseqB) ≠ none) (gen tick : Nat) (active : Bool) :
    Sent n (.hubBeat gen active tick) (fromHub n 3 0 (.hubBeat gen active tick) (beatsNow n p)) := by
  have ht : takesPart (beatsNow n p) n = true :=
    (takesPart_congr (p := p) (q := beatsNow n p) rfl rfl n).trans (hubRuns_takesPart hruns)
  have hports : livePorts (beatsNow n p) n = livePorts p n := livePorts_modNode (by intro _; rfl) n n p
  have hnew' : seeMseq ((beatsNow n p).getNode n) (hubNum n) (if n = 0 then p.ctl.mseq else p.ctl.mseqB) ≠ none := by
    rw [Panel.modNode_same]
    exact hnew
  exact fromHub_sent ht (hports ▸ hlive) hnew' (by decide) 0 (by simp)

/-! Beats that are missed (R299, R498, R507). -/

/-- A node's missed beats are `m`; at the set count they are evidence. -/
def missBeat (n m : Nat) (p : Panel) : Panel :=
  let q := p.modCtl fun c => { c with missed := Tab.set n m c.missed }
  if m = cfg q 0x7024 0 4 then pendEvidence n 0x0E02 q else q

theorem exec_nodeBeatMissed_due (hn : isNode n = true) (ht : takesPart s.p n = true)
    (hnow : Tab.get 0 s.p.ctl.lastBeat n + cfg s.p 0x7024 0 3 * (Tab.get 0 s.p.ctl.missed n + 1) < s.p.now) :
    exec (.nodeBeatMissed n) s = .next (s.onP fun p => missBeat n (Tab.get 0 p.ctl.missed n + 1) p) := by
  change execNodeBeatMissed n s = _
  rw [execNodeBeatMissed, hn]
  exact State.runP_eq (if_pos ⟨ht, hnow⟩)

theorem exec_nodeBeatMissed_early (hn : isNode n = true)
    (hnow : s.p.now ≤ Tab.get 0 s.p.ctl.lastBeat n + cfg s.p 0x7024 0 3 * (Tab.get 0 s.p.ctl.missed n + 1)) :
    exec (.nodeBeatMissed n) s = .next s := by
  change execNodeBeatMissed n s = _
  rw [execNodeBeatMissed, hn]
  exact State.runP_same (if_neg fun hdue => absurd hdue.2 (Nat.not_lt.mpr hnow))

theorem missBeat_missed (n m : Nat) (p : Panel) : Tab.get 0 (missBeat n m p).ctl.missed n = m := by
  have hctl : (missBeat n m p).ctl.missed = Tab.set n m p.ctl.missed := by
    unfold missBeat
    dsimp only
    split <;> rfl
  rw [hctl]
  exact Tab.get_set_same ..

theorem missBeat_pendingEvid (n m : Nat) (p : Panel) : (missBeat n m p).book.pendingEvid
    = p.book.pendingEvid ++ (if m = cfg p 0x7024 0 4 then [(n, 0x0E02)] else []) := by
  have hcfg : cfg (p.modCtl fun c => { c with missed := Tab.set n m c.missed }) 0x7024 0 4 = cfg p 0x7024 0 4 := rfl
  unfold missBeat
  simp only [hcfg]
  split
  · rfl
  · exact (List.append_nil _).symm

/-- Hub B has missed beat periods of hub A, and raised it. -/
def hubMissRaised (p : Panel) : Panel :=
  raise 0x0613 0xDD 0xDD none (p.modCtl fun c => { c with hubMissed := (p.now - p.ctl.hubBeatA) / cfg p 0x7024 0 1 })

theorem hubMissRaised_cfg (i j m : Nat) (p : Panel) : cfg (hubMissRaised p) i j m = cfg p i j m := by
  have hrep := raise_reported 0x0613 0xDD 0xDD none
    (p.modCtl fun c => { c with hubMissed := (p.now - p.ctl.hubBeatA) / cfg p 0x7024 0 1 })
  exact cfg_congr hrep.variant hrep.od_val i j m

theorem hubMissRaised_ctlUp (i port : Nat) (p : Panel) : ctlUp (hubMissRaised p) i port = ctlUp p i port := by
  have hrep := raise_reported 0x0613 0xDD 0xDD none
    (p.modCtl fun c => { c with hubMissed := (p.now - p.ctl.hubBeatA) / cfg p 0x7024 0 1 })
  refine ctlUp_congr hrep.pwr hrep.book_unit (fun j => ?_) i port
  rw [Panel.getNode, raise_ctl]
  rfl

section
variable (hactive : s.p.book.active = 0) (hstandby : s.p.book.standbyLost = false) (hruns : hubRuns s.p 0xDD = true)
include hactive hstandby hruns

/-- With the hub loss timeout and a live link hub B decides to take over. -/
theorem exec_hubLossTimeout_takes (hbeat : cfg s.p 0x7024 0 1 ≤ s.p.now - s.p.ctl.hubBeatA)
    (hloss : cfg s.p 0x7024 0 2 ≤ s.p.now - s.p.ctl.hubBeatA) (hlive : ∃ port < 3, ctlUp s.p 0xDD port = true) :
    exec .hubLossTimeout s = .next (s.onP fun p => (hubMissRaised p).modBook fun b => { b with takeDue := true }) := by
  obtain ⟨port, hport, hup⟩ := hlive
  have hany : (List.range 3).any (ctlUp (hubMissRaised s.p) 0xDD) = true :=
    List.any_eq_true.mpr ⟨port, List.mem_range.mpr hport, (hubMissRaised_ctlUp ..).trans hup⟩
  change execHubLossTimeout s = _
  rw [execHubLossTimeout]
  refine State.runP_eq ?_
  dsimp only
  rw [if_neg (by simp [hactive, hstandby, hruns, hbeat]), ← hubMissRaised, hubMissRaised_cfg, if_neg (Nat.not_lt.mpr hloss), if_pos hany]

end

theorem exec_hubLossTimeout_early (hnow : s.p.now - s.p.ctl.hubBeatA < cfg s.p 0x7024 0 1) : exec .hubLossTimeout s = .next s := by
  change execHubLossTimeout s = _
  rw [execHubLossTimeout]
  exact State.runP_same (if_pos (.inr (.inr (.inr hnow))))

end Sys2Proof.Machine
end

section
open Sys2Proof Sys2Proof.Machine

/-- Settles O36: each command's effect on the panel, and then the nodes, the beats and the messages in it. -/
theorem configurationMessagesAndBeats : Obligations.ConfigurationMessagesAndBeats := by
  intro n k s hn x
  refine ⟨fun h hi i v => ⟨fun hk => ?route, fun hk => ?hub, fun table hk => ?read⟩, fun hact hsrc hnew ht hd hm i hrow => ?own,
    fun h hi => ⟨fun table i v hk htable => ?data, fun gen tick active hk => ?hubBeat, fun errs tick hk => ?nodeBeat⟩,
    fun ht hhub => ⟨fun hdue => ?nodeSends, exec_nodeBeatSend_early hn⟩,
    fun hhub hruns => ⟨fun hdue => ?hubSends, exec_hubBeatSend_early hhub⟩,
    ⟨fun ht hnow => ?missed, exec_nodeBeatMissed_early hn⟩,
    fun hactive hstandby hruns => ⟨fun hbeat hloss hlive => ?takes, exec_hubLossTimeout_early⟩⟩
  case route =>
    refine ⟨_, exec_cfgWrite_route h hi hk, rfl, ?_⟩
    rw [State.onP_p, Panel.modNode_same]
    exact Tab.get_set_same ..
  case hub =>
    refine ⟨_, exec_cfgWrite_hub h hi hk, rfl, ?_⟩
    rw [State.onP_p, Panel.modNode_same, taken, Panel.modNode_same]
    exact ⟨rfl, rfl, rfl⟩
  case read =>
    refine ⟨_, exec_cfgRead h hi hk, rfl, ?_⟩
    rw [State.onP_p, cfgValue_taken]
    exact sendPkt_unicast_sent (takesPart_of_congr h.2.1 rfl rfl) (Nat.zero_le 1) (by simp)
  case own =>
    subst hsrc
    exact ⟨_, exec_of_own hn hact rfl hnew hd hrow, rfl, sendPkt_unicast_sent ht hd hm⟩
  case data => exact ⟨_, exec_cfgData h hi hk htable, rfl, List.mem_concat_self⟩
  case hubBeat =>
    have hnode : (taken n s.p).getNode n
        = { x with inbox := x.inbox.drop 1, ctr := { x.ctr with received := x.ctr.received + 1 } } := Panel.modNode_same ..
    refine ⟨_, exec_hubBeat h hi hk, rfl, fun hnames => ?_, fun hnot => ?_, ?_⟩
    · rw [State.onP_p, noteHubBeat_getNode]
      exact followHub_of_names (by rw [hnode]; exact hnames) k.src
    · rw [State.onP_p, noteHubBeat_getNode, followHub_of_not_names (by rw [hnode]; exact hnot), hnode]
      exact ⟨rfl, rfl⟩
    · rintro rfl hsrc
      rw [State.onP_p, hsrc]
      obtain ⟨hbeat, hmissed⟩ := noteHubBeat_of_hubA (followHub 0xDD gen active 0x00 (taken 0xDD s.p))
      exact ⟨hbeat.trans (followHub_now ..), hmissed⟩
  case nodeBeat =>
    refine ⟨_, exec_nodeBeat h hi hk, rfl, fun hbarred => ?_, fun hbarred => ?_⟩
    · rw [State.onP_p, if_neg (by rw [hbarred]; exact Bool.false_ne_true)]
      exact noteNodeBeat_ctl k.src errs (taken n s.p)
    · rw [State.onP_p, if_pos hbarred, healthSign_ctl, Panel.ust, healthSign_unit]
      exact ⟨rfl, rfl, rfl⟩
  case nodeSends =>
    refine ⟨_, exec_nodeBeatSend_due hn ht hhub hdue, rfl,
      toHub_unicast_sent (p := s.p.modNode n fun x => { x with errs := 0, beatAt := some s.p.now }) (takesPart_of_congr ht rfl rfl) 0
        (by simp), ?_⟩
    obtain ⟨_, _, _, _, hnode⟩ := (sendPkt_onlyQueues ⟨1, 0, n, 0, 0, .nodeBeat ((s.p.getNode n).errs % 2 ^ 32) s.p.now⟩
      (s.p.modNode n fun x => { x with errs := 0, beatAt := some s.p.now })).node n
    rw [State.onP_p, toHub, hnode, Panel.modNode_same]
    exact ⟨rfl, rfl⟩
  case hubSends =>
    refine ⟨_, exec_hubBeatSend_due hhub hruns hdue, rfl, ?_, fun hlive hnew => hubBeat_sent hruns hlive hnew ..⟩
    obtain ⟨_, _, _, _, hnode⟩ := (fromHub_onlyQueues n 3 0 (.hubBeat s.p.book.tgen (decide (n = s.p.activeHub)) s.p.now)
      (beatsNow n s.p)).node n
    rw [State.onP_p, hnode, Panel.modNode_same]
  case missed => exact ⟨_, exec_nodeBeatMissed_due hn ht hnow, rfl, missBeat_missed .., missBeat_pendingEvid ..⟩
  case takes => exact ⟨_, exec_hubLossTimeout_takes hactive hstandby hruns hbeat hloss hlive, rfl, rfl⟩

end

section
/-! PROOFS. Reports at the hub (R295, R303, R304, R498), epoch sets and LIVE sets (R260, R301, R302), and results of bulk sessions (R305). -/

namespace Sys2Proof.Machine

variable {p q : Panel} {s : State} {n : Nat} {k : Pkt} {e : Entry}

/-! What a freeze leaves of the book: the newest event stays in the log, and only the log and its limits change. -/

/-- `q` comes of `p` by at most one event of the hub, beside changes of the regions. -/
structure OneEvent (p q : Panel) : Prop where
  unit : q.book.unit = p.book.unit
  pendingEvid : q.book.pendingEvid = p.book.pendingEvid
  newest : ∀ e, p.book.log.getLast? = some e → e ∈ q.book.log

theorem OneEvent.refl (p : Panel) : OneEvent p p := ⟨rfl, rfl, fun _ => List.mem_of_getLast?⟩

theorem triggerFreeze_oneEvent (r cause : Nat) (p : Panel) : OneEvent p (triggerFreeze r cause p) := by
  by_cases hph : (p.getReg r).phase = .active
  case neg =>
    rw [triggerFreeze, if_pos hph]
    exact .refl p
  case pos =>
    by_cases hfr : (p.getReg r).freezing = true
    case pos =>
      rw [triggerFreeze, if_neg (not_not_intro hph), if_pos hfr]
      exact ⟨rfl, rfl, fun _ => List.mem_of_getLast?⟩
    case neg =>
      rw [triggerFreeze_eq hph (eq_false_of_ne_true hfr)]
      refine ⟨raise_book_unit .., (raise_reported ..).book_pendingEvid, fun e he => ?_⟩
      obtain ⟨f, hbook, -⟩ := raise_book_of_always (show evSpan 0x070A = .always by decide) 0xFF (keyRegion r)
        (some (BitVec.ofNat 64 cause)) (p.modReg r (triggered cause p.now))
      rw [hbook]
      exact mem_logEvent_of_getLast? he f

theorem freezeOf_oneEvent (cause site : Nat) (p : Panel) : OneEvent p (freezeOf cause site p) := by
  unfold freezeOf
  split
  · exact triggerFreeze_oneEvent ..
  · exact .refl p

/-! What moving a unit leaves of the units (R495-R499). -/

theorem ust_of_unit (h : q.book.unit = p.book.unit) (key : Nat) : q.ust key = p.ust key := by
  rw [Panel.ust, Panel.unit, h]
  rfl

theorem modUnit_ust_same (key : Nat) (f : URec → URec) (p : Panel) : (p.modUnit key f).ust key = (f (p.unit key)).st :=
  congrArg URec.st (Tab.get_set_same ..)

theorem modUnit_ust_ne {key j : Nat} (h : j ≠ key) (f : URec → URec) (p : Panel) : (p.modUnit key f).ust j = p.ust j :=
  congrArg URec.st (Tab.get_set_ne _ _ h _)

/-- A unit that a container's state reaches already has it. -/
theorem takeState_ust {st : USt} {key : Nat} (h : p.ust key = st) (cause : Nat) (own : Bool) (j : Nat) :
    (takeState st cause own j p).ust key = st := by
  unfold takeState
  by_cases hj : key = j
  · subst hj
    rw [if_neg (by rw [h]; exact Nat.lt_irrefl _), modUnit_ust_same]
    exact h
  · split
    · exact (modUnit_ust_ne hj ..).trans h
    · exact (modUnit_ust_ne hj ..).trans h

theorem mapFailure_book (key cause : Nat) (p : Panel) : (mapFailure key cause p).book = p.book := by
  unfold mapFailure
  extract_lets fs one bad
  have hone (site stk : Nat) (q : Panel) : (one site stk q).book = q.book := ite_book rfl rfl
  have hbad (port : Nat) (q : Panel) : (bad port q).book = q.book := rfl
  refine ite_book (ite_book ((hbad ..).trans (hone ..)) (hone ..)) (ite_book (hone ..) (ite_book (hone ..) (ite_book (hbad ..) (ite_book ?_ rfl))))
  exact (each_book _ _ hbad).trans (each_book _ p fun site => hone site 0)

theorem bumpGen_unit (p : Panel) : (bumpGen p).book.unit = p.book.unit := raise_book_unit ..

theorem loseEntries_unit (p : Panel) : (loseEntries p).book.unit = p.book.unit := by
  refine each_keeps (P := fun q : Panel => q.book.unit = p.book.unit) _ (fun x q hq => ?_) rfl
  unfold loseEntry
  dsimp only
  split
  · exact hq
  · exact (raise_book_unit ..).trans hq

/-- A unit moves to a state that outranks its own. -/
theorem moveUnit_ust {key : Nat} {st : USt} (h : (p.ust key).rank < st.rank) (cause : Nat) : (moveUnit key st cause p).ust key = st := by
  unfold moveUnit
  rw [if_neg (Nat.not_le.mpr h)]
  extract_lets hampers p1 p2 p3 p4 p5
  have h1 : p1.ust key = st := modUnit_ust_same ..
  have h2 : p2.ust key = st := each_keeps (P := fun q : Panel => q.ust key = st) _ (fun j q hq => takeState_ust hq cause false j) h1
  have h3 : p3.ust key = st := (ust_of_unit (raise_book_unit ..) key).trans h2
  have h4 : p4.ust key = st := by
    refine (ust_of_unit (ite_unit ?_ (ite_unit (bumpGen_unit p3) rfl)) key).trans h3
    exact (bumpGen_unit _).trans (congrArg Book.unit (mapFailure_book ..))
  have h5 : p5.ust key = st := (ust_of_unit (ite_unit (loseEntries_unit p4) rfl) key).trans h4
  exact each_keeps (P := fun q : Panel => q.ust key = st) _
    (fun site q hq => (ust_of_unit (freezeOf_oneEvent cause site q).unit key).trans hq) h5

/-! FENCE of another site (R503). -/

theorem exec_fence_of_other (h : Delivered n k s.p) (hi : idleHub s.p n k = false) {num ep reason : Nat} (hk : k.msg = .fence 1 num ep reason)
    (hne : num ≠ n) : exec (.fence n k) s = .next (s.onP fun p => cutInto n (fun t => decide (t = num)) (taken n p)) := by
  change execFence n k s = _
  rw [execFence, h.1]
  refine State.runP_eq ?_
  rw [onPkt_of_acts h hi]
  simp only [hk, hne, and_false, if_false, if_true]

/-- A node's links into dies that are cut off are down. -/
theorem mem_linkDown_cutInto {dead : Nat → Bool} {port t : Nat} (hport : port < 5) (hfar : ctlFar n port = some t) (hdead : dead t = true) :
    port ∈ ((cutInto n dead p).getNode n).linkDown := by
  rw [cutInto, Panel.getNode, each_ctl]
  change port ∈ (Panel.getNode (p.modNode n _) n).linkDown
  rw [Panel.modNode_same]
  by_cases hdown : port ∈ (p.getNode n).linkDown
  · exact List.mem_append_left _ hdown
  · refine List.mem_append_right _ (List.mem_filter.mpr ⟨List.mem_range.mpr hport, ?_⟩)
    simp [hfar, hdead, hdown]

/-! Reports of faults (R303, R498). -/

/-- The entry that a report of a die makes in the log. -/
def reportEntry (ev src core : Nat) (data : BitVec 64) (supp : Nat) (p : Panel) : Entry :=
  ⟨ev, evSev ev, src, core, p.now, data, supp, p.book.eseq % 2 ^ 32⟩

theorem hubEnter_getLast? (ev src core : Nat) (data : BitVec 64) (supp : Nat) (p : Panel) :
    (hubEnter ev src core src data supp p).book.log.getLast? = some (reportEntry ev src core data supp p) := by
  rw [(hubEnter_book_ctl ..).1]
  exact List.getLast?_concat ..

/-- A report freezes the region that holds its site where it is of a core that has faulted, or of a fault of the die (R220). -/
def reportFreezes (ev src core : Nat) (p : Panel) : Bool :=
  (isCompute src && coreFaultEvs.contains ev && decide ((p.getCore (4 * src + core)).a.run = .faulted)) || decide (ev = 0x0607) || decide (ev = 0x060D)

/-- The hub has entered a report and frozen what it freezes. -/
def reportEntered (ev src core : Nat) (data : BitVec 64) (p : Panel) : Panel :=
  let q := hubEnter ev src core src data 0 p
  if reportFreezes ev src core q then freezeOf ev src q else q

/-- The hub has moved the site that a report fails (R17, R303). -/
def reportMoved (ev src core : Nat) (data : BitVec 64) (p : Panel) : Panel :=
  let q := reportEntered ev src core data p
  if ev = 0x0101 ∨ ev = 0x0102 ∨ ev = 0x0D01 then moveUnit src .failed ev q else q

/-- Evidence is noted against each of a list of units. -/
def pendAll (l : List Nat) (ev : Nat) (p : Panel) : Panel := each l (fun u => pendEvidence u ev) p

theorem pendAll_book (l : List Nat) (ev : Nat) (p : Panel) :
    (pendAll l ev p).book = { p.book with pendingEvid := p.book.pendingEvid ++ l.map fun u => (u, ev) } := by
  induction l generalizing p with
  | nil => simp [pendAll, each]
  | cons u l ih =>
    refine (ih (pendEvidence u ev p)).trans ?_
    simp [pendEvidence, Panel.modBook]

theorem pendAll_unit (l : List Nat) (ev : Nat) (p : Panel) : (pendAll l ev p).book.unit = p.book.unit :=
  (congrArg Book.unit (pendAll_book l ev p) :)

theorem exec_faultReport (h : Delivered n k s.p) (hi : idleHub s.p n k = false) {ev core : Nat} {d : BitVec 64}
    (hk : k.msg = .faultReport ev core d) : exec (.faultReport n k) s = .next (s.onP fun p =>
      pendAll (evidenceUnits (reportMoved ev k.src core d (taken n p)) k.src core ev) ev (reportMoved ev k.src core d (taken n p))) := by
  change execFaultReport n k s = _
  rw [execFaultReport, h.1]
  refine State.runP_eq ?_
  rw [onPkt_of_acts h hi]
  simp only [hk]
  rfl

theorem reportEntered_oneEvent (ev src core : Nat) (data : BitVec 64) (p : Panel) :
    OneEvent (hubEnter ev src core src data 0 p) (reportEntered ev src core data p) := by
  unfold reportEntered
  dsimp only
  split
  · exact freezeOf_oneEvent ..
  · exact .refl _

/-- The event of a report that moves no unit is in the log. -/
theorem reportMoved_log {ev : Nat} (h1 : ev ≠ 0x0101) (h2 : ev ≠ 0x0102) (h3 : ev ≠ 0x0D01) (src core : Nat) (data : BitVec 64) (p : Panel) :
    reportEntry ev src core data 0 p ∈ (reportMoved ev src core data p).book.log := by
  rw [reportMoved, if_neg (by simp [h1, h2, h3])]
  exact (reportEntered_oneEvent ..).newest _ (hubEnter_getLast? ..)

/-- A power fault fails its site (R303). -/
theorem reportMoved_failed (src core : Nat) (data : BitVec 64) (h : USt.rank (p.ust src) < 3) :
    (reportMoved 0x0D01 src core data p).ust src = .failed := by
  have hust : (reportEntered 0x0D01 src core data p).ust src = p.ust src :=
    ust_of_unit ((reportEntered_oneEvent ..).unit.trans (hubEnter_reported ..).book_unit) src
  rw [reportMoved, if_pos (.inr (.inr rfl))]
  refine moveUnit_ust ?_ _
  rw [hust]
  exact h

theorem reportMoved_pendingEvid {ev : Nat} (h1 : ev ≠ 0x0101) (h2 : ev ≠ 0x0102) (h3 : ev ≠ 0x0D01) (src core : Nat) (data : BitVec 64)
    (p : Panel) : (reportMoved ev src core data p).book.pendingEvid = p.book.pendingEvid := by
  rw [reportMoved, if_neg (by simp [h1, h2, h3])]
  exact (reportEntered_oneEvent ..).pendingEvid.trans (hubEnter_reported ..).book_pendingEvid

/-! Other events (R262, R293, R303). -/

/-- What the hub does about an event that it has entered: a shard error makes its entry BAD, a link-down report asks for new routes and is
evidence against the nodes that it cuts off. -/
def eventActed (ev src : Nat) (data : BitVec 64) (p : Panel) : Panel :=
  if ev = 0x0801 then p.modDir (data.toNat % 524288) fun d => { d with st := if d.st = .empty then .empty else .bad }
  else if ev = 0x0610 then
    let q := p.modCtl fun c => { c with linkReport := some p.now }
    let far := match ctlFar src (data.toNat % 8) with | some t => [src, t] | none => [src]
    pendAll (far.filter fun t => takesPart q t && cutOff q t) 0x0610 q
  else p

theorem exec_event (h : Delivered n k s.p) (hi : idleHub s.p n k = false) {ev core supp : Nat} {d : BitVec 64}
    (hk : k.msg = .event ev core supp d) : exec (.event n k) s = .next (s.onP fun p =>
      eventActed ev k.src d (hubEnter ev k.src core k.src d supp (taken n p))) := by
  change execEvent n k s = _
  rw [execEvent, h.1]
  refine State.runP_eq ?_
  rw [onPkt_of_acts h hi]
  simp only [hk]
  rfl

theorem pendAll_ctl (l : List Nat) (ev : Nat) (p : Panel) : (pendAll l ev p).ctl = p.ctl :=
  each_ctl l p

theorem eventActed_log (ev src : Nat) (data : BitVec 64) (p : Panel) : (eventActed ev src data p).book.log = p.book.log := by
  unfold eventActed
  split
  · rfl
  · split
    · dsimp only
      rw [pendAll_book]
      rfl
    · rfl

theorem eventActed_linkReport (ev src : Nat) (data : BitVec 64) (p : Panel) :
    (eventActed ev src data p).ctl.linkReport = if ev = 0x0610 then some p.now else p.ctl.linkReport := by
  unfold eventActed
  by_cases h : ev = 0x0610
  · subst h
    simp [pendAll_ctl]
  · rw [if_neg h, if_neg h]
    split <;> rfl

/-! EPOCH_SET at a router, and the hub's record of it (R260, R301). -/

/-- Is a set's sequence 1 to 32,767 ahead of the last that a router applied? -/
def newerSet (n seq : Nat) (p : Panel) : Bool :=
  match (p.getRtr n).lastEpochSeq with
  | none => true
  | some l => decide (1 ≤ (seq + 2 ^ 16 - l) % 2 ^ 16 ∧ (seq + 2 ^ 16 - l) % 2 ^ 16 ≤ 32767)

/-- A router after an epoch set: applied where it is newer. -/
def setEpoch (n seq : Nat) (trun : Bool) (tqid ep : Nat) (p : Panel) : Panel :=
  if newerSet n seq p then (applyEpoch n trun tqid ep p).modRtr n fun r => { r with lastEpochSeq := some seq } else p

theorem exec_epochSet (h : Delivered n k s.p) (hi : idleHub s.p n k = false) {seq part tqid ep : Nat} {trun : Bool}
    (hk : k.msg = .epochSet seq part trun tqid ep) :
    exec (.epochSet n k) s = .next (s.onP fun p => toHub n 1 (.ack seq 0) (setEpoch n seq trun tqid ep (taken n p))) := by
  change execEpochSet n k s = _
  rw [execEpochSet, h.1]
  refine State.runP_eq ?_
  simp only [hk]
  rw [onPkt_of_acts h hi]
  rfl

theorem setEpoch_units (n seq : Nat) (trun : Bool) (tqid ep : Nat) (p : Panel) :
    (setEpoch n seq trun tqid ep p).pwr = p.pwr ∧ (setEpoch n seq trun tqid ep p).book = p.book := by
  unfold setEpoch
  split <;> exact ⟨rfl, rfl⟩

/-- The one set of a query, which only `k` has yet to acknowledge, ends with its acknowledgement: the ledger holds the epoch. -/
theorem exec_ack_last (h : Delivered n k s.p) (hi : idleHub s.p n k = false) {r : Nat} {e : EpochOut} (hk : k.msg = .ack e.seq r)
    (htag : k.tag = 1) (hbarred : barred s.p k.src = false) (he : s.p.ctl.epochs = [e]) (htrun : e.trun = false)
    (hmissing : e.missing = [k.src]) (hnone : ∀ g, (s.p.getReg g).restart = none) : exec (.ack n k) s = .next (s.onP fun p =>
      ((taken n p).modCtl fun c => { c with epochs := [] }).modQuery e.tqid fun q => { q with epoch := e.epoch }) := by
  have hbarred' : barred (taken n s.p) k.src = false := hbarred
  have he' : (taken n s.p).ctl.epochs = [e] := he
  change execAck n k s = _
  rw [execAck, h.1, State.run_true]
  simp only [hk]
  rw [onPktS_of_acts h hi]
  simp only [State.onP_p, hbarred', takeAck, htag, Bool.false_eq_true, if_true, if_false, State.onP_onP]
  rw [State.onP_congr (g := fun p =>
      ((taken n p).modCtl fun c => { c with epochs := [] }).modQuery e.tqid fun q => { q with epoch := e.epoch })]
  · exact congrArg Host.Outcome.next (progressRestarts_of_none hnone)
  · simp [settleEpoch, he', hmissing, htrun, Panel.modCtl]

/-! LIVE sets (R295, R302). -/

theorem exec_nack_empty (h : Delivered n k s.p) (hi : idleHub s.p n k = false) {r : Nat} {l : LiveOut} (hk : k.msg = .nack l.num r)
    (htag : k.tag = 2) (hl : s.p.ctl.lives = [l]) (hsite : l.site = k.src) (hw : l.writes = []) :
    exec (.nack n k) s = .next (s.onP fun p => toSite k.src (l.num % 64) (.liveCommit l.num 0) (taken n p)) := by
  have hl' : (taken n s.p).ctl.lives = [l] := hl
  change execNack n k s = _
  rw [execNack, h.1]
  refine State.runP_eq ?_
  simp only [hk]
  rw [onPkt_of_acts h hi]
  simp [hl', hsite, htag, hw, each]

/-- A die's set under a tag with a write put in, in the place of one of the same bytes. -/
def stageLive (w : Nat × Nat × Nat × BitVec 64) (l : List (Nat × Nat × Nat × BitVec 64)) : List (Nat × Nat × Nat × BitVec 64) :=
  (l.filter fun x => decide ((x.1, x.2.1, x.2.2.1) ≠ (w.1, w.2.1, w.2.2.1))) ++ [w]

theorem exec_liveWrite (h : Delivered n k s.p) (hi : idleHub s.p n k = false) {i sub off : Nat} {d : BitVec 64}
    (hk : k.msg = .liveWrite i sub off d) : exec (.liveWrite n k) s = .next (s.onP fun p =>
      (taken n p).modDie n fun x => { x with liveSet := Tab.upd [] k.tag (stageLive (i, sub, off, d)) x.liveSet }) := by
  change execLiveWrite n k s = _
  rw [execLiveWrite, h.1]
  refine State.runP_eq ?_
  rw [onPkt_of_acts h hi]
  simp only [hk]
  rfl

theorem stageLive_new {w : Nat × Nat × Nat × BitVec 64} {l : List (Nat × Nat × Nat × BitVec 64)}
    (h : ∀ x ∈ l, (x.1, x.2.1, x.2.2.1) ≠ (w.1, w.2.1, w.2.2.1)) : stageLive w l = l ++ [w] := by
  rw [stageLive, List.filter_eq_self.mpr fun x hx => decide_eq_true (h x hx)]

/-- A die has taken the set under a tag out of those that wait. -/
def unstage (n tag : Nat) (p : Panel) : Panel := p.modDie n fun x => { x with liveSet := Tab.del tag x.liveSet }

theorem unstage_getDie (n tag : Nat) (p : Panel) :
    (unstage n tag p).getDie n = { p.getDie n with liveSet := Tab.del tag (p.getDie n).liveSet } := Panel.modDie_same ..

theorem toHub_getDie (src tag : Nat) (m : Msg) (p : Panel) (j : Nat) : (toHub src tag m p).getDie j = p.getDie j := by
  rw [Panel.getDie, toHub_die]
  rfl

section
variable (h : Delivered n k s.p) (hi : idleHub s.p n k = false) {num count : Nat} (hk : k.msg = .liveCommit num count)
include h hi hk

theorem exec_liveCommit_incomplete (hcount : (Tab.get [] (s.p.getDie n).liveSet k.tag).length ≠ count) :
    exec (.liveCommit n k) s = .next (s.onP fun p => toHub n 2 (.nack num 0) (unstage n k.tag (taken n p))) := by
  change execLiveCommit n k s = _
  rw [execLiveCommit, h.1]
  refine State.runP_eq ?_
  rw [onPkt_of_acts h hi]
  simp only [hk]
  exact if_pos hcount

theorem exec_liveCommit_complete {ws : List (Nat × Nat × Nat × BitVec 64)} (hws : Tab.get [] (s.p.getDie n).liveSet k.tag = ws)
    (hcount : ws.length = count) (hplan : planOf ws = none) :
    exec (.liveCommit n k) s = .next (s.onP fun p => toHub n 2 (.ack num 0) (applyLive n ws (unstage n k.tag (taken n p)))) := by
  have hws' : Tab.get [] ((taken n s.p).getDie n).liveSet k.tag = ws := hws
  change execLiveCommit n k s = _
  rw [execLiveCommit, h.1]
  refine State.runP_eq ?_
  rw [onPkt_of_acts h hi]
  simp only [hk, hws', hcount, ne_eq, not_true_eq_false, if_false, hplan]
  rfl

end

theorem planOf_of_other_index {i : Nat} (h : i ≠ planIndex) (sub off : Nat) (d : BitVec 64) : planOf [(i, sub, off, d)] = none := by
  simp [planOf, h]

/-- One write of a whole value of 8 bytes puts it in force. -/
theorem applyLive_one {i sub : Nat} {r : ORow} (hrow : odRow p.variant i sub = some r) (hlen : r.len = 8) (hsub : sub < 256) (d : BitVec 64) :
    Tab.find? ((applyLive n [(i, sub, 0, d)] p).getDie n).live (256 * i + sub) = some (leBytes 8 d.toNat) := by
  have hdiv : (256 * i + sub) / 256 = i := by omega
  have hmod : (256 * i + sub) % 256 = sub := by omega
  simp [applyLive, each, hdiv, hmod, hrow, hlen, Tab.find?_set, List.eraseDups_cons, List.take_of_length_le]

/-! BULK_RESULT (R305). -/

theorem exec_bulkResult_done (h : Delivered n k s.p) (hi : idleHub s.p n k = false) {missing first : Nat} {b : BulkOut}
    (hk : k.msg = .bulkResult b.sess 0 missing first) (hb : s.p.ctl.bulks = [b]) (hdone : b.done = []) :
    exec (.bulkResult n k) s = .next (s.onP fun p => (taken n p).modCtl fun c => { c with bulks := [{ b with done := [k.src] }] }) := by
  have hb' : (taken n s.p).ctl.bulks = [b] := hb
  change execBulkResult n k s = _
  rw [execBulkResult, h.1]
  refine State.runP_eq ?_
  rw [onPkt_of_acts h hi]
  simp [hk, takeBulk, hb', hdone, Panel.modCtl]

end Sys2Proof.Machine
end

section
open Sys2Proof Sys2Proof.Machine

/-- Settles O37: each command's effect on the panel, and then the log, the units and the sets in it. -/
theorem reportsSetsAndBulkSessions : Obligations.ReportsSetsAndBulkSessions := by
  intro n k s hn h hi
  refine ⟨fun num ep reason hk hne => ?fenced, fun ev core d hk => ?fault, fun ev core supp d hk => ?event,
    fun seq part tqid ep trun hk => ?epochSet, fun seq r e hk htag hbarred he hseq htrun hmissing hnone => ?acked,
    fun seq r l hk htag hl hnum hsite hw => ?nacked, fun i sub off d hk => ?staged, fun num count hk => ⟨fun hcount => ?refused,
    fun i sub d r hi0 hws hcount hrow hlen hsub => ?applied⟩, fun sess status missing first b hk hb hsess hstatus hdone => ?bulk⟩
  case fenced =>
    exact ⟨_, exec_fence_of_other h hi hk hne, rfl, fun port hport hfar => mem_linkDown_cutInto hport hfar (decide_eq_true rfl)⟩
  case fault =>
    refine ⟨_, exec_faultReport h hi hk, rfl, fun h1 h2 h3 => ?_, ?_, ?_⟩
    · refine ⟨reportEntry ev k.src core d 0 (taken n s.p), ?_, rfl, rfl, rfl, rfl, rfl⟩
      rw [State.onP_p, pendAll_book]
      exact reportMoved_log h1 h2 h3 ..
    · rintro rfl hrank
      rw [State.onP_p, ust_of_unit (pendAll_unit ..)]
      exact reportMoved_failed k.src core d hrank
    · rintro rfl
      rw [State.onP_p, pendAll_book, reportMoved_pendingEvid (by decide) (by decide) (by decide)]
      rfl
  case event =>
    have hctl : (hubEnter ev k.src core k.src d supp (taken n s.p)).ctl = (taken n s.p).ctl := (hubEnter_book_ctl ..).2
    have hclk : (hubEnter ev k.src core k.src d supp (taken n s.p)).clk = s.p.clk := (hubEnter_reported ..).clk
    refine ⟨_, exec_event h hi hk, rfl, ⟨reportEntry ev k.src core d supp (taken n s.p), ?_, rfl, rfl, rfl, rfl, rfl⟩, fun hev => ?_, fun hev => ?_⟩
    · rw [State.onP_p, eventActed_log]
      exact List.mem_of_getLast? (hubEnter_getLast? ..)
    · rw [State.onP_p, eventActed_linkReport, if_pos hev, Panel.now, hclk]
      rfl
    · rw [State.onP_p, eventActed_linkReport, if_neg hev, hctl]
      rfl
  case epochSet =>
    intro newer
    have hnewer : newer ↔ newerSet n seq (taken n s.p) = true := by
      have hrtr : (taken n s.p).getRtr n = s.p.getRtr n := rfl
      simp only [newer, newerSet, hrtr]
      cases (s.p.getRtr n).lastEpochSeq <;> simp
    obtain ⟨hpwr, hbook⟩ := setEpoch_units n seq trun tqid ep (taken n s.p)
    refine ⟨_, exec_epochSet h hi hk, rfl, toHub_unicast_sent ?_ 1 (by simp), fun hnew => ?_, fun hold => ?_⟩
    · exact takesPart_of_congr h.2.1 hpwr (congrArg Book.unit hbook)
    · rw [State.onP_p, Panel.getRtr, toHub_rtr, setEpoch, if_pos (hnewer.mp hnew)]
      exact congrArg Router.lastEpochSeq (Panel.modRtr_same ..)
    · rw [State.onP_p, Panel.getRtr, toHub_rtr, setEpoch, if_neg (mt hnewer.mpr hold)]
      rfl
  case acked =>
    subst hseq
    refine ⟨_, exec_ack_last h hi hk htag hbarred he htrun hmissing hnone, rfl, rfl, ?_⟩
    rw [State.onP_p, Panel.modQuery_same]
  case nacked =>
    subst hnum
    refine ⟨_, exec_nack_empty h hi hk htag hl hsite hw, rfl, (toSite_reported ..).ctl_lives.trans hl, fun ht => ?_⟩
    exact toSite_unicast_sent (p := taken n s.p) ht k.src _ (by simp)
  case staged =>
    intro old
    have hdie := Panel.modDie_same (taken n s.p) n fun x =>
      { x with liveSet := Tab.upd [] k.tag (stageLive (i, sub, off, d)) x.liveSet }
    refine ⟨_, exec_liveWrite h hi hk, rfl, ?_, ?_, fun hnew => ?_⟩
    · rw [State.onP_p, hdie]
      rfl
    · rw [State.onP_p, hdie, Tab.get_upd_same]
      exact List.mem_concat_self
    · rw [State.onP_p, hdie, Tab.get_upd_same]
      exact stageLive_new hnew
  case refused =>
    refine ⟨_, exec_liveCommit_incomplete h hi hk hcount, rfl,
      toHub_unicast_sent (p := unstage n k.tag (taken n s.p)) (takesPart_of_congr h.2.1 rfl rfl) 2 (by simp), ?_, ?_⟩
    · rw [State.onP_p, toHub_getDie, unstage_getDie]
      rfl
    · rw [State.onP_p, toHub_getDie, unstage_getDie]
      exact Tab.get_del_same ..
  case applied =>
    refine ⟨_, exec_liveCommit_complete h hi hk hws hcount.symm (planOf_of_other_index hi0 ..), rfl,
      toHub_unicast_sent (p := applyLive n [(i, sub, 0, d)] (unstage n k.tag (taken n s.p))) (takesPart_of_congr h.2.1 rfl rfl) 2 (by simp), ?_⟩
    rw [State.onP_p, toHub_getDie]
    exact applyLive_one (p := unstage n k.tag (taken n s.p)) hrow hlen hsub d
  case bulk =>
    subst hsess hstatus
    exact ⟨_, exec_bulkResult_done h hi hk hb hdone, rfl, rfl⟩

end

section
/-! PROOFS. The takeover by hub B, the loss of hub B, and the end of a rate span (R299, R308, R332, R353, R507-R509, R564). -/

namespace Sys2Proof.Machine

variable {p q r : Panel} {s : State}

/-! What of the panel a takeover is told by. -/

/-- The hubs' own part of the panel: the stores and copies in progress, the roles of the hubs, the host interface taken, port H0, the
sessions with their IDs, pending sessions, bulk sessions. -/
structure HubView where
  writes : List NvWrite
  copies : List Copy
  active : Nat
  tgen : Nat
  tookOver : Bool
  takeDue : Bool
  standbyLost : Bool
  taken : Bool
  takeovers : Nat
  upH0 : Bool
  ids : List Nat
  pendingAuth : List PendingAuth
  bulks : List BulkOut

def hubView (p : Panel) : HubView :=
  { writes := p.pwr.writes, copies := p.host.copies, active := p.book.active, tgen := p.book.tgen, tookOver := p.book.tookOver,
    takeDue := p.book.takeDue, standbyLost := p.book.standbyLost, taken := p.host.taken, takeovers := p.host.takeovers,
    upH0 := (p.getHPort 0).up, ids := p.od.sessions.map (·.id), pendingAuth := p.sec.pendingAuth, bulks := p.ctl.bulks }

/-- `q` has the hubs' own part of `p`, and the state of hub A. -/
structure SameHub (p q : Panel) : Prop where
  view : hubView q = hubView p
  hubA : q.ust 0x00 = p.ust 0x00

theorem SameHub.refl (p : Panel) : SameHub p p := ⟨rfl, rfl⟩

theorem SameHub.trans (hq : SameHub p q) (hr : SameHub q r) : SameHub p r := ⟨hr.view.trans hq.view, hr.hubA.trans hq.hubA⟩

/-- After a change of other parts. -/
theorem SameHub.after (h : SameHub q r) (hview : hubView q = hubView p := by rfl) (hubA : q.ust 0x00 = p.ust 0x00 := by rfl) : SameHub p r :=
  ⟨h.view.trans hview, h.hubA.trans hubA⟩

theorem SameHub.ite {c : Prop} [Decidable c] (hq : SameHub p q) (hr : SameHub p r) : SameHub p (if c then q else r) := by
  split
  · exact hq
  · exact hr

theorem SameHub.each {α : Type} (l : List α) {f : α → Panel → Panel} (h : ∀ a p, SameHub p (f a p)) (p : Panel) : SameHub p (each l f p) :=
  each_keeps (P := SameHub p) l (fun a _ hq => hq.trans (h a _)) (.refl p)

/-! Events and messages leave it. -/

theorem sameHub_of_reported (h : Reported p q) (hids : q.od.sessions.map (·.id) = p.od.sessions.map (·.id)) : SameHub p q where
  view := by
    simp only [hubView, Panel.getHPort, hids, h.pwr, h.host_copies, h.book_active, h.book_tgen, h.book_tookOver, h.book_takeDue,
      h.book_standbyLost, h.host_taken, h.host_takeovers, h.host_port, h.sec, h.ctl_bulks]
  hubA := ust_of_unit h.book_unit 0x00

theorem sameHub_of_reported_od (h : Reported p q) (hod : q.od = p.od) : SameHub p q := sameHub_of_reported h (by rw [hod])

theorem latch_od (sp : Span) (ev key : Nat) (p : Panel) : (latch sp ev key p).2.od = p.od := by
  unfold latch
  split
  · rfl
  · dsimp only
    split
    · rfl
    · split <;> rfl

theorem takeData_od (d : Dat) (p : Panel) : (takeData d p).2.od = p.od := by cases d <;> rfl

theorem OnlyHost.od (h : OnlyHost p q) : q.od = p.od := by obtain ⟨_, rfl⟩ := h; rfl

theorem OnlyCtl.od (h : OnlyCtl p q) : q.od = p.od := by obtain ⟨_, rfl⟩ := h; rfl

theorem oweReport_id (parts : List Nat) (e : Entry) (x : Session) : (oweReport parts e x).id = x.id := by
  unfold oweReport
  split <;> rfl

/-- What sessions are owed changes, not the sessions. -/
theorem hubEnter_ids (ev site core key : Nat) (data : BitVec 64) (supp : Nat) (p : Panel) :
    (hubEnter ev site core key data supp p).od.sessions.map (·.id) = p.od.sessions.map (·.id) := by
  have hod := (ringEvents_onlyHost (evParts p key site) ⟨ev, evSev ev, site, core, p.now, data, supp, 0⟩
    (p.modBook (logEvent ⟨ev, evSev ev, site, core, p.now, data, supp, 0⟩))).od
  refine (List.map_map ..).trans ?_
  rw [hod]
  exact List.map_congr_left fun x _ => oweReport_id _ _ x

theorem raise_sameHub (ev site key : Nat) (d : Dat) (p : Panel) : SameHub p (raise ev site key d p) := by
  refine sameHub_of_reported (raise_reported ..) ?_
  have h := latch_od (evSpan ev) ev key p
  unfold raise raiseAs
  split
  · next supp q e =>
    rw [e] at h
    rw [hubEnter_ids, takeData_od, h]
  · next q e =>
    rw [e] at h
    rw [h]

theorem toHub_od (src tag : Nat) (m : Msg) (p : Panel) : (toHub src tag m p).od = p.od := (sendPkt_onlyCtl ..).od

theorem plainEvent_od (src core key ev : Nat) (d : Dat) (p : Panel) : (plainEvent src core key ev d p).od = p.od := by
  have h := latch_od (evSpan ev) ev key p
  unfold plainEvent
  split
  · next supp q e =>
    rw [e] at h
    rw [toHub_od, takeData_od, h]
  · next q e =>
    rw [e] at h
    exact h

theorem ite_od {c : Prop} [Decidable c] (hq : q.od = p.od) (hr : r.od = p.od) : (if c then q else r).od = p.od := by
  split
  · exact hq
  · exact hr

theorem dieRaise_od (src core key ev : Nat) (d : Dat) (p : Panel) : (dieRaise src core key ev d p).od = p.od := by
  have hurgent (m : Msg) (q : Panel) : (sendUrgent src m q).od = q.od :=
    ite_od (toHub_od ..) (ite_od (toHub_od ..) (ite_od rfl (plainEvent_od ..)))
  exact ite_od ((hurgent ..).trans (takeData_od ..)) (plainEvent_od ..)

theorem dieRaise_sameHub (src core key ev : Nat) (d : Dat) (p : Panel) : SameHub p (dieRaise src core key ev d p) :=
  sameHub_of_reported_od (dieRaise_reported ..) (dieRaise_od ..)

theorem fromHub_sameHub (hub dmode g : Nat) (m : Msg) (p : Panel) : SameHub p (fromHub hub dmode g m p) := by
  refine sameHub_of_reported_od (fromHub_reported ..) ?_
  unfold fromHub
  split <;> exact (sendPkt_onlyCtl ..).od

theorem setIcause_sameHub (f b : Nat) (p : Panel) : SameHub p (setIcause f b p) :=
  sameHub_of_reported_od (setIcause_reported ..) (setIcause_onlyHost ..).od

/-! Units that are FENCED, and the ports of those cut off (R27, R503, R542). -/

theorem freezeOf_sameHub (cause site : Nat) (p : Panel) : SameHub p (freezeOf cause site p) := by
  unfold freezeOf
  split
  · exact .ite (.refl p) (.ite ⟨rfl, rfl⟩ (raise_sameHub ..).after)
  · exact .refl p

/-- The states of units are none of the hubs' own part. -/
theorem modUnit_view (key : Nat) (f : URec → URec) (p : Panel) : hubView (p.modUnit key f) = hubView p := rfl

theorem takeState_view (st : USt) (cause : Nat) (own : Bool) (key : Nat) (p : Panel) :
    hubView (takeState st cause own key p) = hubView p := by
  unfold takeState
  split <;> rfl

/-- A unit is FENCED with what it contains; a region that holds it freezes. -/
theorem moveUnit_fenced_cases (key cause : Nat) (p : Panel) : (moveUnit key .fenced cause p = p.modUnit key fun r => { r with evid := r.evid + 1 })
    ∨ moveUnit key .fenced cause p = each (sitesUnder key) (freezeOf cause) (raise 0x0E05 (keySite key) key none
        (each (contained key .fenced) (takeState .fenced cause false) (putState key .fenced cause true p))) := by
  by_cases h : USt.fenced.rank ≤ (p.ust key).rank
  · exact .inl (if_pos h)
  · refine .inr ((if_neg h).trans ?_)
    simp [stEvent]

theorem moveUnit_fenced_view (key cause : Nat) (p : Panel) : hubView (moveUnit key .fenced cause p) = hubView p := by
  obtain h | h := moveUnit_fenced_cases key cause p
  · rw [h]
    rfl
  · rw [h, (SameHub.each _ (freezeOf_sameHub cause) _).view, (raise_sameHub ..).view]
    exact each_keeps (P := fun q : Panel => hubView q = hubView p) _ (fun j q hq => (takeState_view ..).trans hq) rfl

/-- A port contains no unit. -/
theorem contained_keyPort {n : Nat} (hn : n < 12) (st : USt) : contained (keyPort n) st = [] := by
  have hkey : keyPort n = 0x3000 + n := rfl
  rw [contained, hkey, if_neg (by omega), if_neg (by omega), if_neg (by omega)]

theorem moveUnit_port_sameHub {n : Nat} (hn : n < 12) (cause : Nat) (p : Panel) : SameHub p (moveUnit (keyPort n) .fenced cause p) := by
  have hne : 0x00 ≠ keyPort n := by
    have hkey : keyPort n = 0x3000 + n := rfl
    omega
  refine ⟨moveUnit_fenced_view .., ?_⟩
  obtain h | h := moveUnit_fenced_cases (keyPort n) cause p
  · rw [h]
    exact modUnit_ust_ne hne ..
  · rw [h, (SameHub.each _ (freezeOf_sameHub cause) _).hubA, (raise_sameHub ..).hubA, contained_keyPort hn]
    change (putState (keyPort n) .fenced cause true p).ust 0x00 = _
    exact modUnit_ust_ne hne ..

theorem portDown_sameHub (n : Nat) (p : Panel) : SameHub p (portDown n 1 p) := by
  have hphase : SameHub p (setPhase n 1 p) := ⟨rfl, rfl⟩
  unfold portDown
  dsimp only
  split
  · exact hphase.trans (dieRaise_sameHub ..)
  · exact hphase

theorem cutPort_sameHub (n : Nat) (p : Panel) : SameHub p (cutPort n p) := by
  unfold cutPort
  dsimp only
  split
  · exact (dieRaise_sameHub ..).after
  · exact ⟨rfl, rfl⟩

theorem holdPort_sameHub (n : Nat) (p : Panel) : SameHub p (holdPort n p) := (portDown_sameHub n p).trans (cutPort_sameHub n _)

theorem fenceCutPorts_sameHub (p : Panel) : SameHub p (fenceCutPorts p) := by
  have hports (l : List Nat) (hl : ∀ n ∈ l, n < 12) (q : Panel) : SameHub q (each l fencePort q) := by
    induction l generalizing q with
    | nil => exact .refl q
    | cons n l ih =>
      have hn := hl n List.mem_cons_self
      exact ((moveUnit_port_sameHub hn ..).trans (holdPort_sameHub n _)).trans (ih (fun m hm => hl m (List.mem_cons_of_mem n hm)) _)
  exact hports _ (fun n hn => List.mem_range.mp (List.mem_filter.mp hn).1) p

/-! The stages of a takeover (R298, R332, R333, R353, R421, R470, R508). -/

/-- The hubs' roles: hub B is active, under the next generation. -/
theorem takeHub_view (p : Panel) : hubView (takeHub p)
    = { hubView p with active := 1, tgen := (p.book.tgen + 1) % 256, tookOver := true, takeDue := false } := by
  unfold takeHub
  dsimp only
  rw [(raise_sameHub ..).view, modUnit_view, moveUnit_fenced_view, (fromHub_sameHub ..).view]
  rfl

/-- Hub A is FENCED, unless it was so or worse. -/
theorem takeHub_hubA (h : USt.rank (p.ust 0x00) < 2) : (takeHub p).ust 0x00 = .fenced := by
  unfold takeHub
  extract_lets p1 p2 p3 p4
  have h3 : p3.ust 0x00 = p.ust 0x00 := (fromHub_sameHub ..).hubA
  rw [(raise_sameHub ..).hubA, modUnit_ust_same]
  exact moveUnit_ust (by rw [h3]; exact h) _

/-- Sessions end, and the image writes of their slots. -/
theorem endSessions_view (f : Session → Bool) (reason : Nat) (p : Panel) :
    hubView (endSessions f reason p) = { hubView p with ids := (p.od.sessions.filter fun x => !f x).map (·.id) } := by
  unfold endSessions
  extract_lets gone p1
  rfl

theorem endSessions_ust (f : Session → Bool) (reason key : Nat) (p : Panel) : (endSessions f reason p).ust key = p.ust key := by
  unfold endSessions
  extract_lets gone p1
  rfl

/-- Of the sessions the mailboxes' own are left, with ID 0; pending sessions and bulk sessions are gone. -/
theorem takeDrop_view (p : Panel) : hubView (takeDrop p)
    = { hubView p with ids := (p.od.sessions.filter fun x => !decide (x.id ≠ 0)).map (·.id), pendingAuth := [], bulks := [] } := by
  unfold takeDrop
  extract_lets p1 p2
  have h := endSessions_view (fun x => decide (x.id ≠ 0)) endedTakeover p
  change ({ hubView p1 with pendingAuth := [], bulks := [] } : HubView) = _
  rw [show hubView p1 = _ from h]

theorem takeDrop_ust (key : Nat) (p : Panel) : (takeDrop p).ust key = p.ust key := endSessions_ust (fun x => decide (x.id ≠ 0)) endedTakeover key p

theorem takePower_sameHub (p : Panel) : SameHub p (takePower p) := by
  unfold takePower
  extract_lets p1
  refine (SameHub.each p1.reg (fun e q => ?_) p1).after
  exact .ite ⟨rfl, rfl⟩ (.refl q)

/-- What is not confirmed is written to the host again. -/
theorem rewrite_sameHub (f : Nat) (out : List HostOut) (g : Fn → Fn) (p : Panel) :
    SameHub p ((p.modHost fun h => { h with out := out }).modFn f g) := ⟨rfl, rfl⟩

theorem takeHost_view (p : Panel) : hubView (takeHost p)
      = { hubView p with taken := true, takeovers := p.host.takeovers + 1, upH0 := false }
    ∧ (takeHost p).ust 0x00 = p.ust 0x00 := by
  unfold takeHost
  extract_lets p1 p2 fns p3 p4
  have h2 : hubView p2 = { hubView p with taken := true, takeovers := p.host.takeovers + 1, upH0 := false } ∧ p2.ust 0x00 = p.ust 0x00 := by
    by_cases hup : (p1.getHPort 0).up = true
    · have hraise := raise_sameHub 0x0908 0x00 0x00 none (p1.modHPort 0 fun x => { x with up := false })
      rw [show p2 = _ from if_pos hup]
      refine ⟨hraise.view.trans ?_, hraise.hubA⟩
      simp only [hubView, Panel.modHPort_same]
      rfl
    · rw [show p2 = p1 from if_neg hup]
      refine ⟨?_, rfl⟩
      simp only [hubView, eq_false_of_ne_true hup]
      rfl
  have h3 : SameHub p2 p3 := .each fns (fun _ _ => rewrite_sameHub ..) p2
  have h4 : SameHub p3 p4 := .each fns (fun f _ => (setIcause_sameHub f 2 _).after) p3
  have h5 (q : Panel) : SameHub q (if hostServed q = true then raise 0x0901 0xDD 0xDD none q else raise 0x0908 0xDD 0xDD none q) :=
    .ite (raise_sameHub ..) (raise_sameHub ..)
  have hall := (h3.trans h4).trans (h5 p4)
  exact ⟨hall.view.trans h2.1, hall.hubA.trans h2.2⟩

theorem nextBlock_sameHub (t : Nat) (p : Panel) : SameHub p (nextBlock t p) := by
  unfold nextBlock
  split
  · exact .refl p
  · exact .ite (.ite ⟨rfl, rfl⟩ (raise_sameHub ..).after) ⟨rfl, rfl⟩

theorem takeBoot_sameHub (p : Panel) : SameHub p (takeBoot p) :=
  .ite (.refl p) (.ite (nextBlock_sameHub ..).after ⟨rfl, rfl⟩)

theorem resolveCommits_of_none {f : Panel → Panel} (h : (hubView (f s.p)).writes = []) (stored : Bool) :
    resolveCommits stored (s.onP f) = s.onP fun p => (f p).modPwr fun x => { x with writes := [] } := by
  have hw : (s.onP f).p.pwr.writes = [] := h
  unfold resolveCommits
  rw [hw]
  rfl

theorem restartCopies_of_none {f : Panel → Panel} (h : (hubView (f s.p)).copies = []) :
    restartCopies (s.onP f) = s.onP fun p => dropScans (fun _ => true) (f p) := by
  have hc : (s.onP f).p.host.copies = [] := h
  unfold restartCopies
  dsimp only
  rw [State.onP_p, show (dropScans (fun _ => true) (s.onP f).p).host.copies = [] from hc]
  rfl

/-- The panel when hub B has the hubs' roles, and has dropped what it does not go on with. -/
def takenRoles (p : Panel) : Panel := (fenceCutPorts (takeDrop (takeHub p))).modPwr fun x => { x with writes := [] }

/-- The panel after a takeover with no store and no copy in progress. -/
def takenOver (p : Panel) : Panel := dropScans (fun _ => true) (takeBoot (takeHost (takePower (takenRoles p))))

/-- The settled writes of the record. -/
theorem clearWrites_view (p : Panel) : hubView (p.modPwr fun x => { x with writes := [] }) = { hubView p with writes := [] } := rfl

theorem clearWrites_ust (key : Nat) (p : Panel) : (p.modPwr fun x => { x with writes := [] }).ust key = p.ust key := rfl

theorem dropScans_sameHub (mine : Nat → Bool) (p : Panel) : SameHub p (dropScans mine p) := ⟨rfl, rfl⟩

theorem takenRoles_view (p : Panel) : hubView (takenRoles p) = { hubView (takeDrop (takeHub p)) with writes := [] } := by
  rw [takenRoles, clearWrites_view, (fenceCutPorts_sameHub _).view]

theorem takenRoles_hubA (p : Panel) : (takenRoles p).ust 0x00 = (takeHub p).ust 0x00 := by
  rw [takenRoles, clearWrites_ust, (fenceCutPorts_sameHub _).hubA, takeDrop_ust]

/-- What a takeover leaves of the hubs' own part. -/
def takenView (p : Panel) : HubView :=
  { writes := [], copies := p.host.copies, active := 1, tgen := (p.book.tgen + 1) % 256, tookOver := true, takeDue := false,
    standbyLost := p.book.standbyLost, taken := true, takeovers := p.host.takeovers + 1, upH0 := false,
    ids := ((takeHub p).od.sessions.filter fun x => !decide (x.id ≠ 0)).map (·.id), pendingAuth := [], bulks := [] }

theorem takenOver_view (p : Panel) : hubView (takenOver p) = takenView p := by
  have hcount : (takePower (takenRoles p)).host.takeovers = p.host.takeovers := by
    have h := congrArg HubView.takeovers (takePower_sameHub (takenRoles p)).view
    rw [takenRoles_view, takeDrop_view, takeHub_view] at h
    exact h
  rw [takenOver, (dropScans_sameHub _ _).view, (takeBoot_sameHub _).view, (takeHost_view _).1, hcount, (takePower_sameHub _).view,
    takenRoles_view, takeDrop_view, takeHub_view]
  rfl

theorem takenOver_hubA (h : USt.rank (p.ust 0x00) < 2) : (takenOver p).ust 0x00 = .fenced := by
  rw [takenOver, (dropScans_sameHub _ _).hubA, (takeBoot_sameHub _).hubA, (takeHost_view _).2, (takePower_sameHub _).hubA,
    takenRoles_hubA, takeHub_hubA h]

theorem sessions_of_ids (h : ∀ i ∈ (hubView p).ids, i = 0) : ∀ x ∈ p.od.sessions, x.id = 0 :=
  fun _ hx => h _ (List.mem_map_of_mem hx)

/-- The sessions with ID 0 are left. -/
theorem ids_kept (l : List Session) : ∀ i ∈ (l.filter fun x => !decide (x.id ≠ 0)).map (·.id), i = 0 := by
  intro i hi
  obtain ⟨x, hx, rfl⟩ := List.mem_map.mp hi
  simpa using (List.mem_filter.mp hx).2

/-- The sessions left are the mailboxes' own. -/
theorem takenOver_sessions (p : Panel) : ∀ x ∈ (takenOver p).od.sessions, x.id = 0 := by
  refine sessions_of_ids ?_
  rw [takenOver_view]
  exact ids_kept _

theorem exec_takeover (hdue : s.p.book.takeDue = true) (hactive : s.p.book.active = 0) (hnot : s.p.book.tookOver = false)
    (hruns : hubRuns s.p 0xDD = true) (hwrites : s.p.pwr.writes = []) (hcopies : s.p.host.copies = []) (stored : Bool) :
    exec (.takeover stored) s = .next (s.onP takenOver) := by
  have hroles : (hubView (fenceCutPorts (takeDrop (takeHub s.p)))).writes = [] := by
    rw [(fenceCutPorts_sameHub _).view, takeDrop_view, takeHub_view]
    exact hwrites
  have hresolve : resolveCommits stored (s.onP fun p => fenceCutPorts (takeDrop (takeHub p))) = s.onP takenRoles :=
    resolveCommits_of_none (f := fun p => fenceCutPorts (takeDrop (takeHub p))) hroles stored
  have hlate : (hubView (takeBoot (takeHost (takePower (takenRoles s.p))))).copies = [] := by
    rw [(takeBoot_sameHub _).view, (takeHost_view _).1, (takePower_sameHub _).view, takenRoles_view, takeDrop_view, takeHub_view]
    exact hcopies
  change execTakeover stored s = _
  rw [execTakeover, State.run_true, if_pos ⟨hdue, hactive, by simp [hnot], hruns⟩]
  dsimp only
  rw [hresolve, State.onP_onP]
  exact congrArg Host.Outcome.next (restartCopies_of_none (f := fun p => takeBoot (takeHost (takePower (takenRoles p)))) hlate)

/-- The state after a takeover, as the hubs' own part tells it. -/
theorem takeover_takes (hdue : s.p.book.takeDue = true) (hactive : s.p.book.active = 0) (hnot : s.p.book.tookOver = false)
    (hruns : hubRuns s.p 0xDD = true) (hwrites : s.p.pwr.writes = []) (hcopies : s.p.host.copies = []) (stored : Bool) :
    ∃ t, exec (.takeover stored) s = .next t ∧ t.mem = s.mem ∧ hubView t.p = takenView s.p
      ∧ (∀ x ∈ t.p.od.sessions, x.id = 0) ∧ (USt.rank (s.p.ust 0x00) < 2 → t.p.ust 0x00 = .fenced) := by
  refine ⟨s.onP takenOver, exec_takeover hdue hactive hnot hruns hwrites hcopies stored, State.onP_mem .., ?_⟩
  rw [State.onP_p]
  exact ⟨takenOver_view s.p, takenOver_sessions s.p, takenOver_hubA⟩

theorem exec_takeover_of_not_due (h : s.p.book.takeDue = false) (stored : Bool) : exec (.takeover stored) s = .next s := by
  change execTakeover stored s = _
  rw [execTakeover, State.run_true, if_neg fun hall => Bool.false_ne_true (h.symm.trans hall.1)]

/-! The loss of hub B (R299, R509). -/

/-- Hub B is declared lost and FENCED, and the loss raised. -/
def standbyGone (p : Panel) : Panel :=
  raise 0x0E08 0xDD 0xDD none (moveUnit 0xDD .fenced 0x0E05 (p.modBook fun b => { b with standbyLost := true, takeDue := false }))

theorem standbyGone_view (p : Panel) : hubView (standbyGone p) = { hubView p with standbyLost := true, takeDue := false } := by
  rw [standbyGone, (raise_sameHub ..).view, moveUnit_fenced_view]
  rfl

theorem standbyGone_logged (p : Panel) : Logged 0x0E08 (standbyGone p) := raise_logged (by decide) ..

theorem standbyGone_hubB (h : USt.rank (p.ust 0xDD) < 2) : (standbyGone p).ust 0xDD = .fenced := by
  rw [standbyGone, ust_of_unit (raise_book_unit ..)]
  exact moveUnit_ust h _

theorem exec_hubBBeatsMissed_due (hactive : s.p.book.active = 0) (hlost : s.p.book.standbyLost = false)
    (hdue : Tab.get 0 s.p.ctl.lastBeat 0xDD + cfg s.p 0x7024 0 2 ≤ s.p.now) : exec .hubBBeatsMissed s = .next (s.onP standbyGone) := by
  change execHubBBeatsMissed s = _
  rw [execHubBBeatsMissed, State.runP_eq rfl]
  refine congrArg _ (State.onP_congr ?_)
  rw [if_pos ⟨hactive, hdue⟩, loseStandby, if_neg (by simp [hactive, hlost])]
  rfl

theorem exec_hubBBeatsMissed_early (h : s.p.now < Tab.get 0 s.p.ctl.lastBeat 0xDD + cfg s.p 0x7024 0 2) :
    exec .hubBBeatsMissed s = .next s := by
  change execHubBBeatsMissed s = _
  exact State.runP_same (if_neg fun hall => Nat.not_le.mpr h hall.2)

/-- The state after the loss of hub B is declared. -/
theorem hubBBeatsMissed_declares (hactive : s.p.book.active = 0) (hlost : s.p.book.standbyLost = false)
    (hdue : Tab.get 0 s.p.ctl.lastBeat 0xDD + cfg s.p 0x7024 0 2 ≤ s.p.now) :
    ∃ t, exec .hubBBeatsMissed s = .next t ∧ t.mem = s.mem ∧ hubView t.p = { hubView s.p with standbyLost := true, takeDue := false }
      ∧ Logged 0x0E08 t.p ∧ (USt.rank (s.p.ust 0xDD) < 2 → t.p.ust 0xDD = .fenced) := by
  refine ⟨s.onP standbyGone, exec_hubBBeatsMissed_due hactive hlost hdue, State.onP_mem .., ?_⟩
  rw [State.onP_p]
  exact ⟨standbyGone_view s.p, standbyGone_logged s.p, standbyGone_hubB⟩

/-! The end of a rate span (R564). -/

/-- A limit after its span is looked at. -/
def spanEnded (now : Nat) (l : Latch) : Latch :=
  if (evSpan l.ev = .second ∨ evSpan l.ev = .minute) ∧ l.idx ≠ spanIdx (evSpan l.ev) now then { l with live := false } else l

theorem exec_rateSpanEnd (s : State) :
    exec .rateSpanEnd s = .next (s.onP fun p => p.modBook fun b => { b with latch := b.latch.map (spanEnded p.now) }) := by
  change execRateSpanEnd s = _
  rw [execRateSpanEnd, State.runP_eq rfl]
  rfl

/-- A limit per second ends in another second than its own. -/
theorem spanEnded_of_second {l : Latch} (h : evSpan l.ev = .second) (now : Nat) :
    spanEnded now l = if l.idx ≠ now / ticksPerSecond then { l with live := false } else l := by
  simp [spanEnded, h, spanIdx]

theorem exec_rateSpanEnd_of_latch {l : Latch} (h : s.p.book.latch = [l]) :
    exec .rateSpanEnd s = .next (s.onP fun p => p.modBook fun b => { b with latch := [spanEnded s.p.now l] }) := by
  rw [exec_rateSpanEnd]
  refine congrArg _ (State.onP_congr ?_)
  rw [Panel.modBook, h]
  rfl

theorem onP_latch_same {l : List Latch} (h : s.p.book.latch = l) : (s.onP fun p => p.modBook fun b => { b with latch := l }) = s := by
  subst h
  rfl

end Sys2Proof.Machine
end

section
open Sys2Proof Sys2Proof.Machine

/-- Settles O44: after a takeover the hubs' own part of the panel is known; a declared loss of hub B fences it; the one limit is looked at. -/
theorem hubBTakesOverAndRatesAreLimitedBySpans : Obligations.HubBTakesOverAndRatesAreLimitedBySpans := by
  unfold Obligations.HubBTakesOverAndRatesAreLimitedBySpans
  intro stored s
  refine ⟨?takes, fun h => exec_takeover_of_not_due h stored, ?lost, ?span⟩
  case takes =>
    intro hdue hactive hnot hruns hwrites hcopies
    obtain ⟨t, hexec, hmem, hview, hsessions, hhubA⟩ := takeover_takes hdue hactive hnot hruns hwrites hcopies stored
    exact ⟨t, hexec, hmem, congrArg HubView.active hview, congrArg HubView.tookOver hview, congrArg HubView.takeDue hview,
      congrArg HubView.tgen hview, congrArg HubView.taken hview, congrArg HubView.takeovers hview, congrArg HubView.upH0 hview,
      hsessions, congrArg HubView.pendingAuth hview, congrArg HubView.bulks hview, hhubA⟩
  case lost =>
    intro hactive hlost
    refine ⟨fun hdue => ?_, exec_hubBBeatsMissed_early⟩
    obtain ⟨t, hexec, hmem, hview, hlogged, hhubB⟩ := hubBBeatsMissed_declares hactive hlost hdue
    exact ⟨t, hexec, hmem, congrArg HubView.standbyLost hview, congrArg HubView.takeDue hview, hlogged, hhubB⟩
  case span =>
    intro l hlatch hspan
    rw [exec_rateSpanEnd_of_latch hlatch, spanEnded_of_second hspan]
    refine ⟨fun hother => ?_, fun hown => ?_⟩
    · rw [if_pos hother]
    · rw [if_neg (not_not_intro hown), onP_latch_same hlatch]

end

section
/-! PROOFS. The clearance of a site's map entry (R427, R429). -/

namespace Sys2Proof.Machine

variable {site : Nat} {s : State}

theorem fld_lt {n : Nat} (x : BitVec n) (hi lo : Nat) : fld x hi lo < 2 ^ (hi + 1 - lo) := Nat.mod_lt _ (Nat.two_pow_pos _)

theorem nfld_lt (x hi lo : Nat) : nfld x hi lo < 2 ^ (hi + 1 - lo) := Nat.mod_lt _ (Nat.two_pow_pos _)

/-- The map entry that is set has the FSTATE given. -/
theorem mapSet_fstate {fs stk cause : Nat} (hfs : fs < 16) (hstk : stk < 16) (hcause : cause < 2 ^ 16) (p : Panel) :
    fstate (mapSet site fs stk cause p) site = fs := by
  have hrole := nfld_lt (mapEntry p site).toNat 27 24
  have hlayers := nfld_lt (mapEntry p site).toNat 19 16
  rw [fstate, mapEntry, mapSet, Panel.modBoot_boot, Tab.get_set_same, fld, BitVec.toNat_ofNat]
  omega

theorem mapSet_mapEntry_ne {o : Nat} (h : o ≠ site) (fs stk cause : Nat) (p : Panel) : mapEntry (mapSet site fs stk cause p) o = mapEntry p o :=
  Tab.get_set_ne _ _ h _

/-- What the generation's increase leaves of the map: its entries. -/
theorem bumpGen_mapEntry (o : Nat) (p : Panel) : mapEntry (bumpGen p) o = mapEntry p o := by
  rw [mapEntry, bumpGen, raise_boot, raise_variant]
  rfl

theorem bumpGen_book_unit (p : Panel) : (bumpGen p).book.unit = p.book.unit := raise_book_unit ..

/-- The panel after the clearance of a site with FSTATE 3 or 4. -/
def cleared (site : Nat) (p : Panel) : Panel := bumpGen (mapSet site 6 (fld (mapEntry p site) 23 20) 0 p)

theorem cleared_fstate (site : Nat) (p : Panel) : fstate (cleared site p) site = 6 := by
  rw [fstate, cleared, bumpGen_mapEntry]
  exact mapSet_fstate (by decide) (fld_lt ..) (by decide) p

theorem cleared_mapEntry_ne {o : Nat} (h : o ≠ site) (p : Panel) : mapEntry (cleared site p) o = mapEntry p o :=
  (bumpGen_mapEntry ..).trans (mapSet_mapEntry_ne h ..)

theorem cleared_ust (site key : Nat) (p : Panel) : (cleared site p).ust key = p.ust key := ust_of_unit (bumpGen_book_unit _) key

/-- A site that is not fused off is tested at the next bring-up. -/
theorem bookState_of_cleared {p : Panel} (hfused : fusedDie p.variant site = false) (h : fstate p site = 6) : bookState p site = .suspect := by
  rw [bookState, if_neg (by simp [hfused]), h]
  rfl

theorem writeClearance_of_failed {p : Panel} (h : fstate p site = 3 ∨ fstate p site = 4) : writeClearance site 1 p = (0, cleared site p) := by
  rw [writeClearance, if_neg (by decide), if_pos h]
  rfl

theorem writeClearance_of_other {p : Panel} (hfailed : ¬ (fstate p site = 3 ∨ fstate p site = 4)) (hcleared : fstate p site ≠ 6) :
    writeClearance site 1 p = (abortOf 0x09 1 0, p) := by
  rw [writeClearance, if_neg (by decide), if_neg hfailed, if_neg hcleared]

theorem exec_floorplanClearance (hsite : isSite site = true) (x : Nat) :
    exec (.floorplanClearance site x) s = .next (s.onP fun p => (writeClearance site x p).2) := by
  change execFloorplanClearance site x s = _
  rw [execFloorplanClearance, hsite]
  rfl

end Sys2Proof.Machine
end

section
open Sys2Proof Sys2Proof.Machine

/-- Settles O51: a failed site's map entry takes FSTATE 6, and nothing else of the map or the book changes; of another site nothing does. -/
theorem clearanceOfASiteFollowsItsState : Obligations.ClearanceOfASiteFollowsItsState := by
  unfold Obligations.ClearanceOfASiteFollowsItsState
  intro site s hsite
  rw [exec_floorplanClearance hsite]
  refine ⟨fun hfailed => ⟨_, rfl, rfl, ?_⟩, fun hother => ?_⟩
  · rw [State.onP_p, writeClearance_of_failed hfailed]
    exact ⟨cleared_fstate .., fun k => cleared_ust .., fun hfused => bookState_of_cleared hfused (cleared_fstate ..),
      fun o ho => cleared_mapEntry_ne ho _⟩
  · rw [writeClearance_of_other (by omega) (by omega)]
    refine ⟨congrArg _ ?_, (by decide : abortOf 0x09 1 0 / 2 ^ 24 = 0x09)⟩
    exact State.onP_congr (g := id) (congrArg Prod.snd (writeClearance_of_other (by omega) (by omega)))

end

section
/-! PROOFS. The queues of a function, and what events leave of a function (R317-R319, R324-R329). -/

namespace Sys2Proof.Machine

variable {p q r : Panel} {s : State} {f n : Nat}

/-! What raising an event leaves of a function: all but its event ring, its cause and pending bits, and its counts. -/

/-- `y` is function `x` but for event ring, cause and pending bits, unconfirmed writes and counts. -/
structure SameFn (x y : Fn) : Prop where
  slices : y.slices = x.slices
  sq : y.sq = x.sq
  cq : y.cq = x.cq
  held : y.held = x.held
  reqLen : y.reqLen = x.reqLen
  busy : y.busy = x.busy
  rspLen : y.rspLen = x.rspLen
  req : y.req = x.req
  rsp : y.rsp = x.rsp
  msix : y.msix = x.msix

/-- The functions of `q` are those of `p` in this sense. -/
structure SameFns (p q : Panel) : Prop where
  fn : ∀ j, SameFn (p.getFn j) (q.getFn j)

theorem SameFn.refl (x : Fn) : SameFn x x := ⟨rfl, rfl, rfl, rfl, rfl, rfl, rfl, rfl, rfl, rfl⟩

theorem SameFn.trans {x y z : Fn} (hy : SameFn x y) (hz : SameFn y z) : SameFn x z :=
  ⟨hz.slices.trans hy.slices, hz.sq.trans hy.sq, hz.cq.trans hy.cq, hz.held.trans hy.held, hz.reqLen.trans hy.reqLen, hz.busy.trans hy.busy,
    hz.rspLen.trans hy.rspLen, hz.req.trans hy.req, hz.rsp.trans hy.rsp, hz.msix.trans hy.msix⟩

theorem SameFns.refl (p : Panel) : SameFns p p := ⟨fun _ => .refl _⟩

theorem SameFns.trans (hq : SameFns p q) (hr : SameFns q r) : SameFns p r := ⟨fun j => (hq.fn j).trans (hr.fn j)⟩

theorem SameFns.ite {c : Prop} [Decidable c] (hq : SameFns p q) (hr : SameFns p r) : SameFns p (if c then q else r) := by
  split
  · exact hq
  · exact hr

theorem SameFns.each {α : Type} (l : List α) {g : α → Panel → Panel} (h : ∀ a p, SameFns p (g a p)) (p : Panel) : SameFns p (each l g p) :=
  each_keeps (P := SameFns p) l (fun a _ hq => hq.trans (h a _)) (.refl p)

theorem sameFns_of_fn (h : q.host.fn = p.host.fn) : SameFns p q := ⟨fun j => by
  rw [Panel.getFn, Panel.getFn, h]
  exact .refl _⟩

theorem SameFns.after (h : SameFns q r) (hfn : q.host.fn = p.host.fn := by rfl) : SameFns p r := (sameFns_of_fn hfn).trans h

theorem SameFns.before (h : SameFns p q) (hfn : r.host.fn = q.host.fn := by rfl) : SameFns p r := h.trans (sameFns_of_fn hfn)

theorem modFn_sameFns (f : Nat) {g : Fn → Fn} (p : Panel) (hg : ∀ x, SameFn x (g x) := by intro _; exact ⟨rfl, rfl, rfl, rfl, rfl, rfl, rfl, rfl, rfl, rfl⟩) :
    SameFns p (p.modFn f g) := ⟨fun j => by
  by_cases h : j = f
  · subst h
    rw [Panel.modFn_same]
    exact hg _
  · rw [Panel.modFn_ne _ _ h]
    exact .refl _⟩

theorem hostWrite_sameFns (f c addr : Nat) (b : List Byte) (p : Panel) : SameFns p (hostWrite f c addr b p) := by
  unfold hostWrite
  exact (modFn_sameFns f _).after

theorem raiseVector_sameFns (f port v : Nat) (p : Panel) : SameFns p (raiseVector f port v p) :=
  .ite (.refl p) (.ite (modFn_sameFns ..) (sameFns_of_fn rfl))

theorem setIcause_sameFns (f b : Nat) (p : Panel) : SameFns p (setIcause f b p) :=
  .ite (.refl p) ((modFn_sameFns ..).trans (raiseVector_sameFns ..))

theorem ringPut_sameFns (f : Nat) (e : Entry) (p : Panel) : SameFns p (ringPut f e p) :=
  ((hostWrite_sameFns ..).trans (modFn_sameFns ..)).trans (setIcause_sameFns ..)

theorem ringEvent_sameFns (f : Nat) (e : Entry) (p : Panel) : SameFns p (ringEvent f e p) :=
  .ite (.refl p) (.ite (modFn_sameFns ..) (ringPut_sameFns ..))

theorem hubEnter_sameFns (ev site core key : Nat) (data : BitVec 64) (supp : Nat) (p : Panel) : SameFns p (hubEnter ev site core key data supp p) := by
  unfold hubEnter
  extract_lets e parts p1 p2 p3
  have hparts : SameFns p2 p3 := .each parts (fun n => ringEvent_sameFns (n + 1) e) p2
  exact (((ringEvent_sameFns 0 e p1).trans hparts).before).after

theorem latch_host (sp : Span) (ev key : Nat) (p : Panel) : (latch sp ev key p).2.host = p.host := by
  unfold latch
  split
  · rfl
  · dsimp only
    split
    · rfl
    · split <;> rfl

theorem takeData_host (d : Dat) (p : Panel) : (takeData d p).2.host = p.host := by cases d <;> rfl

theorem raise_sameFns (ev site key : Nat) (d : Dat) (p : Panel) : SameFns p (raise ev site key d p) := by
  have h := latch_host (evSpan ev) ev key p
  unfold raise raiseAs
  split
  · next supp u e =>
    rw [e] at h
    exact (sameFns_of_fn (by rw [takeData_host, h])).trans (hubEnter_sameFns ..)
  · next u e =>
    rw [e] at h
    exact sameFns_of_fn (by rw [h])

/-! The queues of a function. -/

@[simp] theorem modQ_getQ (f n : Nat) (g : Queue → Queue) (p : Panel) : getQ (modQ f n g p) f n = g (getQ p f n) := by
  unfold getQ modQ
  split
  · rw [modSq, Panel.modFn_same]
    exact Tab.get_upd_same ..
  · split
    · rw [modCq, Panel.modFn_same]
      exact Tab.get_upd_same ..
    · rw [Panel.modFn_same]

theorem getQ_of_sq (hn : n < 16) (p : Panel) (f : Nat) : getQ p f n = (p.getFn f).sqOf n := if_pos hn

theorem getQ_of_cq (hn : n < 16) (p : Panel) (f : Nat) : getQ p f (16 + n) = (p.getFn f).cqOf n := by
  rw [getQ, if_neg (by omega), if_pos (by omega), Nat.add_sub_cancel_left]

theorem getQ_of_fn {j : Nat} (hsq : (q.getFn f).sq = (p.getFn f).sq) (hcq : (q.getFn f).cq = (p.getFn f).cq)
    (hring : (q.getFn f).ring = (p.getFn f).ring) : getQ q f j = getQ p f j := by
  simp only [getQ, Fn.sqOf, Fn.cqOf, hsq, hcq, hring]

theorem getQ_of_host {j : Nat} (h : q.host = p.host) : getQ q f j = getQ p f j := by simp only [getQ, Panel.getFn, h]

/-- A change of a function's other fields leaves its queues. -/
theorem getQ_modFn (f j : Nat) {g : Fn → Fn} (p : Panel) (hsq : ∀ x, (g x).sq = x.sq := by intros; rfl)
    (hcq : ∀ x, (g x).cq = x.cq := by intros; rfl) (hring : ∀ x, (g x).ring = x.ring := by intros; rfl) :
    getQ (p.modFn f g) f j = getQ p f j :=
  getQ_of_fn (by rw [Panel.modFn_same, hsq]) (by rw [Panel.modFn_same, hcq]) (by rw [Panel.modFn_same, hring])

theorem dropWrite_getQ (f j : Nat) (p : Panel) : getQ (dropWrite f p) f j = getQ p f j := getQ_modFn ..

/-- A write to BAR 0 of the active port acts (R308). -/
theorem bar0_active {hp : Nat} (harr : arrives p hp f = true) (hact : hp = activePort p) (act : Panel → Panel) : bar0 hp f act p = act p := by
  rw [bar0, if_neg (not_not_intro harr), if_pos hact]

theorem bar0_runP {hp : Nat} {ok : Bool} (hok : ok = true) (harr : arrives s.p hp f = true) (hact : hp = activePort s.p) (act : Panel → Panel) :
    s.runP ok (bar0 hp f act) = .next (s.onP act) := by
  subst hok
  exact State.runP_eq (bar0_active harr hact act)

/-! Doorbells (R318, R327, R329). -/

theorem bellOf_valid {x : BitVec 32} {y : Queue} (hst : y.st = .enabled) (hres : fld x 31 16 = 0) (hidx : fld x 15 0 < y.size) (now : Nat) :
    bellOf x y now = if fld x 15 0 = now then .same else .take (fld x 15 0) := by
  rw [bellOf, if_neg]
  simp [hst, hres, Nat.not_le.mpr hidx]

theorem bellOf_beyond {x : BitVec 32} {y : Queue} (hidx : y.size ≤ fld x 15 0) (now : Nat) : bellOf x y now = .bad := if_pos (.inr (.inl hidx))

theorem ringBell_same {x : BitVec 32} (h : bellOf x (getQ p f n) (if n < 16 then (getQ p f n).tail else (getQ p f n).head) = .same) :
    ringBell f n x p = p := by
  rw [ringBell, h]

theorem ringBell_take {x : BitVec 32} {i : Nat} (h : bellOf x (getQ p f n) (if n < 16 then (getQ p f n).tail else (getQ p f n).head) = .take i) :
    ringBell f n x p =
      if n < 16 then modQ f n (fun y => { y with tail := i }) p
      else if n < 32 then postHeld f (n - 16) 4096 (modQ f n (fun y => { y with head := i }) p)
      else if (getQ p f n).dropped = 0 then modQ f n (fun y => { y with head := i }) p
      else ringPut f ⟨0x0906, 0, 0xFF, 0, (modQ f n (fun y => { y with head := i }) p).now, BitVec.ofNat 64 (getQ p f n).dropped, 0, 0⟩
        (modQ f n (fun y => { y with dropped := 0 }) (modQ f n (fun y => { y with head := i }) p)) := by
  rw [ringBell, h]

theorem ringBell_beyond {x : BitVec 32} (hidx : (getQ p f n).size ≤ fld x 15 0) (hst : (getQ p f n).st = .enabled) :
    ringBell f n x p = queueError f n (dropWrite f p) := by
  rw [ringBell, bellOf_beyond hidx]
  exact if_pos ((congrArg Queue.st (dropWrite_getQ f n p)).trans hst)

/-- Without held entries none are posted. -/
theorem postHeld_nil (h : (p.getFn f).held = []) (c fuel : Nat) : postHeld f c fuel p = p := by
  cases fuel with
  | zero => rfl
  | succ m => rw [postHeld, h]; rfl

theorem modQ_held (f n : Nat) (g : Queue → Queue) (p : Panel) : ((modQ f n g p).getFn f).held = (p.getFn f).held := by
  unfold modQ
  split
  · rw [modSq, Panel.modFn_same]
  · split
    · rw [modCq, Panel.modFn_same]
    · rw [Panel.modFn_same]

/-- A valid doorbell of a submission queue sets its tail. -/
theorem ringBell_sq {x : BitVec 32} (hn : n < 16) (hst : ((p.getFn f).sqOf n).st = .enabled) (hres : fld x 31 16 = 0)
    (hidx : fld x 15 0 < ((p.getFn f).sqOf n).size) :
    ringBell f n x p = if fld x 15 0 = ((p.getFn f).sqOf n).tail then p else modSq f n (fun y => { y with tail := fld x 15 0 }) p := by
  have hbell := bellOf_valid hst hres hidx ((p.getFn f).sqOf n).tail
  rw [← getQ_of_sq hn] at hbell ⊢
  split at hbell
  · next hsame =>
    rw [if_pos hsame]
    exact ringBell_same (by rw [if_pos hn]; exact hbell)
  · next hnew =>
    rw [if_neg hnew, ringBell_take (by rw [if_pos hn]; exact hbell), if_pos hn]
    exact if_pos hn

/-- A valid doorbell sets the head of a completion queue with nothing held, and of an event ring that has dropped nothing. -/
theorem ringBell_head {x : BitVec 32} (hn : 16 ≤ n) (hst : (getQ p f n).st = .enabled) (hres : fld x 31 16 = 0)
    (hidx : fld x 15 0 < (getQ p f n).size) (hheld : n < 32 → (p.getFn f).held = []) (hdropped : 32 ≤ n → (getQ p f n).dropped = 0) :
    getQ (ringBell f n x p) f n = { getQ p f n with head := fld x 15 0 } := by
  have hbell := bellOf_valid hst hres hidx (getQ p f n).head
  have hsq : ¬ n < 16 := Nat.not_lt.mpr hn
  split at hbell
  · next hsame =>
    rw [ringBell_same (by rw [if_neg hsq]; exact hbell), hsame]
  · rw [ringBell_take (by rw [if_neg hsq]; exact hbell), if_neg hsq]
    split
    · next hcq => rw [postHeld_nil ((modQ_held ..).trans (hheld hcq)), modQ_getQ]
    · next hring => rw [if_pos (hdropped (Nat.not_lt.mp hring)), modQ_getQ]

/-- A queue in error keeps the rest of itself. -/
theorem queueError_sq (hn : n < 16) (p : Panel) : ((queueError f n p).getFn f).sqOf n = { (p.getFn f).sqOf n with st := .error } := by
  have hsame := (((raise_sameFns 0x0902 0xFF (keyFn f) none (modQ f n (fun x => { x with st := .error }) p)).trans (setIcause_sameFns f 3 _)).fn f).sq
  rw [queueError, Fn.sqOf, hsame]
  change ((modQ f n (fun x => { x with st := .error }) p).getFn f).sqOf n = _
  rw [← getQ_of_sq hn, modQ_getQ, getQ_of_sq hn]

/-! Control words (R317, R319). -/

theorem bit0_or_one (y : BitVec 64) : bit (y ||| 1) 0 = true := by simp [bit]

theorem bit0_andNot_one (y : BitVec 64) : bit (y &&& ~~~1) 0 = false := by simp [bit]

/-- Bit 0 is outside the fields above it. -/
theorem fld_or_one (y : BitVec 64) {hi lo : Nat} (hlo : 0 < lo) : fld (y ||| 1) hi lo = fld y hi lo := by
  have hor : (y.toNat ||| 1) / 2 ^ lo = y.toNat / 2 ^ lo := by
    rw [← Nat.shiftRight_eq_div_pow, ← Nat.shiftRight_eq_div_pow, Nat.shiftRight_or_distrib, Nat.shiftRight_eq_div_pow 1,
      Nat.div_eq_of_lt (Nat.one_lt_two_pow hlo.ne'), Nat.or_zero]
  rw [fld, fld, BitVec.toNat_or]
  exact congrArg (· % _) hor

theorem ctlFields_keeps (n : Nat) (x : BitVec 64) (y : Queue) :
    (ctlFields n x y).base = y.base ∧ (ctlFields n x y).st = y.st ∧ (ctlFields n x y).en = y.en ∧ (ctlFields n x y).log2n = fld x 20 16 := by
  unfold ctlFields
  dsimp only
  split
  · exact ⟨rfl, rfl, rfl, rfl⟩
  · split <;> exact ⟨rfl, rfl, rfl, rfl⟩

theorem ctlFields_cq (hn : n < 16) (x : BitVec 64) (y : Queue) : (ctlFields n x y).cq = fld x 11 8 := by rw [ctlFields, if_pos hn]

/-- A submission queue's fields are no part of a completion queue. -/
theorem modQ_sq_getQ_cq {j : Nat} (hn : n < 16) (hj : 16 ≤ j) (g : Queue → Queue) (p : Panel) : getQ (modQ f n g p) f j = getQ p f j := by
  have hcq : ¬ j < 16 := Nat.not_lt.mpr hj
  simp only [modQ, if_pos hn, getQ, if_neg hcq, modSq, Panel.modFn_same, Fn.cqOf]

/-- A disabled queue that EN enables. -/
theorem writeQueueCtl_enables {y : BitVec 64} (hst : (getQ p f n).st = .disabled) (hen : (getQ p f n).en = false)
    (hbase : (getQ p f n).base % 4096 = 0) (hmin : 4 ≤ fld y 20 16) (hmax : fld y 20 16 ≤ 16)
    (hcq : n < 16 → (getQ p f (16 + fld y 11 8)).st = .enabled) :
    getQ (writeQueueCtl f n (y ||| 1) p) f n =
      { ctlFields n (y ||| 1) (getQ p f n) with
        en := true, st := .enabled, head := 0, tail := 0, phase := true, seq := 0, unsig := 0, dropped := 0 } := by
  obtain ⟨hb, -, -, hl⟩ := ctlFields_keeps n (y ||| 1) (getQ p f n)
  rw [fld_or_one y (by decide)] at hl
  have hok : (getQ (modQ f n (ctlFields n (y ||| 1)) p) f n).base % 4096 = 0 ∧ 4 ≤ (getQ (modQ f n (ctlFields n (y ||| 1)) p) f n).log2n
      ∧ (getQ (modQ f n (ctlFields n (y ||| 1)) p) f n).log2n ≤ 16
      ∧ (n < 16 → (getQ (modQ f n (ctlFields n (y ||| 1)) p) f (16 + (getQ (modQ f n (ctlFields n (y ||| 1)) p) f n).cq)).st = .enabled) := by
    rw [modQ_getQ, hb, hl]
    refine ⟨hbase, hmin, hmax, fun hsq => ?_⟩
    rw [ctlFields_cq hsq, fld_or_one y (by decide), modQ_sq_getQ_cq hsq (by omega)]
    exact hcq hsq
  rw [writeQueueCtl, if_pos hst, if_pos (bit0_or_one y), hen, if_neg Bool.false_ne_true, if_pos hst, enableQueue, if_pos hok, modQ_getQ, modQ_getQ]

/-- An enabled queue that EN = 0 drains. -/
theorem writeQueueCtl_drains {y : BitVec 64} (hst : (getQ p f n).st = .enabled) (hen : (getQ p f n).en = true) :
    getQ (writeQueueCtl f n (y &&& ~~~1) p) f n = { getQ p f n with en := false, st := .draining } := by
  have hst' : (getQ p f n).st ≠ .disabled := by
    rw [hst]
    decide
  rw [writeQueueCtl, bit0_andNot_one, if_neg Bool.false_ne_true, if_pos hen, modQ_getQ, if_neg hst']
  split
  · rfl
  · rw [dropWrite_getQ]

/-! The end of draining (R319, R327). -/

theorem settleQuery_host (i : Nat) (p : Panel) : (settleQuery i p).host = p.host := by
  unfold settleQuery
  dsimp only
  split <;> rfl

/-- What is done for the queries of dropped entries leaves the host interface. -/
theorem dropHeld_host (f c : Nat) (p : Panel) : (dropHeld f c p).host = (p.modFn f fun x => { x with
    held := x.held.filter (fun h => decide (h.cq ≠ c)),
    ctr := { x.ctr with dropped := x.ctr.dropped + ((p.getFn f).held.filter fun h => decide (h.cq = c)).length } }).host := by
  unfold dropHeld
  refine each_keeps (P := fun q : Panel => q.host = _) _ (fun d q hq => ?_) rfl
  dsimp only
  split
  · exact (settleQuery_host ..).trans hq
  · exact hq

theorem dropHeld_getQ (f c j : Nat) (p : Panel) : getQ (dropHeld f c p) f j = getQ p f j := (getQ_of_host (dropHeld_host f c p)).trans (getQ_modFn ..)

/-- The panel after a queue has drained. -/
def queueDone (f n : Nat) (p : Panel) : Panel :=
  if 16 ≤ n ∧ n < 32 then dropHeld f (n - 16) (modQ f n (fun y => { y with st := .disabled }) p)
  else modQ f n (fun y => { y with st := .disabled }) p

theorem exec_queueDrained_done (hf : f ≤ 16) (hn : n < 33) (hst : (getQ s.p f n).st = .draining) (hdone : drainedQ s.p f n = true) :
    exec (.queueDrained f n) s = .next (s.onP (queueDone f n)) := by
  change execQueueDrained f n s = _
  rw [execQueueDrained, show (isFn f && decide (n < 33)) = true by simp [isFn, hf, hn]]
  exact State.runP_eq (if_pos ⟨hst, hdone⟩)

theorem queueDone_st (f n : Nat) (p : Panel) : (getQ (queueDone f n p) f n).st = .disabled := by
  unfold queueDone
  split
  · rw [dropHeld_getQ, modQ_getQ]
  · rw [modQ_getQ]

theorem exec_queueDrained_busy (hf : f ≤ 16) (hn : n < 33) (hbusy : drainedQ s.p f n = false) : exec (.queueDrained f n) s = .next s := by
  change execQueueDrained f n s = _
  rw [execQueueDrained, show (isFn f && decide (n < 33)) = true by simp [isFn, hf, hn]]
  exact State.runP_same (if_neg (by simp [hbusy]))

/-! Signals (R328). -/

theorem signalCq_cqOf (f n : Nat) (p : Panel) : ((signalCq f n p).getFn f).cqOf n = { (p.getFn f).cqOf n with unsig := 0 } := by
  rw [signalCq, Fn.cqOf, ((raiseVector_sameFns ..).fn f).cq, modCq, Panel.modFn_same]
  exact Tab.get_upd_same queue0 n (fun q => { q with unsig := 0 }) _

/-- A vector that is not masked of a port where MSI-X is enabled is sent. -/
theorem raiseVector_sends {port v : Nat} (hport : (p.getHPort port).enumd = true) (hmask : bit (msixVec p f port v) 96 = false) :
    raiseVector f port v p = p.modHost fun h => { h with out := h.out ++ [.msix port f v] } := by
  rw [raiseVector, if_neg (not_not_intro hport), if_neg (by simp [hmask])]

theorem signalCq_out (hport : (p.getHPort (activePort p)).enumd = true)
    (hmask : bit (msixVec p f (activePort p) ((p.getFn f).cqOf n).vec) 96 = false) :
    (signalCq f n p).host.out = p.host.out ++ [.msix (activePort p) f ((p.getFn f).cqOf n).vec] := by
  have hvec : msixVec (modCq f n (fun q => { q with unsig := 0 }) p) f (activePort p) ((p.getFn f).cqOf n).vec
      = msixVec p f (activePort p) ((p.getFn f).cqOf n).vec := by
    rw [msixVec, modCq, Panel.modFn_same]
    rfl
  rw [signalCq, raiseVector_sends (p := modCq f n (fun q => { q with unsig := 0 }) p) hport (by rw [hvec, hmask])]
  rfl

theorem mem_out_signalCq {o : HostOut} (h : o ∈ p.host.out) (f n : Nat) : o ∈ (signalCq f n p).host.out := by
  unfold signalCq raiseVector
  split
  · exact h
  · split
    · exact h
    · exact List.mem_append_left _ h

theorem exec_cqCoalesceTimeout_due (hf : f ≤ 16) (hn : n < 16) (htime : ((s.p.getFn f).cqOf n).time ≠ 0) (hwait : 0 < ((s.p.getFn f).cqOf n).unsig)
    (hdue : ((s.p.getFn f).cqOf n).oldest + ((s.p.getFn f).cqOf n).time ≤ s.p.now) :
    exec (.cqCoalesceTimeout f n) s = .next (s.onP (signalCq f n)) := by
  change execCqCoalesceTimeout f n s = _
  rw [execCqCoalesceTimeout, show (isFn f && decide (n < 16)) = true by simp [isFn, hf, hn]]
  exact State.runP_eq (if_pos ⟨htime, hwait, hdue⟩)

theorem exec_cqCoalesceTimeout_early (hf : f ≤ 16) (hn : n < 16)
    (h : ((s.p.getFn f).cqOf n).unsig = 0 ∨ s.p.now < ((s.p.getFn f).cqOf n).oldest + ((s.p.getFn f).cqOf n).time) :
    exec (.cqCoalesceTimeout f n) s = .next s := by
  change execCqCoalesceTimeout f n s = _
  rw [execCqCoalesceTimeout, show (isFn f && decide (n < 16)) = true by simp [isFn, hf, hn]]
  exact State.runP_same (if_neg (by omega))

/-! A NOP entry (R319, R320, R324, R326). -/

theorem takeEntry_getFn (f n : Nat) (p : Panel) :
    (takeEntry f n p).getFn f = { p.getFn f with
      sq := Tab.upd queue0 n (fun q => { q with head := (q.head + 1) % q.size }) (p.getFn f).sq
      ctr := { (p.getFn f).ctr with taken := (p.getFn f).ctr.taken + 1 } } := by
  rw [takeEntry, Panel.modFn_same, modSq, Panel.modFn_same]

theorem takeEntry_sqOf (f n : Nat) (p : Panel) : ((takeEntry f n p).getFn f).sqOf n =
    { (p.getFn f).sqOf n with head := (((p.getFn f).sqOf n).head + 1) % ((p.getFn f).sqOf n).size } := by
  rw [takeEntry_getFn]
  exact Tab.get_upd_same queue0 n (fun q => { q with head := (q.head + 1) % q.size }) _

theorem takeEntry_cqOf (f n c : Nat) (p : Panel) : ((takeEntry f n p).getFn f).cqOf c = (p.getFn f).cqOf c := by rw [takeEntry_getFn]; rfl

theorem runEntry_taken {opc : Nat} {e : BitVec 512} (htake : canTake s.p f n = true) (hok : Sqe.ok e = true) (hopc : Sqe.opc e = opc) (act : State → State) :
    runEntry opc f n e act s = act (s.onP (takeEntry f n)) := by
  rw [runEntry, if_neg (by simp [htake, hopc]), if_pos hok]

theorem runEntry_not_taken (htake : canTake s.p f n = false) (opc : Nat) (e : BitVec 512) (act : State → State) : runEntry opc f n e act s = s :=
  if_pos (.inl (by simp [htake]))

theorem postCompletion_writes {c : Completion} (hst : ((p.getFn f).cqOf c.cq).st = .enabled) (hfull : ((p.getFn f).cqOf c.cq).full = false)
    (hheld : (p.getFn f).held = []) (hserved : hostServed p = true) : postCompletion f c p = writeCompletion f c p := by
  rw [postCompletion, if_neg (by rw [hst]; decide), if_neg (by simp [hfull, hheld, hst]), if_neg (not_not_intro hserved)]

/-- The panel with a completion written, before the queue is signalled. -/
def completionPut (f : Nat) (c : Completion) (p : Panel) : Panel :=
  (modCq f c.cq (fun q => { q.push with unsig := q.unsig + 1, oldest := if q.unsig = 0 then p.now else q.oldest })
    (hostWrite f c.cq (((p.getFn f).cqOf c.cq).base + 32 * ((p.getFn f).cqOf c.cq).tail)
      (leBytes 32 (completionBits c ((p.getFn f).cqOf c.cq).phase ((p.getFn f).cqOf c.cq).seq ((p.getFn f).sqOf c.sq).head)) p)).modFn f
    fun x => { x with ctr := { x.ctr with posted := x.ctr.posted + 1 } }

theorem writeCompletion_eq {c : Completion} (hqid : c.qid = none) (p : Panel) : writeCompletion f c p
    = if max 1 ((p.getFn f).cqOf c.cq).cnt ≤ ((p.getFn f).cqOf c.cq).unsig + 1 then signalCq f c.cq (completionPut f c p) else completionPut f c p := by
  unfold writeCompletion
  dsimp only
  rw [hqid]
  rfl

theorem completionPut_cqOf (f : Nat) (c : Completion) (p : Panel) : ((completionPut f c p).getFn f).cqOf c.cq = { ((p.getFn f).cqOf c.cq).push with
    unsig := ((p.getFn f).cqOf c.cq).unsig + 1, oldest := if ((p.getFn f).cqOf c.cq).unsig = 0 then p.now else ((p.getFn f).cqOf c.cq).oldest } := by
  have hcq (c1 addr : Nat) (b : List Byte) : ((hostWrite f c1 addr b p).getFn f).cq = (p.getFn f).cq := ((hostWrite_sameFns ..).fn f).cq
  rw [completionPut, Panel.modFn_same, Fn.cqOf, modCq, Panel.modFn_same]
  dsimp only
  rw [hcq, Tab.get_upd_same]
  rfl

theorem completionPut_sq (f : Nat) (c : Completion) (p : Panel) : ((completionPut f c p).getFn f).sq = (p.getFn f).sq := by
  rw [completionPut, Panel.modFn_same, modCq, Panel.modFn_same]
  exact ((hostWrite_sameFns ..).fn f).sq

theorem completionPut_out (f : Nat) (c : Completion) (p : Panel) :
    HostOut.write (((p.getFn f).cqOf c.cq).base + 32 * ((p.getFn f).cqOf c.cq).tail)
      (leBytes 32 (completionBits c ((p.getFn f).cqOf c.cq).phase ((p.getFn f).cqOf c.cq).seq ((p.getFn f).sqOf c.sq).head))
      ∈ (completionPut f c p).host.out := List.mem_append_right _ (List.mem_singleton_self _)

/-- A completion that is written: its bytes at the tail of its queue, whose tail and sequence go on; the submission queues as before. -/
theorem writeCompletion_writes {c : Completion} (hqid : c.qid = none) (p : Panel) :
    ((writeCompletion f c p).getFn f).sq = (p.getFn f).sq
    ∧ HostOut.write (((p.getFn f).cqOf c.cq).base + 32 * ((p.getFn f).cqOf c.cq).tail)
      (leBytes 32 (completionBits c ((p.getFn f).cqOf c.cq).phase ((p.getFn f).cqOf c.cq).seq ((p.getFn f).sqOf c.sq).head))
      ∈ (writeCompletion f c p).host.out
    ∧ (((writeCompletion f c p).getFn f).cqOf c.cq).tail = (((p.getFn f).cqOf c.cq).tail + 1) % ((p.getFn f).cqOf c.cq).size
    ∧ (((writeCompletion f c p).getFn f).cqOf c.cq).seq = (((p.getFn f).cqOf c.cq).seq + 1) % 2 ^ 32 := by
  rw [writeCompletion_eq hqid]
  split
  · refine ⟨?_, mem_out_signalCq (completionPut_out ..) .., ?_⟩
    · rw [signalCq, ((raiseVector_sameFns ..).fn f).sq, modCq, Panel.modFn_same]
      exact completionPut_sq ..
    · rw [signalCq_cqOf, completionPut_cqOf]
      exact ⟨rfl, rfl⟩
  · refine ⟨completionPut_sq .., completionPut_out .., ?_⟩
    rw [completionPut_cqOf]
    exact ⟨rfl, rfl⟩

theorem exec_hostNop_taken {e : BitVec 512} (hf : f ≤ 16) (hn : n < 16) (htake : canTake s.p f n = true) (hok : Sqe.ok e = true)
    (hopc : Sqe.opc e = 0x00) (hst : ((s.p.getFn f).cqOf ((s.p.getFn f).sqOf n).cq).st = .enabled)
    (hfull : ((s.p.getFn f).cqOf ((s.p.getFn f).sqOf n).cq).full = false) (hheld : (s.p.getFn f).held = []) (hserved : hostServed s.p = true) :
    exec (.hostNop f n e) s = .next (s.onP fun p => writeCompletion f ⟨((p.getFn f).sqOf n).cq, n, 0, 0, Sqe.cid e, 0, 0, 0, none⟩ (takeEntry f n p)) := by
  change execHostNop f n e s = _
  rw [execHostNop, show (isFn f && decide (n < 16)) = true by simp [isFn, hf, hn], State.run_true, runEntry_taken htake hok hopc, State.onP_onP]
  refine congrArg _ (State.onP_congr ?_)
  rw [finishCmd, hopc, takeEntry_sqOf]
  exact postCompletion_writes (by rw [takeEntry_cqOf]; exact hst) (by rw [takeEntry_cqOf]; exact hfull) (by rw [takeEntry_getFn]; exact hheld) hserved

theorem exec_hostNop_not_taken (hf : f ≤ 16) (hn : n < 16) (htake : canTake s.p f n = false) (e : BitVec 512) : exec (.hostNop f n e) s = .next s := by
  change execHostNop f n e s = _
  rw [execHostNop, show (isFn f && decide (n < 16)) = true by simp [isFn, hf, hn], State.run_true, runEntry_not_taken htake]

end Sys2Proof.Machine
end

section
open Sys2Proof Sys2Proof.Machine

/-- Settles O39: the queue that each access reaches is known after it, and a completion that finds room is written. -/
theorem hostQueuesAndInterrupts : Obligations.HostQueuesAndInterrupts := by
  unfold Obligations.HostQueuesAndInterrupts
  intro hp f n x s hhp hf hn
  have hport : (isHPort hp && isFn f) = true := by simp [isHPort, isFn, hhp, hf]
  refine ⟨fun harr hact => ⟨?tail, ?beyond, ?head, ?ring, fun k y hk => ⟨?enable, ?disable⟩, fun y => ?icause⟩, fun k hk hst => ?drained,
    fun e => ?nop, ?signal⟩
  case tail =>
    intro hst hres hidx
    change execSqTailDoorbell hp f n x s = _
    have hbell := ringBell_sq (p := s.p) hn hst hres hidx
    rw [execSqTailDoorbell, bar0_runP (by simp [hport, hn]) harr hact]
    refine congrArg _ ?_
    split
    · next hsame => exact State.onP_congr (g := id) (hbell.trans (if_pos hsame))
    · next hnew => exact State.onP_congr (hbell.trans (if_neg hnew))
  case beyond =>
    intro hst hidx
    refine ⟨_, bar0_runP (by simp [hport, hn]) harr hact _, rfl, ?_⟩
    rw [State.onP_p, ringBell_beyond (by rw [getQ_of_sq hn]; exact hidx) (by rw [getQ_of_sq hn]; exact hst), queueError_sq hn,
      ← getQ_of_sq hn, dropWrite_getQ, getQ_of_sq hn]
    exact ⟨rfl, rfl⟩
  case head =>
    intro hst hres hidx hheld
    refine ⟨_, bar0_runP (by simp [hport, hn]) harr hact _, rfl, ?_⟩
    rw [← getQ_of_cq hn] at hst hidx
    rw [State.onP_p, ← getQ_of_cq hn, ringBell_head (by omega) hst hres hidx (fun _ => hheld) (by omega), getQ_of_cq hn]
  case ring =>
    intro hst hres hidx hdropped
    refine ⟨_, bar0_runP hport harr hact _, rfl, ?_⟩
    exact ringBell_head (n := 32) (by decide) hst hres hidx (fun h => absurd h (by decide)) fun _ => hdropped
  case enable =>
    intro hst hen hbase hmin hmax hcq
    refine ⟨_, bar0_runP (by simp [hport, hk]) harr hact _, rfl, ?_⟩
    rw [State.onP_p, writeQueueCtl_enables hst hen hbase hmin hmax hcq]
    exact ⟨rfl, rfl, (ctlFields_keeps ..).2.2.2.trans (fld_or_one y (by decide)), rfl, rfl, rfl, rfl⟩
  case disable =>
    intro hen hst
    refine ⟨_, bar0_runP (by simp [hport, hk]) harr hact _, rfl, ?_⟩
    rw [State.onP_p, writeQueueCtl_drains hst hen]
    exact ⟨rfl, rfl⟩
  case icause =>
    change execIcauseClear hp f y s = _
    rw [execIcauseClear, hport]
    exact State.runP_eq (if_pos ⟨harr, hact⟩)
  case drained => exact ⟨fun hdone => ⟨_, exec_queueDrained_done hf hk hst hdone, rfl, queueDone_st ..⟩, exec_queueDrained_busy hf hk⟩
  case nop =>
    refine ⟨fun htake hok hopc hst hfull hheld hserved => ?_, fun htake => exec_hostNop_not_taken hf hn htake e⟩
    refine ⟨_, exec_hostNop_taken hf hn htake hok hopc hst hfull hheld hserved, rfl, ?_⟩
    obtain ⟨hsq, hout, htail, hseq⟩ := writeCompletion_writes (f := f)
      (c := ⟨((s.p.getFn f).sqOf n).cq, n, 0, 0, Sqe.cid e, 0, 0, 0, none⟩) rfl (takeEntry f n s.p)
    simp only [takeEntry_cqOf, takeEntry_sqOf] at hout htail hseq
    refine ⟨?_, hout, htail, hseq⟩
    rw [State.onP_p, Fn.sqOf, hsq]
    exact congrArg Queue.head (takeEntry_sqOf f n s.p)
  case signal =>
    refine ⟨fun htime hwait hdue => ⟨_, exec_cqCoalesceTimeout_due hf hn htime hwait hdue, rfl, signalCq_cqOf .., signalCq_out⟩,
      exec_cqCoalesceTimeout_early hf hn⟩

end

section
/-! PROOFS. The reference that the hub selects, the timebase's markers, and step plans at the hub and at a die (R363-R375). -/

namespace Sys2Proof.Machine

variable {p q r : Panel} {s : State} {n m num : Nat} {x y : Plan}

/-! A plan that the hub issues (R371, R375). -/

theorem OnlyCtl.clk (h : OnlyCtl p q) : q.clk = p.clk := by obtain ⟨_, rfl⟩ := h; rfl

theorem toSite_onlyCtl (site tag : Nat) (msg : Msg) (p : Panel) : OnlyCtl p (toSite site tag msg p) := sendPkt_onlyCtl ..

theorem sendLiveSet_onlyCtl (r site : Nat) (ws : List (Nat × Nat × Nat × BitVec 64)) (p : Panel) : OnlyCtl p (sendLiveSet r site ws p) := by
  unfold sendLiveSet
  extract_lets k p1 p2
  have h1 : OnlyCtl p p1 := ⟨_, rfl⟩
  have h2 : OnlyCtl p1 p2 := .each ws (fun _ _ => toSite_onlyCtl ..) p1
  exact (h1.trans h2).trans (toSite_onlyCtl ..)

/-- The plan that the hub decides now. -/
def newPlan (f : Nat) (p : Panel) : Plan :=
  ⟨p.clk.planNum + 1, boundStep p f, p.now + cfg p 0x2011 0 4, (cfg p 0x2020 0 1, cfg p 0x2020 0 2)⟩

/-- The hub has entered a plan of its own. -/
def planEntered (dies : List Nat) (f : Nat) (p : Panel) : Panel :=
  p.modClocks fun c => { c with
    planNum := c.planNum + 1, issued := c.issued + 1, spreadDue := false, plans := c.plans ++ [⟨newPlan f p, dies, [], [], [], false⟩] }

/-- Beside the entry only messages go out. -/
theorem issuePlan_onlyCtl (dies : List Nat) (f : Nat) (p : Panel) : OnlyCtl (planEntered dies f p) (issuePlan dies f p) :=
  .each dies (fun _ _ => sendLiveSet_onlyCtl ..) _

theorem issuePlan_clk (dies : List Nat) (f : Nat) (p : Panel) : (issuePlan dies f p).clk = (planEntered dies f p).clk := (issuePlan_onlyCtl ..).clk

theorem issuePlan_book (dies : List Nat) (f : Nat) (p : Panel) : (issuePlan dies f p).book = p.book := (issuePlan_onlyCtl ..).book

/-! References (R363-R365). -/

theorem refChoice_eq_two (p : Panel) : refChoice p = 2 ↔ p.clk.refA.valid = false ∧ p.clk.refB.valid = false := by
  unfold refChoice
  dsimp only
  split
  · next hA =>
    rw [hA]
    split <;> simp
  · next hA =>
    rw [eq_false_of_ne_true hA]
    split <;> simp [*]

theorem refChoice_of_lost (hA : p.clk.refA.valid = false) (hB : p.clk.refB.valid = true) : refChoice p = 1 := by
  simp [refChoice, hA, hB]

/-- The two inputs after a check that found `a` and `b` good. -/
theorem checkRefs_refs (a b : Bool) (p : Panel) :
    (checkRefs a b p).clk.refA = (if a then goodRef p.clk.refA else p.clk.refA)
    ∧ (checkRefs a b p).clk.refB = (if b then goodRef p.clk.refB else p.clk.refB)
    ∧ (checkRefs a b p).clk.settled = p.clk.settled
    ∧ ((checkRefs a b p).boot.refFrom.isSome = true ↔ (checkRefs a b p).clk.refA.valid = false ∧ (checkRefs a b p).clk.refB.valid = false) := by
  unfold checkRefs
  extract_lets p1 p2 c
  have hA : p2.clk.refA = (if a then goodRef p.clk.refA else p.clk.refA) := by cases a <;> cases b <;> rfl
  have hB : p2.clk.refB = (if b then goodRef p.clk.refB else p.clk.refB) := by cases a <;> cases b <;> rfl
  have hset : p2.clk.settled = p.clk.settled := by cases a <;> cases b <;> rfl
  have hc : c = 2 ↔ p2.clk.refA.valid = false ∧ p2.clk.refB.valid = false := refChoice_eq_two p2
  split
  · next h2 => exact ⟨hA, hB, hset, iff_of_true rfl (hc.mp h2)⟩
  · next h2 => exact ⟨hA, hB, hset, iff_of_false Bool.false_ne_true (mt hc.mpr h2)⟩

theorem exec_oscSettleExpiry (a b : Bool) (hnot : s.p.clk.settled = false) (hpor : s.p.boot.porDone = true) :
    exec (.oscSettleExpiry a b) s = .next (s.onP fun p => checkRefs a b (p.modClocks fun c => { c with settled := true })) := by
  change execOscSettleExpiry a b s = _
  rw [execOscSettleExpiry]
  exact State.runP_eq (if_neg (by simp [hnot, hpor]))

theorem exec_oscSettleExpiry_again (a b : Bool) (h : s.p.clk.settled = true) : exec (.oscSettleExpiry a b) s = .next s := by
  change execOscSettleExpiry a b s = _
  rw [execOscSettleExpiry]
  exact State.runP_same (if_pos (.inl h))

theorem exec_refRecheck (a b : Bool) (hset : s.p.clk.settled = true) (hA : s.p.clk.refA.valid = false) (hB : s.p.clk.refB.valid = false)
    (hfrom : s.p.boot.refFrom.isSome = true) : exec (.refRecheck a b) s = .next (s.onP (checkRefs a b)) := by
  change execRefRecheck a b s = _
  rw [execRefRecheck]
  exact State.runP_eq (if_pos ⟨hset, by simp [hA], by simp [hB], hfrom⟩)

theorem exec_refRecheck_valid (a b : Bool) (hA : s.p.clk.refA.valid = true) : exec (.refRecheck a b) s = .next s := by
  change execRefRecheck a b s = _
  rw [execRefRecheck]
  exact State.runP_same (if_neg fun h => h.2.1 hA)

/-- Selecting a reference changes neither input. -/
theorem selectRef_refs (p : Panel) : (selectRef p).clk.refA = p.clk.refA ∧ (selectRef p).clk.refB = p.clk.refB := by
  unfold selectRef
  extract_lets old new
  split
  · exact ⟨rfl, rfl⟩
  · split
    · rw [panelPlan, issuePlan_clk, planEntered, Panel.modClocks_clk, raise_clk]
      exact ⟨rfl, rfl⟩
    · split
      · rw [raise_clk]
        exact ⟨rfl, rfl⟩
      · split
        · rw [raise_clk]
          exact ⟨rfl, rfl⟩
        · exact ⟨rfl, rfl⟩

/-- REFA is lost in use while REFB is valid. -/
theorem selectRef_failover (hset : p.clk.settled = true) (huse : p.clk.use = 0) (hA : p.clk.refA.valid = false) (hB : p.clk.refB.valid = true) :
    selectRef p = raise 0x0201 p.activeHub keyPanel none (p.modClocks fun c => { c with use := 1, failovers := c.failovers + 1 }) := by
  simp [selectRef, refChoice_of_lost hA hB, hset, huse]

/-- REFA is lost in use while REFB is lost. -/
theorem selectRef_holdover (hset : p.clk.settled = true) (huse : p.clk.use = 0) (hA : p.clk.refA.valid = false) (hB : p.clk.refB.valid = false) :
    selectRef p = panelPlan (min 2 (panelStep p))
      (raise 0x0202 p.activeHub keyPanel none (p.modClocks fun c => { c with use := 2, holdFrom := some p.now })) := by
  simp [selectRef, (refChoice_eq_two p).mpr ⟨hA, hB⟩, hset, huse]

theorem exec_refEdgeLoss (s : State) : exec (.refEdgeLoss 0) s = .next (s.onP fun p => selectRef (modRef 0 loseRef p)) := rfl

theorem exec_refMeasurement_bad {hz : Nat} (h : hz < 99900000 ∨ 100100000 < hz) :
    exec (.refMeasurement 1 hz) s = .next (s.onP fun p => selectRef (modRef 1 loseRef p)) := by
  change execRefMeasurement 1 hz s = _
  rw [execRefMeasurement, show decide (1 < 2) = true from rfl]
  exact State.runP_eq (if_pos h)

theorem exec_refMeasurement_good {hz : Nat} (hlo : 99900000 ≤ hz) (hhi : hz ≤ 100100000) (hset : s.p.clk.settled = true) :
    exec (.refMeasurement 1 hz) s = .next (s.onP fun p => selectRef (modRef 1 goodRef p)) := by
  change execRefMeasurement 1 hz s = _
  rw [execRefMeasurement, show decide (1 < 2) = true from rfl]
  exact State.runP_eq ((if_neg (by omega)).trans (if_pos hset))

/-- The hub finds a plan to be made, and what it found stays logged. -/
theorem panelPlan_logged {ev : Nat} (f : Nat) (h : Logged ev p) : Logged ev (panelPlan f p) :=
  h.congr (issuePlan_book ..) (congrArg Clocks.tb (issuePlan_clk (planDies p) f p) :)

/-! Markers, and the PLL of a die (R367, R369). -/

theorem exec_tbAlignmentMarker (hn : isNode n = true) (d : BitVec 64) : exec (.tbAlignmentMarker n d) s = .next (s.onP fun p =>
    if p.now % 65536 ≠ 0 then p
    else if fld (BitVec.ofNat 64 p.now + ((p.getClk n).tbOff + d)) 63 16 = p.now % 2 ^ 64 / 2 ^ 16 then
      p.modClk n fun c => { c with tbOff := (p.getClk n).tbOff + d }
    else dieRaise n 0 n 0x0208 none (p.modClk n fun c => { c with tbOff := 0, mism := c.mism + 1 })) := by
  change execTbAlignmentMarker n d s = _
  rw [execTbAlignmentMarker, hn]
  rfl

/-- At a marker the count is its bits [63:16] over zeros. -/
theorem marker_count {t : Nat} (h : t % 65536 = 0) : BitVec.ofNat 64 t + (0 : BitVec 64) = BitVec.ofNat 64 (t / 2 ^ 16 * 2 ^ 16) := by
  rw [show t / 2 ^ 16 * 2 ^ 16 = t by omega]
  exact BitVec.add_zero _

theorem exec_pllUnlock_locked (hn : isNode n = true) (h : (s.p.getClk n).locked = true) :
    exec (.pllUnlock n) s = .next (s.onP fun p => dieRaise n 0 n 0x0207 none (p.modClk n fun c => { c with locked := false })) := by
  change execPllUnlock n s = _
  rw [execPllUnlock, hn]
  exact State.runP_eq (if_pos h)

theorem exec_pllUnlock_unlocked (hn : isNode n = true) (h : (s.p.getClk n).locked = false) : exec (.pllUnlock n) s = .next s := by
  change execPllUnlock n s = _
  rw [execPllUnlock, hn]
  exact State.runP_same (if_neg (by simp [h]))

theorem each_singleton {α β : Type} (a : α) (f : α → β → β) (b : β) : each [a] f b = f a b := rfl

/-! The deadline and the readback of a plan (R371). -/

/-- The dies that have missed a plan's deadline. -/
def lateDies (x : PlanOut) (p : Panel) : List Nat := x.targets.filter fun m => !x.acked.contains m && dieOn p m && !barred p m

/-- The one plan is judged. -/
theorem exec_stepPlanDeadline {o : PlanOut} (hplans : s.p.clk.plans = [o]) (hnum : o.plan.num = num) (hnot : o.judged = false)
    (hdue : o.plan.t ≤ s.p.now + 1000) :
    exec (.stepPlanDeadline num) s = .next (s.onP fun p => each (lateDies o p) missPlan
      (p.modClocks fun c => { c with plans := [{ o with judged := true, missed := lateDies o p }] })) := by
  change execStepPlanDeadline num s = _
  rw [execStepPlanDeadline]
  refine State.runP_eq ?_
  simp [hplans, hnum, hnot, Nat.not_lt.mpr hdue, Panel.modClocks, lateDies]

theorem pendEvidence_clk (key cause : Nat) (p : Panel) : (pendEvidence key cause p).clk = p.clk := rfl

/-- The panel when a missed deadline has been raised. -/
def missRaised (m : Nat) (p : Panel) : Panel :=
  raise 0x0206 m m none ((p.modBook fun b => { b with
    planMiss := Tab.set m (p.now :: (Tab.get [] b.planMiss m).take 7) b.planMiss }).modClocks fun c => { c with missedPlans := c.missedPlans + 1 })

/-- A missed deadline is raised; a second within 10 s is evidence too. -/
theorem missPlan_cases (m : Nat) (p : Panel) : missPlan m p = missRaised m p ∨ missPlan m p = pendEvidence m 0x0206 (missRaised m p) := by
  unfold missPlan
  dsimp only
  split
  · exact .inr rfl
  · exact .inl rfl

theorem missRaised_clk (m : Nat) (p : Panel) : (missRaised m p).clk = { p.clk with missedPlans := p.clk.missedPlans + 1 } := raise_clk ..

theorem missPlan_clk (m : Nat) (p : Panel) : (missPlan m p).clk = { p.clk with missedPlans := p.clk.missedPlans + 1 } := by
  obtain h | h := missPlan_cases m p
  · rw [h, missRaised_clk]
  · rw [h, pendEvidence_clk, missRaised_clk]

theorem missPlan_logged (m : Nat) (p : Panel) : Logged 0x0206 (missPlan m p) := by
  have hraised : Logged 0x0206 (missRaised m p) := raise_logged (by decide) ..
  obtain h | h := missPlan_cases m p
  · rw [h]
    exact hraised
  · rw [h]
    exact hraised

theorem exec_stepPlanReadback {o : PlanOut} (hplans : s.p.clk.plans = [o]) (hnum : o.plan.num = num) :
    exec (.stepPlanReadback num) s = .next (s.onP fun p =>
      if o.plan.t + 100 ≤ p.now then each o.missed (fun m => toSite m (num % 64) (.cfgRead 3 0)) p else p) := by
  change execStepPlanReadback num s = _
  rw [execStepPlanReadback]
  refine State.runP_eq ?_
  simp [hplans, hnum]

/-! A plan at a die (R372, R374, R375). -/

theorem exec_regulatorRaise (hn : isNode n = true) (harmed : (s.p.getClk n).armed = some y) :
    exec (.regulatorRaise n) s = .next (s.onP fun p =>
      if y.t ≤ p.now + 1000 ∧ (p.getClk n).step < y.step then p.modClk n fun c => { c with raised := true } else p) := by
  change execRegulatorRaise n s = _
  rw [execRegulatorRaise, hn]
  refine State.runP_eq ?_
  simp only [harmed]

/-- The panel after a die has applied plan `y`, before the hub settles its plans. -/
def planApplied (n : Nat) (y : Plan) (p : Panel) : Panel :=
  (p.modClk n fun c => { c with
    step := appliedStep c y.step p.now, armed := none, raised := false, lastPlan := y.num, localMode := false, plans := c.plans + 1 }).modClocks
      fun c => { c with spread := y.spread, plans := c.plans.map fun z => if z.plan.num = y.num then { z with applied := n :: z.applied } else z }

theorem exec_stepPlanApply (hn : isNode n = true) (harmed : (s.p.getClk n).armed = some y) :
    exec (.stepPlanApply n) s = .next (s.onP fun p => if p.now < y.t then p else settlePlans (planApplied n y p)) := by
  change execStepPlanApply n s = _
  rw [execStepPlanApply, hn]
  refine State.runP_eq ?_
  simp only [harmed]
  rfl

/-- Settling the plans leaves the dies and the spread. -/
theorem settlePlans_clk (p : Panel) : (settlePlans p).clk.die = p.clk.die ∧ (settlePlans p).clk.spread = p.clk.spread := by
  unfold settlePlans
  extract_lets left out done dead won p1
  have h : (each won (fun x => raise 0x0205 0xFF keyPanel (some (BitVec.ofNat 64 x.plan.step))) p1).clk = p1.clk :=
    each_keeps (P := fun q : Panel => q.clk = p1.clk) won (fun _ _ hq => (raise_clk ..).trans hq) rfl
  rw [h]
  exact ⟨rfl, rfl⟩

theorem getClk_of_die (h : q.clk.die = p.clk.die) (m : Nat) : q.getClk m = p.getClk m := by rw [Panel.getClk, Panel.getClk, h]

theorem planApplied_getClk (n : Nat) (y : Plan) (p : Panel) : (planApplied n y p).getClk n = { p.getClk n with
    step := appliedStep (p.getClk n) y.step p.now, armed := none, raised := false, lastPlan := y.num, localMode := false,
    plans := (p.getClk n).plans + 1 } := Tab.get_set_same ..

theorem planApplied_getClk_ne (h : m ≠ n) (y : Plan) (p : Panel) : (planApplied n y p).getClk m = p.getClk m := Tab.get_set_ne _ _ h _

end Sys2Proof.Machine
end

section
open Sys2Proof Sys2Proof.Machine

/-- Settles O45: each command's effect, and then the clocks that it leaves. -/
theorem referencesTimebaseAndPlansAreFollowed : Obligations.ReferencesTimebaseAndPlansAreFollowed := by
  unfold Obligations.ReferencesTimebaseAndPlansAreFollowed
  intro n num x y s hn
  refine ⟨fun a b => ⟨?settle, exec_oscSettleExpiry_again a b, ?recheck, fun hA _ => exec_refRecheck_valid a b hA⟩,
    fun hset huse => ⟨?failover, ?holdover⟩, fun hz => ⟨?lost, ?counted⟩, fun d => ?marker, ?unlock, exec_pllUnlock_unlocked hn,
    fun m acked hplans hnum hdue hon hbar => ?deadline, fun m hplans hnum => ?readback, fun harmed => ?die⟩
  case settle =>
    intro hnot hpor
    obtain ⟨hA, hB, hset, hfrom⟩ := checkRefs_refs a b (s.p.modClocks fun c => { c with settled := true })
    exact ⟨_, exec_oscSettleExpiry a b hnot hpor, rfl, hset, hA, hB, hfrom⟩
  case recheck =>
    intro hset hA hB hfrom
    obtain ⟨hA', hB', -, -⟩ := checkRefs_refs a b s.p
    exact ⟨_, exec_refRecheck a b hset hA hB hfrom, rfl, hA', hB'⟩
  case failover =>
    intro hB
    refine ⟨_, exec_refEdgeLoss s, rfl, ?_⟩
    rw [State.onP_p, selectRef_failover (p := modRef 0 loseRef s.p) hset huse rfl hB, raise_clk]
    exact ⟨rfl, rfl, rfl, raise_logged (by decide) ..⟩
  case holdover =>
    intro hB
    refine ⟨_, exec_refEdgeLoss s, rfl, ?_⟩
    rw [State.onP_p, selectRef_holdover (p := modRef 0 loseRef s.p) hset huse rfl hB]
    have hlogged := raise_logged (ev := 0x0202) (by decide) s.p.activeHub keyPanel none
      ((modRef 0 loseRef s.p).modClocks fun c => { c with use := 2, holdFrom := some s.p.now })
    refine ⟨?_, ?_, ?_, panelPlan_logged _ hlogged⟩ <;> rw [panelPlan, issuePlan_clk, planEntered, Panel.modClocks_clk, raise_clk] <;> rfl
  case lost =>
    intro hbad
    refine ⟨_, exec_refMeasurement_bad hbad, rfl, ?_⟩
    rw [State.onP_p, (selectRef_refs _).1, (selectRef_refs _).2]
    exact ⟨rfl, rfl⟩
  case counted =>
    intro hlo hhi hset
    refine ⟨_, exec_refMeasurement_good hlo hhi hset, rfl, ?_⟩
    rw [State.onP_p, (selectRef_refs _).1, (selectRef_refs _).2]
    exact ⟨rfl, rfl⟩
  case marker =>
    intro off
    rw [exec_tbAlignmentMarker hn]
    refine ⟨fun hno => ?_, fun hm hagree => ?_, fun hm hdiff => ⟨_, rfl, rfl, ?_⟩⟩
    · exact congrArg _ (State.onP_congr (g := id) (if_pos hno))
    · exact congrArg _ (State.onP_congr ((if_neg (not_not_intro hm)).trans (if_pos hagree)))
    · rw [State.onP_p, if_neg (not_not_intro hm), if_neg hdiff, getClk_of_die (congrArg Clocks.die (dieRaise_reported ..).clk), Panel.modClk_same]
      exact ⟨rfl, marker_count hm⟩
  case unlock =>
    intro hlocked
    refine ⟨_, exec_pllUnlock_locked hn hlocked, rfl, ?_⟩
    rw [State.onP_p, getClk_of_die (congrArg Clocks.die (dieRaise_reported ..).clk), Panel.modClk_same]
  case deadline =>
    refine ⟨fun hnone => ?_, fun hall => ?_⟩
    · subst hnone
      have hlate : lateDies ⟨x, [m], [], [], [], false⟩ s.p = [m] := by simp [lateDies, hon, hbar]
      refine ⟨_, exec_stepPlanDeadline hplans hnum rfl hdue, rfl, ?_⟩
      rw [State.onP_p, hlate, each_singleton, missPlan_clk]
      exact ⟨rfl, rfl, missPlan_logged ..⟩
    · subst hall
      have hlate : lateDies ⟨x, [m], [m], [], [], false⟩ s.p = [] := by simp [lateDies]
      refine ⟨_, exec_stepPlanDeadline hplans hnum rfl hdue, rfl, ?_⟩
      rw [State.onP_p, hlate]
      exact ⟨rfl, rfl⟩
  case readback =>
    rw [exec_stepPlanReadback hplans hnum]
    refine ⟨fun hdue => ⟨_, rfl, rfl, fun hpart => ?_⟩, fun hearly => ?_⟩
    · rw [State.onP_p, if_pos hdue]
      exact toSite_unicast_sent hpart m (num % 64) (by simp)
    · exact congrArg _ (State.onP_congr (g := id) (if_neg (Nat.not_le.mpr hearly)))
  case die =>
    rw [exec_regulatorRaise hn harmed, exec_stepPlanApply hn harmed]
    refine ⟨fun hdue hup => congrArg _ (State.onP_congr (if_pos ⟨hdue, hup⟩)),
      fun hearly => congrArg _ (State.onP_congr (g := id) (if_neg fun h => Nat.not_le.mpr hearly h.1)),
      fun hdue hemerg => ⟨_, rfl, rfl, ?_⟩, fun hearly => congrArg _ (State.onP_congr (g := id) (if_pos hearly))⟩
    rw [State.onP_p, if_neg (Nat.not_lt.mpr hdue), getClk_of_die (settlePlans_clk _).1, planApplied_getClk, appliedStep, hemerg,
      (settlePlans_clk _).2]
    exact ⟨rfl, rfl, rfl, rfl, rfl, fun m hm => (getClk_of_die (settlePlans_clk _).1 m).trans (planApplied_getClk_ne hm ..)⟩

end

section
/-! PROOFS. Stretched cycles, step requests, clock modes, and the peripheral enables (R370-R376). -/

namespace Sys2Proof.Machine

variable {p q : Panel} {s : State} {cs n x : Nat}

theorem isDie_of_isCompute (h : isCompute n = true) : isDie n = true := by simp [isDie, h]

theorem getClk_of_clk (h : q.clk = p.clk) (m : Nat) : q.getClk m = p.getClk m := getClk_of_die (congrArg Clocks.die h) m

/-- What issuing a plan does to the clocks: the plan is the newest, and no die's clock changes. -/
theorem issuePlan_clocks (dies : List Nat) (f : Nat) (p : Panel) :
    (issuePlan dies f p).clk.planNum = p.clk.planNum + 1 ∧ (issuePlan dies f p).clk.issued = p.clk.issued + 1
    ∧ (issuePlan dies f p).clk.plans.getLast? = some ⟨newPlan f p, dies, [], [], [], false⟩
    ∧ ∀ m, (issuePlan dies f p).getClk m = p.getClk m := by
  have hclk := issuePlan_clk dies f p
  exact ⟨congrArg Clocks.planNum hclk, congrArg Clocks.issued hclk, (congrArg (fun c => c.plans.getLast?) hclk).trans List.getLast?_concat,
    getClk_of_die ((congrArg Clocks.die hclk).trans rfl)⟩

/-! Droops (R370, R373). -/

/-- The stretches of a die that still count against its budget. -/
def recentStretches (c : DieClk) : List Nat := c.budget.filter fun m => decide (c.clk < m + 1024)

/-- The die's clock with the cycle in progress stretched and these stretches on the budget. -/
def DieClk.stretchedBy (budget : List Nat) (c : DieClk) : DieClk :=
  { c with stretch := true, left := c.left + ceilDiv (stepN c.step) 2, stretched := c.stretched + 1, budget := budget }

theorem exec_droopStretch_idle (hcs : isCompute cs = true) (h : (s.p.getClk cs).locked = false ∨ (s.p.getClk cs).stretch = true) :
    exec (.droopStretch cs) s = .next s := by
  change execDroopStretch cs s = _
  rw [execDroopStretch, hcs]
  exact State.runP_same (if_pos (by simpa using h))

section
variable (hcs : isCompute cs = true) (hlocked : (s.p.getClk cs).locked = true) (hnot : (s.p.getClk cs).stretch = false)
include hcs hlocked hnot

theorem exec_droopStretch_stall (hstall : 0 < (s.p.getClk cs).stall) :
    exec (.droopStretch cs) s = .next (s.onP fun p => p.modClk cs (DieClk.stretchedBy (recentStretches (p.getClk cs)))) := by
  change execDroopStretch cs s = _
  rw [execDroopStretch, hcs]
  exact State.runP_eq ((if_neg (by simp [hlocked, hnot])).trans (if_pos hstall))

theorem exec_droopStretch_draws (hstall : (s.p.getClk cs).stall = 0) (hroom : (recentStretches (s.p.getClk cs)).length < 32) :
    exec (.droopStretch cs) s = .next (s.onP fun p => p.modClk cs (DieClk.stretchedBy ((p.getClk cs).clk :: recentStretches (p.getClk cs)))) := by
  change execDroopStretch cs s = _
  rw [execDroopStretch, hcs]
  exact State.runP_eq ((if_neg (by simp [hlocked, hnot])).trans ((if_neg (by simp [hstall])).trans (if_pos hroom)))

theorem exec_droopStretch_spent (hstall : (s.p.getClk cs).stall = 0) (hspent : 32 ≤ (recentStretches (s.p.getClk cs)).length)
    (hstep : 0 < (s.p.getClk cs).step) : exec (.droopStretch cs) s = .next (s.onP (emergency cs 0x0204)) := by
  change execDroopStretch cs s = _
  rw [execDroopStretch, hcs]
  exact State.runP_eq ((if_neg (by simp [hlocked, hnot])).trans ((if_neg (by simp [hstall])).trans
    ((if_neg (Nat.not_lt.mpr hspent)).trans (if_neg (Nat.ne_of_gt hstep)))))

end

/-- An emergency step-down above F0. -/
theorem emergency_getClk (hstep : 0 < (p.getClk cs).step) (ev : Nat) : (emergency cs ev p).getClk cs = { p.getClk cs with
    step := (p.getClk cs).step - 1, emerg := (p.getClk cs).emerg + 1, emergAt := some (p.now, (p.getClk cs).step - 1),
    asked := some ((p.getClk cs).step - 1) } := by
  rw [emergency, getClk_of_clk (dieRaise_reported ..).clk, Panel.modClk_same, if_neg (Nat.ne_of_gt hstep)]

/-! Step requests (R373). -/

theorem exec_stepRequest_asked {f : Nat} (hdie : isDie cs = true) (h : (s.p.getClk cs).asked = some f) :
    exec (.stepRequest cs) s = .next (s.onP fun p => panelPlan (min (panelStep p) f) (p.modClk cs fun c => { c with asked := none })) := by
  change execStepRequest cs s = _
  rw [execStepRequest, hdie]
  refine State.runP_eq ?_
  simp only [h]

theorem exec_stepRequest_none (hdie : isDie cs = true) (h : (s.p.getClk cs).asked = none) : exec (.stepRequest cs) s = .next s := by
  change execStepRequest cs s = _
  rw [execStepRequest, hdie]
  refine State.runP_same ?_
  simp only [h]

/-! Clock modes (R374). -/

theorem exec_dieClockModeWrite (hn : isNode n = true) (x : Nat) :
    exec (.dieClockModeWrite n x) s = .next (s.onP fun p => (writeClockMode n x p).2) := by
  change execDieClockModeWrite n x s = _
  rw [execDieClockModeWrite, hn]
  rfl

/-- A die of no region is in LOCAL mode, at a step up to the ceiling where it was in SYNC. -/
theorem writeClockMode_local (h : p.regionOf n = none) :
    ((writeClockMode n 1 p).2.getClk n).localMode = true
    ∧ ((p.getClk n).localMode = false → ((writeClockMode n 1 p).2.getClk n).step ≤ cfg p 0x2015 0 1) := by
  rw [writeClockMode, if_neg (by decide), if_pos rfl, if_neg (by simp [h]), Panel.modClk_same]
  refine ⟨rfl, fun hsync => ?_⟩
  have hclk : p.freeNat.2.getClk n = p.getClk n := rfl
  simp only [hclk, hsync, Bool.false_eq_true, if_false]
  exact Nat.le_of_lt_succ (Nat.mod_lt _ (Nat.succ_pos _))

theorem writeClockMode_local_in_region (h : (p.regionOf n).isSome = true) : (writeClockMode n 1 p).2 = p := by
  rw [writeClockMode, if_neg (by decide), if_pos rfl, if_pos h]

theorem writeClockMode_sync (h : (p.getClk n).localMode = true) : (writeClockMode n 0 p).2 = issuePlan [n] (panelStep p) p := by
  rw [writeClockMode, if_neg (by decide), if_neg (by decide), if_pos h]

theorem writeClockMode_sync_already (h : (p.getClk n).localMode = false) : (writeClockMode n 0 p).2 = p := by
  rw [writeClockMode, if_neg (by decide), if_neg (by decide), if_neg (by simp [h])]

theorem writeClockMode_out_of_range (h : 1 < x) : (writeClockMode n x p).2 = p := by rw [writeClockMode, if_pos h]

/-! Peripheral enables (R376). -/

theorem exec_peripheralEnableWrite (w : BitVec 32) :
    exec (.peripheralEnableWrite 0x00 w) s = .next (s.onP fun p => (writePeriph 0 w p).2) := rfl

/-- Some enable that may not be cleared would be. -/
abbrev clearsKept (w : BitVec 32) (p : Panel) : Prop :=
  ∃ i < 12, bit (Tab.get 0 p.clk.periph 0) i = true ∧ bit w i = false ∧ mayClear p i = false

theorem clearsKept_iff (w : BitVec 32) (p : Panel) :
    ((List.range 12).any fun i => bit (Tab.get 0 p.clk.periph 0) i && !bit w i && !mayClear p i) = true ↔ clearsKept w p := by
  simp [clearsKept, and_assoc]

theorem writePeriph_refused {w : BitVec 32} (h : fld w 31 12 ≠ 0 ∨ clearsKept w p) : (writePeriph 0 w p).2 = p := by
  unfold writePeriph
  dsimp only
  split
  · rfl
  · next hres => rw [if_pos ((clearsKept_iff w p).mpr (h.resolve_left (not_not_intro (not_not.mp hres))))]

/-- A word that is taken and leaves the check engines off. -/
theorem writePeriph_taken {w : BitVec 32} (hres : fld w 31 12 = 0) (hclear : ¬ clearsKept w p) (hchk : bit w 8 = false) :
    (writePeriph 0 w p).2 =
      if ¬ bit w 11 ∧ 0 = p.book.active then
        (p.modClocks fun c => { c with periph := Tab.set 0 w c.periph }).modFab fun f => { f with mer := { f.mer with openLatch := false } }
      else p.modClocks fun c => { c with periph := Tab.set 0 w c.periph } := by
  unfold writePeriph
  dsimp only
  rw [if_neg (not_not_intro hres), if_neg (mt (clearsKept_iff w p).mp hclear), if_neg (by simp [hchk])]
  rfl

end Sys2Proof.Machine
end

section
open Sys2Proof Sys2Proof.Machine

/-- Settles O46: each command's effect, and then the clock, the plan or the enables that it leaves. -/
theorem stretchesStepsModesAndPeripherals : Obligations.StretchesStepsModesAndPeripherals := by
  unfold Obligations.StretchesStepsModesAndPeripherals
  intro cs n x s hcs hn
  refine ⟨fun hlocked hnot => ⟨?draws, ?stall, ?spent⟩, exec_droopStretch_idle hcs, fun f hasked => ?asked,
    exec_stepRequest_none (isDie_of_isCompute hcs), ?enters, ?member, ?sync, ?other, fun w => ⟨?taken, ?refused⟩⟩
  case draws =>
    intro hroom hstall
    exact ⟨_, exec_droopStretch_draws hcs hlocked hnot hstall hroom, rfl, Panel.modClk_same ..⟩
  case stall =>
    intro hstall
    refine ⟨_, exec_droopStretch_stall hcs hlocked hnot hstall, rfl, ?_⟩
    rw [State.onP_p, Panel.modClk_same]
    exact ⟨rfl, rfl, rfl⟩
  case spent =>
    intro hspent hstall hstep
    refine ⟨_, exec_droopStretch_spent hcs hlocked hnot hstall hspent hstep, rfl, ?_⟩
    rw [State.onP_p, emergency_getClk hstep]
    exact ⟨rfl, rfl, rfl⟩
  case asked =>
    refine ⟨_, exec_stepRequest_asked (isDie_of_isCompute hcs) hasked, rfl, ?_⟩
    obtain ⟨hnum, hissued, hnewest, hdies⟩ := issuePlan_clocks (planDies (s.p.modClk cs fun c => { c with asked := none }))
      (min (panelStep s.p) f) (s.p.modClk cs fun c => { c with asked := none })
    rw [State.onP_p, panelPlan, hdies, Panel.modClk_same]
    exact ⟨rfl, hnum, hissued, (congrArg (Option.map fun o => o.plan.step) hnewest).trans rfl⟩
  case enters =>
    intro hfree
    rw [exec_dieClockModeWrite hn]
    exact ⟨_, rfl, rfl, writeClockMode_local hfree⟩
  case member =>
    intro hmember
    rw [exec_dieClockModeWrite hn]
    exact congrArg _ (State.onP_congr (g := id) (writeClockMode_local_in_region hmember))
  case sync =>
    intro hlocal
    rw [exec_dieClockModeWrite hn]
    refine ⟨_, rfl, rfl, ?_⟩
    obtain ⟨hnum, -, hnewest, hdies⟩ := issuePlan_clocks [n] (panelStep s.p) s.p
    rw [State.onP_p, writeClockMode_sync hlocal, hdies]
    exact ⟨hlocal, hnum, congrArg (Option.map fun o => o.targets) hnewest⟩
  case other =>
    intro h
    rw [exec_dieClockModeWrite hn]
    refine congrArg _ (State.onP_congr (g := id) ?_)
    cases hmode : (s.p.getClk n).localMode with
    | true =>
      rw [hmode] at h
      exact writeClockMode_out_of_range (h.resolve_left (by decide))
    | false => exact writeClockMode_sync_already hmode
  case taken =>
    intro hres hclear hchk
    have hkept : ¬ clearsKept w s.p := fun ⟨i, hi, hold, hnew, hmay⟩ => Bool.false_ne_true (hmay.symm.trans (hclear i hi hold hnew))
    rw [exec_peripheralEnableWrite]
    refine ⟨_, rfl, rfl, ?_⟩
    rw [State.onP_p, writePeriph_taken hres hkept hchk]
    split
    · exact ⟨Tab.get_set_same .., Tab.get_set_ne _ _ (by decide) _, fun _ _ => rfl⟩
    · next h => exact ⟨Tab.get_set_same .., Tab.get_set_ne _ _ (by decide) _, fun h11 hact => absurd ⟨by simp [h11], hact.symm⟩ h⟩
  case refused =>
    intro h
    rw [exec_peripheralEnableWrite]
    exact congrArg _ (State.onP_congr (g := id) (writePeriph_refused h))

end

section
/-! PROOFS. What moving a unit to FAILED, FENCED or SUSPECT leaves of the panel: all but the units, their map, the directory and the
regions, beside events (R239, R428, R495-R499). -/

namespace Sys2Proof.Machine

variable {p q r : Panel}

/-- `p` with other units, regions, directory and map. -/
def withUnits (u : Tab URec) (g : Tab Region) (t : Retrieval) (b : Boot) (p : Panel) : Panel :=
  { p with book := { p.book with unit := u }, reg := g, ret := t, boot := b }

theorem Reported.withUnits (h : Reported p q) (u : Tab URec) (g : Tab Region) (t : Retrieval) (b : Boot) :
    Reported (withUnits u g t b p) (withUnits u g t b q) :=
  { h with book_unit := rfl, reg := rfl, ret := rfl, boot := rfl }

/-- `q` is `p` after units have moved: events and messages, and other units, regions, directory and map. -/
structure UnitsMoved (p q : Panel) : Prop where
  reported : ∃ u g t b, Reported (withUnits u g t b p) q

theorem Reported.unitsMoved (h : Reported p q) : UnitsMoved p q := ⟨p.book.unit, p.reg, p.ret, p.boot, h⟩

theorem UnitsMoved.refl (p : Panel) : UnitsMoved p p := (Reported.refl p).unitsMoved

theorem UnitsMoved.trans (hq : UnitsMoved p q) (hr : UnitsMoved q r) : UnitsMoved p r := by
  obtain ⟨u, g, t, b, hq⟩ := hq.reported
  obtain ⟨u', g', t', b', hr⟩ := hr.reported
  exact ⟨u', g', t', b', (hq.withUnits u' g' t' b').trans hr⟩

theorem UnitsMoved.ite {c : Prop} [Decidable c] (hq : UnitsMoved p q) (hr : UnitsMoved p r) : UnitsMoved p (if c then q else r) := by
  split
  · exact hq
  · exact hr

theorem UnitsMoved.each {α : Type} (l : List α) {f : α → Panel → Panel} (h : ∀ a p, UnitsMoved p (f a p)) (p : Panel) : UnitsMoved p (each l f p) :=
  each_keeps (P := UnitsMoved p) l (fun a _ hq => hq.trans (h a _)) (.refl p)

theorem raise_unitsMoved (ev site key : Nat) (d : Dat) (p : Panel) : UnitsMoved p (raise ev site key d p) := (raise_reported ..).unitsMoved

theorem modUnit_unitsMoved (key : Nat) (f : URec → URec) (p : Panel) : UnitsMoved p (p.modUnit key f) := ⟨_, p.reg, p.ret, p.boot, .refl _⟩

theorem modReg_unitsMoved (k : Nat) (f : Region → Region) (p : Panel) : UnitsMoved p (p.modReg k f) := ⟨p.book.unit, _, p.ret, p.boot, .refl _⟩

theorem modDir_unitsMoved (k : Nat) (f : DirEntry → DirEntry) (p : Panel) : UnitsMoved p (p.modDir k f) := ⟨p.book.unit, p.reg, _, p.boot, .refl _⟩

theorem modBoot_unitsMoved (f : Boot → Boot) (p : Panel) : UnitsMoved p (p.modBoot f) := ⟨p.book.unit, p.reg, p.ret, _, .refl _⟩

theorem putState_unitsMoved (key : Nat) (st : USt) (cause : Nat) (own : Bool) (p : Panel) : UnitsMoved p (putState key st cause own p) :=
  modUnit_unitsMoved ..

theorem takeState_unitsMoved (st : USt) (cause : Nat) (own : Bool) (key : Nat) (p : Panel) : UnitsMoved p (takeState st cause own key p) :=
  .ite (putState_unitsMoved ..) (modUnit_unitsMoved ..)

theorem bumpGen_unitsMoved (p : Panel) : UnitsMoved p (bumpGen p) := (modBoot_unitsMoved ..).trans (raise_unitsMoved ..)

theorem mapSet_unitsMoved (s fs stk cause : Nat) (p : Panel) : UnitsMoved p (mapSet s fs stk cause p) := by
  unfold mapSet
  exact modBoot_unitsMoved ..

theorem mapFailure_unitsMoved (key cause : Nat) (p : Panel) : UnitsMoved p (mapFailure key cause p) := by
  unfold mapFailure
  extract_lets fs one portBad
  have hone (s stk : Nat) (q : Panel) : UnitsMoved q (one s stk q) := .ite (mapSet_unitsMoved ..) (.refl q)
  have hport (n : Nat) (q : Panel) : UnitsMoved q (portBad n q) := modBoot_unitsMoved ..
  refine .ite ?_ (.ite (hone ..) (.ite (hone ..) (.ite (hport ..) (.ite ?_ (.refl p)))))
  · exact .ite ((hone ..).trans (hport ..)) (hone ..)
  · exact (UnitsMoved.each _ (fun s q => hone s 0 q) p).trans (.each _ hport _)

theorem loseEntry_unitsMoved (i : Nat) (p : Panel) : UnitsMoved p (loseEntry i p) :=
  .ite (.refl p) ((modDir_unitsMoved ..).trans (raise_unitsMoved ..))

theorem loseEntries_unitsMoved (p : Panel) : UnitsMoved p (loseEntries p) := .each _ (fun (e : Nat × DirEntry) q => loseEntry_unitsMoved e.1 q) p

theorem triggerFreeze_unitsMoved (r cause : Nat) (p : Panel) : UnitsMoved p (triggerFreeze r cause p) :=
  .ite (.refl p) (.ite (modReg_unitsMoved ..) ((modReg_unitsMoved ..).trans (raise_unitsMoved ..)))

theorem freezeOf_unitsMoved (cause s : Nat) (p : Panel) : UnitsMoved p (freezeOf cause s p) := by
  unfold freezeOf
  split
  · exact triggerFreeze_unitsMoved ..
  · exact .refl p

theorem moveUnit_unitsMoved (key : Nat) (st : USt) (cause : Nat) (p : Panel) : UnitsMoved p (moveUnit key st cause p) := by
  unfold moveUnit
  extract_lets hampers p1 p2 p3 p4 p5
  have h1 : UnitsMoved p p1 := putState_unitsMoved ..
  have h2 : UnitsMoved p1 p2 := .each _ (takeState_unitsMoved st cause false) p1
  have h3 : UnitsMoved p2 p3 := raise_unitsMoved ..
  have h4 : UnitsMoved p3 p4 := .ite ((mapFailure_unitsMoved ..).trans (bumpGen_unitsMoved _)) (.ite (bumpGen_unitsMoved _) (.refl _))
  have h5 : UnitsMoved p4 p5 := .ite (loseEntries_unitsMoved _) (.refl _)
  exact .ite (modUnit_unitsMoved ..) (((((h1.trans h2).trans h3).trans h4).trans h5).trans (.each _ (freezeOf_unitsMoved cause) p5))

/-! What it leaves, by name. -/

theorem UnitsMoved.pwr (h : UnitsMoved p q) : q.pwr = p.pwr := by obtain ⟨_, _, _, _, h⟩ := h.reported; exact h.pwr
theorem UnitsMoved.clk (h : UnitsMoved p q) : q.clk = p.clk := by obtain ⟨_, _, _, _, h⟩ := h.reported; exact h.clk
theorem UnitsMoved.now (h : UnitsMoved p q) : q.now = p.now := congrArg Clocks.tb h.clk
theorem UnitsMoved.variant (h : UnitsMoved p q) : q.variant = p.variant := by obtain ⟨_, _, _, _, h⟩ := h.reported; exact h.variant
theorem UnitsMoved.part (h : UnitsMoved p q) : q.part = p.part := by obtain ⟨_, _, _, _, h⟩ := h.reported; exact h.part
theorem UnitsMoved.fab (h : UnitsMoved p q) : q.fab = p.fab := by obtain ⟨_, _, _, _, h⟩ := h.reported; exact h.fab
theorem UnitsMoved.core (h : UnitsMoved p q) : q.core = p.core := by obtain ⟨_, _, _, _, h⟩ := h.reported; exact h.core
theorem UnitsMoved.rst (h : UnitsMoved p q) : q.rst = p.rst := by obtain ⟨_, _, _, _, h⟩ := h.reported; exact h.rst
theorem UnitsMoved.rctr (h : UnitsMoved p q) : q.rctr = p.rctr := by obtain ⟨_, _, _, _, h⟩ := h.reported; exact h.rctr
theorem UnitsMoved.od_val (h : UnitsMoved p q) : q.od.val = p.od.val := by obtain ⟨_, _, _, _, h⟩ := h.reported; exact h.od_val
theorem UnitsMoved.od_mgr (h : UnitsMoved p q) : q.od.mgr = p.od.mgr := by obtain ⟨_, _, _, _, h⟩ := h.reported; exact h.od_mgr
theorem UnitsMoved.od_hme (h : UnitsMoved p q) : q.od.hme = p.od.hme := by obtain ⟨_, _, _, _, h⟩ := h.reported; exact h.od_hme
theorem UnitsMoved.pendingEvid (h : UnitsMoved p q) : q.book.pendingEvid = p.book.pendingEvid := by
  obtain ⟨_, _, _, _, h⟩ := h.reported; exact h.book_pendingEvid
theorem UnitsMoved.conflicts (h : UnitsMoved p q) : q.book.conflicts = p.book.conflicts := by obtain ⟨_, _, _, _, h⟩ := h.reported; exact h.book_conflicts
theorem UnitsMoved.probes (h : UnitsMoved p q) : q.book.probes = p.book.probes := by obtain ⟨_, _, _, _, h⟩ := h.reported; exact h.book_probes
theorem UnitsMoved.probesFailed (h : UnitsMoved p q) : q.book.probesFailed = p.book.probesFailed := by
  obtain ⟨_, _, _, _, h⟩ := h.reported; exact h.book_probesFailed
theorem UnitsMoved.asked (h : UnitsMoved p q) : q.book.asked = p.book.asked := by obtain ⟨_, _, _, _, h⟩ := h.reported; exact h.book_asked
theorem UnitsMoved.expelled (h : UnitsMoved p q) : q.book.expelled = p.book.expelled := by obtain ⟨_, _, _, _, h⟩ := h.reported; exact h.book_expelled
theorem UnitsMoved.active (h : UnitsMoved p q) : q.book.active = p.book.active := by obtain ⟨_, _, _, _, h⟩ := h.reported; exact h.book_active

end Sys2Proof.Machine
end

section
/-! PROOFS. Power blocks: VMIN frames, collapses, polls, their enabling, calibration, and the standby rail (R379-R391, R553). -/

namespace Sys2Proof.Machine

variable {p q : Panel} {s : State} {b v d : Nat}

theorem getBlk_of_pwr (h : q.pwr = p.pwr) (b : Nat) : q.getBlk b = p.getBlk b := by rw [Panel.getBlk, Panel.getBlk, h]

theorem isBlock_of_lt (hb : b < 20) : isBlock b = true := decide_eq_true hb

theorem each_pwr {α : Type} (l : List α) {f : α → Panel → Panel} (h : ∀ a q, (f a q).pwr = q.pwr) (p : Panel) : (each l f p).pwr = p.pwr :=
  each_keeps (P := fun q : Panel => q.pwr = p.pwr) l (fun a q hq => (h a q).trans hq) rfl

/-! Switching a block off (R386). -/

theorem blockOff_frame (st : BlkSt) (b : Nat) (p : Panel) : (blockOff st b p).pwr = (p.modBlk b fun x => { x with st := st, vmin := false }).pwr
    ∧ (blockOff st b p).book = p.book ∧ (blockOff st b p).now = p.now := by
  unfold blockOff
  extract_lets p1
  have h : p1.pwr = (p.modBlk b fun x => { x with st := st, vmin := false }).pwr ∧ p1.book = p.book ∧ p1.now = p.now :=
    each_keeps (f := dieOff) (P := fun q : Panel => q.pwr = _ ∧ q.book = p.book ∧ q.now = p.now) (blockDies b) (fun m q hq => hq) ⟨rfl, rfl, rfl⟩
  split
  · exact h
  · split <;> exact h

theorem blockOff_getBlk (st : BlkSt) (b : Nat) (p : Panel) : (blockOff st b p).getBlk b = { p.getBlk b with st := st, vmin := false } := by
  rw [getBlk_of_pwr (blockOff_frame st b p).1, Panel.modBlk_same]

theorem blockOff_getBlk_ne {c : Nat} (h : c ≠ b) (st : BlkSt) (p : Panel) : (blockOff st b p).getBlk c = p.getBlk c := by
  rw [getBlk_of_pwr (blockOff_frame st b p).1, Panel.modBlk_ne _ _ h]

/-- Of several blocks switched off, each is off and no other changes. -/
theorem each_blockOff_st (st : BlkSt) (l : List Nat) (c : Nat) (p : Panel) :
    ((each l (blockOff st) p).getBlk c).st = if c ∈ l then st else (p.getBlk c).st := by
  induction l generalizing p with
  | nil => rfl
  | cons b l ih =>
    change ((each l (blockOff st) (blockOff st b p)).getBlk c).st = _
    rw [ih]
    by_cases hc : c = b
    · subst hc
      simp [blockOff_getBlk]
    · rw [blockOff_getBlk_ne hc]
      simp [hc]

/-! Collapses (R379, R387, R388). -/

theorem stackLost_pwr (m : Nat) (p : Panel) : (stackLost m p).pwr = p.pwr := by
  unfold stackLost
  split <;> rfl

theorem loseShards_pwr (m : Nat) (p : Panel) : (loseShards m p).pwr = p.pwr :=
  each_pwr _ (fun (e : Nat × DirEntry) q => (loseEntry_unitsMoved e.1 q).pwr) p

theorem freezeTransits_pwr (cause m : Nat) (p : Panel) : (freezeTransits cause m p).pwr = p.pwr :=
  each_pwr _ (fun (e : Nat × Region) q => (triggerFreeze_unitsMoved e.1 cause q).pwr) p

theorem loseStandby_pwr (p : Panel) : (loseStandby p).pwr = p.pwr := by
  unfold loseStandby
  split
  · rfl
  · rw [raise_pwr, (moveUnit_unitsMoved ..).pwr]
    rfl

/-- A block that was up has failed: its collapses counted, the tick kept. -/
theorem collapse_getBlk (h : (p.getBlk b).st = .up) : (collapse b p).getBlk b = { p.getBlk b with
    collapses := (p.getBlk b).collapses + 1, collapsedAt := some p.now, st := .failed, vmin := false } := by
  unfold collapse
  rw [if_neg (not_not_intro h)]
  extract_lets own p1 from_ p2 p3 p4 p5 p6 p7 p8
  have h1 : p1.pwr = p.pwr ∧ p1.now = p.now := by
    unfold p1
    split <;> exact ⟨rfl, rfl⟩
  have h2 : p2.pwr = p1.pwr ∧ p2.now = p1.now :=
    each_keeps (P := fun q : Panel => q.pwr = p1.pwr ∧ q.now = p1.now) _ (fun g q hq =>
      ⟨(fromHub_reported ..).pwr.trans hq.1, (congrArg Clocks.tb (fromHub_reported ..).clk).trans hq.2⟩) ⟨rfl, rfl⟩
  have h3 : p3.pwr = p2.pwr ∧ p3.now = p2.now :=
    each_keeps (P := fun q : Panel => q.pwr = p2.pwr ∧ q.now = p2.now) _ (fun m q hq =>
      ⟨(freezeTransits_pwr ..).trans hq.1, (UnitsMoved.each _ (fun (e : Nat × Region) u => triggerFreeze_unitsMoved e.1 0x0101 u) q).now.trans hq.2⟩) ⟨rfl, rfl⟩
  have h4 : p4.getBlk b = { p3.getBlk b with collapses := (p3.getBlk b).collapses + 1, collapsedAt := some p3.now } := Panel.modBlk_same ..
  have h7 : p7.pwr = p4.pwr := (each_pwr _ (fun m q => (loseShards_pwr ..).trans (stackLost_pwr ..)) p6).trans
    ((raise_pwr ..).trans (moveUnit_unitsMoved ..).pwr)
  have h8 : p8.getBlk b = { p.getBlk b with
      collapses := (p.getBlk b).collapses + 1, collapsedAt := some p.now, st := .failed, vmin := false } := by
    rw [show p8 = blockOff .failed b p7 from rfl, blockOff_getBlk, getBlk_of_pwr h7, h4, getBlk_of_pwr (h3.1.trans (h2.1.trans h1.1)),
      h3.2.trans (h2.2.trans h1.2)]
  split
  · rw [getBlk_of_pwr (loseStandby_pwr _)]
    exact h8
  · exact h8

theorem collapse_of_not_up (h : (p.getBlk b).st ≠ .up) : collapse b p = p := if_pos h

theorem exec_blockCollapse (hb : b < 20) : exec (.blockCollapse b) s = .next (s.onP (collapse b)) := by
  change execBlockCollapse b s = _
  rw [execBlockCollapse, isBlock_of_lt hb]
  rfl

/-! VMIN frames (R379, R384). -/

/-- Block `b` with a frame sent. -/
def framed (b v : Nat) (p : Panel) : Panel :=
  p.modBlk b fun x => { x with
    vcode := v % 4096, vmin := (blockDies b).any (canDrive p), frames := x.frames + 1,
    frame := vminFrame x.frames b v (decide (v % 4096 < 2400)) ((blockDies b).any (canDrive p)) }

theorem exec_vminFrame_driven (hb : b < 20) (hdriver : (s.p.getBlk b).driver = some d) (hdrive : canDrive s.p d = true) :
    exec (.vminFrame b v) s = .next (s.onP fun p => judgeVir b (v % 4096) (framed b v p)) := by
  change execVminFrame b v s = _
  rw [execVminFrame, isBlock_of_lt hb]
  refine State.runP_eq ?_
  simp only [hdriver, hdrive]
  rfl

theorem exec_vminFrame_undriven (hb : b < 20) (hdriver : (s.p.getBlk b).driver = none) :
    exec (.vminFrame b v) s = .next (s.onP fun p => p.modBlk b fun x => { x with driver := driverOf p b, vmin := false }) := by
  change execVminFrame b v s = _
  rw [execVminFrame, isBlock_of_lt hb]
  refine State.runP_eq ?_
  simp only [hdriver]

/-- A window within the range ends what was out of range before. -/
theorem judgeVir_in_range (hup : (p.getBlk b).st = .up) (hlo : 2600 ≤ v) (hhi : v ≤ 3300) :
    judgeVir b v p = p.modBlk b fun x => { x with lowFor := 0, highFor := 0 } := by
  have hhigh : ¬ 3400 < v := by omega
  simp [judgeVir, hup, show ¬ v < 2400 by omega, show ¬ v < 2600 by omega, show ¬ 3300 < v by omega, hhigh]

theorem judgeVir_collapse (hup : (p.getBlk b).st = .up) (hlo : v < 2400) : judgeVir b v p = collapse b p := by
  rw [judgeVir, if_neg (not_not_intro hup), if_pos hlo]

/-! The current after a collapse (R387). -/

theorem exec_fuseNotTripped {t : Nat} (hb : b < 20) (hat : (s.p.getBlk b).collapsedAt = some t) :
    exec (.fuseNotTripped b v) s = .next (s.onP fun p => if t + 100000 ≤ p.now then
      (if (if b < 16 then 900 else 200) < v then raise 0x0103 0xFF (keyBlock b) (some (BitVec.ofNat 64 b)) (p.modBlk b fun x => { x with iout := v })
        else p.modBlk b fun x => { x with iout := v })
      else p) := by
  change execFuseNotTripped b v s = _
  rw [execFuseNotTripped, isBlock_of_lt hb]
  refine State.runP_eq ?_
  simp only [hat]

/-! Polls and alerts (R385, R391, R553). -/

/-- A poll that reads well. -/
theorem takePoll_good (b v i : Nat) (tmp : Int) (p : Panel) : takePoll b (some ⟨v, i, tmp, true, false⟩) p
    = p.modBlk b fun x => { x with vout := v, iout := i, temp := tmp, pec := 0, e10 := x.e10 + v * i, eSec := x.eSec + v * i } := rfl

theorem exec_pmbusPoll_one {r : PmRead} (hlive : liveBlocks s.p = [b]) (hon : periphOn s.p 3 = true) :
    exec (.pmbusPoll [(b, some r)]) s = .next (s.onP (takePoll b (some r))) := by
  change execPmbusPoll [(b, some r)] s = _
  rw [execPmbusPoll]
  refine State.runP_eq ?_
  rw [if_neg (not_not_intro hon), hlive, each_singleton]
  simp

theorem exec_pmbusPoll_off (hoff : periphOn s.p 3 = false) (l : List (Nat × Option PmRead)) : exec (.pmbusPoll l) s = .next s := by
  change execPmbusPoll l s = _
  rw [execPmbusPoll]
  exact State.runP_same (if_pos (by simp [hoff]))

theorem pmFault_getBlk (b : Nat) (p : Panel) : (pmFault b p).getBlk b = { p.getBlk b with faults := (p.getBlk b).faults + 1 } := by
  rw [pmFault, getBlk_of_pwr (raiseAs_reported ..).pwr, Panel.modBlk_same]

theorem exec_pmbAlert {l : List Nat} (hlive : liveBlocks s.p = [b]) (hon : periphOn s.p 3 = true) :
    exec (.pmbAlert l) s = .next (s.onP fun p => if l.contains b then pmFault b p else p) := by
  change execPmbAlert l s = _
  rw [execPmbAlert]
  refine State.runP_eq ?_
  rw [if_pos hon, hlive, List.filter_singleton]
  cases l.contains b <;> rfl

/-! Enabling (R386, R417). -/

theorem notOff_ne_of_off {c : Nat} (hb : (p.getBlk b).st ≠ .off) (hc : (p.getBlk c).st = .off) : b ≠ c := fun h => hb (h ▸ hc)

/-- Enabling goes on with a block that is off: no other changes. -/
theorem nextBlock_getBlk (h : (p.getBlk b).st ≠ .off) (t : Nat) : (nextBlock t p).getBlk b = p.getBlk b := by
  unfold nextBlock
  split
  · rfl
  · next c hc =>
    have hoff : (p.getBlk c).st = .off := by
      have hfound := List.find?_some hc
      simp only [Bool.and_eq_true, decide_eq_true_eq] at hfound
      exact hfound.2
    split
    · dsimp only
      split
      · rfl
      · rw [getBlk_of_pwr (raise_pwr ..)]
        rfl
    · rw [enableBlock, Panel.modBlk_ne _ _ (notOff_ne_of_off h hoff), Panel.modBlk_ne _ _ (notOff_ne_of_off h hoff)]

/-- What has just been logged stays so. -/
theorem NewestLogged.nextBlock {ev : Nat} (h : NewestLogged ev p) (t : Nat) : Logged ev (nextBlock t p) := by
  unfold Machine.nextBlock
  split
  · exact h.logged
  · split
    · dsimp only
      split
      · exact h.logged.congr rfl rfl
      · exact (h.congr (q := p.modBoot _) rfl rfl).raise (by decide) ..
    · exact h.logged.congr rfl rfl

theorem noteWritten_pwr (i : Option Nat) (p : Panel) : (noteWritten i p).pwr = p.pwr := by
  cases i with
  | none => rfl
  | some i =>
    unfold noteWritten settleQuery
    dsimp only
    split <;> rfl

theorem writeCompletion_pwr (f : Nat) (c : Completion) (p : Panel) : (writeCompletion f c p).pwr = p.pwr := by
  obtain ⟨x, hx, h⟩ := writeCompletion_cases f c p
  rw [h, noteWritten_pwr, hx.pwr]

theorem postHeld_pwr (f c fuel : Nat) (p : Panel) : (postHeld f c fuel p).pwr = p.pwr := by
  induction fuel generalizing p with
  | zero => rfl
  | succ fuel ih =>
    rw [postHeld]
    split
    · rfl
    · split
      · rfl
      · rw [ih, writeCompletion_pwr]
        rfl

theorem ite_pwr {c : Prop} [Decidable c] {r : Panel} (hq : q.pwr = p.pwr) (hr : r.pwr = p.pwr) : (if c then q else r).pwr = p.pwr := by
  split
  · exact hq
  · exact hr

theorem postAllHeld_pwr (p : Panel) : (postAllHeld p).pwr = p.pwr :=
  each_pwr _ (fun f q => each_pwr _ (fun c u => postHeld_pwr f c 4096 u) q) p

theorem tryLink_pwr (hp : Nat) (p : Panel) : (tryLink hp p).pwr = p.pwr := ite_pwr (ite_pwr (postAllHeld_pwr _) rfl) rfl

/-- A thermal cap leaves the rest of its block. -/
theorem setCap_getBlk (b : Nat) (cool : Q) (p : Panel) : ∃ c, (setCap b cool p).getBlk b = { p.getBlk b with cap := c } := by
  unfold setCap
  extract_lets j d
  have hlimit (limit : Int) (rth : Q) (u : Panel) : (limitW limit cool rth u).2.pwr = u.pwr := by
    unfold limitW
    split <;> rfl
  have hj : j.2.pwr = p.pwr := hlimit ..
  have hd : d.2.pwr = p.pwr := by
    unfold d
    split
    · exact (hlimit ..).trans hj
    · exact hj
  refine ⟨min j.1 d.1, ?_⟩
  rw [Panel.modBlk_same, getBlk_of_pwr hd]

/-- The panel when block `b` has power: its dies are released and its unit is in service. -/
def blockUp (b : Nat) (p : Panel) : Panel :=
  let p := p.modBlk b fun x => { x with st := .up, since := p.now, lowFor := 0, highFor := 0 }
  let p := each ((blockDies b).filter fun s => !fusedDie p.variant s && (decide (fstate p s = 0) || decide (fstate p s = 4) || decide (fstate p s = 6))) (fun s p =>
    p.modBoot fun y => { y with dieUp := if Tab.get .off y.dieUp s = .off then Tab.set s .released y.dieUp else y.dieUp }) p
  if usable p (keyBlock b) then p else putState (keyBlock b) .ready 0 true p

theorem blockUp_pwr (b : Nat) (p : Panel) :
    (blockUp b p).pwr = (p.modBlk b fun x => { x with st := .up, since := p.now, lowFor := 0, highFor := 0 }).pwr := by
  unfold blockUp
  extract_lets p1 p2
  have h2 : p2.pwr = p1.pwr := by
    refine each_pwr _ (fun m q => ?_) p1
    rfl
  exact ite_pwr h2 h2

theorem exec_blockPowerGood (hb : b < 20) (hst : (s.p.getBlk b).st = .enabling) (hsince : (s.p.getBlk b).since ≤ s.p.now)
    (hvmin : (s.p.getBlk b).vmin = true) (hlo : 2 * s.p.pwr.setpoint ≤ (s.p.getBlk b).vcode + 50)
    (hhi : (s.p.getBlk b).vcode ≤ 2 * s.p.pwr.setpoint + 50) :
    exec (.blockPowerGood b) s = .next (s.onP fun p =>
      let q := setCap b (Q.mk' (coolant (blockUp b p)) 100) (blockUp b p)
      nextBlock (q.now + 100000) (tryLink 1 (tryLink 0 q))) := by
  change execBlockPowerGood b s = _
  rw [execBlockPowerGood, isBlock_of_lt hb]
  exact State.runP_eq (if_neg (by simp [hst, hsince, hvmin, hlo, hhi]))

/-- The block is up from this tick. -/
theorem blockPowerGood_getBlk (b t : Nat) (cool : Q) (p : Panel) :
    let q := nextBlock t (tryLink 1 (tryLink 0 (setCap b cool (blockUp b p))))
    (q.getBlk b).st = .up ∧ (q.getBlk b).since = p.now := by
  intro q
  have hup : (blockUp b p).getBlk b = { p.getBlk b with st := .up, since := p.now, lowFor := 0, highFor := 0 } := by
    rw [getBlk_of_pwr (blockUp_pwr b p), Panel.modBlk_same]
  obtain ⟨c, hcap⟩ := setCap_getBlk b cool (blockUp b p)
  have hlink : (tryLink 1 (tryLink 0 (setCap b cool (blockUp b p)))).getBlk b
      = { p.getBlk b with st := .up, since := p.now, lowFor := 0, highFor := 0, cap := c } := by
    rw [getBlk_of_pwr (tryLink_pwr ..), getBlk_of_pwr (tryLink_pwr ..), hcap, hup]
  have hnext : q.getBlk b = (tryLink 1 (tryLink 0 (setCap b cool (blockUp b p)))).getBlk b :=
    nextBlock_getBlk (by rw [hlink]; simp) t
  rw [hnext, hlink]
  exact ⟨rfl, rfl⟩

theorem exec_blockPowerGood_invalid (hb : b < 20) (hvmin : (s.p.getBlk b).vmin = false) : exec (.blockPowerGood b) s = .next s := by
  change execBlockPowerGood b s = _
  rw [execBlockPowerGood, isBlock_of_lt hb]
  exact State.runP_same (if_pos (by simp [hvmin]))

/-- A block that has not come up in time fails, and the next is enabled. -/
theorem exec_blockEnableTimeout_due (hb : b < 20) (hst : (s.p.getBlk b).st = .enabling) (hdue : (s.p.getBlk b).since + 2000000 ≤ s.p.now) :
    exec (.blockEnableTimeout b) s = .next (s.onP fun p =>
      let q := raise 0x0102 0xFF (keyBlock b) (some (BitVec.ofNat 64 b)) (moveUnit (keyBlock b) .failed 0x0102 p)
      nextBlock q.now (blockOff .failed b q)) := by
  change execBlockEnableTimeout b s = _
  rw [execBlockEnableTimeout, isBlock_of_lt hb]
  exact State.runP_eq (if_neg (by simp [hst, hdue]))

theorem exec_blockEnableTimeout_early (hb : b < 20) (hearly : s.p.now < (s.p.getBlk b).since + 2000000) :
    exec (.blockEnableTimeout b) s = .next s := by
  change execBlockEnableTimeout b s = _
  rw [execBlockEnableTimeout, isBlock_of_lt hb]
  exact State.runP_same (if_pos fun h => Nat.not_le.mpr hearly h.2)

/-- A block that fails stays logged, and off. -/
theorem failedBlock (b t : Nat) (h : NewestLogged 0x0102 p) :
    ((nextBlock t (blockOff .failed b p)).getBlk b).st = .failed ∧ Logged 0x0102 (nextBlock t (blockOff .failed b p)) := by
  obtain ⟨-, hbook, hnow⟩ := blockOff_frame .failed b p
  have hst : (blockOff .failed b p).getBlk b = { p.getBlk b with st := .failed, vmin := false } := blockOff_getBlk ..
  refine ⟨?_, (h.congr hbook hnow).nextBlock t⟩
  rw [nextBlock_getBlk (by rw [hst]; simp), hst]

/-! Calibration (R391). -/

theorem exec_calibrationFactorUpdate (hb : b < 20) (hup : (s.p.getBlk b).st = .up) (hpoll : (s.p.getBlk b).badPoll = false)
    (hcount : 0 < (s.p.getBlk b).c10) : exec (.calibrationFactorUpdate b) s = .next (s.onP fun p => p.modBlk b fun x =>
      { x with e10 := 0, c10 := 0, calOk := true, factor := Q.mk' (p.getBlk b).e10 ((p.getBlk b).c10 * 1000000 : Nat) }) := by
  change execCalibrationFactorUpdate b s = _
  rw [execCalibrationFactorUpdate, isBlock_of_lt hb]
  refine State.runP_eq ?_
  simp only [hup, hpoll, Nat.ne_of_gt hcount, ne_eq, not_true_eq_false, if_false, Bool.false_eq_true]

theorem exec_calibrationFactorUpdate_fallback (hb : b < 20) (hup : (s.p.getBlk b).st = .up) (hpoll : (s.p.getBlk b).badPoll = true) :
    exec (.calibrationFactorUpdate b) s = .next (s.onP fun p => p.modBlk b fun x => { x with badPoll := false, e10 := 0, c10 := 0, calOk := false }) := by
  change execCalibrationFactorUpdate b s = _
  rw [execCalibrationFactorUpdate, isBlock_of_lt hb]
  exact State.runP_eq ((if_neg (not_not_intro hup)).trans (if_pos hpoll))

theorem exec_calibrationFactorUpdate_not_up (hb : b < 20) (hst : (s.p.getBlk b).st ≠ .up) : exec (.calibrationFactorUpdate b) s = .next s := by
  change execCalibrationFactorUpdate b s = _
  rw [execCalibrationFactorUpdate, isBlock_of_lt hb]
  exact State.runP_same (if_pos hst)

/-! The standby rail (R379, R394, R561). -/

theorem exec_vsb12Low (x : RailRead) : exec (.vsb12Low x) s = .next (s.onP fun p =>
    if x.vsb12 < 10800 ∧ 10800 ≤ p.pwr.vsb12 then
      raise 0x0106 p.activeHub keyPanel (some (BitVec.ofNat 64 x.vsb12)) (p.modPwr fun w => { w with bank := x.bank, vsb12 := x.vsb12 })
    else p.modPwr fun w => { w with bank := x.bank, vsb12 := x.vsb12 }) := rfl

/-- The blocks that are up or coming up. -/
def poweredBlocks (p : Panel) : List Nat := (List.range 20).filter fun b => decide ((p.getBlk b).st = .up ∨ (p.getBlk b).st = .enabling)

theorem exec_vsb12Loss (x : RailRead) : exec (.vsb12Loss x) s = .next (s.onP fun p =>
    if x.vsb12 < 9000 then
      each (poweredBlocks p) (blockOff .off) ((p.modPwr fun w => { w with bank := x.bank }).modPwr fun w => { w with vsb12 := x.vsb12, holdOnly := true })
    else p.modPwr fun w => { w with bank := x.bank }) := rfl

theorem each_blockOff_holdOnly (l : List Nat) (p : Panel) : (each l (blockOff .off) p).pwr.holdOnly = p.pwr.holdOnly :=
  each_keeps (P := fun q : Panel => q.pwr.holdOnly = p.pwr.holdOnly) l (fun b q hq => by rw [(blockOff_frame .off b q).1]; exact hq) rfl

/-- After the powered blocks are switched off none is up or coming up. -/
theorem each_blockOff_powered {c : Nat} (hc : c < 20) (h : q.pwr.blk = p.pwr.blk) :
    ((each (poweredBlocks p) (blockOff .off) q).getBlk c).st ≠ .up ∧ ((each (poweredBlocks p) (blockOff .off) q).getBlk c).st ≠ .enabling := by
  have hblk : q.getBlk c = p.getBlk c := by rw [Panel.getBlk, Panel.getBlk, h]
  rw [each_blockOff_st, hblk]
  split
  · exact ⟨by decide, by decide⟩
  · next hnot =>
    have hoff : ¬ ((p.getBlk c).st = .up ∨ (p.getBlk c).st = .enabling) := by simpa [poweredBlocks, hc] using hnot
    exact not_or.mp hoff

end Sys2Proof.Machine
end

section
open Sys2Proof Sys2Proof.Machine

/-- Settles O47: each command's effect, and then the block that it leaves. -/
theorem blocksAndPowerReadingsActOnTheirBlock : Obligations.BlocksAndPowerReadingsActOnTheirBlock := by
  unfold Obligations.BlocksAndPowerReadingsActOnTheirBlock
  intro b v d bank s hb
  refine ⟨fun hdriver hdrive hup => ⟨?framed, ?sags⟩, ?undriven, ?collapses, ?notUp, fun t hat => ?current, fun i tmp hlive hon => ⟨?polled, ?alert, ?other⟩,
    exec_pmbusPoll_off, ?good, exec_blockPowerGood_invalid hb, fun hst => ⟨?late, exec_blockEnableTimeout_early hb⟩, ?calibrated, ?fallback,
    exec_calibrationFactorUpdate_not_up hb, ?low, ?loss, ?above⟩
  case framed =>
    intro hlo hhi
    refine ⟨_, exec_vminFrame_driven hb hdriver hdrive, rfl, ?_⟩
    have hmod : v % 4096 = v := Nat.mod_eq_of_lt (by omega)
    have hframe : (framed b v s.p).getBlk b = _ := Panel.modBlk_same ..
    rw [State.onP_p, hmod, judgeVir_in_range (by rw [hframe]; exact hup) hlo hhi, Panel.modBlk_same, hframe, hmod,
      show decide (v < 2400) = false by simp; omega]
    exact ⟨rfl, rfl, rfl, rfl, hup, rfl⟩
  case sags =>
    intro hlo
    refine ⟨_, exec_vminFrame_driven hb hdriver hdrive, rfl, ?_⟩
    have hframe : (framed b v s.p).getBlk b = _ := Panel.modBlk_same ..
    rw [State.onP_p, Nat.mod_eq_of_lt (by omega), judgeVir_collapse (by rw [hframe]; exact hup) hlo, collapse_getBlk (by rw [hframe]; exact hup), hframe]
    exact ⟨rfl, rfl⟩
  case undriven =>
    intro hdriver
    refine ⟨_, exec_vminFrame_undriven hb hdriver, rfl, ?_⟩
    rw [State.onP_p, Panel.modBlk_same]
    exact ⟨rfl, rfl⟩
  case collapses =>
    intro hup
    refine ⟨_, exec_blockCollapse hb, rfl, ?_⟩
    rw [State.onP_p, collapse_getBlk hup]
    exact ⟨rfl, rfl, rfl⟩
  case notUp =>
    intro hst
    rw [exec_blockCollapse hb]
    exact congrArg _ (State.onP_congr (g := id) (collapse_of_not_up hst))
  case current =>
    rw [exec_fuseNotTripped hb hat]
    refine ⟨fun hdue => ⟨_, rfl, rfl, ?_⟩, fun hearly => congrArg _ (State.onP_congr (g := id) (if_neg (Nat.not_le.mpr hearly)))⟩
    rw [State.onP_p, if_pos hdue]
    generalize (if b < 16 then 900 else 200) = rating
    split
    · rw [getBlk_of_pwr (raise_pwr ..), Panel.modBlk_same]
      exact ⟨rfl, fun _ => raise_logged (by decide) ..⟩
    · next hsmall =>
      rw [Panel.modBlk_same]
      exact ⟨rfl, fun hover => absurd hover hsmall⟩
  case polled =>
    refine ⟨_, exec_pmbusPoll_one hlive hon, rfl, ?_⟩
    rw [State.onP_p, takePoll_good, Panel.modBlk_same]
    exact ⟨rfl, rfl, rfl, rfl, rfl⟩
  case alert =>
    refine ⟨_, exec_pmbAlert hlive hon, rfl, ?_⟩
    rw [State.onP_p, if_pos (by simp), pmFault_getBlk]
  case other =>
    intro _
    rw [exec_pmbAlert hlive hon]
    exact congrArg _ (State.onP_congr (g := id) (if_neg (by simp)))
  case good =>
    intro hst hsince hvmin hlo hhi
    exact ⟨_, exec_blockPowerGood hb hst hsince hvmin hlo hhi, rfl, blockPowerGood_getBlk ..⟩
  case late =>
    intro hdue
    exact ⟨_, exec_blockEnableTimeout_due hb hst hdue, rfl, failedBlock b _ (raise_newestLogged (by decide) ..)⟩
  case calibrated =>
    intro hup hpoll hcount
    refine ⟨_, exec_calibrationFactorUpdate hb hup hpoll hcount, rfl, ?_⟩
    rw [State.onP_p, Panel.modBlk_same]
  case fallback =>
    intro hup hpoll
    refine ⟨_, exec_calibrationFactorUpdate_fallback hb hup hpoll, rfl, ?_⟩
    rw [State.onP_p, Panel.modBlk_same]
    exact ⟨rfl, rfl⟩
  case low =>
    intro hlow
    refine ⟨_, exec_vsb12Low .., rfl, ?_⟩
    rw [State.onP_p]
    split
    · rw [raise_pwr]
      exact ⟨rfl, rfl, fun _ => raise_logged (by decide) ..⟩
    · next hold => exact ⟨rfl, rfl, fun hwas => absurd ⟨hlow, hwas⟩ hold⟩
  case loss =>
    intro hloss
    refine ⟨_, exec_vsb12Loss .., rfl, ?_⟩
    rw [State.onP_p, if_pos hloss]
    exact ⟨each_blockOff_holdOnly .., fun c hc => each_blockOff_powered hc rfl⟩
  case above =>
    intro hok
    rw [exec_vsb12Loss]
    exact congrArg _ (State.onP_congr (if_neg (Nat.not_lt.mpr hok)))

end

section
/-! PROOFS. Step-downs and trips, thermal reports, resistances, forecasts, holds, and the coolant (R401-R409). -/

namespace Sys2Proof.Machine

variable {p q : Panel} {s : State} {b d : Nat}

/-! Step-downs, trips and reports (R401, R404, R405). -/

theorem anyDieRaise_reported (m ev : Nat) (x : Dat) (p : Panel) : Reported p (anyDieRaise m ev x p) := .ite (dieRaise_reported ..) (raise_reported ..)

theorem exec_tjLimit (hd : isDie d = true) (hstep : 0 < (s.p.getClk d).step) (hlocked : (s.p.getClk d).locked = true)
    (htrip : (s.p.getClk d).tripped = false) : exec (.tjLimit d) s = .next (s.onP fun p =>
      anyDieRaise d 0x0302 none (anyDieRaise d 0x0204 none (p.modClk d fun c => { c with
        step := c.step - 1, emerg := c.emerg + 1, emergAt := some (p.now, c.step - 1), asked := some (c.step - 1), tjDowns := c.tjDowns + 1 }))) := by
  change execTjLimit d s = _
  rw [execTjLimit, hd]
  exact State.runP_eq (if_neg (by simp [Nat.ne_of_gt hstep, hlocked, htrip]))

theorem exec_tjLimit_lowest (hd : isDie d = true) (hstep : (s.p.getClk d).step = 0) : exec (.tjLimit d) s = .next s := by
  change execTjLimit d s = _
  rw [execTjLimit, hd]
  exact State.runP_same (if_pos (.inl hstep))

/-- The panel with die `d` tripped, before it is raised. -/
def trippedDie (d : Nat) (p : Panel) : Panel :=
  (p.modClk d fun c => { c with tripped := true, trips := c.trips + 1 }).modPwr fun w => { w with trips := w.trips + 1 }

theorem trippedDie_getClk (d : Nat) (p : Panel) :
    (trippedDie d p).getClk d = { p.getClk d with tripped := true, trips := (p.getClk d).trips + 1 } :=
  Panel.modClk_same p d fun c => { c with tripped := true, trips := c.trips + 1 }

theorem exec_thermalTrip (hd : isDie d = true) (htrip : (s.p.getClk d).tripped = false) : exec (.thermalTrip d) s = .next (s.onP fun p =>
    if isNode d then anyDieRaise d 0x0303 none (trippedDie d p) else pendEvidence d 0x0303 (anyDieRaise d 0x0303 none (trippedDie d p))) := by
  change execThermalTrip d s = _
  rw [execThermalTrip, hd]
  exact State.runP_eq (if_neg (by simp [htrip]))

theorem exec_thermalTrip_again (hd : isDie d = true) (htrip : (s.p.getClk d).tripped = true) : exec (.thermalTrip d) s = .next s := by
  change execThermalTrip d s = _
  rw [execThermalTrip, hd]
  exact State.runP_same (if_pos htrip)

/-- A trip raised, with or without the evidence of a guest, leaves the clocks and the power. -/
theorem thermalTrip_frame (d : Nat) (p : Panel) :
    let q := if isNode d then anyDieRaise d 0x0303 none p else pendEvidence d 0x0303 (anyDieRaise d 0x0303 none p)
    q.clk = p.clk ∧ q.pwr = p.pwr := by
  have hraised := anyDieRaise_reported d 0x0303 none p
  dsimp only
  split
  · exact ⟨hraised.clk, hraised.pwr⟩
  · exact ⟨hraised.clk, hraised.pwr⟩

theorem hottest_ne_nil {j : List Int} (h : j ≠ []) : ∃ t, hottest j = some t := by
  cases j with
  | nil => exact absurd rfl h
  | cons x t =>
    rw [hottest]
    cases hottest t with
    | none => exact ⟨_, rfl⟩
    | some y => exact ⟨_, rfl⟩

/-- A die's clock with the readings of a report of which all count. -/
def DieClk.reported (j q : List Int) (c : DieClk) : DieClk :=
  { c with junction := some ((hottest j).getD 1050), dram := hottest q, excluded := 0 }

theorem exec_thermalReport (hd : isDie d = true) {j q : List Int} (hj : goodReadings j = j) (hq : goodReadings q = q) :
    exec (.thermalReport d j q) s = .next (s.onP fun p =>
      if j.isEmpty then pendEvidence d 0x0303 (p.modClk d (DieClk.reported j q)) else p.modClk d (DieClk.reported j q)) := by
  change execThermalReport d j q s = _
  rw [execThermalReport, hd]
  refine State.runP_eq ?_
  rw [hj, hq]
  dsimp only
  rw [show j.length + q.length - j.length - q.length = 0 by omega]
  rfl

/-! Resistances (R406). -/

/-- A block's resistances after an estimate: its sums are taken away, and a junction estimate that counts is in force. -/
theorem estimateBlock_getBlk (cool : Q) (b : Nat) (p : Panel) :
    let x := p.getBlk b
    let y := (estimateBlock cool b p).getBlk b
    let watts := Q.mk' x.eSec 1000000
    y.sumJ = 0 ∧ y.cntJ = 0 ∧ y.eSec = 0
    ∧ (qLe (qOf (if b < 16 then 135 else 30)) watts = false → y.rthJ = x.rthJ ∧ y.estJ = x.estJ)
    ∧ (qLe (qOf (if b < 16 then 135 else 30)) watts = true → 0 < x.cntJ →
        y.estJ = true ∧ y.rthJ = (moveRth (rthJOf p b) (qDiv (qSub (Q.mk' x.sumJ (10 * x.cntJ : Nat)) cool) watts)).1) := by
  intro x y watts
  unfold y estimateBlock
  extract_lets use est j e far p1 p2
  have hp1 : p1.getBlk b = _ := Panel.modBlk_same ..
  obtain ⟨c, hcap⟩ := setCap_getBlk b cool p1
  have hlast : (if far = true then raise 0x0307 0xFF (keyBlock b) (some (BitVec.ofNat 64 b)) p2 else p2).getBlk b = { p1.getBlk b with cap := c } :=
    (getBlk_of_pwr (ite_pwr (raise_pwr ..) rfl) b).trans hcap
  rw [hlast, hp1]
  refine ⟨rfl, rfl, rfl, fun hlow => ?_, fun hhigh hcnt => ?_⟩
  · have hj : j = none := if_neg fun h => Bool.false_ne_true (hlow.symm.trans h.1)
    rw [hj]
    exact ⟨rfl, Bool.or_false _⟩
  · have hj : j = some (moveRth (rthJOf p b) (est x.sumJ x.cntJ)) := if_pos ⟨hhigh, hcnt⟩
    rw [hj]
    exact ⟨Bool.or_true _, rfl⟩

/-- The coolant's mean over the second. -/
def meanCoolant (p : Panel) : Q := if p.pwr.cntC = 0 then Q.mk' (coolant p) 100 else Q.mk' p.pwr.sumC (100 * p.pwr.cntC : Nat)

theorem exec_rthEstimate (hlive : liveBlocks s.p = [b]) :
    exec .rthEstimate s = .next (s.onP fun p => (estimateBlock (meanCoolant p) b p).modPwr fun w => { w with sumC := 0, cntC := 0 }) := by
  change execRthEstimate s = _
  rw [execRthEstimate]
  refine State.runP_eq ?_
  rw [hlive]
  dsimp only
  rw [each_singleton]
  rfl

/-! Forecasts (R408). -/

/-- A block's forecast from its hottest junction. -/
theorem forecastBlock_getBlk {t : Int} (h : blockHot p b (·.junction) = some t) :
    let x := p.getBlk b
    let y := (forecastBlock b p).getBlk b
    y.fJ = qFloor (forecast p b t (rthJOf p b))
    ∧ (qLe (qOf 1050) (forecast p b t (rthJOf p b)) = true → y.held = true ∧ y.heldAt = if x.held then x.heldAt else p.now)
    ∧ y.sumJ = x.sumJ + t ∧ y.cntJ = x.cntJ + 1 := by
  intro x y
  unfold y forecastBlock
  extract_lets j e fj fd hold first p1
  have hj : j = some t := h
  have hfj : fj = forecast p b t (rthJOf p b) := by
    unfold fj
    rw [hj]
  have hp1 : p1.getBlk b = _ := Panel.modBlk_same ..
  rw [getBlk_of_pwr (ite_pwr (raise_pwr ..) rfl), hp1, hj, hfj]
  refine ⟨rfl, fun hover => ?_, rfl, rfl⟩
  have hhold : hold = true := by
    unfold hold
    rw [hfj, hover]
    rfl
  refine ⟨hhold, ?_⟩
  dsimp only
  unfold first
  rw [hhold]
  cases hheld : (p.getBlk b).held with
  | true => simp [x]
  | false => simp

theorem exec_thermalForecast (hlive : liveBlocks s.p = [b]) :
    exec .thermalForecast s = .next (s.onP fun p => ((forecastBlock b p).freeNat.2).modPwr fun w => { w with allHeld := false }) := by
  change execThermalForecast s = _
  rw [execThermalForecast]
  refine State.runP_eq ?_
  rw [hlive, each_singleton]

/-! The hold limit (R409). -/

theorem panelPlan_pwr (f : Nat) (p : Panel) : (panelPlan f p).pwr = p.pwr := by
  obtain ⟨c, h⟩ := issuePlan_onlyCtl (planDies p) f p
  rw [panelPlan, h]
  rfl

/-- The ceiling falls, not below the lowest step. -/
theorem lowerCeiling_pwr (p : Panel) : (lowerCeiling p).pwr = { p.pwr with ceiling := max (cfg p 0x2011 0 1) (p.pwr.ceiling - 1) } :=
  ite_pwr (p := p.modPwr fun w => { w with ceiling := max (cfg p 0x2011 0 1) (p.pwr.ceiling - 1) }) (panelPlan_pwr ..) rfl

/-- Block `b` is held from this tick on. -/
def heldAnew (b : Nat) (p : Panel) : Panel := p.modBlk b fun x => { x with heldAt := p.now }

section
variable (hb : b < 20) (hheld : (s.p.getBlk b).held = true) (hdue : (s.p.getBlk b).heldAt + 100000 * s.p.pwr.holdLimit ≤ s.p.now)
include hb hheld hdue

theorem exec_holdLimitExpiry_lowers (hlow : cfg s.p 0x2011 0 1 < s.p.pwr.ceiling) :
    exec (.holdLimitExpiry b) s = .next (s.onP fun p => lowerCeiling (heldAnew b p)) := by
  change execHoldLimitExpiry b s = _
  rw [execHoldLimitExpiry, isBlock_of_lt hb]
  exact State.runP_eq ((if_neg (by simp [hheld, hdue])).trans (if_pos hlow))

theorem exec_holdLimitExpiry_forces (hlow : s.p.pwr.ceiling ≤ cfg s.p 0x2011 0 1) (hwait : waiting5 s.p b ≠ []) :
    exec (.holdLimitExpiry b) s = .next (s.onP fun p => raise 0x0309 0xFF (keyBlock b) (some (BitVec.ofNat 64 b))
      ((each (waiting5 p b) (fun r p => p.modReg r fun g => { g with forced := true }) (heldAnew b p)).modPwr fun w => { w with forced := w.forced + 1 })) := by
  change execHoldLimitExpiry b s = _
  rw [execHoldLimitExpiry, isBlock_of_lt hb]
  refine State.runP_eq ((if_neg (by simp [hheld, hdue])).trans ((if_neg (Nat.not_lt.mpr hlow)).trans (if_neg ?_)))
  exact fun h => hwait (List.isEmpty_iff.mp h)

end

theorem exec_holdLimitExpiry_early (hb : b < 20)
    (h : (s.p.getBlk b).held = false ∨ s.p.now < (s.p.getBlk b).heldAt + 100000 * s.p.pwr.holdLimit) : exec (.holdLimitExpiry b) s = .next s := by
  change execHoldLimitExpiry b s = _
  rw [execHoldLimitExpiry, isBlock_of_lt hb]
  exact State.runP_same (if_pos (by simpa using h))

/-- Each region of a list is forced, and no power setting changes. -/
theorem each_forced (l : List Nat) (p : Panel) :
    let q := each l (fun r p => p.modReg r fun g => { g with forced := true }) p
    q.pwr = p.pwr ∧ ∀ r, r ∈ l ∨ (p.getReg r).forced = true → (q.getReg r).forced = true := by
  induction l generalizing p with
  | nil => exact ⟨rfl, fun r hr => hr.resolve_left List.not_mem_nil⟩
  | cons k l ih =>
    obtain ⟨hpwr, hforced⟩ := ih (p.modReg k fun g => { g with forced := true })
    refine ⟨hpwr, fun r hr => hforced r ?_⟩
    by_cases hrk : r = k
    · subst hrk
      right
      rw [Panel.modReg_same]
    · rw [Panel.modReg_ne _ _ hrk]
      exact hr.imp_left fun h => (List.mem_cons.mp h).resolve_left hrk

/-! The coolant (R402, R403). -/

theorem exec_coolantPoll_off (hoff : periphOn s.p 4 = false) (i o : Option Int) : exec (.coolantPoll i o) s = .next s := by
  change execCoolantPoll i o s = _
  rw [execCoolantPoll]
  exact State.runP_same (if_pos (by simp [hoff]))

/-- An inlet within its range. -/
theorem takeInlet_in_range {t : Int} (hlo : 2000 ≤ t) (hhi : t ≤ 4000) (p : Panel) : takeInlet t p = p.modPwr fun w => { w with
    inlet := t, inletRead := true, inletOk := true, inFail := 0, inRange := true, inletHotAt := none, inletHeld := w.inletHeld && decide (4300 < t) } := by
  have hhot : ¬ 4500 < t := by omega
  simp [takeInlet, hlo, hhi, hhot]

/-- The end of a coolant poll: the rise between the sensors, and the second's sums. -/
def coolantSums (p : Panel) : Panel :=
  let n := inRow (p.pwr.inletOk && p.pwr.outletOk && decide (p.pwr.inlet + 1500 < p.pwr.outlet)) p.pwr.rise
  let q := p.modPwr fun w => { w with rise := n, sumC := w.sumC + coolant p, cntC := w.cntC + 1 }
  if n = 10 then raise 0x0306 q.activeHub keyPanel none q else q

theorem coolantSums_pwr (p : Panel) : (coolantSums p).pwr = { p.pwr with
    rise := inRow (p.pwr.inletOk && p.pwr.outletOk && decide (p.pwr.inlet + 1500 < p.pwr.outlet)) p.pwr.rise,
    sumC := p.pwr.sumC + coolant p, cntC := p.pwr.cntC + 1 } :=
  ite_pwr (p := p.modPwr fun w => { w with
    rise := inRow (p.pwr.inletOk && p.pwr.outletOk && decide (p.pwr.inlet + 1500 < p.pwr.outlet)) p.pwr.rise,
    sumC := p.pwr.sumC + coolant p, cntC := p.pwr.cntC + 1 }) (raise_pwr ..) rfl

/-- The outlet has been read. -/
def outletRead (o : Int) (p : Panel) : Panel := p.modPwr fun w => { w with outlet := o, outletOk := true, outFail := 0 }

theorem exec_coolantPoll_both (hon : periphOn s.p 4 = true) (i o : Int) :
    exec (.coolantPoll (some i) (some o)) s = .next (s.onP fun p => coolantSums (outletRead o (takeInlet i p))) := by
  change execCoolantPoll (some i) (some o) s = _
  rw [execCoolantPoll]
  exact State.runP_eq (if_neg (not_not_intro hon))

/-- The inlet's read has failed. -/
def inletFailed (p : Panel) : Panel :=
  coolantFail (p.pwr.inFail + 1) (p.modPwr fun w => { w with inFail := p.pwr.inFail + 1, inletOk := w.inletOk && decide (p.pwr.inFail + 1 < 3) })

theorem inletFailed_pwr (p : Panel) : (inletFailed p).pwr = { p.pwr with
    inFail := p.pwr.inFail + 1, inletOk := p.pwr.inletOk && decide (p.pwr.inFail + 1 < 3), failed := p.pwr.failed + 1 } :=
  ite_pwr (p := p.modPwr fun w => { w with
    inFail := p.pwr.inFail + 1, inletOk := w.inletOk && decide (p.pwr.inFail + 1 < 3), failed := w.failed + 1 }) (raise_pwr ..) rfl

theorem exec_coolantPoll_outlet (hon : periphOn s.p 4 = true) (o : Int) :
    exec (.coolantPoll none (some o)) s = .next (s.onP fun p => coolantSums (outletRead o (inletFailed p))) := by
  change execCoolantPoll none (some o) s = _
  rw [execCoolantPoll]
  exact State.runP_eq (if_neg (not_not_intro hon))

end Sys2Proof.Machine
end

section
open Sys2Proof Sys2Proof.Machine

/-- Settles O49: each command's effect, and then the die, the block or the readings that it leaves. -/
theorem temperaturesStepTripHoldAndForecast : Obligations.TemperaturesStepTripHoldAndForecast := by
  unfold Obligations.TemperaturesStepTripHoldAndForecast
  intro d b s hd hb
  refine ⟨?down, exec_tjLimit_lowest hd, ?trips, exec_thermalTrip_again hd, fun j q hj hq => ⟨?report, ?blind⟩, ?estimate, ?forecast,
    fun hheld hdue => ⟨?lowers, ?forces⟩, exec_holdLimitExpiry_early hb, fun i o hon => ⟨?both, ?outlet⟩, exec_coolantPoll_off⟩
  case down =>
    intro hstep hlocked htrip
    refine ⟨_, exec_tjLimit hd hstep hlocked htrip, rfl, ?_⟩
    rw [State.onP_p, getClk_of_clk ((anyDieRaise_reported ..).trans (anyDieRaise_reported ..)).clk, Panel.modClk_same]
  case trips =>
    intro htrip
    obtain ⟨hclk, hpwr⟩ := thermalTrip_frame d (trippedDie d s.p)
    refine ⟨_, exec_thermalTrip hd htrip, rfl, (getClk_of_clk hclk d).trans (trippedDie_getClk ..), congrArg Power.trips hpwr⟩
  case report =>
    intro hne
    obtain ⟨t, ht⟩ := hottest_ne_nil hne
    refine ⟨_, exec_thermalReport hd hj hq, rfl, ?_⟩
    rw [State.onP_p, if_neg (by simp [hne]), Panel.modClk_same, DieClk.reported, ht]
    exact ⟨rfl, rfl, rfl, rfl⟩
  case blind =>
    intro hnil
    subst hnil
    refine ⟨_, exec_thermalReport hd hj hq, rfl, ?_⟩
    rw [State.onP_p, if_pos List.isEmpty_nil, getClk_of_clk (pendEvidence_clk ..), Panel.modClk_same]
    exact ⟨rfl, rfl⟩
  case estimate =>
    intro hlive
    obtain ⟨hsum, hcnt, he, hlow, hhigh⟩ := estimateBlock_getBlk (meanCoolant s.p) b s.p
    refine ⟨_, exec_rthEstimate hlive, rfl, rfl, rfl, hsum, hcnt, he, hlow, fun huse hj hc => ?_⟩
    obtain ⟨hest, hrth⟩ := hhigh huse hj
    refine ⟨hest, hrth.trans ?_⟩
    rw [show meanCoolant s.p = _ from if_neg (Nat.ne_of_gt hc)]
  case forecast =>
    intro t hlive hhot
    exact ⟨_, exec_thermalForecast hlive, rfl, rfl, forecastBlock_getBlk hhot⟩
  case lowers =>
    intro hlow
    refine ⟨_, exec_holdLimitExpiry_lowers hb hheld hdue hlow, rfl, ?_⟩
    have hpwr := lowerCeiling_pwr (heldAnew b s.p)
    refine ⟨(congrArg Power.ceiling hpwr).trans ?_, ?_⟩
    · exact Nat.max_eq_right (Nat.le_sub_one_of_lt hlow)
    · have hblk : (heldAnew b s.p).getBlk b = _ := Panel.modBlk_same ..
      change (Tab.get blk0 (lowerCeiling (heldAnew b s.p)).pwr.blk b).heldAt = _
      rw [hpwr]
      exact congrArg Blk.heldAt hblk
  case forces =>
    intro hlow hwait
    obtain ⟨hpwr, hforced⟩ := each_forced (waiting5 s.p b) (heldAnew b s.p)
    refine ⟨_, exec_holdLimitExpiry_forces hb hheld hdue hlow hwait, rfl, ?_, fun r hr => ?_⟩
    · rw [State.onP_p, raise_pwr, Panel.modPwr_pwr, hpwr]
      rfl
    · rw [State.onP_p, Panel.getReg_of_reg (raise_reg ..)]
      exact hforced r (.inl hr)
  case both =>
    intro hlo hhi hdiff
    refine ⟨_, exec_coolantPoll_both hon i o, rfl, ?_⟩
    rw [State.onP_p, coolantSums_pwr, takeInlet_in_range hlo hhi]
    simp [outletRead, coolant, inRow]
    exact decide_eq_false (Int.not_lt.mpr hdiff)
  case outlet =>
    refine ⟨_, exec_coolantPoll_outlet hon o, rfl, ?_⟩
    rw [State.onP_p, coolantSums_pwr, outletRead, Panel.modPwr_pwr, inletFailed_pwr]
    refine ⟨rfl, rfl, rfl, fun hfails => ?_⟩
    simp [show ¬ s.p.pwr.inFail + 1 < 3 by omega]

end

section
/-! PROOFS. Ledger windows, step admissions and record writes (R389-R395, R407, R412). -/

namespace Sys2Proof.Machine

variable {p q : Panel} {s : State} {n : Nat}

/-! The ledger's loops over accounts and blocks (R389, R391). -/

def withAccts (t : Tab Acct) (p : Panel) : Panel := p.modPwr fun w => { w with acct := t }
def withSkip (b : Bool) (p : Panel) : Panel := p.modPwr fun w => { w with skip := b }
def withBlks (t : Tab Blk) (p : Panel) : Panel := p.modPwr fun w => { w with blk := t }

/-- A loop over accounts, each by a rule that the accounts do not enter, changes the accounts alone, each once. -/
theorem each_modAcct (f : Nat → Panel → Acct → Acct) {l : List Nat} (hnodup : l.Nodup) (p : Panel)
    (hf : ∀ n t, f n (withAccts t p) = f n p) :
    ∃ t, each l (fun n q => q.modAcct n (f n q)) p = withAccts t p
      ∧ ∀ n, Tab.get default t n = if n ∈ l then f n p (p.getAcct n) else p.getAcct n := by
  induction l generalizing p with
  | nil => exact ⟨p.pwr.acct, rfl, fun n => (if_neg List.not_mem_nil).symm⟩
  | cons k l ih =>
    obtain ⟨hk, hl⟩ := List.nodup_cons.mp hnodup
    obtain ⟨t, hloop, hget⟩ := ih hl (p.modAcct k (f k p)) fun n t => (hf n t).trans (hf n _).symm
    refine ⟨t, hloop, fun n => (hget n).trans ?_⟩
    have hrule : f n (p.modAcct k (f k p)) = f n p := hf n _
    rw [hrule]
    by_cases hn : n = k
    · subst hn
      rw [if_neg hk, if_pos List.mem_cons_self]
      exact Tab.get_set_same ..
    · rw [show (p.modAcct k (f k p)).getAcct n = p.getAcct n from Tab.get_set_ne _ _ hn _]
      simp [hn]

/-- A loop over blocks changes the blocks alone. -/
theorem each_modBlk {α : Type} (b : α → Nat) (f : α → Blk → Blk) (l : List α) (p : Panel) :
    ∃ t, each l (fun e p => p.modBlk (b e) (f e)) p = withBlks t p := by
  refine each_keeps (P := fun q => ∃ t, q = withBlks t p) l (fun e q hq => ?_) ⟨p.pwr.blk, rfl⟩
  obtain ⟨t, rfl⟩ := hq
  exact ⟨_, rfl⟩

theorem accounts_nodup (p : Panel) : (accounts p).Nodup := List.Nodup.filter _ List.nodup_range

/-- Charging a window moves the energies, the blocks, and what each account measured. -/
theorem chargeWindow_eq (acts : List (Nat × Nat)) (p : Panel) : ∃ uj common watts acct blk,
    chargeWindow acts p = withBlks blk (withAccts acct (p.modPwr fun w => { w with
      dieUJ := uj, common := common, panelW := watts, total := w.total + ((acts.filter fun e => isDie e.1).map fun e => countUJ p e.1 e.2).sum }))
    ∧ ∀ n, ∃ m, Tab.get default acct n = { p.getAcct n with measured := m } := by
  unfold chargeWindow
  extract_lets ujs total common p1 p2 p3
  obtain ⟨b1, h1⟩ := each_modBlk (fun e : Nat × Nat => blockOf e.1) (fun e x => { x with c10 := x.c10 + e.2 }) (acts.filter fun e => isDie e.1) p1
  obtain ⟨t, h2, hget⟩ := each_modAcct (fun n q a => { a with measured := ((ujs.filter fun e => decide (q.partOf e.1 = some n)).map (·.2)).sum })
    (accounts_nodup p2) p2 fun _ _ => rfl
  obtain ⟨b2, h3⟩ := each_modBlk id (fun b x => { x with power := ((ujs.filter fun e => decide (blockOf e.1 = b)).map (·.2)).sum / 1000 }) (liveBlocks p3) p3
  have htotal : total = ((acts.filter fun e => isDie e.1).map fun e => countUJ p e.1 e.2).sum := by
    simp only [total, ujs, List.map_map]
    rfl
  have hp2 : p2 = withBlks b1 p1 := h1
  refine ⟨p1.pwr.dieUJ, common, total / 1000, t, b2, ?_, fun n => ?_⟩
  · rw [← htotal]
    refine h3.trans ?_
    rw [show p3 = _ from h2, hp2]
    rfl
  · have hp : p2.getAcct n = p.getAcct n := by
      rw [hp2]
      rfl
    rw [hget, hp]
    split
    · exact ⟨_, rfl⟩
    · exact ⟨(p.getAcct n).measured, rfl⟩
/-! What the window's later steps keep: the partitions, and the power state but for the blocks, the governor's counts and
the chosen step (R392, R407, R409). -/

/-- The partitions, their accounts, and what the window start takes for them. -/
structure Ledger where
  part : Tab Part
  acct : Tab Acct
  share : Tab Nat
  depthN : Nat
  cap : Nat
  thermalCap : Nat
  effCap : Nat
  guard : Nat
  common : Nat
  total : Nat

def ledger (p : Panel) : Ledger :=
  ⟨p.part, p.pwr.acct, p.pwr.share, p.pwr.depthN, p.pwr.cap, p.pwr.thermalCap, p.pwr.effCap, p.pwr.guard, p.pwr.common, p.pwr.total⟩

theorem raise_ledger (ev m k : Nat) (x : Dat) (p : Panel) : ledger (raise ev m k x p) = ledger p := by
  rw [ledger, ledger, raise_pwr, raise_part]

theorem panelPlan_ledger (f : Nat) (p : Panel) : ledger (panelPlan f p) = ledger p := by
  obtain ⟨c, h⟩ := issuePlan_onlyCtl (planDies p) f p
  rw [panelPlan, h]
  rfl

theorem ite_ledger {c : Prop} [Decidable c] {p q r : Panel} (hq : ledger q = ledger p) (hr : ledger r = ledger p) :
    ledger (if c then q else r) = ledger p := by
  split
  · exact hq
  · exact hr

theorem lowerCeiling_ledger (p : Panel) : ledger (lowerCeiling p) = ledger p := ite_ledger (panelPlan_ledger ..) rfl

theorem ceilingWindow_ledger (p : Panel) : ledger (ceilingWindow p) = ledger p := by
  unfold ceilingWindow
  extract_lets held n up q
  refine each_keeps (P := fun q => ledger q = ledger p) _ (fun b r h => ?_) (show ledger q = ledger p from rfl)
  exact ite_ledger ((lowerCeiling_ledger _).trans h) h

theorem govern_ledger (p : Panel) : ledger (govern p) = ledger p := by
  unfold govern
  extract_lets q f row want r r' want' r''
  have hq : ledger q = ledger p := rfl
  clear_value q
  have hr' : ledger r' = ledger p := ite_ledger (ite_ledger ((raise_ledger ..).trans hq) hq) (ite_ledger hq hq)
  exact ite_ledger ((panelPlan_ledger ..).trans ((raise_ledger ..).trans hr')) (ite_ledger ((panelPlan_ledger ..).trans hr') hr')

theorem putSetpoint_ledger (p : Panel) : ledger (putSetpoint p) = ledger p := ite_ledger rfl rfl

/-- After its ledger, a window start keeps the accounts and the settings. -/
theorem windowEnd_ledger (p : Panel) :
    let q := ceilingWindow p
    ledger (putSetpoint (if q.boot.ready then govern q else q)) = ledger p :=
  (putSetpoint_ledger _).trans (ite_ledger ((govern_ledger _).trans (ceilingWindow_ledger p)) (ceilingWindow_ledger p))

/-- The settings in force after a window start; the accounts, their partitions and the charge stay. -/
theorem newSettings_settings (p : Panel) :
    let r := newSettings p
    r.pwr.cap = cfg p 0x3002 0 1 ∧ r.pwr.effCap = min (cfg p 0x3002 0 1) r.pwr.thermalCap ∧ r.pwr.guard = cfg p 0x3013 0 1
    ∧ r.pwr.total = p.pwr.total ∧ r.pwr.skip = p.pwr.skip ∧ r.pwr.acct = p.pwr.acct ∧ r.part = p.part := by
  unfold newSettings
  extract_lets cap thermal governs was q r
  have hpwr : r.pwr = q.pwr := ite_pwr (raise_pwr ..) rfl
  have hpart : r.part = q.part := (Reported.ite (raise_reported ..) (.refl q)).part
  rw [hpwr, hpart]
  exact ⟨rfl, rfl, rfl, rfl, rfl, rfl, rfl⟩

/-! The three steps of the ledger (R390). -/

/-- The panels that agree in their ledger agree in each account and in what bounds it. -/
theorem getAcct_of_ledger (h : ledger q = ledger p) (n : Nat) : q.getAcct n = p.getAcct n := congrArg (fun l : Ledger => Tab.get default l.acct n) h
theorem accounts_of_part (h : q.part = p.part) : accounts q = accounts p :=
  congrArg (fun l => (List.range 16).filter fun n => !(Tab.get part0 l n).members.isEmpty) h
theorem accounts_of_ledger (h : ledger q = ledger p) : accounts q = accounts p := accounts_of_part (congrArg Ledger.part h)


/-- The balance after the correction (R390). -/
def corrected (a : Acct) : Int := a.balance + a.debits - a.measured

theorem correctAll_eq (p : Panel) : ∃ t, correctAll p = withAccts t p
    ∧ ∀ n ∈ accounts p, Tab.get default t n = { p.getAcct n with balance := corrected (p.getAcct n) } := by
  obtain ⟨t, h, hget⟩ := each_modAcct (fun _ _ a => { a with balance := corrected a }) (accounts_nodup p) p fun _ _ => rfl
  exact ⟨t, h, fun n hn => (hget n).trans (if_pos hn)⟩

/-- A partition's part of the refill (R390). -/
def refillPart (p : Panel) (n : Nat) : Nat := (refill p - p.pwr.common) * shareOf p n / max 1 (shareSum p)

theorem refillAll_eq (p : Panel) : ∃ t, refillAll p = withAccts t p
    ∧ ∀ n ∈ accounts p, Tab.get default t n = { p.getAcct n with balance := (p.getAcct n).balance + refillPart p n } := by
  obtain ⟨t, h, hget⟩ := each_modAcct (fun n q a => { a with
    balance := a.balance + ((refill p - p.pwr.common) * shareOf q n / max 1 (shareSum p) : Nat) }) (accounts_nodup p) p fun _ _ => rfl
  exact ⟨t, h, fun n hn => (hget n).trans (if_pos hn)⟩

/-- The clamp moves balances alone; a single account is clamped to its depth. -/
theorem clampAll_eq (p : Panel) : ∃ t, clampAll p = withAccts t p ∧ ∀ n ∈ accounts p, ∃ b, Tab.get default t n = { p.getAcct n with balance := b }
    ∧ (accounts p = [n] → b = min (p.getAcct n).balance (depthOf p n)) := by
  unfold clampAll
  extract_lets above pool below sum q
  obtain ⟨t, h, hget⟩ := each_modAcct (fun n _ a => { a with balance := min a.balance (depthOf p n) }) (accounts_nodup p) p fun _ _ => rfl
  obtain ⟨u, g, hadd⟩ := each_modAcct (fun n _ a => { a with balance := min (a.balance + (pool * shareOf p n / sum : Nat)) (depthOf p n) })
    ((accounts_nodup p).filter _ : below.Nodup) q fun _ _ => rfl
  have hq : q = withAccts t p := h
  refine ⟨u, g.trans (by rw [hq]; rfl), fun n hn => ?_⟩
  have hclamped : q.getAcct n = { p.getAcct n with balance := min (p.getAcct n).balance (depthOf p n) } := by
    rw [hq]
    exact (hget n).trans (if_pos hn)
  rw [hadd, hclamped]
  by_cases hbelow : n ∈ below
  · rw [if_pos hbelow]
    refine ⟨_, rfl, fun hone => ?_⟩
    have hlow : (p.getAcct n).balance < depthOf p n := of_decide_eq_true (List.mem_filter.mp hbelow).2
    have hpool : pool = 0 := by
      simp only [pool, hone, List.map_cons, List.map_nil, List.sum_singleton, above]
      omega
    rw [hpool]
    simp
  · rw [if_neg hbelow]
    exact ⟨_, rfl, fun _ => rfl⟩

/-- The ledger closes each account's debits, and settles a single account's balance. -/
theorem ledgerWindow_eq (p : Panel) : ∃ skip t, ledgerWindow p = withAccts t (withSkip skip p) ∧ ∀ n ∈ accounts p, ∃ b,
    Tab.get default t n = { p.getAcct n with balance := b, lastDebits := (p.getAcct n).debits, debits := 0 }
    ∧ (accounts p = [n] → p.pwr.skip = false → b = min (corrected (p.getAcct n) + refillPart p n) (depthOf p n)) := by
  unfold ledgerWindow
  extract_lets q
  have hq : ∃ skip t, q = withAccts t (withSkip skip p) ∧ ∀ n ∈ accounts p, ∃ b,
      Tab.get default t n = { p.getAcct n with balance := b } ∧ (p.pwr.skip = false → b = corrected (p.getAcct n) + refillPart p n) := by
    unfold q
    split
    case isTrue hskip => exact ⟨false, p.pwr.acct, rfl, fun n _ => ⟨(p.getAcct n).balance, rfl, fun h => absurd h (by simp [hskip])⟩⟩
    case isFalse =>
      obtain ⟨t, h, hget⟩ := correctAll_eq p
      obtain ⟨u, g, hadd⟩ := refillAll_eq (correctAll p)
      rw [h] at g hadd ⊢
      refine ⟨p.pwr.skip, u, g, fun n hn => ⟨corrected (p.getAcct n) + refillPart p n, (hadd n hn).trans ?_, fun _ => rfl⟩⟩
      rw [show (withAccts t p).getAcct n = _ from hget n hn]
      rfl
  obtain ⟨skip, t, h, hget⟩ := hq
  obtain ⟨u, g, hclamp⟩ := clampAll_eq q
  obtain ⟨v, k, hclose⟩ := each_modAcct (fun _ _ a => { a with lastDebits := a.debits, debits := 0 }) (accounts_nodup q) (clampAll q) fun _ _ => rfl
  rw [h] at g hclamp hclose k ⊢
  refine ⟨skip, v, k.trans (by rw [g]; rfl), fun n hn => ?_⟩
  obtain ⟨b, hb, hsettled⟩ := hget n hn
  obtain ⟨c, hc, hone⟩ := hclamp n hn
  rw [hclose, if_pos (show n ∈ accounts (withAccts t (withSkip skip p)) from hn), g, show (withAccts u _).getAcct n = _ from hc, show (withAccts t _).getAcct n = _ from hb]
  refine ⟨c, rfl, fun hsingle hskip => ?_⟩
  rw [hone hsingle, show (withAccts t _).getAcct n = _ from hb, hsettled hskip]
  rfl


theorem depthOf_of_ledger (h : ledger q = ledger p) (n : Nat) : depthOf q n = depthOf p n := by
  have hcap : q.pwr.effCap = p.pwr.effCap := congrArg Ledger.effCap h
  have hdepth : q.pwr.depthN = p.pwr.depthN := congrArg Ledger.depthN h
  have hshare : shareOf q = shareOf p := congrArg (fun l : Ledger => Tab.get 1 l.share) h
  simp only [depthOf, refill, shareSum, hcap, hdepth, hshare, accounts_of_ledger h]

theorem refillPart_of_ledger (h : ledger q = ledger p) (n : Nat) : refillPart q n = refillPart p n := by
  have hcap : q.pwr.effCap = p.pwr.effCap := congrArg Ledger.effCap h
  have hcommon : q.pwr.common = p.pwr.common := congrArg Ledger.common h
  have hshare : shareOf q = shareOf p := congrArg (fun l : Ledger => Tab.get 1 l.share) h
  simp only [refillPart, refill, shareSum, hcap, hcommon, hshare, accounts_of_ledger h]

/-- The panel that a window start leaves (R389-R393). -/
def windowStarted (acts : List (Nat × Nat)) (p : Panel) : Panel :=
  let q := ceilingWindow (ledgerWindow (newSettings (chargeWindow acts p)))
  putSetpoint (if q.boot.ready then govern q else q)

theorem exec_ledgerWindowStart (acts : List (Nat × Nat)) (s : State) : exec (.ledgerWindowStart acts) s = .next (s.onP (windowStarted acts)) :=
  State.runP_eq rfl

/-- A window start in three parts: the charge, the settings, and the accounts that the ledger leaves to the window's end. -/
theorem windowStarted_ledger (acts : List (Nat × Nat)) (p : Panel) : ∃ skip t,
    let r := newSettings (chargeWindow acts p)
    ledger (windowStarted acts p) = ledger (withAccts t (withSkip skip r)) ∧ ∀ n ∈ accounts r, ∃ b,
    Tab.get default t n = { r.getAcct n with balance := b, lastDebits := (r.getAcct n).debits, debits := 0 }
    ∧ (accounts r = [n] → r.pwr.skip = false → b = min (corrected (r.getAcct n) + refillPart r n) (depthOf r n)) := by
  obtain ⟨skip, t, h, hget⟩ := ledgerWindow_eq (newSettings (chargeWindow acts p))
  exact ⟨skip, t, (windowEnd_ledger _).trans (congrArg ledger h), hget⟩


/-! Admissions (R390). -/

theorem getAcct_of_pwr (h : q.pwr = p.pwr) (n : Nat) : q.getAcct n = p.getAcct n := congrArg (fun w : Power => Tab.get default w.acct n) h

/-- Region `r`'s step is admitted and debited, before an oversize one is raised. -/
def admitted (r : Nat) (p : Panel) : Panel :=
  let n := (p.getReg r).part
  let e := waitEnergy p r
  (p.modAcct n fun a => { a with
    balance := a.balance - e, debits := a.debits + e, admitted := a.admitted + 1,
    oversize := a.oversize + (if decide (depthOf p n < e) then 1 else 0), waitTicks := a.waitTicks + (p.now - (p.getReg r).admitTick),
    queue := a.queue.filter fun x => decide (x ≠ r) }).modReg r fun g => { g with stage := .admitted }

theorem admitted_getReg (r : Nat) (p : Panel) : (admitted r p).getReg r = { p.getReg r with stage := .admitted } := Panel.modReg_same ..

theorem admitted_getAcct (r : Nat) (p : Panel) :
    let n := (p.getReg r).part
    let a := (admitted r p).getAcct n
    a.balance = (p.getAcct n).balance - waitEnergy p r ∧ a.debits = (p.getAcct n).debits + waitEnergy p r
    ∧ a.admitted = (p.getAcct n).admitted + 1 := by
  intro n a
  have ha : a = _ := Tab.get_set_same ..
  rw [ha]
  exact ⟨rfl, rfl, rfl⟩

section
variable {r : Nat}

theorem exec_stepAdmission (hr : isRegion r = true) (hfirst : (waiting4 s.p (s.p.getReg r).part).head? = some r)
    (hcovers : covers s.p (s.p.getReg r).part (waitEnergy s.p r) = true) : exec (.stepAdmission r) s = .next (s.onP fun p =>
      if decide (depthOf p (p.getReg r).part < waitEnergy p r) then raise 0x0109 0xFF (keyRegion r) none (admitted r p) else admitted r p) := by
  change execStepAdmission r s = _
  rw [execStepAdmission, hr]
  exact State.runP_eq (if_pos ⟨hfirst, hcovers⟩)

theorem exec_stepAdmission_waits (hr : isRegion r = true)
    (h : (waiting4 s.p (s.p.getReg r).part).head? ≠ some r ∨ covers s.p (s.p.getReg r).part (waitEnergy s.p r) = false) :
    exec (.stepAdmission r) s = .next s := by
  change execStepAdmission r s = _
  rw [execStepAdmission, hr]
  refine State.runP_same (if_neg fun hgoes => ?_)
  rcases h with h | h
  · exact h hgoes.1
  · exact Bool.false_ne_true (h.symm.trans hgoes.2)

end

/-! Record writes that nothing waits for (R394, R395). -/

/-- The slot that the write leaves, and the one it keeps. -/
def nvWritten (w : NvWrite) (ok : Bool) (x : NvSlot × NvSlot) : NvSlot × NvSlot :=
  let y : NvSlot := ⟨if ok then nvHeader w.id w.seq w.body else [], w.body⟩
  if newer w.id x.1 x.2 then (x.1, y) else (y, x.2)

theorem nvFill_pwr (w : NvWrite) (ok : Bool) (p : Panel) :
    (nvFill w ok p).pwr = { p.pwr with nv := Tab.set w.id (nvWritten w ok (nvSlots p w.id)) p.pwr.nv } := rfl

/-- Storing a record with no value waiting moves no power state. -/
theorem putStored_pwr (id : Nat) (p : Panel) : (putStored id [] p).pwr = p.pwr := ite_pwr (raise_pwr ..) rfl

theorem nvStored_job0 {w : NvWrite} (hjob : w.job = job0) (s : State) : (nvStored w s).p.pwr = s.p.pwr ∧ (nvStored w s).mem = s.mem := by
  rw [nvStored, hjob]
  exact ⟨ite_pwr (putStored_pwr ..) (ite_pwr rfl rfl), rfl⟩

theorem nvRefused_job0 {w : NvWrite} (hjob : w.job = job0) (abort : Nat) (p : Panel) : (nvRefused w abort p).pwr = p.pwr := by
  rw [nvRefused, nvAnswer, hjob]
  exact ite_pwr rfl (ite_pwr rfl (ite_pwr (raise_pwr ..) rfl))

theorem nvNext_none (n : Nat) {p : Panel} (h : p.pwr.writes = []) : nvNext n p = p := by
  cases n with
  | zero => rfl
  | succ n => rw [nvNext, h]

theorem exec_nvRecordWrite_none (h : s.p.pwr.writes = []) (e : NvEnd) :
    exec (.nvRecordWrite e) s = .next (s.onP fun p => p.modPwr fun w => { w with bank := e.bank }) := by
  change execNvRecordWrite e s = _
  rw [execNvRecordWrite, State.run_true]
  dsimp only
  rw [show (s.onP fun p => p.modPwr fun w => { w with bank := e.bank }).p.pwr.writes = [] from h]

/-- The hold-up bank's reading is taken, and the write under way is taken off. -/
def takenWrite (bank : Nat) (p : Panel) : Panel := (p.modPwr fun y => { y with bank := bank }).modPwr fun y => { y with writes := [] }

/-- The record's slot is filled, and what the end of the write brings is done. -/
def endedWrite (w : NvWrite) (e : NvEnd) (s : State) : State :=
  let filled := s.onP fun p => nvFill w e.ok (takenWrite e.bank p)
  if e.ok then nvStored w filled else filled.onP (nvRefused w (abortOf 0x0A 2 0))

theorem endedWrite_frame {w : NvWrite} (hjob : w.job = job0) (e : NvEnd) (s : State) : (endedWrite w e s).mem = s.mem
    ∧ (endedWrite w e s).p.pwr = { s.p.pwr with bank := e.bank, writes := [], nv := Tab.set w.id (nvWritten w e.ok (nvSlots s.p w.id)) s.p.pwr.nv } := by
  have hfill : (nvFill w e.ok (takenWrite e.bank s.p)).pwr = _ := nvFill_pwr ..
  unfold endedWrite
  extract_lets filled
  split
  · obtain ⟨hpwr, hmem⟩ := nvStored_job0 hjob filled
    exact ⟨hmem, hpwr.trans hfill⟩
  · exact ⟨State.onP_mem .., (nvRefused_job0 hjob ..).trans hfill⟩

theorem exec_nvRecordWrite {w : NvWrite} (hwrites : s.p.pwr.writes = [w]) (hbegun : w.begun = true) (e : NvEnd) :
    exec (.nvRecordWrite e) s = .next ((endedWrite w e s).onP fun p => nvNext (p.pwr.writes.length + 1) p) := by
  change execNvRecordWrite e s = _
  rw [execNvRecordWrite, State.run_true]
  dsimp only
  rw [show (s.onP fun p => p.modPwr fun w => { w with bank := e.bank }).p.pwr.writes = [w] from hwrites]
  exact congrArg Host.Outcome.next (if_neg (not_not_intro hbegun))

/-- After the one write nothing is left to write. -/
theorem exec_nvRecordWrite_one {w : NvWrite} (hwrites : s.p.pwr.writes = [w]) (hbegun : w.begun = true) (hjob : w.job = job0) (e : NvEnd) :
    exec (.nvRecordWrite e) s = .next (endedWrite w e s) := by
  rw [exec_nvRecordWrite hwrites hbegun, State.onP, nvNext_none _ (congrArg Power.writes (endedWrite_frame hjob e s).2)]

end Sys2Proof.Machine
end

section
open Sys2Proof Sys2Proof.Machine

/-- Settles O48: each command's effect, by the steps of the window, the admission, and the end of a write. -/
theorem windowsAdmissionsAndRecordsKeepTheirAccounts : Obligations.WindowsAdmissionsAndRecordsKeepTheirAccounts := by
  unfold Obligations.WindowsAdmissionsAndRecordsKeepTheirAccounts
  intro r bank ok acts s hlt
  have hr : isRegion r = true := decide_eq_true hlt
  refine ⟨?window, ⟨?admits, exec_stepAdmission_waits hr⟩, ?stores, fun h => exec_nvRecordWrite_none h ⟨ok, bank⟩⟩
  case window =>
    obtain ⟨uj, common, watts, acct, blk, hcharge, hmeasured⟩ := chargeWindow_eq acts s.p
    obtain ⟨hcap, heff, hguard, htotal, hskip, hacct, hpart⟩ := newSettings_settings (chargeWindow acts s.p)
    obtain ⟨skip, t, hend, hclose⟩ := windowStarted_ledger acts s.p
    generalize newSettings (chargeWindow acts s.p) = r at hcap heff hguard htotal hskip hacct hpart hend hclose
    have hget (n : Nat) : ∃ m, r.getAcct n = { s.p.getAcct n with measured := m } := by
      obtain ⟨m, hm⟩ := hmeasured n
      rw [hcharge] at hacct
      exact ⟨m, (congrArg (Tab.get default · n) hacct).trans hm⟩
    rw [hcharge] at hcap heff hguard htotal hskip hpart
    have haccounts : accounts r = accounts s.p := accounts_of_part hpart
    refine ⟨_, exec_ledgerWindowStart acts s, State.onP_mem .., ?_⟩
    rw [State.onP_p]
    generalize windowStarted acts s.p = q at hend
    refine ⟨(congrArg Ledger.cap hend).trans hcap, ?_, (congrArg Ledger.guard hend).trans hguard, (congrArg Ledger.total hend).trans htotal,
      fun n hn => ?_, fun n hone hgoes => ?_⟩
    · refine (congrArg Ledger.effCap hend).trans (heff.trans (congrArg (min _) ?_))
      exact (congrArg Ledger.thermalCap hend).symm
    · obtain ⟨b, hb, -⟩ := hclose n (haccounts ▸ hn)
      obtain ⟨m, hm⟩ := hget n
      rw [getAcct_of_ledger hend, show (withAccts t _).getAcct n = _ from hb, hm]
      exact ⟨rfl, rfl⟩
    · obtain ⟨b, hb, hbal⟩ := hclose n (haccounts.trans hone ▸ List.mem_singleton_self n)
      obtain ⟨m, hm⟩ := hget n
      have hrefill := refillPart_of_ledger hend n
      rw [refillPart] at hrefill
      rw [hrefill, depthOf_of_ledger hend, getAcct_of_ledger hend, show (withAccts t _).getAcct n = _ from hb]
      refine (hbal (haccounts.trans hone) (hskip.trans hgoes)).trans ?_
      rw [corrected, hm]
      rfl
  case admits =>
    intro hfirst hcovers
    refine ⟨_, exec_stepAdmission hr hfirst hcovers, State.onP_mem .., ?_⟩
    have hraised : Reported (admitted r s.p)
        (if decide (depthOf s.p (s.p.getReg r).part < waitEnergy s.p r) then raise 0x0109 0xFF (keyRegion r) none (admitted r s.p) else admitted r s.p) :=
      .ite (raise_reported ..) (.refl _)
    rw [State.onP_p, Panel.getReg_of_reg hraised.reg, admitted_getReg, getAcct_of_pwr hraised.pwr]
    exact ⟨rfl, admitted_getAcct r s.p⟩
  case stores =>
    intro w hwrites hbegun hjob
    obtain ⟨hmem, hpwr⟩ := endedWrite_frame hjob ⟨ok, bank⟩ s
    refine ⟨_, exec_nvRecordWrite_one hwrites hbegun hjob ⟨ok, bank⟩, hmem, congrArg Power.writes hpwr, congrArg Power.bank hpwr, ?_⟩
    exact (congrArg (Tab.get default ·.nv w.id) hpwr).trans (Tab.get_set_same ..)

end

section
/-! PROOFS. A fault manager's commands, evidence and probes (R358, R359, R496-R505). -/

namespace Sys2Proof.Machine

variable {p q r : Panel} {s : State} {n u key j : Nat}

/-! What fencing leaves of the fault records, and of the units it does not name. -/

/-- A manager's counts, the evidence that waits, the conflicts, and the probes. -/
structure FaultBook where
  mgr : MgrCtr
  pendingEvid : List (Nat × Nat)
  conflicts : Nat
  probes : List Probe
  probesFailed : Nat

def faultBook (p : Panel) : FaultBook := ⟨p.od.mgr, p.book.pendingEvid, p.book.conflicts, p.book.probes, p.book.probesFailed⟩

theorem UnitsMoved.faultBook (h : UnitsMoved p q) : faultBook q = faultBook p := by
  simp only [Machine.faultBook, h.od_mgr, h.pendingEvid, h.conflicts, h.probes, h.probesFailed]

theorem Reported.faultBook (h : Reported p q) : faultBook q = faultBook p := h.unitsMoved.faultBook

/-- `q` has the units and the fault records of `p`. -/
structure SameFaults (p q : Panel) : Prop where
  unit : q.book.unit = p.book.unit
  faults : faultBook q = faultBook p

theorem SameFaults.refl (p : Panel) : SameFaults p p := ⟨rfl, rfl⟩

theorem SameFaults.trans (hq : SameFaults p q) (hr : SameFaults q r) : SameFaults p r := ⟨hr.unit.trans hq.unit, hr.faults.trans hq.faults⟩

theorem SameFaults.ite {c : Prop} [Decidable c] (hq : SameFaults p q) (hr : SameFaults p r) : SameFaults p (if c then q else r) := by
  split
  · exact hq
  · exact hr

theorem SameFaults.each {α : Type} (l : List α) {f : α → Panel → Panel} (h : ∀ a p, SameFaults p (f a p)) (p : Panel) : SameFaults p (each l f p) :=
  each_keeps (P := SameFaults p) l (fun a _ hq => hq.trans (h a _)) (.refl p)

theorem Reported.sameFaults (h : Reported p q) : SameFaults p q := ⟨h.book_unit, h.faultBook⟩

theorem SameFaults.ust (h : SameFaults p q) (key : Nat) : q.ust key = p.ust key := ust_of_unit h.unit key

theorem sameFaults_of_book (hbook : q.book = p.book) (hmgr : q.od.mgr = p.od.mgr) : SameFaults p q :=
  ⟨congrArg Book.unit hbook, by rw [faultBook, faultBook, hbook, hmgr]⟩

theorem OnlyCtl.sameFaults (h : OnlyCtl p q) : SameFaults p q := sameFaults_of_book h.book (congrArg Od.mgr h.od)

theorem setPhase_book_od (n k : Nat) (p : Panel) : (setPhase n k p).book = p.book ∧ (setPhase n k p).od = p.od := by
  unfold setPhase
  extract_lets v
  have hv : v.2.book = p.book ∧ v.2.od = p.od := by
    unfold v
    split <;> exact ⟨rfl, rfl⟩
  exact hv

theorem setPhase_sameFaults (n k : Nat) (p : Panel) : SameFaults p (setPhase n k p) :=
  sameFaults_of_book (setPhase_book_od ..).1 (congrArg Od.mgr (setPhase_book_od ..).2)

theorem portRaise_sameFaults (n ev : Nat) (x : Dat) (p : Panel) : SameFaults p (portRaise n ev x p) := (dieRaise_reported ..).sameFaults

theorem portDown_sameFaults (n k : Nat) (p : Panel) : SameFaults p (portDown n k p) :=
  .ite ((setPhase_sameFaults ..).trans (portRaise_sameFaults ..)) (setPhase_sameFaults ..)

theorem cutPort_sameFaults (n : Nat) (p : Panel) : SameFaults p (cutPort n p) := by
  unfold cutPort
  extract_lets k q
  have hq : SameFaults p q := ⟨rfl, rfl⟩
  exact .ite (hq.trans (portRaise_sameFaults ..)) hq

theorem holdPort_sameFaults (n : Nat) (p : Panel) : SameFaults p (holdPort n p) := (portDown_sameFaults ..).trans (cutPort_sameFaults ..)

theorem triggerFreeze_sameFaults (k cause : Nat) (p : Panel) : SameFaults p (triggerFreeze k cause p) :=
  ⟨(triggerFreeze_oneEvent ..).unit, (triggerFreeze_unitsMoved ..).faultBook⟩

theorem freezeTransits_sameFaults (cause site : Nat) (p : Panel) : SameFaults p (freezeTransits cause site p) :=
  .each (f := fun (e : Nat × Region) q => triggerFreeze e.1 cause q) _ (fun e q => triggerFreeze_sameFaults e.1 cause q) p

/-- A change of control links alone, or none, where a node's port leads somewhere. -/
theorem cutLinks_sameFaults (site : Nat) (p : Panel) : SameFaults p (cutLinks site p) := by
  unfold cutLinks
  extract_lets off q
  have hdata : SameFaults p q := by
    unfold q
    exact .each _ (fun e r => ⟨by rfl, by rfl⟩) p
  refine hdata.trans (.each _ (fun port r => ?_) q)
  split
  · exact .refl r
  · split <;> exact ⟨rfl, rfl⟩

theorem joinLinks_sameFaults (site : Nat) (p : Panel) : SameFaults p (joinLinks site p) := by
  unfold joinLinks
  extract_lets q
  have hdata : SameFaults p q := by
    unfold q
    exact .each _ (fun e r => ⟨by rfl, by rfl⟩) p
  refine hdata.trans (.each _ (fun port r => ?_) q)
  split
  · exact .refl r
  · split <;> exact ⟨rfl, rfl⟩

/-! Fencing ports (R27, R503, R504). -/

theorem fencePort_faults (n : Nat) (p : Panel) : faultBook (fencePort n p) = faultBook p :=
  (holdPort_sameFaults ..).faults.trans (moveUnit_unitsMoved ..).faultBook

theorem fencePort_fenced (h : USt.rank (p.ust (keyPort n)) < 2) : (fencePort n p).ust (keyPort n) = .fenced :=
  ((holdPort_sameFaults ..).ust _).trans (moveUnit_ust h _)

/-- Fencing a port leaves every other unit as it was. -/
theorem fencePort_unit_ne (hn : n < 12) (hj : j ≠ keyPort n) (p : Panel) : (fencePort n p).unit j = p.unit j := by
  have hheld : (fencePort n p).unit j = (moveUnit (keyPort n) .fenced 0x0E05 p).unit j :=
    congrArg (Tab.get urec0 · j) (holdPort_sameFaults n (moveUnit (keyPort n) .fenced 0x0E05 p)).unit
  have hfrozen (q : Panel) : (each (sitesUnder (keyPort n)) (freezeOf 0x0E05) q).book.unit = q.book.unit :=
    each_keeps (P := fun r : Panel => r.book.unit = q.book.unit) _ (fun site r hr => (freezeOf_oneEvent _ site r).unit.trans hr) rfl
  refine hheld.trans ?_
  obtain h | h := moveUnit_fenced_cases (keyPort n) 0x0E05 p
  · rw [h]
    exact Tab.get_set_ne _ _ hj _
  · rw [h, contained_keyPort hn, Panel.unit, hfrozen, raise_book_unit]
    exact Tab.get_set_ne _ _ hj _

/-- A port that is FENCED stays so while ports are fenced. -/
theorem fencePort_keeps (hn : n < 12) (h : p.ust j = .fenced) : (fencePort n p).ust j = .fenced := by
  by_cases hj : j = keyPort n
  · subst hj
    refine ((holdPort_sameFaults ..).ust _).trans ?_
    rw [moveUnit, if_pos (by rw [h]), modUnit_ust_same]
    exact h
  · exact (congrArg URec.st (fencePort_unit_ne hn hj p)).trans h

section
variable {l : List Nat} (hl : ∀ n ∈ l, n < 12)
include hl

/-- Fencing a list of ports leaves every other unit. -/
theorem fencePorts_unit (hj : ∀ n ∈ l, j ≠ keyPort n) (p : Panel) : (each l fencePort p).unit j = p.unit j := by
  induction l generalizing p with
  | nil => rfl
  | cons n l ih =>
    have htail := ih (fun m hm => hl m (List.mem_cons_of_mem n hm)) (fun m hm => hj m (List.mem_cons_of_mem n hm)) (fencePort n p)
    exact htail.trans (fencePort_unit_ne (hl n List.mem_cons_self) (hj n List.mem_cons_self) p)

/-- Each port of the list that ranked below FENCED is FENCED. -/
theorem fencePorts_fenced (hn : n ∈ l) (h : USt.rank (p.ust (keyPort n)) < 2) : (each l fencePort p).ust (keyPort n) = .fenced := by
  induction l generalizing p with
  | nil => exact absurd hn List.not_mem_nil
  | cons m l ih =>
    have hm := hl m List.mem_cons_self
    have htail : ∀ k ∈ l, k < 12 := fun k hk => hl k (List.mem_cons_of_mem m hk)
    by_cases hnm : n = m
    · subst hnm
      have hrest (q : Panel) (hq : q.ust (keyPort n) = .fenced) : (each l fencePort q).ust (keyPort n) = .fenced := by
        clear ih hn hl
        induction l generalizing q with
        | nil => exact hq
        | cons k l ih => exact ih (fun i hi => htail i (List.mem_cons_of_mem k hi)) _ (fencePort_keeps (htail k List.mem_cons_self) hq)
      exact hrest _ (fencePort_fenced h)
    · refine ih htail ((List.mem_cons.mp hn).resolve_left hnm) ?_
      have hne : keyPort n ≠ keyPort m := fun he => hnm (Nat.add_left_cancel he)
      rw [Panel.ust, fencePort_unit_ne hm hne]
      exact h

end

/-- The ports of ring members that are cut off were in service: any other unit stays as it was. -/
theorem fenceCutPorts_unit (h : (p.ust key).service = false) : (fenceCutPorts p).unit key = p.unit key := by
  refine fencePorts_unit (fun n hn => List.mem_range.mp (List.mem_filter.mp hn).1) (fun n hn hkey => ?_) p
  subst hkey
  have hserv := (Bool.and_eq_true_iff.mp (List.mem_filter.mp hn).2).1
  exact Bool.false_ne_true (h.symm.trans hserv)

theorem fenceCutPorts_faults (p : Panel) : faultBook (fenceCutPorts p) = faultBook p :=
  each_keeps (P := fun q => faultBook q = faultBook p) _ (fun n q hq => (fencePort_faults n q).trans hq) rfl


/-! Commands under the stored epoch, and under a stale one (R358, R359). -/

theorem managerStale_of_stored {m : MgrCmd} (h : m.epoch = p.od.hme) : managerStale p m = false := by
  rw [managerStale, ← h]
  exact decide_eq_false (by omega)

/-- A command that fits, under the stored epoch, and that the state does not refuse, acts at once. -/
theorem runManager_acts {m : MgrCmd} (job : NvJob) (hfits : managerFits p.variant m = true) (h : m.epoch = p.od.hme)
    (hstate : managerState p m = false) (hthere : m.kind ≠ 0 → p.ust (if m.kind = 1 then m.unit else keyPort m.unit) ≠ .absent) :
    (runManager m job p).2.2 = actManager m p := by
  have hcheck : managerCheck m p = (0, p) := by
    rw [managerCheck, if_neg (not_not_intro hfits), if_neg (by simp [managerStale_of_stored h]), if_neg (by simp [hstate]),
      if_neg fun hgone => hthere hgone.1 hgone.2]
  rw [runManager, hcheck]
  dsimp only
  rw [if_neg (not_not_intro rfl), if_pos h]

theorem runManager_stale {m : MgrCmd} (job : NvJob) (hfits : managerFits p.variant m = true) (h : managerStale p m = true) :
    (runManager m job p).2.2 = staleManager m p := by
  have hcheck : managerCheck m p = (abortOf 0x09 2 0, staleManager m p) := by
    rw [managerCheck, if_neg (not_not_intro hfits), if_pos h]
  rw [runManager, hcheck]
  dsimp only
  rw [if_pos (by decide)]

theorem managerDirect_eq {m : MgrCmd} {f : Panel → Panel} (h : (runManager m job0 s.p).2.2 = f s.p) : managerDirect m s = .next (s.onP f) :=
  State.runP_eq h

/-- The command has been accepted. -/
def accepted (p : Panel) : Panel := p.modOd fun o => { o with mgr := { o.mgr with accepted := o.mgr.accepted + 1 } }

/-! FENCE (R503). -/

theorem isDie_fits {cmd : Nat} (hcmd : cmd = 1 ∨ cmd = 3) (hu : isCompute u = true) (v ep reason mgr : Nat) :
    managerFits v ⟨cmd, 1, u, ep, reason, mgr⟩ = true := by
  rw [managerFits, isDie_of_isCompute hu]
  rcases hcmd with rfl | rfl <;> rfl

theorem compute_no_corner (hu : isCompute u = true) : isHub u = false ∧ isGuest u = false := by
  have hne {k : Nat} (hk : isCompute k = false) : u ≠ k := by
    rintro rfl
    exact Bool.false_ne_true (hk.symm.trans hu)
  exact ⟨by simp [isHub, hne (k := 0) (by decide), hne (k := 0xDD) (by decide)], by simp [isGuest, hne (k := 0x0D) (by decide), hne (k := 0xD0) (by decide)]⟩

theorem compute_ne_activeHub (hu : isCompute u = true) (p : Panel) : u ≠ p.activeHub := by
  rintro rfl
  unfold Panel.activeHub at hu
  split at hu <;> exact absurd hu (by decide)

theorem fenceSite_faults (site ep reason : Nat) (p : Panel) : faultBook (fenceSite site ep reason p) = faultBook p := by
  unfold fenceSite
  extract_lets p1 p2 p3 p4
  have h1 : SameFaults p p1 := by
    unfold p1
    exact .each _ (fun t q => (toSite_onlyCtl ..).sameFaults) p
  have h2 : SameFaults p1 p2 := freezeTransits_sameFaults ..
  have h3 : SameFaults p2 p3 := .trans ⟨by rfl, by rfl⟩ (cutLinks_sameFaults ..)
  have h4 : faultBook p4 = faultBook p3 := (moveUnit_unitsMoved ..).faultBook.trans rfl
  have h5 : faultBook (if isEdge site then holdPort (portOfDie site) p4 else p4) = faultBook p4 := by
    split
    · exact (holdPort_sameFaults ..).faults
    · rfl
  exact h5.trans (h4.trans ((h1.trans h2).trans h3).faults)

theorem fenceSite_fenced {site : Nat} (ep reason : Nat) (h : USt.rank (p.ust site) < 2) : (fenceSite site ep reason p).ust site = .fenced := by
  unfold fenceSite
  extract_lets p1 p2 p3 p4
  have h1 : SameFaults p p1 := by
    unfold p1
    exact .each _ (fun t q => (toSite_onlyCtl ..).sameFaults) p
  have h2 : SameFaults p1 p2 := freezeTransits_sameFaults ..
  have h3 : SameFaults p2 p3 := .trans ⟨by rfl, by rfl⟩ (cutLinks_sameFaults ..)
  have h4 : p4.ust site = .fenced := by
    refine moveUnit_ust ?_ _
    have hust : (p3.modCtl fun c => { c with linkReport := some p3.now }).ust site = p.ust site := ((h1.trans h2).trans h3).ust site
    rw [hust]
    exact h
  exact ((SameFaults.ite (holdPort_sameFaults ..) (.refl p4)).ust site).trans h4

theorem actFence_compute (hu : isCompute u = true) (ep reason : Nat) (p : Panel) : actFence 1 u ep reason p = fenceSite u ep reason p := by
  obtain ⟨hhub, hguest⟩ := compute_no_corner hu
  rw [actFence, if_neg (by decide), if_neg (by simp [hhub]), if_neg (by simp [hguest])]

theorem exec_managerFence {ep reason mgr : Nat} (hu : isCompute u = true) (hep : ep % 65536 = s.p.od.hme) (hrank : USt.rank (s.p.ust u) < 2) :
    exec (.managerFence 1 u ep reason mgr) s
      = .next (s.onP fun p => fenceCutPorts (fenceSite u (ep % 65536) reason (accepted p))) := by
  refine managerDirect_eq ((runManager_acts job0 (isDie_fits (.inl rfl) hu ..) hep ?_ fun _ hgone => ?_).trans ?_)
  · simp [managerState, compute_ne_activeHub hu s.p]
  · have hu' : s.p.ust u = .absent := hgone
    rw [hu'] at hrank
    exact absurd hrank (by decide)
  · exact congrArg fenceCutPorts (actFence_compute hu ..)

/-! EXPEL (R504). -/

/-- The ports that EXPEL fences. -/
def expelled (p : Panel) : List Nat :=
  (List.range 12).filter fun n => !portFused p.variant n && decide ((p.ust (keyPort n)).rank < USt.rank .fenced)

theorem exec_expel {ep reason mgr : Nat} (hep : ep % 65536 = s.p.od.hme) : exec (.expel ep reason mgr) s = .next (s.onP fun p => actExpel (accepted p)) := by
  refine managerDirect_eq (runManager_acts job0 rfl hep rfl fun h => absurd rfl h)

/-- The panel once EXPEL has fenced its ports. -/
theorem actExpel_reported (p : Panel) : ∃ l, Reported (((each (expelled p) fencePort p).modBook fun b => { b with
    expelled := true, expelPorts := l }).modFab fun f => { f with mer := { f.mer with openLatch := false } }) (actExpel p) :=
  ⟨_, raise_reported ..⟩

/-! REINSTATE (R505). -/

theorem putStates_ust (l : List Nat) (hl : u ∉ l) (st : USt) (cause : Nat) (own : Bool) (p : Panel) :
    (each l (putState · st cause own) p).ust u = p.ust u := by
  induction l generalizing p with
  | nil => rfl
  | cons j l ih =>
    have hj := List.ne_of_not_mem_cons hl
    exact (ih (List.not_mem_of_not_mem_cons hl) (putState j st cause own p)).trans (modUnit_ust_ne hj ..)

theorem reinstateUnit_compute (hu : isCompute u = true) (h : p.ust u = .fenced) :
    (reinstateUnit u p).ust u = .suspect ∧ u ∈ (reinstateUnit u p).book.asked := by
  have hlt : u < 0x1000 := by
    simp only [isCompute, Bool.and_eq_true, decide_eq_true_eq] at hu
    unfold rowOf at hu
    omega
  unfold reinstateUnit
  rw [h]
  dsimp only
  rw [if_pos hlt, if_pos (show isMesh u = true by rw [isMesh, hu]; rfl)]
  refine ⟨((joinLinks_sameFaults ..).ust u).trans ((ust_of_unit (raise_book_unit ..) u).trans ?_), ?_⟩
  · rw [putStates_ust]
    · exact modUnit_ust_same ..
    · intro hmem
      have hfenced := (Bool.and_eq_true_iff.mp (List.mem_filter.mp hmem).2).1
      rw [show (putState u .suspect 0x0E06 true p).ust u = .suspect from modUnit_ust_same ..] at hfenced
      exact absurd hfenced (by decide)
  · change u ∈ if _ then _ else _
    split
    · next hin => exact List.contains_iff_mem.mp hin
    · exact List.mem_append_right _ (List.mem_singleton_self u)

theorem exec_reinstate {ep reason mgr : Nat} (hu : isCompute u = true) (hep : ep % 65536 = s.p.od.hme) (h : s.p.ust u = .fenced)
    (hown : (s.p.unit u).own = true) (htake : (s.p.unit u).takeover = false) :
    exec (.reinstate 1 u ep reason mgr) s = .next (s.onP fun p => reinstateUnit u (accepted p)) := by
  have hhub := (compute_no_corner hu).1
  refine managerDirect_eq ((runManager_acts job0 (isDie_fits (.inr rfl) hu ..) hep ?_ fun _ hgone => ?_).trans ?_)
  · simp [managerState, h, hown, htake, hhub]
  · have hu' : s.p.ust u = .absent := hgone
    rw [h] at hu'
    exact absurd hu' (by decide)
  · rfl

/-! Evidence (R498, R499). -/

theorem exec_stateEvidence {k cause : Nat} {l : List (Nat × Nat)} (h : s.p.book.pendingEvid = (k, cause) :: l) :
    exec .stateEvidence s = .next (s.onP fun p => fenceCutPorts (evidence k cause (p.modBook fun b => { b with pendingEvid := l }))) := by
  change execStateEvidence s = _
  rw [execStateEvidence]
  refine State.runP_eq ?_
  rw [h]

theorem exec_stateEvidence_none (h : s.p.book.pendingEvid = []) : exec .stateEvidence s = .next s := by
  change execStateEvidence s = _
  rw [execStateEvidence]
  refine State.runP_same ?_
  rw [h]

/-- The state to which evidence moves a unit in service. -/
def evidState (p : Panel) (k : Nat) : USt := if cfg p 0xE020 0 2 ≤ (probesIn p k).length then .failed else .suspect

/-- Evidence of a unit in service moves it, and is a conflict. -/
theorem evidence_service {k : Nat} (h : USt.rank (p.ust k) = 0) (cause : Nat) :
    (evidence k cause p).ust k = evidState p k
    ∧ faultBook (evidence k cause p) = { faultBook p with conflicts := p.book.conflicts + 1 } := by
  let q := moveUnit k (evidState p k) cause (p.modUnit k fun r => { r with evid := r.evid + 1 })
  have hcounted : (p.modUnit k fun r => { r with evid := r.evid + 1 }).ust k = p.ust k := modUnit_ust_same ..
  have hrank : USt.rank (p.ust k) < (evidState p k).rank := by
    rw [h, evidState]
    split <;> decide
  have hmoved : evidence k cause p = stateConflict k q := by
    have hst : (if decide (cfg p 0xE020 0 2 ≤ (probesIn p k).length) = true then USt.failed else USt.suspect) = evidState p k := by
      simp [evidState]
    unfold evidence
    dsimp only
    rw [hst, if_neg (Nat.not_le.mpr hrank)]
  have hq : faultBook q = faultBook p := (moveUnit_unitsMoved ..).faultBook
  rw [hmoved, stateConflict]
  refine ⟨(ust_of_unit (raise_book_unit ..) k).trans (moveUnit_ust (hcounted ▸ hrank) cause), (raise_reported ..).faultBook.trans ?_⟩
  rw [← show q.book.conflicts = p.book.conflicts from congrArg FaultBook.conflicts hq, ← hq]
  rfl

/-- Evidence of a unit ABSENT or FAILED is counted. -/
theorem evidence_counted {k : Nat} (h : 3 ≤ USt.rank (p.ust k)) (cause : Nat) :
    evidence k cause p = p.modUnit k fun r => { r with evid := r.evid + 1 } := by
  refine if_pos (Nat.le_trans ?_ h)
  split <;> decide


/-! Probes (R500, R501). A die reset leaves the state book. -/

theorem dropLinks_book (site : Nat) (p : Panel) : (dropLinks site p).book = p.book := by
  have hcut : (cutLinks site p).book = p.book := by
    unfold cutLinks
    extract_lets off q
    refine (each_book _ q fun port r => ?_).trans (each_book _ p)
    split
    · rfl
    · split <;> rfl
  exact ite_book ((each_book _ _).trans hcut) hcut

theorem startDieReset_book (site : Nat) (part removal : Option Nat) (p : Panel) : (startDieReset site part removal p).book = p.book := by
  unfold startDieReset
  extract_lets keep p1 p2 p3 p4 p5 p6 p7 p8
  have h2 : p2.book = p.book := ite_book ((each_book (coresOf site) _).trans (each_book p1.reg p1)) rfl
  have h3 : p3.book = p2.book := ite_book (p := p2) rfl rfl
  have h6 : p6.book = p4.book := ite_book (p := p4) rfl rfl
  have h7 : p7.book = p6.book := ite_book (ite_book ((each_book (coresOf site) _).trans rfl) ((each_book (coresOf site) _).trans rfl)) rfl
  have h8 : p8.book = p.book := h7.trans (h6.trans (h3.trans h2))
  exact ite_book h8 ((dropLinks_book ..).trans h8)

/-- A probe is counted against its unit's limit, and noted. -/
def probeNoted (key : Nat) (p : Panel) : Panel :=
  (p.modUnit key fun r => { r with probes := p.now :: probesIn p key }).modBook fun b => { b with
    probesRun := b.probesRun + 1, probes := b.probes ++ [⟨key, p.now⟩], asked := b.asked.filter fun x => decide (x ≠ key) }

/-- What a probe starts: a die's reset, or a port's training. -/
def probeBegun (key : Nat) (p : Panel) : Panel :=
  if key < 0x3000 then (if isMesh (keySite key) then startDieReset (keySite key) none none p else p)
  else if key < 0x300C then setPhase (key - 0x3000) 1 p else p

theorem probeBegun_book (key : Nat) (p : Panel) : (probeBegun key p).book = p.book :=
  ite_book (ite_book (startDieReset_book ..) rfl) (ite_book (setPhase_book_od ..).1 rfl)

theorem exec_probeStart {id : UnitId} (h : probeDue s.p (UnitId.key id) = true) :
    exec (.probeStart id) s = .next (s.onP fun p => probeBegun (UnitId.key id) (probeNoted (UnitId.key id) p)) :=
  State.runP_eq (if_neg (not_not_intro h))

theorem exec_probeStart_idle {id : UnitId} (h : probeDue s.p (UnitId.key id) = false) : exec (.probeStart id) s = .next s :=
  State.runP_same (if_pos (by simp [h]))


/-! The end of a probe (R501). -/

/-- The unit's probe is over. -/
def probeOver (key : Nat) (p : Panel) : Panel := p.modBook fun b => { b with probes := b.probes.filter fun y => decide (y.key ≠ key) }

theorem exec_probeComplete_none (h : s.p.book.probes = []) (id : UnitId) (fail : Option Nat) : exec (.probeComplete id fail) s = .next s := by
  change execProbeComplete id fail s = _
  rw [execProbeComplete, State.run_true]
  dsimp only
  rw [h]
  rfl

/-- Is a probe bad: past its time, with a failing step, or of a port that is neither UP nor without a partner (R500, R501, R542)? -/
def probeBad (key started : Nat) (fail : Option Nat) (p : Panel) : Bool :=
  let port := decide (0x3000 ≤ key ∧ key < 0x300C)
  let phase := (p.getPort (key - 0x3000)).phase
  decide (started + (if port then 10000000 else 20000000) < p.now) || fail.isSome || (port && decide (phase ≠ 8) && decide (phase ≠ 1))

/-- A probe has failed, counted. -/
def probeFailed (key cause : Nat) (p : Panel) : Panel :=
  fenceCutPorts (moveUnit key .failed cause (p.modBook fun b => { b with probesFailed := b.probesFailed + 1 }))

section
variable {id : UnitId} {pr : Probe} (hprobes : s.p.book.probes = [pr]) (hkey : pr.key = UnitId.key id) (hsus : s.p.ust (UnitId.key id) = .suspect)
include hprobes hkey hsus

theorem exec_probeComplete (fail : Option Nat) : exec (.probeComplete id fail) s = .next (
    if probeBad (UnitId.key id) pr.started fail s.p then (s.onP (probeOver (UnitId.key id))).onP (probeFailed (UnitId.key id) (fail.getD 0x0E02))
    else passProbe (UnitId.key id) (s.onP (probeOver (UnitId.key id)))) := by
  have hsus' : (s.onP (probeOver (UnitId.key id))).p.ust (UnitId.key id) = .suspect := hsus
  change execProbeComplete id fail s = _
  rw [execProbeComplete, State.run_true]
  dsimp only
  rw [hprobes, show List.find? (fun x : Probe => decide (x.key = UnitId.key id)) [pr] = some pr by simp [hkey]]
  exact congrArg Host.Outcome.next (if_neg (not_not_intro hsus'))

theorem exec_probeComplete_fails (ev : Nat) :
    exec (.probeComplete id (some ev)) s = .next (s.onP fun p => probeFailed (UnitId.key id) ev (probeOver (UnitId.key id) p)) := by
  rw [exec_probeComplete hprobes hkey hsus, if_pos (by simp [probeBad]), State.onP_onP, Option.getD_some]

theorem exec_probeComplete_port (hport : n < 12) (hn : UnitId.key id = keyPort n) (hintime : s.p.now ≤ pr.started + 10000000)
    (hup : (s.p.getPort n).phase = 8) : exec (.probeComplete id none) s = .next (passProbe (keyPort n) (s.onP (probeOver (keyPort n)))) := by
  have hlo : 0x3000 ≤ keyPort n := Nat.le_add_right ..
  have hhi : keyPort n < 0x300C := Nat.add_lt_add_left hport _
  have hphase : (s.p.getPort (keyPort n - 0x3000)).phase = 8 := by
    rw [show keyPort n - 0x3000 = n from Nat.add_sub_cancel_left ..]
    exact hup
  rw [exec_probeComplete hprobes hkey hsus, hn, if_neg (by simp [probeBad, hlo, hhi, hphase, hintime])]

end

/-- A port that passes returns to READY, where it was READY. -/
theorem passProbe_port (hn : n < 12) (hprior : (s.p.unit (keyPort n)).prior = .ready) :
    passProbe (keyPort n) s = s.onP fun p => raise 0x0E04 (keySite (keyPort n)) (keyPort n) none
      (p.modUnit (keyPort n) fun r => { r with st := .ready, tick := p.now, own := true, takeover := false }) := by
  have hlo : ¬ keyPort n < 0x3000 := Nat.not_lt.mpr (Nat.le_add_right ..)
  rw [passProbe, if_neg hlo]
  refine State.onP_congr ?_
  have hall (p : Panel) : returning p (keyPort n) = [keyPort n] := by
    rw [returning, contained_keyPort hn]
    rfl
  have hstate : priorState s.p (keyPort n) = .ready := by
    rw [priorState, hprior]
  rw [if_neg (fun h => hlo h.1)]
  dsimp only
  rw [hall, each_singleton, restoreUnit, hstate]
  exact congrArg (raise 0x0E04 _ _ none) (if_neg fun h => absurd h.1 (by decide))

end Sys2Proof.Machine
end

section
open Sys2Proof Sys2Proof.Machine

/-- Settles O43: each command's panel, the unit's state in it, and the fault records that fencing leaves. -/
theorem managersFenceAndReinstateEvidenceAndProbesDecide : Obligations.ManagersFenceAndReinstateEvidenceAndProbesDecide := by
  unfold Obligations.ManagersFenceAndReinstateEvidenceAndProbesDecide
  intro u ep reason mgr id s
  refine ⟨fun hep => ⟨?fences, ?expels, ?reinstates⟩, ?stale, fun k cause l hl => ⟨?evidence, ?counted⟩, exec_stateEvidence_none,
    ?begins, exec_probeStart_idle, fun pr hprobes hkey hsus => ⟨?fails, ?passes⟩, fun h fail => exec_probeComplete_none h id fail⟩
  case fences =>
    intro hu hrank
    have hfenced : (fenceSite u (ep % 65536) reason (accepted s.p)).ust u = .fenced := fenceSite_fenced _ _ hrank
    refine ⟨_, exec_managerFence hu hep hrank, State.onP_mem .., ?_⟩
    rw [State.onP_p]
    constructor
    · exact (congrArg URec.st (fenceCutPorts_unit (by rw [hfenced]; rfl))).trans hfenced
    · exact congrArg (fun f : FaultBook => f.mgr.accepted) ((fenceCutPorts_faults _).trans (fenceSite_faults ..))
  case expels =>
    obtain ⟨l, hreported⟩ := actExpel_reported (accepted s.p)
    refine ⟨_, exec_expel hep, State.onP_mem .., ?_⟩
    rw [State.onP_p]
    refine ⟨hreported.book_expelled, ?_, fun n hn hport hrank => ?_⟩
    · rw [hreported.fab]
      rfl
    · refine (ust_of_unit hreported.book_unit _).trans ?_
      refine fencePorts_fenced (fun m hm => List.mem_range.mp (List.mem_filter.mp hm).1)
        (List.mem_filter.mpr ⟨List.mem_range.mpr hn, Bool.and_eq_true_iff.mpr ⟨?_, decide_eq_true hrank⟩⟩) hrank
      exact (congrArg (! ·) hport).trans rfl
  case reinstates =>
    intro hu h hown htake
    exact ⟨_, exec_reinstate hu hep h hown htake, State.onP_mem .., reinstateUnit_compute hu h⟩
  case stale =>
    intro hu hold i hi
    have hstale (m : MgrCmd) (hm : m.epoch = ep % 65536) : managerStale s.p m = true := by
      rw [managerStale, hm]
      exact decide_eq_true hold
    have hcounted (m : MgrCmd) : (staleManager m s.p).book.unit = s.p.book.unit
        ∧ (staleManager m s.p).od.mgr.stale = s.p.od.mgr.stale + 1 :=
      ⟨(raise_reported ..).book_unit, congrArg MgrCtr.stale (raise_reported ..).od_mgr⟩
    rcases hi with rfl | rfl | rfl
    · exact ⟨_, managerDirect_eq (runManager_stale job0 (isDie_fits (.inl rfl) hu ..) (hstale _ rfl)), State.onP_mem .., hcounted _⟩
    · exact ⟨_, managerDirect_eq (runManager_stale job0 rfl (hstale _ rfl)), State.onP_mem .., hcounted _⟩
    · exact ⟨_, managerDirect_eq (runManager_stale job0 (isDie_fits (.inr rfl) hu ..) (hstale _ rfl)), State.onP_mem .., hcounted _⟩
  case evidence =>
    intro hrank
    obtain ⟨hust, hbook⟩ := evidence_service (p := s.p.modBook fun b => { b with pendingEvid := l }) hrank cause
    have hout : ((evidence k cause (s.p.modBook fun b => { b with pendingEvid := l })).ust k).service = false := by
      rw [hust, evidState]
      split <;> rfl
    have hall := (fenceCutPorts_faults _).trans hbook
    refine ⟨_, exec_stateEvidence hl, State.onP_mem .., ?_⟩
    rw [State.onP_p]
    exact ⟨congrArg FaultBook.pendingEvid hall, (congrArg URec.st (fenceCutPorts_unit hout)).trans hust, congrArg FaultBook.conflicts hall⟩
  case counted =>
    intro hrank
    have hout : (s.p.ust k).service = false := by
      generalize s.p.ust k = st at hrank
      cases st with
      | failed | absent | fenced | suspect => rfl
      | hamper | ready | assigned | running => exact absurd hrank (by decide)
    have hcount := evidence_counted (p := s.p.modBook fun b => { b with pendingEvid := l }) hrank cause
    have hunit : (evidence k cause (s.p.modBook fun b => { b with pendingEvid := l })).unit k = { s.p.unit k with evid := (s.p.unit k).evid + 1 } := by
      rw [hcount]
      exact Tab.get_set_same ..
    have hkept : (fenceCutPorts (evidence k cause (s.p.modBook fun b => { b with pendingEvid := l }))).unit k = _ :=
      (fenceCutPorts_unit ((congrArg (fun r : URec => r.st.service) hunit).trans hout)).trans hunit
    have hall := (fenceCutPorts_faults (evidence k cause (s.p.modBook fun b => { b with pendingEvid := l }))).trans (congrArg faultBook hcount)
    refine ⟨_, exec_stateEvidence hl, State.onP_mem .., ?_⟩
    rw [State.onP_p, Panel.ust, hkept]
    exact ⟨congrArg FaultBook.pendingEvid hall, rfl, rfl⟩
  case begins =>
    intro h
    refine ⟨_, exec_probeStart h, State.onP_mem .., ?_⟩
    rw [State.onP_p, probeBegun_book]
    exact ⟨rfl, rfl, by simp [probeNoted]⟩
  case fails =>
    intro ev
    let q := (probeOver (UnitId.key id) s.p).modBook fun b => { b with probesFailed := b.probesFailed + 1 }
    have hfailed : (moveUnit (UnitId.key id) .failed ev q).ust (UnitId.key id) = .failed :=
      moveUnit_ust (by rw [show q.ust (UnitId.key id) = _ from hsus]; decide) ev
    have hall : faultBook (fenceCutPorts (moveUnit (UnitId.key id) .failed ev q)) = faultBook q :=
      (fenceCutPorts_faults _).trans (moveUnit_unitsMoved ..).faultBook
    refine ⟨_, exec_probeComplete_fails hprobes hkey hsus ev, State.onP_mem .., ?_⟩
    rw [State.onP_p]
    refine ⟨(congrArg FaultBook.probes hall).trans ?_, ?_, congrArg FaultBook.probesFailed hall⟩
    · exact (congrArg (List.filter _) hprobes).trans (by simp [hkey])
    · exact (congrArg URec.st (fenceCutPorts_unit (by rw [hfailed]; rfl))).trans hfailed
  case passes =>
    intro n hn hid hintime hup hprior
    rw [hid] at hprior ⊢
    have hrun := exec_probeComplete_port hprobes hkey hsus hn hid hintime hup
    rw [passProbe_port (s := s.onP (probeOver (keyPort n))) hn hprior] at hrun
    refine ⟨_, hrun, rfl, ?_⟩
    rw [State.onP_p]
    refine ⟨(raise_reported ..).book_probes.trans ?_, ?_, raise_logged (by decide) ..⟩
    · exact (congrArg (List.filter _) hprobes).trans (by simp [hkey, hid])
    · exact (ust_of_unit (raise_book_unit ..) _).trans (modUnit_ust_same ..)

end

section
/-! PROOFS. Transit around the ring, the meridian chain, and the fabric schedule (R531, R534, R537-R540). -/

namespace Sys2Proof.Machine

variable {p q : Panel} {s : State} {site : Nat} {v : RingCell}

/-! Transit (R531). -/

/-- The one transit cell at a member goes next where it may. -/
theorem ringNow_one (htransit : p.fab.transit = [v]) (hsite : v.site = site) (hmay : ringMay p v = true) : ringNow p site = some v := by
  simp [ringNow, htransit, hsite, hmay]

/-- The one transit cell may always go on to the next member. -/
theorem ringMay_on (htransit : p.fab.transit = [v]) (hport : portMaster v.port ≠ v.site) : ringMay p v = true := by
  rw [ringMay, if_neg hport, htransit]
  refine Bool.or_eq_true_iff.mpr (.inr (decide_eq_true (Nat.lt_of_le_of_lt (List.length_filter_le ..) ?_)))
  exact (show 1 < 64 by decide)

/-- The ring without its one transit cell, whose ingress credit has gone back. -/
def leftRing (v : RingCell) (p : Panel) : Panel := creditBack v (p.modFab fun f => { f with transit := f.transit.erase v })

theorem leftRing_transit (htransit : p.fab.transit = [v]) : (leftRing v p).fab.transit = [] := by
  have herase : (p.modFab fun f => { f with transit := f.transit.erase v }).fab.transit = [] := by
    change p.fab.transit.erase v = []
    rw [htransit]
    simp
  unfold leftRing creditBack
  split
  · exact herase
  · exact herase

theorem leftRing_ret {m : Nat} (howes : v.owes = some m) :
    Tab.get 0 ((leftRing v p).getPort m).ret (CellF.vc v.cell) = Tab.get 0 (p.getPort m).ret (CellF.vc v.cell) + 1 := by
  rw [leftRing, creditBack, howes]
  dsimp only
  rw [Panel.modPort_same]
  exact Tab.get_upd_same ..

/-- The credit that goes back is no cell, and opens no port. -/
theorem leftRing_getPort (n : Nat) : ((leftRing v p).getPort n).egr = (p.getPort n).egr ∧ ((leftRing v p).getPort n).cut = (p.getPort n).cut := by
  unfold leftRing creditBack
  split
  · next m _ =>
    by_cases hn : n = m
    · subst hn
      rw [Panel.modPort_same]
      exact ⟨rfl, rfl⟩
    · rw [Panel.modPort_ne _ _ hn]
      exact ⟨rfl, rfl⟩
  · exact ⟨rfl, rfl⟩

theorem fabDiscard_transit (n : Nat) (p : Panel) : (fabDiscard n p).fab.transit = p.fab.transit := by
  rw [fabDiscard, (dieRaise_reported ..).fab]
  rfl

theorem fabDiscard_ret (n m : Nat) (p : Panel) : ((fabDiscard n p).getPort m).ret = (p.getPort m).ret := by
  rw [Panel.getPort, fabDiscard, (dieRaise_reported ..).fab]
  change ((p.modPort n _).getPort m).ret = _
  by_cases hm : m = n
  · subst hm
    rw [Panel.modPort_same]
  · rw [Panel.modPort_ne _ _ hm]

/-- A port that is READY, with no cable cut, takes a transit cell into its egress queue. -/
theorem transitEgress_ready {n : Nat} (c : Cell) (hcut : (p.getPort n).cut = false) (hready : p.ust (keyPort n) = .ready) :
    transitEgress n c p = p.modPort n fun x => { x with egr := Tab.upd [] (CellF.vc c) (· ++ [c]) x.egr } := by
  rw [transitEgress, hcut, hready]
  exact if_neg (by simp)

section
variable (hring : (isEdge site || isHub site) = true)
include hring

theorem exec_ringTransit_none (h : s.p.fab.transit = []) : exec (.ringTransit site) s = .next s := by
  change execRingTransit site s = _
  rw [execRingTransit, hring]
  refine State.runP_same ?_
  rw [show ringNow s.p site = none by simp [ringNow, h]]

variable (htransit : s.p.fab.transit = [v]) (hsite : v.site = site)
include htransit hsite

theorem exec_ringTransit_on (hport : portMaster v.port ≠ site) : exec (.ringTransit site) s = .next (s.onP fun p =>
    if wayBroken p v then fabDiscard v.port (leftRing v p)
    else (leftRing v p).modFab fun f => { f with transit := f.transit ++ [{ v with site := ringOn v, owes := none }] }) := by
  change execRingTransit site s = _
  rw [execRingTransit, hring]
  refine State.runP_eq ?_
  rw [ringNow_one htransit hsite (ringMay_on htransit (hsite ▸ hport))]
  exact if_neg hport

theorem exec_ringTransit_out (hport : portMaster v.port = site) (hroom : ((s.p.getPort v.port).vcOut (CellF.vc v.cell)).length < 256)
    (hcut : (s.p.getPort v.port).cut = false) (hready : s.p.ust (keyPort v.port) = .ready) :
    exec (.ringTransit site) s = .next (s.onP fun p => (leftRing v p).modPort v.port fun x => { x with
      egr := Tab.upd [] (CellF.vc v.cell) (· ++ [v.cell]) x.egr }) := by
  have hmay : ringMay s.p v = true := by
    rw [ringMay, if_pos (hport.trans hsite.symm)]
    exact decide_eq_true hroom
  have hust : (leftRing v s.p).ust (keyPort v.port) = .ready := by
    refine (ust_of_unit ?_ _).trans hready
    unfold leftRing creditBack
    split <;> rfl
  change execRingTransit site s = _
  rw [execRingTransit, hring]
  refine State.runP_eq ?_
  rw [ringNow_one htransit hsite hmay]
  exact (if_pos hport).trans (transitEgress_ready _ ((leftRing_getPort _).2.trans hcut) hust)

end

/-! The meridian chain (R537-R540). -/

/-- A change of the panel's side of the chain. -/
def withMer (f : Meridian → Meridian) (p : Panel) : Panel := p.modFab fun g => { g with mer := f g.mer }

/-- The open latch may be set; nothing else changes. -/
theorem openBypass_cases (p : Panel) : openBypass p = p ∨ openBypass p = withMer (fun m => { m with openLatch := true }) p := by
  unfold openBypass
  split
  · exact .inr rfl
  · exact .inl rfl

/-- What a locked follower takes from a frame that agrees with its count. -/
structure Followed (x : BitVec 128) (p q : Panel) : Prop where
  now : q.now = p.now
  locked : q.fab.mer.locked = true
  bad : q.fab.mer.bad = 0
  hops : q.fab.mer.lastHops = fld x 119 114
  sepoch : q.fab.sepoch = fld x 47 32

/-- A frame is noted and the follower is locked. -/
def frameNoted (x : BitVec 128) (p : Panel) : Panel :=
  withMer (fun m => { m with locked := true, tooLong := false }) (withMer (fun m => { m with
    bad := 0, good := if fld x 119 114 = 63 then 0 else m.good + 1, lastTb := fld x 111 48, lastAt := p.now, lastHops := fld x 119 114 }) p)

/-- The panel after such a frame, before the frame that it sends on. -/
def frameTaken (x : BitVec 128) (p : Panel) : Panel := openBypass (takeSchedule x (followTb false (fld x 111 48 + 128) (frameNoted x p)))

theorem followTb_agrees {t : Nat} (h : t = p.now) :
    followTb false t p = withMer (fun m => { m with conflict := none }) (p.modClocks fun c => { c with tb := t }) :=
  (if_pos (by omega)).trans (if_neg (by decide))

theorem frameTaken_followed {x : BitVec 128} (h : fld x 111 48 + 128 = p.now) : Followed x p (frameTaken x p) ∧
    (p.fab.mer.openLatch = true → (frameTaken x p).fab.mer.openLatch = true) := by
  rw [frameTaken, followTb_agrees (p := frameNoted x p) h]
  rcases openBypass_cases (takeSchedule x (withMer (fun m => { m with conflict := none }) ((frameNoted x p).modClocks fun c => { c with tb := fld x 111 48 + 128 })))
    with ho | ho
  · rw [ho]
    exact ⟨⟨h, rfl, rfl, rfl, rfl⟩, id⟩
  · rw [ho]
    exact ⟨⟨h, rfl, rfl, rfl, rfl⟩, fun _ => rfl⟩

/-- The frame as a follower sends it on. -/
def sentOn (x : BitVec 128) : BitVec 128 := merFrame (fld x 119 114 + 1) (fld x 113 113) (fld x 112 112) (fld x 111 48) (fld x 47 32) (fld x 31 16)

theorem goodFrame_locked {x : BitVec 128} (hlocked : p.fab.mer.locked = true) : goodFrame x p =
    if (frameTaken x p).fab.mer.openLatch ∧ fld x 119 114 < 63 then withMer (fun m => { m with out := some (sentOn x) }) (frameTaken x p)
    else frameTaken x p := by
  unfold goodFrame
  extract_lets hops m put p1 p2 p3
  rw [if_neg (fun h => h.1 hlocked), if_neg (fun h => h.1 hlocked)]
  have hp3 : p3 = frameTaken x p := by
    unfold p3
    rw [show (!m.locked) = false by simp [m, hlocked]]
    rfl
  rw [hp3]
  rfl

theorem exec_meridianFrameReceive_valid {x : BitVec 128} (hhead : isHead s.p = false) (hx : merValid x = true) :
    exec (.meridianFrameReceive (some x)) s = .next (s.onP (goodFrame x)) := by
  change execMeridianFrameReceive (some x) s = _
  rw [execMeridianFrameReceive]
  exact State.runP_eq ((if_neg (by simp [hhead])).trans (if_pos hx))

theorem exec_meridianFrameReceive_missing (hhead : isHead s.p = false) : exec (.meridianFrameReceive none) s = .next (s.onP badFrame) :=
  State.runP_eq (if_neg (by simp [hhead]))

theorem exec_meridianFrameReceive_head (hhead : isHead s.p = true) (frame : Option (BitVec 128)) : exec (.meridianFrameReceive frame) s = .next s :=
  State.runP_same (if_pos hhead)

/-- A bad frame is counted. -/
def badCounted : Panel → Panel := withMer fun m => { m with bad := m.bad + 1, good := 0, invalid := m.invalid + 1 }

theorem badFrame_few (h : p.fab.mer.bad + 1 < 16) : badFrame p = badCounted p := if_neg fun hall => Nat.not_lt.mpr hall.2 h

theorem badFrame_loses (hlocked : p.fab.mer.locked = true) (h : 16 ≤ p.fab.mer.bad + 1) : badFrame p =
    selectRef (raise 0x0A09 p.activeHub keyPanel none (withMer (fun m => { m with locked := false, conflict := none }) (badCounted p))) :=
  if_pos ⟨hlocked, h⟩

/-- Selecting a reference keeps the newest entry of the log, and the fabric. -/
theorem selectRef_keeps {ev : Nat} (h : NewestLogged ev p) : Logged ev (selectRef p) ∧ (selectRef p).fab = p.fab := by
  have hclk (f : Clocks → Clocks) (hf : (f p.clk).tb = p.clk.tb) : NewestLogged ev (p.modClocks f) := h.congr rfl hf
  unfold selectRef
  extract_lets old new
  split
  · exact ⟨h.logged, rfl⟩
  · split
    · have hplan (f : Nat) (q : Panel) : (panelPlan f q).book = q.book ∧ (panelPlan f q).now = q.now ∧ (panelPlan f q).fab = q.fab := by
        obtain ⟨c, hc⟩ := issuePlan_onlyCtl (planDies q) f q
        rw [panelPlan, hc]
        exact ⟨rfl, rfl, rfl⟩
      obtain ⟨hbook, hnow, hfab⟩ := hplan (min 2 (panelStep p)) (raise 0x0202 p.activeHub keyPanel none (p.modClocks fun c => { c with use := 2, holdFrom := some p.now }))
      exact ⟨((hclk _ rfl).raise (by decide) ..).congr hbook hnow, hfab.trans (raise_reported ..).fab⟩
    · split
      · exact ⟨(hclk _ rfl).raise (by decide) .., (raise_reported ..).fab⟩
      · split
        · exact ⟨(hclk _ rfl).raise (by decide) .., (raise_reported ..).fab⟩
        · exact ⟨(hclk _ rfl).logged, rfl⟩

/-- A head's own frame. -/
def headFrame (p : Panel) : BitVec 128 := merFrame 0 0 p.fab.bank p.now p.fab.sepoch 0

theorem exec_meridianFrameEmit_head (hhead : isHead s.p = true) (hnow : s.p.now % 128 = 0) (hopen : s.p.fab.mer.openLatch = true)
    (hswitch : s.p.fab.switch = none) :
    exec .meridianFrameEmit s = .next (s.onP fun p => withMer (fun m => { m with out := some (headFrame p) }) (openBypass p)) := by
  have hopened : (openBypass s.p).fab.mer.openLatch = true := by
    rcases openBypass_cases s.p with h | h
    · rw [h]
      exact hopen
    · rw [h]
      rfl
  have hframe : (openBypass s.p).fab.switch = none ∧ headFrame (openBypass s.p) = headFrame s.p := by
    rcases openBypass_cases s.p with h | h
    · rw [h]
      exact ⟨hswitch, rfl⟩
    · rw [h]
      exact ⟨hswitch, rfl⟩
  change execMeridianFrameEmit s = _
  rw [execMeridianFrameEmit]
  refine State.runP_eq ((if_neg (by simp [hhead, hnow])).trans ?_)
  dsimp only
  rw [if_neg (not_not_intro hopened), hframe.1, ← hframe.2]
  rfl

theorem exec_meridianFrameEmit_none (h : isHead s.p = false ∨ s.p.now % 128 ≠ 0) : exec .meridianFrameEmit s = .next s :=
  State.runP_same (if_pos (h.imp_left fun hh => by simp [hh]))

section
variable {at_ : Nat} (hconf : s.p.fab.mer.conflict = some at_) (hlocked : s.p.fab.mer.locked = true)
include hconf hlocked

theorem exec_meridianRecheck_loads (hdue : at_ + ticksPerSecond ≤ s.p.now) (hfree : tbBusy s.p = false) : exec .meridianRecheck s
    = .next (s.onP fun p => loadTb (p.fab.mer.lastTb + 128 + (p.now - p.fab.mer.lastAt)) p) := by
  change execMeridianRecheck s = _
  rw [execMeridianRecheck]
  refine State.runP_eq ?_
  rw [hconf]
  dsimp only
  rw [if_neg (by simp [hlocked, hdue]), if_neg (by simp [hfree])]

theorem exec_meridianRecheck_busy (hdue : at_ + ticksPerSecond ≤ s.p.now) (hbusy : tbBusy s.p = true) :
    exec .meridianRecheck s = .next (s.onP fun p => withMer (fun m => { m with conflict := some p.now }) p) := by
  change execMeridianRecheck s = _
  rw [execMeridianRecheck]
  refine State.runP_eq ?_
  rw [hconf]
  dsimp only
  rw [if_neg (by simp [hlocked, hdue]), if_pos hbusy]
  rfl

omit hlocked in
theorem exec_meridianRecheck_early (hearly : s.p.now < at_ + ticksPerSecond) : exec .meridianRecheck s = .next s := by
  change execMeridianRecheck s = _
  rw [execMeridianRecheck]
  refine State.runP_same ?_
  rw [hconf]
  exact if_pos (.inl hearly)

end

/-! The schedule (R534, R538). -/

/-- The schedule has switched. -/
def switched (bank per : Nat) (p : Panel) : Panel :=
  p.modFab fun f => { f with bank := bank, per := per, sepoch := (f.sepoch + 1) % 2 ^ 16, switch := none }

section
variable {at_ b per : Nat} (hswitch : s.p.fab.switch = some (at_, b, per))
include hswitch

theorem exec_scheduleSwitch_due (hdue : at_ ≤ s.p.now) :
    exec .scheduleSwitch s = .next (s.onP fun p => raise 0x0A0B p.activeHub keyPanel none (switched b per p)) := by
  change execScheduleSwitch s = _
  rw [execScheduleSwitch]
  refine State.runP_eq ?_
  rw [hswitch]
  exact if_neg (Nat.not_lt.mpr hdue)

theorem exec_scheduleSwitch_early (hearly : s.p.now < at_) : exec .scheduleSwitch s = .next s := by
  change execScheduleSwitch s = _
  rw [execScheduleSwitch]
  refine State.runP_same ?_
  rw [hswitch]
  exact if_pos hearly

end

section
variable {per bank tick : Nat}

theorem exec_fabricScheduleCommit_bad (h : per = 0 ∨ 65536 < per) : exec (.fabricScheduleCommit per bank tick) s = .next s :=
  State.runP_same (congrArg Prod.snd (if_pos h))

theorem exec_fabricScheduleCommit {f : Panel → Panel} (h : (commitSchedule per bank tick s.p).2 = f s.p) :
    exec (.fabricScheduleCommit per bank tick) s = .next (s.onP f) := State.runP_eq h

variable (hlo : 1 ≤ per) (hhi : per ≤ 65536) (hbank : bank ≤ 1)
include hlo hhi hbank

/-- A schedule in range is taken or not by the panel's role alone. -/
theorem commitSchedule_in_range (p : Panel) : commitSchedule per bank tick p =
    if isHead p then
      if tick < p.now + 10000 then (abortOf 0x09 1 0, p)
      else (0, p.modFab fun f => { f with switch := some (roundUp tick 128, bank, per) })
    else if p.fab.mer.locked then (abortOf 0x09 1 0, p)
    else (0, p.modFab fun f => { f with switch := some (tick, bank, per) }) :=
  (if_neg (by omega)).trans (if_neg (by omega))

end

end Sys2Proof.Machine
end

section
open Sys2Proof Sys2Proof.Machine

/-- Settles O55: each command's panel, and the ring, the chain or the schedule in it. -/
theorem ringMeridianAndScheduleMoveOn : Obligations.RingMeridianAndScheduleMoveOn := by
  unfold Obligations.RingMeridianAndScheduleMoveOn
  intro site per bank tick f s hmember
  have hring : (isEdge site || isHub site) = true := Bool.or_eq_true_iff.mpr hmember
  refine ⟨fun v htransit hsite => ⟨?goesOn, ?goesOut⟩, exec_ringTransit_none hring, ?follows, fun hhead => ⟨?few, ?loses⟩,
    fun hhead => exec_meridianFrameReceive_head hhead none, ?emits, exec_meridianFrameEmit_none,
    fun at_ hconf hlocked => ⟨?loads, ?busy, exec_meridianRecheck_early hconf⟩,
    fun at_ b q hswitch => ⟨?switches, exec_scheduleSwitch_early hswitch⟩, fun hlo hhi hbank => ⟨?alone, ?follower, ?late, ?head⟩,
    exec_fabricScheduleCommit_bad⟩
  case goesOn =>
    intro hport
    refine ⟨_, exec_ringTransit_on hring htransit hsite hport, State.onP_mem .., ?_⟩
    rw [State.onP_p]
    have hleft := leftRing_transit htransit
    split
    · refine ⟨(fabDiscard_transit ..).trans hleft, fun m howes => ?_⟩
      rw [fabDiscard_ret]
      exact leftRing_ret howes
    · refine ⟨?_, fun m howes => leftRing_ret howes⟩
      rw [← hsite]
      exact (congrArg (· ++ _) hleft).trans (List.nil_append _)
  case goesOut =>
    intro hport hroom hcut hready
    refine ⟨_, exec_ringTransit_out hring htransit hsite hport hroom hcut hready, State.onP_mem .., leftRing_transit htransit, ?_⟩
    rw [State.onP_p, Panel.modPort_same]
    dsimp only
    rw [Tab.get_upd_same, (leftRing_getPort _).1]
  case follows =>
    intro hhead hx hlocked hconf hcount
    refine ⟨_, exec_meridianFrameReceive_valid hhead hx, State.onP_mem .., ?_⟩
    rw [State.onP_p, goodFrame_locked hlocked]
    obtain ⟨⟨hnow, hlock, hbad, hhops, hsepoch⟩, hopen⟩ := frameTaken_followed hcount
    generalize frameTaken f s.p = q at hnow hlock hbad hhops hsepoch hopen
    split
    · exact ⟨hnow, hlock, hbad, hhops, hsepoch, fun _ _ => rfl⟩
    · next h => exact ⟨hnow, hlock, hbad, hhops, hsepoch, fun ho hlt => absurd ⟨hopen ho, hlt⟩ h⟩
  case few =>
    intro hfew
    refine ⟨_, exec_meridianFrameReceive_missing hhead, State.onP_mem .., ?_⟩
    rw [State.onP_p, badFrame_few hfew]
    exact ⟨rfl, rfl, rfl⟩
  case loses =>
    intro hlocked hmany
    refine ⟨_, exec_meridianFrameReceive_missing hhead, State.onP_mem .., ?_⟩
    rw [State.onP_p, badFrame_loses hlocked hmany]
    obtain ⟨hlogged, hfab⟩ := selectRef_keeps (raise_newestLogged (ev := 0x0A09) (by decide) s.p.activeHub keyPanel none
      (withMer (fun m => { m with locked := false, conflict := none }) (badCounted s.p)))
    refine ⟨?_, hlogged⟩
    rw [hfab, (raise_reported ..).fab]
    rfl
  case emits =>
    intro hhead hnow hopen hswitch
    exact ⟨_, exec_meridianFrameEmit_head hhead hnow hopen hswitch, State.onP_mem .., rfl⟩
  case loads =>
    intro hdue hfree
    refine ⟨_, exec_meridianRecheck_loads hconf hlocked hdue hfree, State.onP_mem .., ?_⟩
    rw [State.onP_p, loadTb]
    refine ⟨congrArg Clocks.tb (raise_reported ..).clk, ?_, raise_logged (by decide) ..⟩
    rw [(raise_reported ..).fab]
    rfl
  case busy =>
    intro hdue hbusy
    exact ⟨_, exec_meridianRecheck_busy hconf hlocked hdue hbusy, State.onP_mem .., rfl, rfl⟩
  case switches =>
    intro hdue
    refine ⟨_, exec_scheduleSwitch_due hswitch hdue, State.onP_mem .., ?_⟩
    rw [State.onP_p, (raise_reported ..).fab]
    exact ⟨rfl, rfl, rfl, rfl, raise_logged (by decide) ..⟩
  case alone =>
    intro hhead hlocked
    refine ⟨_, exec_fabricScheduleCommit (f := fun p => p.modFab fun f => { f with switch := some (tick, bank, per) }) ?_, rfl, rfl, rfl⟩
    rw [commitSchedule_in_range hlo hhi hbank, hhead, hlocked]
    rfl
  case follower =>
    intro hhead hlocked
    refine exec_fabricScheduleCommit (f := id) ?_
    rw [commitSchedule_in_range hlo hhi hbank, hhead, hlocked]
    rfl
  case late =>
    intro hhead hlate
    refine exec_fabricScheduleCommit (f := id) ?_
    rw [commitSchedule_in_range hlo hhi hbank, hhead, if_pos rfl, if_pos hlate]
    rfl
  case head =>
    intro hhead hahead
    refine ⟨_, exec_fabricScheduleCommit (f := fun p => p.modFab fun f => { f with switch := some (roundUp tick 128, bank, per) }) ?_, rfl, rfl⟩
    rw [commitSchedule_in_range hlo hhi hbank, hhead, if_pos rfl, if_neg (Nat.not_lt.mpr hahead)]

end

section
/-! PROOFS. Partitions, pack-up, and the resets of cores and dies (R438-R451, R467). -/

namespace Sys2Proof.Machine

variable {p q r : Panel} {s : State} {n cs c k : Nat}

/-! What leaves a partition's record (R438). -/

theorem each_part {α : Type} (l : List α) {f : α → Panel → Panel} (p : Panel) (h : ∀ a p, (f a p).part = p.part := by intros; rfl) :
    (each l f p).part = p.part :=
  each_keeps (P := fun q : Panel => q.part = p.part) l (fun a q hq => (h a q).trans hq) rfl

theorem ite_part {c : Prop} [Decidable c] (hq : q.part = p.part) (hr : r.part = p.part) : (if c then q else r).part = p.part := by
  split
  · exact hq
  · exact hr

theorem getPart_of_part (h : q.part = p.part) (n : Nat) : q.getPart n = p.getPart n := congrArg (Tab.get part0 · n) h

theorem serveSite_part (st : USt) (site : Nat) (p : Panel) : (serveSite st site p).part = p.part :=
  each_part _ p fun _ _ => ite_part rfl rfl

theorem setGroup_part (g : Nat) (on : Bool) (l : List Nat) (p : Panel) : (setGroup g on l p).part = p.part := each_part l p

theorem bumpGen_part (p : Panel) : (bumpGen p).part = p.part := raise_part ..

theorem immediateFreeze_part (k cause : Nat) (p : Panel) : (immediateFreeze k cause p).part = p.part := by
  have htrigger : (triggerFreeze k cause p).part = p.part := (triggerFreeze_unitsMoved ..).part
  exact ite_part ((fromHub_reported ..).part.trans htrigger) htrigger

theorem endCopy_part (x : Copy) (status info1 info2 : Nat) (p : Panel) : (endCopy x status info1 info2 p).part = p.part := by
  have hnoted (i : Option Nat) (q : Panel) : (noteWritten i q).part = q.part := by
    cases i with
    | none => rfl
    | some i => exact ite_part (p := q) rfl rfl
  unfold endCopy
  extract_lets q1 q2
  obtain ⟨u, hu, h | h⟩ := postCompletion_cases x.fn ⟨((q2.getFn x.fn).sqOf x.sq).cq, x.sq, if x.copyIn then 1 else 2, status, x.cid, info1, info2, 0, none⟩ q2
  · exact (congrArg Panel.part h).trans ((hnoted ..).trans hu.part)
  · exact (congrArg Panel.part h).trans hu.part

theorem stopCopies_part (n : Nat) (p : Panel) : (stopCopies n p).part = p.part := by
  unfold stopCopies
  exact each_part _ p fun x q => endCopy_part ..

theorem endSessions_part (f : Session → Bool) (reason : Nat) (p : Panel) : (endSessions f reason p).part = p.part := rfl

/-! Pack-up begins (R446, R447). -/

/-- The pack-up that RESET or DISSOLVE begins. -/
def packBegun (n : Nat) (dissolve : Bool) (p : Panel) : PackUp :=
  ⟨1, dissolve, p.now, p.now, cfg p 0x4044 0 1, (p.getPart n).members.filter fun s => decide (p.ust s = .failed), [], [], []⟩

theorem startPackup_getPart (h : (p.getPart n).phase = .formed) (dissolve : Bool) :
    let x := (startPackup n dissolve p).2.getPart n
    x.phase = .packing ∧ x.members = (p.getPart n).members ∧ x.pack = some (packBegun n dissolve p) := by
  intro x
  have hx : x = { p.getPart n with
      phase := .packing, pack := some (packBegun n dissolve p),
      stat := { (p.getPart n).stat with lastStep := 1, drain := 0, absorbed := 0, cut := 0, total := 0 } } := by
    unfold x startPackup
    rw [if_neg (not_not_intro h)]
    extract_lets up p1 p2 p3
    have h3 : p3.part = p1.part := (endSessions_part ..).trans ((stopCopies_part n p2).trans (raise_part ..))
    exact (getPart_of_part ((each_part _ p3 fun _ _ => immediateFreeze_part ..).trans h3) n).trans (Panel.modPart_same ..)
  rw [hx]
  exact ⟨rfl, rfl, rfl⟩

theorem exec_partitionReset (hn : n < 16) : exec (.partitionReset n) s = .next (s.onP fun p => (startPackup n false p).2) := by
  change execPartitionReset n s = _
  rw [execPartitionReset, show isPart n = true from decide_eq_true hn]
  exact State.runP_eq rfl

theorem exec_partitionDissolve (hn : n < 16) : exec (.partitionDissolve n) s = .next (s.onP fun p => (startPackup n true p).2) := by
  change execPartitionDissolve n s = _
  rw [execPartitionDissolve, show isPart n = true from decide_eq_true hn]
  exact State.runP_eq rfl

theorem startPackup_refused (h : (p.getPart n).phase ≠ .formed) (dissolve : Bool) : (startPackup n dissolve p).2 = p :=
  congrArg Prod.snd (if_pos h)

/-! Pack-up goes on (R447, R451). -/

theorem getPart_setStep (n k : Nat) (p : Panel) : (setStep n k p).getPart n = { p.getPart n with
    pack := (p.getPart n).pack.map fun u => { u with step := k, since := p.now }, stat := { (p.getPart n).stat with lastStep := k } } :=
  Panel.modPart_same ..

theorem getPart_modPack (n : Nat) (f : PackUp → PackUp) (p : Panel) :
    (modPack n f p).getPart n = { p.getPart n with pack := (p.getPart n).pack.map f } := Panel.modPart_same ..

theorem answerCut_part (x : Cell) (p : Panel) : (answerCut x p).part = p.part := by
  unfold answerCut
  split <;> rfl

/-- The cut counts what it discards; it leaves the rest of the partition's record. -/
theorem cutPartition_getPart (n : Nat) (p : Panel) : ∃ cut, (cutPartition n p).getPart n = { p.getPart n with stat := { (p.getPart n).stat with cut := cut } } := by
  unfold cutPartition
  extract_lets count links held svc ms mine p1 p2 p3 p4 p5 p6
  have h1 : p1.part = p.part := each_part links p
  have h2 : p2.part = p1.part := each_part _ p1
  have h3 : p3.part = p2.part := each_part _ p2 fun e q => by unfold settleTrack; exact each_part _ q
  have h4 : p4.part = p3.part := each_part svc p3 answerCut_part
  have h5 : p5.part = p4.part := each_part _ p4
  have h6 : p6.getPart n = { p5.getPart n with stat := { (p5.getPart n).stat with cut := (p5.getPart n).stat.cut + count } } := Panel.modPart_same ..
  refine ⟨(p5.getPart n).stat.cut + count, (getPart_of_part (ite_part (raise_part ..) rfl) n).trans (h6.trans ?_)⟩
  rw [getPart_of_part (h5.trans (h4.trans (h3.trans (h2.trans h1))))]


theorem endPackup_getPart (n : Nat) (p : Panel) {u : PackUp} (h : u.dissolve = false) : ∃ stat members, (endPackup n u p).getPart n = { p.getPart n with
    phase := .formed, pack := none, members := members, stat := stat } ∧ stat.resets = (p.getPart n).stat.resets + 1 := by
  unfold endPackup
  extract_lets ms hampers p1 p2 p3 failed p4 p5
  have h1 : p1.part = p.part := each_part _ p fun _ _ => serveSite_part ..
  have h2 : p2.part = p1.part := setGroup_part ..
  have h3 : p3.part = p2.part := each_part _ p2 fun _ _ => serveSite_part ..
  have h4 : p4.getPart n = _ := Panel.modPart_same ..
  have h5 : p5.part = p4.part := ite_part rfl (bumpGen_part _)
  refine ⟨(p4.getPart n).stat, (p4.getPart n).members, ?_, ?_⟩
  · rw [getPart_of_part ((raise_part ..).trans h5), h4, h, getPart_of_part (h3.trans (h2.trans h1))]
    rfl
  · rw [h4, h, getPart_of_part (h3.trans (h2.trans h1))]
    rfl

section
variable (hn : n < 16) {u : PackUp} (hpack : (s.p.getPart n).pack = some u)
include hn hpack

theorem exec_packupStepDone : exec (.packupStepDone n) s = .next (nextStep n u s) := by
  change execPackupStepDone n s = _
  rw [execPackupStepDone, show isPart n = true from decide_eq_true hn, State.run_true]
  rw [hpack]

theorem exec_packupStepDone_waits (hstep : u.step = 1) (hbusy : ∃ m ∈ liveMembers n s.p, ∃ k ∈ coresOf m, coreIdle s.p k = false) :
    exec (.packupStepDone n) s = .next s := by
  rw [exec_packupStepDone hn hpack, nextStep, hstep]
  obtain ⟨m, hm, k, hk, hidle⟩ := hbusy
  refine congrArg Host.Outcome.next (if_neg fun hall => ?_)
  have hall' := List.all_eq_true.mp (List.all_eq_true.mp hall m hm) k hk
  exact Bool.false_ne_true (hidle.symm.trans hall')

theorem exec_packupStepDone_cut (hstep : u.step = 4) : exec (.packupStepDone n) s
    = .next (s.onP fun p => modPack n (fun u => { u with zeroise := zeroiseDies n p }) (setStep n 5 p)) := by
  rw [exec_packupStepDone hn hpack, nextStep, hstep]
  rfl

theorem exec_packupStepDone_formed (hstep : u.step = 7) (hkey : (s.p.getPart n).key.isSome = true) :
    exec (.packupStepDone n) s = .next (s.onP (endPackup n u)) := by
  rw [exec_packupStepDone hn hpack, nextStep, hstep]
  exact congrArg Host.Outcome.next (if_pos hkey)

theorem exec_packupDrainLimit (hstep : u.step = 3) (hdue : u.since + u.limit ≤ s.p.now) :
    exec (.packupDrainLimit n) s = .next (s.onP (nextStep.toCut n)) := by
  change execPackupDrainLimit n s = _
  rw [execPackupDrainLimit, show isPart n = true from decide_eq_true hn]
  refine State.runP_eq ?_
  rw [hpack]
  exact if_pos ⟨hstep, hdue⟩

theorem exec_packupDrainLimit_early (hearly : s.p.now < u.since + u.limit) : exec (.packupDrainLimit n) s = .next s := by
  change execPackupDrainLimit n s = _
  rw [execPackupDrainLimit, show isPart n = true from decide_eq_true hn]
  refine State.runP_same ?_
  rw [hpack]
  exact if_neg fun h => Nat.not_lt.mpr h.2 hearly

omit hn in
theorem toCut_getPart : ∃ cut, (nextStep.toCut n s.p).getPart n = { s.p.getPart n with
    pack := some { u with step := 4, since := s.p.now }
    stat := { (s.p.getPart n).stat with drain := s.p.now - u.since, lastStep := 4, cut := cut } } := by
  unfold nextStep.toCut
  rw [hpack]
  extract_lets since q
  obtain ⟨cut, hcut⟩ := cutPartition_getPart n (setStep n 4 q)
  have hq : q.getPart n = { s.p.getPart n with stat := { (s.p.getPart n).stat with drain := s.p.now - u.since } } := Panel.modPart_same ..
  refine ⟨cut, hcut.trans ?_⟩
  rw [getPart_setStep, hq, hpack]
  rfl

variable (hcs : isCompute cs = true)
include hcs

theorem exec_keyZeroiseTimeout (hstep : u.step = 5) (hzero : u.zeroise = [cs]) (hdue : u.since + 1000 ≤ s.p.now) :
    exec (.keyZeroiseTimeout n cs) s = .next (s.onP fun p => raise 0x0D14 cs cs none (moveUnit cs .failed 0x0D14
      (modPack n (fun u => { u with zeroise := u.zeroise.filter fun x => decide (x ≠ cs) }) p))) := by
  change execKeyZeroiseTimeout n cs s = _
  rw [execKeyZeroiseTimeout, show isPart n = true from decide_eq_true hn, hcs]
  refine State.runP_eq ?_
  rw [hpack]
  exact if_pos ⟨hstep, by simp [hzero], hdue⟩

theorem exec_keyZeroiseTimeout_early (hearly : s.p.now < u.since + 1000) : exec (.keyZeroiseTimeout n cs) s = .next s := by
  change execKeyZeroiseTimeout n cs s = _
  rw [execKeyZeroiseTimeout, show isPart n = true from decide_eq_true hn, hcs]
  refine State.runP_same ?_
  rw [hpack]
  exact if_neg fun h => Nat.not_lt.mpr h.2.2 hearly

end

/-! Key loads (R467). -/

/-- A load of a partition's key is given up. -/
def loadGivenUp (n cs : Nat) (p : Panel) : Panel := p.modPart n fun x => { x with
  loading := x.loading.filter (fun y => decide (y.1 ≠ cs)),
  pack := x.pack.map fun u => { u with loads := u.loads.filter fun y => decide (y ≠ cs) } }

theorem loadGivenUp_loading {at_ : Nat} (h : (p.getPart n).loading = [(cs, at_)]) : ((loadGivenUp n cs p).getPart n).loading = [] := by
  rw [loadGivenUp, Panel.modPart_same, h]
  simp

/-- A die's load of a key has failed: it is zeroised and FAILED. -/
def loadFailed (n cs : Nat) (p : Panel) : Panel :=
  raise 0x0B09 cs (keyStack cs) none (moveUnit cs .failed 0x0B09 (zeroise n cs (loadGivenUp n cs p)))

section
variable {at_ : Nat} (hn : n < 16) (hcs : isCompute cs = true) (hload : (s.p.getPart n).loading = [(cs, at_)])
include hn hcs hload

/-- A substitute that fails is raised besides. -/
theorem exec_keyLoadTimeout (hdue : at_ + 1000 ≤ s.p.now) :
    ∃ f, exec (.keyLoadTimeout n cs) s = .next (s.onP f) ∧ Reported (loadFailed n cs s.p) (f s.p) := by
  let f (p : Panel) : Panel := match (loadFailed n cs p).regionOf cs with
    | some r => if (((loadFailed n cs p).getReg r).moved.any fun y => decide (y.2 = cs)) = true then raise 0x070C cs (keyRegion r) none (loadFailed n cs p) else loadFailed n cs p
    | none => loadFailed n cs p
  refine ⟨f, ?_, ?_⟩
  · change execKeyLoadTimeout n cs s = _
    rw [execKeyLoadTimeout, show isPart n = true from decide_eq_true hn, hcs]
    refine State.runP_eq ?_
    rw [hload, show List.find? (fun e : Nat × Nat => decide (e.1 = cs)) [(cs, at_)] = some (cs, at_) by simp]
    exact if_neg (Nat.not_lt.mpr hdue)
  · unfold f
    split
    · exact .ite (raise_reported ..) (.refl _)
    · exact .refl _

theorem exec_keyLoadTimeout_early (hearly : s.p.now < at_ + 1000) : exec (.keyLoadTimeout n cs) s = .next s := by
  change execKeyLoadTimeout n cs s = _
  rw [execKeyLoadTimeout, show isPart n = true from decide_eq_true hn, hcs]
  refine State.runP_same ?_
  rw [hload, show List.find? (fun e : Nat × Nat => decide (e.1 = cs)) [(cs, at_)] = some (cs, at_) by simp]
  exact if_pos hearly

end


/-! What moves a site among the service states (R440, R497). -/

theorem siteParts_ge (site : Nat) {j : Nat} (hj : j ∈ siteParts site) : 0x1000 ≤ j := by
  unfold siteParts at hj
  split at hj
  · simp only [coresOf, keyCore, keyStack, List.map_cons, List.map_nil, List.mem_append, List.mem_cons, List.not_mem_nil, or_false] at hj
    omega
  · exact absurd hj List.not_mem_nil

/-- A service state is put in force at one unit that may be used. -/
def servedOne (st : USt) (key : Nat) (p : Panel) : Panel := if usable p key then p.modUnit key fun r => { r with st := st, tick := p.now } else p

theorem servedOne_ust_ne {st : USt} {key j : Nat} (h : j ≠ key) (p : Panel) : (servedOne st key p).ust j = p.ust j := by
  unfold servedOne
  split
  · exact modUnit_ust_ne h ..
  · rfl

/-- A site that may be used takes the state; no other site changes. -/
theorem serveSite_ust (st : USt) (site : Nat) (hc : c < 0x1000) (husable : usable p c = true) :
    (serveSite st site p).ust c = if c = site then st else p.ust c := by
  have hparts : (serveSite st site p).ust c = (servedOne st site p).ust c := by
    change (each (siteParts site) (servedOne st) (servedOne st site p)).ust c = _
    have hl : ∀ j ∈ siteParts site, c ≠ j := fun j hj => Nat.ne_of_lt (Nat.lt_of_lt_of_le hc (siteParts_ge site hj))
    generalize siteParts site = l at hl
    generalize servedOne st site p = q
    induction l generalizing q with
    | nil => rfl
    | cons j l ih => exact (ih (fun i hi => hl i (List.mem_cons_of_mem j hi)) _).trans (servedOne_ust_ne (hl j List.mem_cons_self) q)
  rw [hparts]
  by_cases h : c = site
  · subst h
    rw [servedOne, if_pos husable, if_pos rfl]
    exact modUnit_ust_same ..
  · rw [if_neg h, servedOne_ust_ne h]

theorem addMember_unit (n site : Nat) (p : Panel) :
    (setGroup (0x40 + n) true [site] (loadKey n site p)).book.unit = p.book.unit := congrArg Book.unit (each_book [site] (loadKey n site p))

theorem usable_of_unit (h : q.book.unit = p.book.unit) (key : Nat) : usable q key = usable p key := by
  rw [usable, usable, ust_of_unit h]

/-- Each die that enters a partition and may be used is ASSIGNED. -/
theorem addMembers_ust {l : List Nat} (hmem : c ∈ l) (hc : c < 0x1000) (husable : usable p c = true) : (each l (addMember n) p).ust c = .assigned := by
  have hone (site : Nat) (q : Panel) (hq : usable q c = true) : (addMember n site q).ust c = if c = site then .assigned else q.ust c := by
    refine (serveSite_ust .assigned site hc ((usable_of_unit (addMember_unit n site q) c).trans hq)).trans ?_
    rw [ust_of_unit (addMember_unit n site q)]
  have hkeeps (q : Panel) (hq : q.ust c = .assigned) (site : Nat) : (addMember n site q).ust c = .assigned := by
    rw [hone site q (by rw [usable, hq]; rfl), hq, ite_self]
  induction l generalizing p with
  | nil => exact absurd hmem List.not_mem_nil
  | cons site l ih =>
    by_cases h : c = site
    · exact each_keeps (P := fun q : Panel => q.ust c = .assigned) l (fun a q hq => hkeeps q hq a) ((hone site p husable).trans (if_pos h))
    · refine ih ((List.mem_cons.mp hmem).resolve_left h) ?_
      rw [usable, hone site p husable, if_neg h]
      exact husable

/-! Keys (R438, R465, R467). -/

/-- `q` has the record of partition `n` but for the loads of its key. -/
def SamePart (n : Nat) (p q : Panel) : Prop := ∃ l, q.getPart n = { p.getPart n with loading := l }

theorem SamePart.refl (n : Nat) (p : Panel) : SamePart n p p := ⟨_, rfl⟩

theorem SamePart.trans (hq : SamePart n p q) (hr : SamePart n q r) : SamePart n p r := by
  obtain ⟨_, hq⟩ := hq
  obtain ⟨l, hr⟩ := hr
  exact ⟨l, hr.trans (by rw [hq])⟩

theorem samePart_of_part (h : q.part = p.part) : SamePart n p q := ⟨_, getPart_of_part h n⟩

theorem SamePart.each {α : Type} (l : List α) {f : α → Panel → Panel} (h : ∀ a p, SamePart n p (f a p)) (p : Panel) : SamePart n p (each l f p) :=
  each_keeps (P := SamePart n p) l (fun a _ hq => hq.trans (h a _)) (.refl n p)

theorem sendKey_samePart (n j site : Nat) (p : Panel) : SamePart n p (sendKey j site p) := by
  by_cases h : n = j
  · subst h
    exact ⟨_, Panel.modPart_same ..⟩
  · exact ⟨_, Panel.modPart_ne _ _ h⟩

theorem placeKeys_samePart (n site : Nat) (p : Panel) : SamePart n p (placeKeys site p) := by
  unfold placeKeys
  split
  · exact .refl n p
  · extract_lets l used q want
    exact (samePart_of_part (q := q) rfl).trans (.each want (fun j u => sendKey_samePart n j site u) q)

theorem placePartKeys_samePart (n j : Nat) (p : Panel) : SamePart n p (placePartKeys j p) := .each _ (placeKeys_samePart n) p

theorem placePartKeys_unit (j : Nat) (p : Panel) : (placePartKeys j p).book.unit = p.book.unit := by
  refine each_keeps (P := fun q : Panel => q.book.unit = p.book.unit) _ (fun site q hq => ?_) rfl
  unfold placeKeys
  split
  · exact hq
  · exact (congrArg Book.unit (each_book _ _)).trans hq

theorem addMember_samePart (n site : Nat) (p : Panel) : SamePart n p (addMember n site p) :=
  (sendKey_samePart n n site _ : SamePart n p (loadKey n site p)).trans (samePart_of_part ((serveSite_part ..).trans (setGroup_part ..)))

/-- Drawing a key takes free values alone, and the key depends on no other part of the panel. -/
theorem drawStackKey_free (j gen fuel : Nat) (p : Panel) : (∃ m, (drawStackKey j gen fuel p).2 = { p with free := m })
    ∧ ∀ q : Panel, q.free = p.free → (drawStackKey j gen fuel q).1 = (drawStackKey j gen fuel p).1 := by
  induction fuel generalizing p with
  | zero => exact ⟨⟨p.free, rfl⟩, fun _ _ => rfl⟩
  | succ fuel ih =>
    obtain ⟨⟨m, hm⟩, hkey⟩ := ih (freeBytes 48 p).2
    refine ⟨?_, fun q hq => ?_⟩
    · rw [drawStackKey]
      split
      · exact ⟨m, hm⟩
      · exact ⟨_, rfl⟩
    · have hbytes : (freeBytes 48 q).1 = (freeBytes 48 p).1 := congrArg (fun k => leBytes 48 (Config.freeNat k)) hq
      have hfree : (freeBytes 48 q).2.free = (freeBytes 48 p).2.free := congrArg (· + 1) hq
      rw [drawStackKey, drawStackKey, hbytes]
      split
      · exact hkey _ hfree
      · rfl

/-- A key is a partition's, counted. -/
def keyTaken (n gen : Nat) (k : Nat × Panel) : Panel :=
  (k.2.modSec fun c => { c with keysMade := c.keysMade + 1 }).modPart n fun x => { x with
    key := some k.1, keyGen := gen, stat := { x.stat with keys := x.stat.keys + 1 } }

theorem newKey_eq (n : Nat) (p : Panel) : newKey n p = keyTaken n ((p.getPart n).keyGen + 1) (drawStackKey n ((p.getPart n).keyGen + 1) 64 p) := rfl

theorem keyTaken_getPart {gen m : Nat} {k : Nat × Panel} (hk : k.2 = { p with free := m }) : (keyTaken n gen k).getPart n = { p.getPart n with
    key := some k.1, keyGen := gen, stat := { (p.getPart n).stat with keys := (p.getPart n).stat.keys + 1 } } := by
  rw [keyTaken, hk]
  exact Panel.modPart_same ..

theorem keyTaken_book {gen m : Nat} {k : Nat × Panel} (hk : k.2 = { p with free := m }) : (keyTaken n gen k).book = p.book := by
  rw [keyTaken, hk]
  rfl

/-! A partition forms (R438, R440). -/

/-- A FREE partition's record as it forms, before its key. -/
def formingPart (n : Nat) (sealed : Bool) (m : BitVec 256) (p : Panel) : Panel :=
  (p.modPart n fun x => { x with sealed := sealed }).modPart n fun x => { x with phase := .formed, members := bitSites m, waiting := none }

theorem formingPart_getPart (n : Nat) (sealed : Bool) (m : BitVec 256) (p : Panel) : (formingPart n sealed m p).getPart n =
    { p.getPart n with sealed := sealed, phase := .formed, members := bitSites m, waiting := none } := by
  rw [formingPart, Panel.modPart_same, Panel.modPart_same]

/-- The partition has formed. -/
def formedPart (n : Nat) (sealed : Bool) (m : BitVec 256) (p : Panel) : Panel :=
  placePartKeys n (bumpGen (raise 0x0D10 0xFF (keyPart n) none (each (bitSites m) (addMember n) (newKey n (formingPart n sealed m p)))))

/-- The record once its key has been drawn. -/
theorem newKey_formingPart (n : Nat) (sealed : Bool) (m : BitVec 256) (p : Panel) : (newKey n (formingPart n sealed m p)).getPart n = { p.getPart n with
    sealed := sealed, phase := .formed, members := bitSites m, waiting := none, keyGen := (p.getPart n).keyGen + 1,
    key := some (drawStackKey n ((p.getPart n).keyGen + 1) 64 p).1,
    stat := { (p.getPart n).stat with keys := (p.getPart n).stat.keys + 1 } } := by
  have hgen : ((formingPart n sealed m p).getPart n).keyGen = (p.getPart n).keyGen := by rw [formingPart_getPart]
  have hkey := (drawStackKey_free n ((p.getPart n).keyGen + 1) 64 p).2 (formingPart n sealed m p) rfl
  obtain ⟨⟨k, hk⟩, -⟩ := drawStackKey_free n ((p.getPart n).keyGen + 1) 64 (formingPart n sealed m p)
  rw [newKey_eq, hgen, keyTaken_getPart hk, hkey, formingPart_getPart]

theorem formedPart_getPart (n : Nat) (sealed : Bool) (m : BitVec 256) (p : Panel) :
    let x := p.getPart n
    let y := (formedPart n sealed m p).getPart n
    y.phase = .formed ∧ y.members = bitSites m ∧ y.sealed = sealed ∧ y.keyGen = x.keyGen + 1
    ∧ y.key = some (drawStackKey n (x.keyGen + 1) 64 p).1 := by
  intro x y
  have hsame : SamePart n (newKey n (formingPart n sealed m p)) (formedPart n sealed m p) :=
    ((SamePart.each _ (fun site q => addMember_samePart n site q) _).trans (samePart_of_part ((bumpGen_part _).trans (raise_part ..)))).trans
      (placePartKeys_samePart ..)
  obtain ⟨l, hl⟩ := hsame
  have hy : y = _ := hl.trans (by rw [newKey_formingPart])
  rw [hy]
  exact ⟨rfl, rfl, rfl, rfl, rfl⟩

theorem formedPart_ust {sealed : Bool} {m : BitVec 256} (hmem : c ∈ bitSites m) (hc : c < 0x1000) (husable : usable p c = true) :
    (formedPart n sealed m p).ust c = .assigned := by
  obtain ⟨⟨k, hk⟩, -⟩ := drawStackKey_free n (((formingPart n sealed m p).getPart n).keyGen + 1) 64 (formingPart n sealed m p)
  have hbook : (newKey n (formingPart n sealed m p)).book = p.book :=
    (keyTaken_book (p := formingPart n sealed m p) hk).trans rfl
  rw [formedPart, ust_of_unit ((placePartKeys_unit ..).trans ((bumpGen_unit _).trans (raise_book_unit ..)))]
  exact addMembers_ust hmem hc ((usable_of_unit (congrArg Book.unit hbook) c).trans husable)

/-- A bitmap that is not zero names a site. -/
theorem bitSites_ne_nil {m : BitVec 256} (hm : m ≠ 0) : bitSites m ≠ [] := by
  intro hnone
  refine hm (BitVec.eq_of_getLsbD_eq fun i hi => ?_)
  have hclear := List.filter_eq_nil_iff.mp hnone i (List.mem_range.mpr hi)
  exact (eq_false_of_ne_true hclear).trans BitVec.getLsbD_zero.symm

theorem exec_partitionRecordCommit_forms (hn : n < 16) {sealed : Bool} {m : BitVec 256} (hfree : (s.p.getPart n).phase = .free)
    (hnone : (s.p.getPart n).members = []) (hm : m ≠ 0) (hfields : badField m = none) (hhealthy : healthy s.p = true)
    (hall : ∀ c ∈ bitSites m, s.p.ust c = .ready ∧ s.p.partOf c = none ∧ Tab.find? s.p.rst c = none) :
    exec (.partitionRecordCommit n sealed m) s = .next (s.onP (formedPart n sealed m)) := by
  have hsome : (bitSites m).isEmpty = false := by simpa using bitSites_ne_nil hm
  have hadded : (((bitSites m).filter fun c => !(s.p.getPart n).members.contains c).any fun c =>
      decide (s.p.ust c ≠ .ready) || (s.p.partOf c).isSome || (Tab.find? s.p.rst c).isSome) = false := by
    refine Bool.eq_false_iff.mpr fun hany => ?_
    obtain ⟨c, hc, hbad⟩ := List.any_eq_true.mp hany
    obtain ⟨hready, hpart, hrst⟩ := hall c (List.mem_filter.mp hc).1
    simp [hready, hpart, hrst] at hbad
  have hgone : ((s.p.getPart n).members.filter fun c => !(bitSites m).contains c) = [] := by rw [hnone]; rfl
  have hforms : formPartition n m (s.p.modPart n fun x => { x with sealed := sealed }) = formedPart n sealed m s.p := if_pos hhealthy
  change execPartitionRecordCommit n sealed m s = _
  rw [execPartitionRecordCommit, show isPart n = true from decide_eq_true hn]
  refine State.runP_eq ?_
  unfold commitPartition
  dsimp only
  rw [if_neg (by rw [hfree]; decide), hfields]
  dsimp only
  rw [hadded, hgone, if_neg Bool.false_ne_true, if_neg (by simp), if_neg (by rw [hfree]; exact fun h => absurd h.1 (by decide)),
    if_neg (by rw [hfree]; exact fun h => absurd h.1 (by decide)), if_pos hfree, hsome, ← hforms]
  rfl

theorem exec_partitionRecordCommit_packing (hn : n < 16) (sealed : Bool) (m : BitVec 256) (h : (s.p.getPart n).phase = .packing) :
    exec (.partitionRecordCommit n sealed m) s = .next s := by
  change execPartitionRecordCommit n sealed m s = _
  rw [execPartitionRecordCommit, show isPart n = true from decide_eq_true hn]
  exact State.runP_same (congrArg Prod.snd (if_pos h))


/-! Erased members (R440). -/

/-- A removed die's stack is erased, and the die is none of those that leave. -/
def leftPart (n cs : Nat) (p : Panel) : Panel :=
  (p.modPart n fun x => { x with removing := x.removing.filter fun y => decide (y ≠ cs) }).modStk cs fun k => { k with
    tags := [], spare := k.spare.map fun y => (y.1, Spare.withPmask 0 y.2) }

theorem leftPart_getPart (n cs : Nat) (p : Panel) :
    (leftPart n cs p).getPart n = { p.getPart n with removing := (p.getPart n).removing.filter fun y => decide (y ≠ cs) } := Tab.get_set_same ..

/-- The panel once a removed die's stack has been erased. -/
def erasedPanel (n cs : Nat) (p : Panel) : Panel := raise 0x0D16 cs cs none (bumpGen (serveSite .ready cs (leftPart n cs p)))

theorem exec_memberEraseDone (hcs : isCompute cs = true) {y : Part} (hpart : s.p.part = [(n, y)]) (hremoving : y.removing = [cs])
    (hrst : Tab.find? s.p.rst cs = none) : exec (.memberEraseDone cs) s
      = .next { s with mem := s.mem.clear (gaStack cs 0) (gaStack cs (stackBytes s.p.variant)), p := erasedPanel n cs s.p } := by
  change execMemberEraseDone cs s = _
  rw [execMemberEraseDone, hcs, State.run_true, hpart,
    show List.find? (fun e : Nat × Part => e.2.removing.contains cs) [(n, y)] = some (n, y) by simp [hremoving]]
  dsimp only
  rw [hrst]
  rfl

theorem isCompute_lt (hcs : isCompute cs = true) : cs < 0x1000 := by
  simp only [isCompute, Bool.and_eq_true, decide_eq_true_eq] at hcs
  unfold rowOf at hcs
  omega

theorem erasedPanel_ust (hcs : isCompute cs = true) (husable : usable p cs = true) : (erasedPanel n cs p).ust cs = .ready := by
  rw [erasedPanel, ust_of_unit ((raise_book_unit ..).trans (bumpGen_unit _))]
  exact (serveSite_ust (p := leftPart n cs p) .ready cs (isCompute_lt hcs) husable).trans (if_pos rfl)

theorem erasedPanel_removing (h : (p.getPart n).removing = [cs]) : ((erasedPanel n cs p).getPart n).removing = [] := by
  rw [erasedPanel, getPart_of_part ((raise_part ..).trans ((bumpGen_part _).trans (serveSite_part ..))), leftPart_getPart, h]
  simp

/-! Core resets (R446). A reset of cores leaves every other core. -/

theorem each_coreReset_getCore_ne {l : List Nat} (h : k ∉ l) (p : Panel) : (each l coreReset p).getCore k = p.getCore k := by
  induction l generalizing p with
  | nil => rfl
  | cons j l ih => exact (ih (List.not_mem_of_not_mem_cons h) (coreReset j p)).trans (Panel.modCore_ne p _ (List.ne_of_not_mem_cons h))

/-- The cores of a mask of a site. -/
def maskCores (cs mask : Nat) : List Nat := ((List.range 4).filter mask.testBit).map (4 * cs + ·)

theorem mem_maskCores {mask : Nat} : k ∈ maskCores cs mask ↔ ∃ c < 4, mask.testBit c = true ∧ k = 4 * cs + c := by
  simp only [maskCores, List.mem_map, List.mem_filter, List.mem_range, and_assoc, eq_comm]

section
variable (hcs : isCompute cs = true)
include hcs

theorem exec_coreResetCommand {mask : Nat} (hpos : 0 < mask) (hlt : mask < 16) (hok : resetRefused s.p cs = 0) :
    exec (.coreResetCommand cs mask) s = .next (s.onP (each (maskCores cs mask) coreReset)) := by
  change execCoreResetCommand cs mask s = _
  rw [execCoreResetCommand, hcs]
  refine State.runP_eq ?_
  rw [if_pos hlt, writeReset, if_neg (by omega), if_neg (not_not_intro hok), if_neg (by omega), maskCores, each, each, List.foldl_map]

theorem exec_coreResetCommand_refused {mask : Nat} (hpos : 0 < mask) (hlt : mask < 16) (hno : resetRefused s.p cs ≠ 0) :
    exec (.coreResetCommand cs mask) s = .next s := by
  change execCoreResetCommand cs mask s = _
  rw [execCoreResetCommand, hcs]
  refine State.runP_same ?_
  rw [if_pos hlt, writeReset, if_neg (by omega), if_pos hno]

/-! Die resets begin (R443, R445). -/

theorem exec_dieResetCommand (hok : resetRefused s.p cs = 0) (hrst : Tab.find? s.p.rst cs = none) :
    exec (.dieResetCommand cs) s = .next (s.onP (startDieReset cs none none)) := by
  change execDieResetCommand cs s = _
  rw [execDieResetCommand, hcs]
  refine State.runP_eq ?_
  rw [writeReset, if_neg (by decide), if_neg (not_not_intro hok), if_pos rfl, hrst]
  rfl

theorem exec_dieResetCommand_refused (hno : resetRefused s.p cs ≠ 0) : exec (.dieResetCommand cs) s = .next s := by
  change execDieResetCommand cs s = _
  rw [execDieResetCommand, hcs]
  refine State.runP_same ?_
  rw [writeReset, if_neg (by decide), if_pos hno]

end

/-- `q` has the architectural state of core `k`, and the die resets in progress, of `p`. -/
structure SameRuns (k : Nat) (p q : Panel) : Prop where
  core : (q.getCore k).a = (p.getCore k).a
  rst : q.rst = p.rst
  rctr : q.rctr = p.rctr

theorem SameRuns.refl (k : Nat) (p : Panel) : SameRuns k p p := ⟨rfl, rfl, rfl⟩

theorem SameRuns.trans (hq : SameRuns k p q) (hr : SameRuns k q r) : SameRuns k p r :=
  ⟨hr.core.trans hq.core, hr.rst.trans hq.rst, hr.rctr.trans hq.rctr⟩

/-- After a change of other parts. -/
theorem SameRuns.after (h : SameRuns k q r) (hcore : (q.getCore k).a = (p.getCore k).a := by rfl) (hrst : q.rst = p.rst := by rfl)
    (hrctr : q.rctr = p.rctr := by rfl) : SameRuns k p r := ⟨h.core.trans hcore, h.rst.trans hrst, h.rctr.trans hrctr⟩

theorem SameRuns.ite {b : Prop} [Decidable b] (hq : SameRuns k p q) (hr : SameRuns k p r) : SameRuns k p (if b then q else r) := by
  split
  · exact hq
  · exact hr

theorem SameRuns.each {α : Type} (l : List α) {f : α → Panel → Panel} (h : ∀ a p, SameRuns k p (f a p)) (p : Panel) : SameRuns k p (each l f p) :=
  each_keeps (P := SameRuns k p) l (fun a _ hq => hq.trans (h a _)) (.refl k p)

theorem modCore_sameRuns {f : Core → Core} (hf : ∀ x, (f x).a = x.a) (j : Nat) (p : Panel) : SameRuns k p (p.modCore j f) := by
  refine ⟨?_, rfl, rfl⟩
  by_cases h : k = j
  · subst h
    rw [Panel.modCore_same]
    exact hf _
  · rw [Panel.modCore_ne p _ h]

theorem Reported.sameRuns (h : Reported p q) : SameRuns k p q := ⟨congrArg Core.a (h.getCore_eq k), h.rst, h.rctr⟩

theorem dropAccesses_sameRuns (keep : Bool) (site : Nat) (p : Panel) : SameRuns k p (dropAccesses keep site p) := by
  unfold dropAccesses
  extract_lets stays q lost
  have hq : SameRuns k p q := by
    unfold q
    exact .each _ (fun j u => modCore_sameRuns (fun x => by rfl) j u) p
  exact .ite hq (hq.trans ⟨rfl, rfl, rfl⟩)

theorem dropLinks_sameRuns (site : Nat) (p : Panel) : SameRuns k p (dropLinks site p) := by
  have hcut : SameRuns k p (cutLinks site p) := by
    unfold cutLinks
    extract_lets off q
    have hq : SameRuns k p q := by
      unfold q
      exact .each _ (fun e u => ⟨by rfl, by rfl, by rfl⟩) p
    refine hq.trans (.each _ (fun port u => ?_) q)
    split
    · exact .refl k u
    · split <;> exact ⟨rfl, rfl, rfl⟩
  unfold dropLinks
  extract_lets q1 q2 clear
  have hq : SameRuns k p q2 := hcut.trans ⟨rfl, rfl, rfl⟩
  exact .ite (hq.trans (.each _ (fun e u => ⟨by rfl, by rfl, by rfl⟩) q2)) hq


/-- Core `k` is in a reset, its KV map cleared. -/
def dieCoreReset (k : Nat) (p : Panel) : Panel := (coreReset k p).modCore k fun c => { c with kvmap := [] }

theorem dieCoreReset_run (k : Nat) (p : Panel) : ((dieCoreReset k p).getCore k).a.run = .resetting := by
  rw [dieCoreReset, Panel.modCore_same]
  exact (coreReset_inReset k p).1

theorem dieCoreReset_keeps (h : (p.getCore k).a.run = .resetting) (j : Nat) : ((dieCoreReset j p).getCore k).a.run = .resetting := by
  by_cases hj : k = j
  · subst hj
    exact dieCoreReset_run k p
  · rw [dieCoreReset, Panel.modCore_ne _ _ hj]
    exact (congrArg (fun c : Core => c.a.run) (Panel.modCore_ne p _ hj)).trans h

theorem each_dieCoreReset_run {l : List Nat} (hk : k ∈ l) (p : Panel) : ((each l dieCoreReset p).getCore k).a.run = .resetting := by
  induction l generalizing p with
  | nil => exact absurd hk List.not_mem_nil
  | cons j l ih =>
    obtain rfl | hk := List.mem_cons.mp hk
    · exact each_keeps (P := fun q : Panel => (q.getCore k).a.run = .resetting) l (fun j q h => dieCoreReset_keeps h j) (dieCoreReset_run k p)
    · exact ih hk (dieCoreReset j p)

theorem each_dieCoreReset_rst (l : List Nat) (p : Panel) : (each l dieCoreReset p).rst = p.rst := by
  refine each_keeps (P := fun q : Panel => q.rst = p.rst) l (fun j q h => ?_) rfl
  exact h

theorem forgetPages_rst (site : Nat) (p : Panel) : (forgetPages site p).rst = p.rst := by
  refine each_keeps (P := fun q : Panel => q.rst = p.rst) _ (fun e q h => ?_) rfl
  exact h

/-- A die reset has begun: it is noted, and every core of the die is in reset. -/
theorem startDieReset_begins (hcs : isCompute cs = true) (part removal : Option Nat) (p : Panel) :
    (∃ x, (startDieReset cs part removal p).rst = Tab.set cs x p.rst) ∧ ∀ k ∈ coresOf cs, ((startDieReset cs part removal p).getCore k).a.run = .resetting := by
  unfold startDieReset
  extract_lets keep p1 p2 p3 p4 p5 p6 p7 p8
  have h2 : p2 = each (coresOf cs) dieCoreReset (forgetPages cs p1) := if_pos hcs
  have hrst : p2.rst = p1.rst := by
    rw [h2]
    exact (each_dieCoreReset_rst ..).trans (forgetPages_rst ..)
  have hrest (k : Nat) : SameRuns k p2 (if keep then p8 else dropLinks cs p8) := by
    have h3 : SameRuns k p2 p3 := .ite ⟨rfl, rfl, rfl⟩ (.refl k p2)
    have h6 : SameRuns k p3 p6 := .ite ⟨rfl, rfl, rfl⟩ ⟨rfl, rfl, rfl⟩
    have h7 : SameRuns k p6 p7 := .ite (dropAccesses_sameRuns ..).after (.refl k p6)
    have h8 : SameRuns k p7 p8 := ⟨rfl, rfl, rfl⟩
    have hall : SameRuns k p2 p8 := ((h3.trans h6).trans h7).trans h8
    exact .ite hall (hall.trans (dropLinks_sameRuns ..))
  refine ⟨⟨_, (hrest 0).rst.trans hrst⟩, fun k hk => ?_⟩
  rw [(hrest k).core, h2]
  exact each_dieCoreReset_run hk _

/-! Die resets end (R445, R446). -/

/-- A core's reset ends: its scratchpad is clear, and it is STOPPED. -/
def coreEnded (k : Nat) (t : State) : State :=
  { t with
    mem := t.mem.clear (gaScratch k 0) (gaScratch k scratchBytes)
    p := t.p.modCore k fun c => { c with clearing := 0, a := { c.a with run := .stopped } } }

theorem each_coreEnded_run {l : List Nat} (hk : k ∈ l) (t : State) : (coreA k (each l coreEnded t)).run = .stopped := by
  have hone (t : State) : (coreA k (coreEnded k t)).run = .stopped := by
    rw [coreA, coreEnded, Panel.modCore_same]
  have hkeeps (t : State) (h : (coreA k t).run = .stopped) (j : Nat) : (coreA k (coreEnded j t)).run = .stopped := by
    by_cases hj : k = j
    · subst hj
      exact hone t
    · rw [coreA, coreEnded, Panel.modCore_ne _ _ hj]
      exact h
  induction l generalizing t with
  | nil => exact absurd hk List.not_mem_nil
  | cons j l ih =>
    obtain rfl | hk := List.mem_cons.mp hk
    · exact each_keeps (P := fun t : State => (coreA k t).run = .stopped) l (fun j t h => hkeeps t h j) (hone t)
    · exact ih hk (coreEnded j t)

theorem each_coreEnded_rctr (l : List Nat) (t : State) : (each l coreEnded t).p.rctr = t.p.rctr := by
  refine each_keeps (P := fun u : State => u.p.rctr = t.p.rctr) l (fun j u h => ?_) rfl
  exact h

/-- A byte of a scratchpad of the list reads as cleared; every other byte is as before. -/
theorem each_coreEnded_read (l : List Nat) (t : State) (a : Nat) :
    (each l coreEnded t).mem.read a = if ∃ k ∈ l, gaScratch k 0 ≤ a ∧ a < gaScratch k scratchBytes then memDefault else t.mem.read a := by
  induction l generalizing t with
  | nil => simp [each]
  | cons j l ih =>
    refine (ih (coreEnded j t)).trans ?_
    rw [coreEnded, Mem.read_clear]
    by_cases hl : ∃ k ∈ l, gaScratch k 0 ≤ a ∧ a < gaScratch k scratchBytes
    · rw [if_pos hl, if_pos]
      obtain ⟨k, hk, h⟩ := hl
      exact ⟨k, List.mem_cons_of_mem j hk, h⟩
    · rw [if_neg hl]
      simp only [List.exists_mem_cons_iff, hl, or_false]

/-- A die reset by itself has ended in the panel: its clock restarts, what waits at the die is asked for, and it is counted and raised. -/
def resetEnded (cs : Nat) (keep : Bool) (p : Panel) : Panel :=
  raise 0x0D15 cs cs none ((pumpSite cs (restartClock cs { p with rst := Tab.del cs p.rst })).modRctr cs fun c => { c with
    die := c.die + 1, full := c.full + (if keep then 0 else 1), kept := c.kept + (if keep then 1 else 0) })

theorem endDieReset_alone (hcs : isCompute cs = true) {keep : Bool} (hrst : Tab.find? s.p.rst cs = some ⟨keep, none, none⟩) :
    endDieReset cs s = (each (coresOf cs) coreEnded s).onP (resetEnded cs keep) := by
  rw [endDieReset, hrst]
  dsimp only
  rw [if_pos hcs]
  rfl

theorem exec_dieResetDone (hcs : isCompute cs = true) : exec (.dieResetDone cs false) s = .next (endDieReset cs s) := by
  change execDieResetDone cs false s = _
  rw [execDieResetDone, isDie_of_isCompute hcs, State.run_true]
  exact congrArg Host.Outcome.next (if_neg (by simp))

theorem endDieReset_none (hrst : Tab.find? s.p.rst cs = none) : endDieReset cs s = s := by
  rw [endDieReset, hrst]

/-! What waits at a die, once asked for, leaves the cores' state (R485). -/

theorem askScan_sameRuns (site : Nat) (p : Panel) : SameRuns k p (askScan site p) := by
  unfold askScan
  dsimp only
  split
  · exact .refl k p
  · split
    · exact .refl k p
    · exact (modCore_sameRuns (k := k) (f := fun c => { c with parts := c.parts ++ [_] }) (fun _ => by rfl) _ p)

theorem askCheck_sameRuns (site ga len : Nat) (why : ScanFor) (p : Panel) : SameRuns k p (askCheck site ga len why p) := by
  have hbegin (q : Panel) : SameRuns k q (beginScan site q) := by
    unfold beginScan
    split
    · exact .refl k q
    · exact .ite (askScan_sameRuns ..).after (.refl k q)
  exact .ite (hbegin _).after (.refl k p)

theorem pumpSite_sameRuns (site : Nat) (p : Panel) : SameRuns k p (pumpSite site p) := by
  have hcopy (x : Copy) (q : Panel) : SameRuns k q (askCopy x.id q) := by
    unfold askCopy
    split
    · exact .refl k q
    · exact .ite (.refl k q) (askCheck_sameRuns ..).after
  unfold pumpSite pumpShards
  exact (SameRuns.each _ hcopy p).trans (.each _ (fun e q => .ite (askCheck_sameRuns ..).after (.refl k q)) _)

theorem resetEnded_frame (cs : Nat) (keep : Bool) (p : Panel) : (resetEnded cs keep p).rst = Tab.del cs p.rst
    ∧ ((resetEnded cs keep p).getRctr cs).die = (p.getRctr cs).die + 1 ∧ ∀ k, ((resetEnded cs keep p).getCore k).a = (p.getCore k).a := by
  have hpump (k : Nat) : SameRuns k (restartClock cs { p with rst := Tab.del cs p.rst }) (pumpSite cs (restartClock cs { p with rst := Tab.del cs p.rst })) :=
    pumpSite_sameRuns ..
  unfold resetEnded
  generalize pumpSite cs (restartClock cs { p with rst := Tab.del cs p.rst }) = q at hpump
  refine ⟨(raise_reported ..).rst.trans (hpump 0).rst, ?_, fun k => (Reported.sameRuns (k := k) (raise_reported ..)).core.trans (hpump k).core⟩
  rw [Panel.getRctr, (raise_reported ..).rctr]
  change ((q.modRctr cs _).getRctr cs).die = _
  rw [Panel.modRctr_same, Panel.getRctr, (hpump 0).rctr]
  rfl

theorem Tab.find?_del {α : Type} (k : Nat) (t : Tab α) : Tab.find? (Tab.del k t) k = none := by
  induction t with
  | nil => rfl
  | cons e t ih =>
    obtain ⟨j, x⟩ := e
    by_cases hj : j = k
    · simpa [Tab.del, hj] using ih
    · simpa [Tab.del, Tab.find?, hj] using ih

theorem isSome_find?_set {α : Type} (k : Nat) (v : α) (t : Tab α) : (Tab.find? (Tab.set k v t) k).isSome = true := by
  rw [Tab.find?_set, if_pos rfl]
  rfl

theorem gaScratch_mem {k i : Nat} (hi : i < scratchBytes) : gaScratch k 0 ≤ gaScratch k i ∧ gaScratch k i < gaScratch k scratchBytes := by
  unfold gaScratch
  omega

end Sys2Proof.Machine
end

section
open Sys2Proof Sys2Proof.Machine

/-- Settles O52: each command's panel, and the partition, the units, the cores and the bytes in it. -/
theorem partitionsFormPackUpAndResetTheirDies : Obligations.PartitionsFormPackUpAndResetTheirDies := by
  unfold Obligations.PartitionsFormPackUpAndResetTheirDies
  intro n cs s hn hcs
  refine ⟨?forms, exec_partitionRecordCommit_packing hn, ?erased, fun i hi => ⟨?begins, ?refused⟩,
    fun u hpack => ⟨?cut, exec_packupStepDone_waits hn hpack, ?again, fun hstep => ⟨?limit, exec_packupDrainLimit_early hn hpack⟩,
      fun hstep hzero hrank => ⟨?zeroise, exec_keyZeroiseTimeout_early hn hpack hcs⟩⟩,
    fun at_ hload hrank => ⟨?load, exec_keyLoadTimeout_early hn hcs hload⟩,
    fun mask hpos hlt => ⟨?cores, exec_coreResetCommand_refused hcs hpos hlt⟩, ?die, exec_dieResetCommand_refused hcs, ?done, ?idle⟩
  case forms =>
    intro sealed m hfree hnone hm hfields hhealthy hall
    refine ⟨_, exec_partitionRecordCommit_forms hn hfree hnone hm hfields hhealthy hall, State.onP_mem .., ?_⟩
    rw [State.onP_p]
    obtain ⟨hphase, hmembers, hsealed, hgen, hkey⟩ := formedPart_getPart n sealed m s.p
    refine ⟨hphase, hmembers, hsealed, hgen, hkey, fun c hc => formedPart_ust hc ?_ ?_⟩
    · exact Nat.lt_trans (List.mem_range.mp (List.mem_filter.mp hc).1) (by decide)
    · rw [usable, (hall c hc).1]
      rfl
  case erased =>
    intro y hpart hremoving hrst husable
    have hy : s.p.getPart n = y := by
      rw [Panel.getPart, hpart]
      exact if_pos rfl
    refine ⟨_, exec_memberEraseDone hcs hpart hremoving hrst, erasedPanel_removing (by rw [hy]; exact hremoving), erasedPanel_ust hcs husable,
      fun i hi => ?_, fun a ha => ?_⟩
    · rw [Mem.read_clear, if_pos]
      unfold gaStack
      omega
    · rw [Mem.read_clear, if_neg]
      omega
  case begins =>
    intro hformed
    rcases hi with rfl | rfl
    · obtain ⟨hphase, hmembers, hpack⟩ := startPackup_getPart hformed false
      exact ⟨_, _, exec_partitionReset hn, State.onP_mem .., hphase, hmembers, hpack, rfl, rfl, by simp [packBegun]⟩
    · obtain ⟨hphase, hmembers, hpack⟩ := startPackup_getPart hformed true
      exact ⟨_, _, exec_partitionDissolve hn, State.onP_mem .., hphase, hmembers, hpack, rfl, rfl, by simp [packBegun]⟩
  case refused =>
    intro hformed
    rcases hi with rfl | rfl
    · exact (exec_partitionReset hn).trans (congrArg _ (State.onP_congr (g := id) (startPackup_refused hformed false)))
    · exact (exec_partitionDissolve hn).trans (congrArg _ (State.onP_congr (g := id) (startPackup_refused hformed true)))
  case cut =>
    intro hstep
    refine ⟨_, exec_packupStepDone_cut hn hpack hstep, State.onP_mem .., ?_⟩
    rw [State.onP_p, getPart_modPack, getPart_setStep, hpack]
    rfl
  case again =>
    intro hstep hreset hkey
    refine ⟨_, exec_packupStepDone_formed hn hpack hstep hkey, State.onP_mem .., ?_⟩
    obtain ⟨stat, members, hpart, hcount⟩ := endPackup_getPart n s.p hreset
    rw [State.onP_p, hpart]
    exact ⟨rfl, rfl, rfl, hcount⟩
  case limit =>
    intro hdue
    refine ⟨_, exec_packupDrainLimit hn hpack hstep hdue, State.onP_mem .., ?_⟩
    obtain ⟨cut, hpart⟩ := toCut_getPart hpack
    rw [State.onP_p, hpart]
    exact ⟨rfl, rfl⟩
  case zeroise =>
    intro hdue
    refine ⟨_, exec_keyZeroiseTimeout hn hpack hcs hstep hzero hdue, State.onP_mem .., ?_⟩
    rw [State.onP_p, ust_of_unit (raise_book_unit ..), getPart_of_part ((raise_part ..).trans (moveUnit_unitsMoved ..).part), getPart_modPack, hpack]
    refine ⟨moveUnit_ust hrank _, ?_⟩
    simp [hzero]
  case load =>
    intro hdue
    obtain ⟨f, hrun, hreported⟩ := exec_keyLoadTimeout hn hcs hload hdue
    refine ⟨_, hrun, State.onP_mem .., ?_⟩
    rw [State.onP_p, ust_of_unit hreported.book_unit, getPart_of_part hreported.part, loadFailed, ust_of_unit (raise_book_unit ..),
      getPart_of_part ((raise_part ..).trans (moveUnit_unitsMoved ..).part)]
    refine ⟨moveUnit_ust hrank _, ?_⟩
    exact loadGivenUp_loading hload
  case cores =>
    intro hok
    refine ⟨_, exec_coreResetCommand hcs hpos hlt hok, State.onP_mem .., fun c hc hbit => ?_, fun j hj => ?_⟩
    · exact each_coreReset_inReset (mem_maskCores.mpr ⟨c, hc, hbit, rfl⟩) s.p
    · refine each_coreReset_getCore_ne (fun hmem => ?_) s.p
      obtain ⟨c, hc, hbit, hk⟩ := mem_maskCores.mp hmem
      exact hj c hc hbit hk
  case die =>
    intro hok hrst
    obtain ⟨⟨x, hset⟩, hrun⟩ := startDieReset_begins hcs none none s.p
    refine ⟨_, exec_dieResetCommand hcs hok hrst, State.onP_mem .., ?_⟩
    rw [State.onP_p, hset]
    refine ⟨isSome_find?_set .., fun c hc => hrun _ ?_⟩
    simp only [coresOf, List.mem_cons, List.not_mem_nil, or_false]
    omega
  case done =>
    intro y hy hpart hremoval
    obtain ⟨keep, part, removal⟩ := y
    subst hpart hremoval
    obtain ⟨hrst, hdie, hcore⟩ := resetEnded_frame cs keep (each (coresOf cs) coreEnded s).p
    refine ⟨_, exec_dieResetDone hcs, ?_⟩
    rw [endDieReset_alone hcs hy, State.onP_p, State.onP_mem, hrst, hdie]
    refine ⟨Tab.find?_del .., ?_, fun k hk => ⟨?_, fun i hi => ?_⟩, fun a ha => ?_⟩
    · rw [Panel.getRctr, each_coreEnded_rctr]
      rfl
    · rw [coreA, State.onP_p, hcore]
      exact each_coreEnded_run hk s
    · rw [each_coreEnded_read, if_pos ⟨k, hk, gaScratch_mem hi⟩]
    · rw [each_coreEnded_read, if_neg]
      rintro ⟨k, hk, hlo, hhi⟩
      have hout := ha k hk
      omega
  case idle =>
    intro hrst
    rw [exec_dieResetDone hcs, endDieReset_none hrst]

end

section
/-! PROOFS. Fabric ports: training, link sessions, frames, and pulled cables (R472, R517-R533, R547). -/

namespace Sys2Proof.Machine

variable {p q r : Panel} {s : State} {n g : Nat}

/-! A port's own state: what a phase, an event and a discard leave of it. -/

theorem getPort_of_fab (h : q.fab = p.fab) (n : Nat) : q.getPort n = p.getPort n := congrArg (fun f : Fabric => Tab.get fport0 f.port n) h

theorem portRaise_getPort (n ev : Nat) (x : Dat) (p : Panel) (m : Nat) : (portRaise n ev x p).getPort m = p.getPort m :=
  getPort_of_fab (dieRaise_reported ..).fab m

theorem ite_portRaise_getPort {c : Prop} [Decidable c] (n ev : Nat) (x : Dat) (p : Panel) (m : Nat) :
    (if c then portRaise n ev x p else p).getPort m = p.getPort m := by
  split
  · exact portRaise_getPort ..
  · rfl

/-- A port's state in a new phase of training. -/
def FPort.phased (k now : Nat) (nonce : List Byte) (x : FPort) : FPort :=
  { x with
    phase := k, since := now, session := x.session && decide (k = 8), nonce := nonce,
    sendKey := if 7 ≤ k then x.sendKey else [], recvKey := if 7 ≤ k then x.recvKey else [], half := none,
    helloed := x.helloed && decide (6 < k), held := false, authAt := none, lmSent := x.lmSent && decide (7 < k),
    ctr := { x.ctr with attempts := x.ctr.attempts + (if k = 2 then 1 else 0) } }

theorem setPhase_getPort (n k : Nat) (p : Panel) : ∃ nonce, (setPhase n k p).getPort n = FPort.phased k p.now nonce (p.getPort n) := by
  unfold setPhase
  extract_lets v
  have hv : v.2.fab = p.fab := by
    unfold v
    split <;> rfl
  refine ⟨if k = 6 then leBytes 16 v.1 else (p.getPort n).nonce, ?_⟩
  rw [Panel.modPort_same, getPort_of_fab hv]
  rfl

theorem portDown_getPort (n k : Nat) (p : Panel) : ∃ nonce, (portDown n k p).getPort n = FPort.phased k p.now nonce (p.getPort n) := by
  obtain ⟨nonce, h⟩ := setPhase_getPort n k p
  exact ⟨nonce, (ite_portRaise_getPort ..).trans h⟩

theorem setPhase_now (n k : Nat) (p : Panel) : (setPhase n k p).now = p.now := by
  unfold setPhase
  extract_lets v
  have hv : v.2.now = p.now := by
    unfold v
    split <;> rfl
  exact hv

theorem portRaise_now (n ev : Nat) (x : Dat) (p : Panel) : (portRaise n ev x p).now = p.now := congrArg Clocks.tb (dieRaise_reported ..).clk

theorem portDown_now (n k : Nat) (p : Panel) : (portDown n k p).now = p.now := by
  unfold portDown
  extract_lets up q
  split
  · exact (portRaise_now ..).trans (setPhase_now ..)
  · exact setPhase_now ..

/-- A port that reaches UP has its session as before, its counter at 0. -/
theorem portUp_getPort (n : Nat) (p : Panel) :
    ((portUp n p).getPort n).phase = 8 ∧ ((portUp n p).getPort n).session = (p.getPort n).session ∧ ((portUp n p).getPort n).counter = 0 := by
  unfold portUp
  extract_lets x rseq last known lost keep next p1 p2
  obtain ⟨nonce, h⟩ := setPhase_getPort n 8 p2
  have h2 : p2.getPort n = p1.getPort n := ite_portRaise_getPort ..
  have h1 : (p1.getPort n).session = x.session ∧ (p1.getPort n).counter = 0 := by
    unfold p1
    rw [Panel.modPort_same]
    exact ⟨rfl, rfl⟩
  rw [portRaise_getPort, h, h2]
  exact ⟨rfl, (Bool.and_true _).trans h1.1, h1.2⟩

/-! Training (R517). -/

section
variable (hn : n < 12)
include hn

theorem isPort_of_lt : isPort n = true := decide_eq_true hn

theorem exec_portTrainingPhase_first (hruns : portRuns s.p n = true) (h1 : (s.p.getPort n).phase = 1) (hg : g % 4 ≠ 0) :
    exec (.portTrainingPhase n g) s = .next (s.onP fun p => setPhase n 2 (p.modPort n fun x => { x with groups := 3 })) := by
  change execPortTrainingPhase n g s = _
  rw [execPortTrainingPhase, isPort_of_lt hn]
  refine State.runP_eq ?_
  simp only [hruns, h1, hg, not_true_eq_false, if_true, if_false]

/-- A phase from 2 to 4 goes on with the lane groups that pass. -/
theorem exec_portTrainingPhase_groups (hruns : portRuns s.p n = true) (h2 : 2 ≤ (s.p.getPort n).phase) (h4 : (s.p.getPort n).phase ≤ 4)
    (hg : (s.p.getPort n).groups &&& g ≠ 0) :
    exec (.portTrainingPhase n g) s = .next (s.onP fun p => setPhase n ((s.p.getPort n).phase + 1) (p.modPort n fun x => { x with
      groups := (s.p.getPort n).groups &&& g,
      width := if (s.p.getPort n).phase = 4 then widthOf ((s.p.getPort n).groups &&& g) else x.width })) := by
  change execPortTrainingPhase n g s = _
  rw [execPortTrainingPhase, isPort_of_lt hn]
  refine State.runP_eq ?_
  generalize hk : (s.p.getPort n).phase = k at h2 h4
  have : k = 2 ∨ k = 3 ∨ k = 4 := by omega
  rcases this with rfl | rfl | rfl
  · simp [hruns, hk, hg]
  · simp [hruns, hk, hg]
  · simp [hruns, hk, hg]

theorem exec_portTrainingPhase_up (hruns : portRuns s.p n = true) (h7 : (s.p.getPort n).phase = 7) (hs : (s.p.getPort n).session = true) :
    exec (.portTrainingPhase n g) s = .next (s.onP fun p => portUp n (p.modPort n fun x => { x with session := true })) := by
  change execPortTrainingPhase n g s = _
  rw [execPortTrainingPhase, isPort_of_lt hn]
  refine State.runP_eq ?_
  simp only [hruns, h7, hs, not_true_eq_false, if_true, if_false]

theorem exec_portTrainingPhase_noSession (hruns : portRuns s.p n = true) (h7 : (s.p.getPort n).phase = 7) (hs : (s.p.getPort n).session = false) :
    exec (.portTrainingPhase n g) s = .next s := by
  change execPortTrainingPhase n g s = _
  rw [execPortTrainingPhase, isPort_of_lt hn]
  refine State.runP_same ?_
  simp only [hruns, h7, hs, not_true_eq_false, if_false, Bool.false_eq_true]

theorem exec_portTrainingPhase_stopped (hruns : portRuns s.p n = false) : exec (.portTrainingPhase n g) s = .next s := by
  change execPortTrainingPhase n g s = _
  rw [execPortTrainingPhase, isPort_of_lt hn]
  exact State.runP_same (if_pos (by simp [hruns]))

/-- A phase beyond its limit begins again from the start, or from the search for a signal. -/
theorem exec_portTrainingTimeout (hruns : portRuns s.p n = true) (h2 : 2 ≤ (s.p.getPort n).phase) (h7 : (s.p.getPort n).phase ≤ 7)
    (hheld : (s.p.getPort n).held = false) (hauth : (s.p.getPort n).authAt = none)
    (hlim : (s.p.getPort n).since + trainLimit (s.p.getPort n).phase ≤ s.p.now) :
    exec (.portTrainingTimeout n false) s = .next (s.onP (setPhase n 1))
    ∧ ((s.p.getPort n).fails = [] → probing s.p (keyPort n) = false →
      exec (.portTrainingTimeout n true) s = .next (s.onP fun p => setPhase n 2 (p.modPort n fun x => { x with fails := [p.now] }))) := by
  have hgo : ¬ (¬ portRuns s.p n ∨ (s.p.getPort n).phase < 2 ∨ 7 < (s.p.getPort n).phase ∨ (s.p.getPort n).held
      ∨ (s.p.getPort n).authAt.isSome = true ∨ s.p.now < (s.p.getPort n).since + trainLimit (s.p.getPort n).phase) := by
    rw [hruns, hheld, hauth]
    simp only [Option.isSome_none, Bool.false_eq_true, not_true_eq_false, false_or]
    omega
  refine ⟨?_, fun hf hprobe => ?_⟩
  · change execPortTrainingTimeout n false s = _
    rw [execPortTrainingTimeout, isPort_of_lt hn]
    exact State.runP_eq ((if_neg hgo).trans (if_pos Bool.false_ne_true))
  · change execPortTrainingTimeout n true s = _
    rw [execPortTrainingTimeout, isPort_of_lt hn]
    refine State.runP_eq ((if_neg hgo).trans ((if_neg (not_not_intro rfl)).trans ?_))
    rw [hf]
    exact (if_neg (Bool.eq_false_iff.mp hprobe)).trans (if_neg (by simp))

theorem exec_portTrainingTimeout_early (h : s.p.now < (s.p.getPort n).since + trainLimit (s.p.getPort n).phase) (b : Bool) :
    exec (.portTrainingTimeout n b) s = .next s := by
  change execPortTrainingTimeout n b s = _
  rw [execPortTrainingTimeout, isPort_of_lt hn]
  exact State.runP_same (if_pos (.inr (.inr (.inr (.inr (.inr h))))))

/-! Link sessions and hellos (R472, R473, R527, R528). -/

theorem exec_fabricLinkSession (hruns : portRuns s.p n = true) (hph : (s.p.getPort n).phase = 7 ∨ (s.p.getPort n).phase = 8)
    (hauth : (s.p.getPort n).authAt = none) (hh : healthy s.p = true) (ok : Bool) :
    exec (.fabricLinkSession n ok) s = .next (s.onP (linkSession n ok)) := by
  change execFabricLinkSession n ok s = _
  rw [execFabricLinkSession, isPort_of_lt hn]
  exact State.runP_eq (if_pos ⟨hruns, hph, by rw [hauth]; rfl, hh⟩)

theorem exec_fabricLinkSession_stopped (hruns : portRuns s.p n = false) (ok : Bool) : exec (.fabricLinkSession n ok) s = .next s := by
  change execFabricLinkSession n ok s = _
  rw [execFabricLinkSession, isPort_of_lt hn]
  exact State.runP_same (if_neg fun h => Bool.eq_false_iff.mp hruns h.1)

theorem exec_fabricAuthRetry {at_ : Nat} (hruns : portRuns s.p n = true) (ha : (s.p.getPort n).authAt = some at_) (hh : healthy s.p = true)
    (hat : at_ ≤ s.p.now) (ok : Bool) : exec (.fabricAuthRetry n ok) s = .next (s.onP (linkSession n ok)) := by
  change execFabricAuthRetry n ok s = _
  rw [execFabricAuthRetry, isPort_of_lt hn]
  refine State.runP_eq ?_
  rw [ha]
  exact if_pos ⟨hruns, hat, hh⟩

theorem exec_fabricAuthRetry_early {at_ : Nat} (ha : (s.p.getPort n).authAt = some at_) (hat : s.p.now < at_) (ok : Bool) :
    exec (.fabricAuthRetry n ok) s = .next s := by
  change execFabricAuthRetry n ok s = _
  rw [execFabricAuthRetry, isPort_of_lt hn]
  refine State.runP_same ?_
  rw [ha]
  exact if_neg fun h => absurd h.2.1 (Nat.not_le.mpr hat)

theorem exec_fabricHello (hruns : portRuns s.p n = true) (h6 : 6 ≤ (s.p.getPort n).phase) (b : BitVec 320) :
    exec (.fabricHello n b) s = .next (s.onP (takeHello n (leBytes 40 b.toNat))) := by
  change execFabricHello n b s = _
  rw [execFabricHello, isPort_of_lt hn]
  exact State.runP_eq (if_pos ⟨hruns, h6⟩)

end

theorem linkSession_listed (h : peerListed p ((p.getPort n).peer.take 16) = true) : linkSession n true p = loadFabricKeys n p := if_pos h

theorem linkSession_unverified (hph : (p.getPort n).phase = 7 ∨ (p.getPort n).phase = 8) : ((linkSession n false p).getPort n).phase = 7
    ∧ ((linkSession n false p).getPort n).session = ((p.getPort n).session && decide ((p.getPort n).phase = 7))
    ∧ ((linkSession n false p).getPort n).authAt = some (p.now + 10 * ticksPerSecond) := by
  unfold linkSession
  rw [Bool.false_and, if_neg Bool.false_ne_true, portRaise_getPort, Panel.modPort_same]
  rcases hph with h7 | h8
  · rw [if_neg (by omega), h7]
    exact ⟨rfl, (Bool.and_true _).symm, rfl⟩
  · obtain ⟨nonce, hdown⟩ := portDown_getPort n 7 p
    rw [if_pos h8, hdown, portDown_now, h8]
    exact ⟨rfl, rfl, rfl⟩

/-- A hello from any partner is taken as the peer. -/
theorem takeHello_getPort (hp : (p.getPort n).pulled = none) (he : expectedSerial p n = none) (b : List Byte) :
    (takeHello n b p).getPort n = { p.getPort n with peer := b, helloed := true, held := false } := by
  unfold takeHello
  extract_lets x serial new wrong changed p1 p2
  have hwrong : wrong = false := by
    unfold wrong
    rw [he]
  have h2 : p2 = p1 := if_neg (by simp [x, hp])
  refine (ite_portRaise_getPort ..).trans ?_
  rw [h2]
  exact (Panel.modPort_same ..).trans (by rw [hwrong, Bool.false_and])

/-! Frames received (R519-R521). -/

/-- What a port keeps of the sequence of its frames. -/
def recvView (n : Nat) (p : Panel) : Option Nat × Bool × Nat × Nat × List LinkFrame :=
  ((p.getPort n).recvSeq, (p.getPort n).nak, (p.getPort n).seen, (p.getPort n).ctr.received, (p.getPort n).replay)

theorem recvView_modPort {f : FPort → FPort} (h : ∀ x : FPort, (f x).recvSeq = x.recvSeq ∧ (f x).nak = x.nak ∧ (f x).seen = x.seen
    ∧ (f x).ctr.received = x.ctr.received ∧ (f x).replay = x.replay) : recvView n (p.modPort n f) = recvView n p := by
  obtain ⟨h1, h2, h3, h4, h5⟩ := h (p.getPort n)
  unfold recvView
  rw [Panel.modPort_same, h1, h2, h3, h4, h5]

theorem fabDiscard_recvView (n : Nat) (p : Panel) : recvView n (fabDiscard n p) = recvView n p := by
  have h : (fabDiscard n p).getPort n = (p.modPort n fun x => { x with ctr := { x.ctr with discards := x.ctr.discards + 1 } }).getPort n :=
    getPort_of_fab (dieRaise_reported ..).fab n
  unfold recvView
  rw [h, Panel.modPort_same]

theorem ite_recvView {c : Prop} [Decidable c] (hq : recvView n q = recvView n p) (hr : recvView n r = recvView n p) :
    recvView n (if c then q else r) = recvView n p := by
  split
  · exact hq
  · exact hr

/-- A cell that is no hello moves nothing of the sequence of frames. -/
theorem takeFabricCell_recvView (c : Cell) (hc : CellF.typ c ≠ 5) (p : Panel) : recvView n (takeFabricCell n c p) = recvView n p := by
  have hret (f : Tab Nat → Tab Nat) : recvView n (fabDiscard n (p.modPort n fun x => { x with ret := f x.ret })) = recvView n p :=
    (fabDiscard_recvView ..).trans (recvView_modPort fun _ => ⟨rfl, rfl, rfl, rfl, rfl⟩)
  unfold takeFabricCell
  extract_lets ty v drop tag h
  have hdrop : recvView n (drop p) = recvView n p := hret _
  split
  · rfl
  split
  · exact recvView_modPort fun _ => ⟨rfl, rfl, rfl, rfl, rfl⟩
  refine ite_recvView hdrop ?_
  split
  · exact ite_recvView hdrop (recvView_modPort fun _ => ⟨rfl, rfl, rfl, rfl, rfl⟩)
  split
  · exact hdrop
  · exact ite_recvView hdrop rfl

theorem each_takeFabricCell_recvView {l : List Cell} (h : ∀ c ∈ l, CellF.typ c ≠ 5) (p : Panel) :
    recvView n (each l (takeFabricCell n) p) = recvView n p := by
  unfold each
  induction l generalizing p with
  | nil => rfl
  | cons c l ih =>
    exact (ih (fun d hd => h d (List.mem_cons_of_mem _ hd)) _).trans (takeFabricCell_recvView c (h c List.mem_cons_self) p)

theorem actFrame_recvView {f : LinkFrame} (hc : ∀ c ∈ f.cells, CellF.typ c ≠ 5) (hnak : f.nak = false) (p : Panel) :
    recvView n (actFrame n f p) = (some f.seq, false, (p.getPort n).seen, (p.getPort n).ctr.received, after f.ack (p.getPort n).replay) := by
  unfold actFrame
  extract_lets p1 p2 p3
  have h3 : p3 = p1 := if_neg (Bool.eq_false_iff.mp hnak)
  rw [each_takeFabricCell_recvView hc, h3]
  unfold recvView p1
  rw [Panel.modPort_same]

theorem countReplay_getPort (n dir : Nat) (p : Panel) : ∃ t k, (countReplay n dir p).getPort n
    = { p.getPort n with perSec := t, ctr := { (p.getPort n).ctr with replays := k } } := by
  unfold countReplay
  extract_lets sec k p1 p2
  refine ⟨Tab.set dir (sec, k) (p.getPort n).perSec, (p.getPort n).ctr.replays + 1, (ite_portRaise_getPort ..).trans ?_⟩
  exact (portRaise_getPort ..).trans (Panel.modPort_same ..)

/-- Frames whose check fails are counted and their replay asked for. -/
theorem checkFailed_getPort (n k : Nat) (p : Panel) : ((checkFailed n k true p).getPort n).recvSeq = (p.getPort n).recvSeq
    ∧ ((checkFailed n k true p).getPort n).seen = (p.getPort n).seen
    ∧ ((checkFailed n k true p).getPort n).ctr.checkFail = (p.getPort n).ctr.checkFail + k
    ∧ ((checkFailed n k true p).getPort n).nak = true := by
  unfold checkFailed
  extract_lets x p1 p2
  have h1 : p1.getPort n = { x with
      nak := true, failRow := if x.nak && true then x.failRow + 1 else x.failRow,
      ctr := { x.ctr with checkFail := x.ctr.checkFail + k } } := Panel.modPort_same ..
  have h2 : ∃ t m, p2.getPort n = { p1.getPort n with perSec := t, ctr := { (p1.getPort n).ctr with replays := m } } := by
    have : p2 = countReplay n 0 p1 := if_neg (by simp)
    exact this ▸ countReplay_getPort ..
  obtain ⟨t, m, h2⟩ := h2
  split
  · obtain ⟨nonce, hdown⟩ := portDown_getPort n 2 (p2.modPort n fun x => { x with failRow := 0 })
    rw [hdown, Panel.modPort_same, h2, h1]
    exact ⟨rfl, rfl, rfl, rfl⟩
  · rw [h2, h1]
    exact ⟨rfl, rfl, rfl, rfl⟩

/-- A pair's arrival is counted before it is opened. -/
def pairArrived (n : Nat) (p : Panel) : Panel :=
  p.modPort n fun x => { x with seen := x.seen + 2, ctr := { x.ctr with received := x.ctr.received + 2 } }

section
variable (hn : n < 12) (hruns : portRuns s.p n = true)
include hn hruns

section
variable {a b : List Byte} (h8 : (s.p.getPort n).phase = 8) (ha : a.length = 976) (hb : b.length = 976)
include h8 ha hb

theorem exec_fabricFrameReceive_pair {f h : LinkFrame} (hopen : openPair (s.p.getPort n).recvKey (s.p.getPort n).seen a b = some (f, h))
    (hq : (s.p.getPort n).recvSeq = none ∨ (s.p.getPort n).recvSeq = some ((f.seq + 2047) % 2048)) (hf : f.seq < 2048)
    (hs : h.seq = (f.seq + 1) % 2048) :
    exec (.fabricFrameReceive n true a b) s = .next (s.onP fun p => actFrame n h (actFrame n f (pairArrived n p))) := by
  change execFabricFrameReceive n true a b s = _
  rw [execFabricFrameReceive, isPort_of_lt hn, decide_eq_true ha, if_pos rfl, decide_eq_true hb]
  refine State.runP_eq ?_
  simp only [hruns, h8, hopen]
  refine (if_neg (by simp)).trans ((if_neg (by simp)).trans ((if_neg (by simp)).trans (if_pos ⟨?_, hs⟩)))
  rcases hq with hq | hq
  · rw [hq]
  · rw [hq]
    exact decide_eq_true (by omega)

theorem exec_fabricFrameReceive_refused (hopen : openPair (s.p.getPort n).recvKey (s.p.getPort n).seen a b = none) :
    exec (.fabricFrameReceive n true a b) s = .next (s.onP fun p => checkFailed n 2 true (pairArrived n p)) := by
  change execFabricFrameReceive n true a b s = _
  rw [execFabricFrameReceive, isPort_of_lt hn, decide_eq_true ha, if_pos rfl, decide_eq_true hb]
  refine State.runP_eq ?_
  simp only [hruns, h8, hopen]
  exact (if_neg (by simp)).trans ((if_neg (by simp)).trans (if_neg (by simp)))

end
end

/-! Frames sent (R518, R521, R533). -/

/-- A port with another turn, other queues and other credits. -/
def FPort.served (t : Nat) (e : Tab (List Cell)) (c : Tab Nat) (x : FPort) : FPort := { x with turn := t, egr := e, credit := c }

/-- A port with its hello sent at another tick, or its link management sent. -/
def FPort.greeted (a : Nat) (b : Bool) (x : FPort) : FPort := { x with helloAt := a, lmSent := b }

/-- A port with another count of credit holds. -/
def FPort.holding (h : Nat) (x : FPort) : FPort := { x with ctr := { x.ctr with holds := h } }

theorem fillOne_keeps (mask : Nat) (x : FPort) : ∃ t e c, (fillOne mask x).2.2 = FPort.served t e c x := by
  unfold fillOne
  extract_lets waits hold order
  split
  · exact ⟨_, _, _, rfl⟩
  · exact ⟨_, _, _, rfl⟩

/-- Filling a frame's positions moves the turn, the queues and the credits alone. -/
theorem fill_keeps (mask k : Nat) (x : FPort) : ∃ t e c, (fill mask k x).2.2 = FPort.served t e c x := by
  induction k generalizing x with
  | zero => exact ⟨_, _, _, rfl⟩
  | succ k ih =>
    obtain ⟨t, e, c, h⟩ := fillOne_keeps mask x
    obtain ⟨t', e', c', h'⟩ := ih (fillOne mask x).2.2
    exact ⟨t', e', c', h'.trans (by rw [h]; rfl)⟩

theorem fillers_getPort (n : Nat) (p : Panel) : ∃ a b, (fillers n p).2.getPort n = FPort.greeted a b (p.getPort n) := by
  unfold fillers
  extract_lets x due a pid
  have ha : ∃ t, a.2.getPort n = FPort.greeted t x.lmSent x := by
    unfold a
    split
    · exact ⟨p.now, Panel.modPort_same ..⟩
    · exact ⟨x.helloAt, rfl⟩
  obtain ⟨t, ha⟩ := ha
  split
  · refine ⟨t, true, (Panel.modPort_same ..).trans ?_⟩
    have h : a.2.freeNat.2.getPort n = a.2.getPort n := rfl
    rw [h, ha]
    rfl
  · exact ⟨t, x.lmSent, ha⟩

/-- A port that counts a frame, its credits returned. -/
def FPort.counted (y : FPort) : FPort :=
  { y with
    ret := y.ret.map fun e => (e.1, e.2 - min 31 e.2), framesUp := y.framesUp + (if y.phase = 8 then 1 else 0),
    ctr := { y.ctr with sent := y.ctr.sent + 1 } }

/-- A port as it is once a frame has been sent. -/
def FPort.leaves (f : LinkFrame) (y : FPort) : FPort :=
  if y.phase < 8 then { FPort.counted y with sent := [plainFrame f] }
  else match y.half with
    | none => { FPort.counted y with half := some f }
    | some e => { FPort.counted y with half := none, sent := sealPair y.sendKey y.counter e f, counter := y.counter + 2 }

theorem sendFrame_getPort (n : Nat) (f : LinkFrame) (p : Panel) : (sendFrame n f p).getPort n = FPort.leaves f (p.getPort n) :=
  (Panel.modPort_same ..).trans rfl

theorem FPort.leaves_keeps (f : LinkFrame) (y : FPort) : (FPort.leaves f y).ctr.sent = y.ctr.sent + 1 ∧ (FPort.leaves f y).trainSeq = y.trainSeq
    ∧ (FPort.leaves f y).resend = y.resend ∧ (FPort.leaves f y).sendSeq = y.sendSeq ∧ (FPort.leaves f y).replay = y.replay := by
  unfold FPort.leaves
  split
  · exact ⟨rfl, rfl, rfl, rfl, rfl⟩
  · split <;> exact ⟨rfl, rfl, rfl, rfl, rfl⟩

theorem FPort.leaves_half (f : LinkFrame) {y : FPort} (h8 : y.phase = 8) :
    (y.half = none → (FPort.leaves f y).half = some f ∧ (FPort.leaves f y).counter = y.counter)
    ∧ (∀ e, y.half = some e → (FPort.leaves f y).half = none ∧ (FPort.leaves f y).counter = y.counter + 2
      ∧ (FPort.leaves f y).sent = sealPair y.sendKey y.counter e f) := by
  have hlt : ¬ y.phase < 8 := by omega
  refine ⟨fun h => ?_, fun e h => ?_⟩
  · unfold FPort.leaves
    rw [if_neg hlt, h]
    exact ⟨rfl, rfl⟩
  · unfold FPort.leaves
    rw [if_neg hlt, h]
    exact ⟨rfl, rfl, rfl⟩

/-- A frame of a training leaves with the training's own sequence. -/
def trainFrame (n : Nat) (p : Panel) : Panel :=
  sendFrame n (withTrailer (p.getPort n) ⟨(p.getPort n).trainSeq % 2048, 0, false, [], layCells (List.replicate 20 none) (fillers n p).1⟩)
    ((fillers n p).2.modPort n fun x => { x with trainSeq := (x.trainSeq + 1) % 2048 })

/-- The port and the cells with the slot table's positions filled. -/
def filledPort (n : Nat) (p : Panel) : List (Option Cell) × Nat × FPort :=
  fill (if panelId p ≠ 0xFFF then Tab.get 0 (Tab.get [] (p.getPort n).slot (p.fab.bank % 2)) (p.now % p.fab.per) else 0) 20 (p.getPort n)

/-- The panel once the positions are filled and the credit holds counted. -/
def filled (n : Nat) (p : Panel) : Panel :=
  let r := filledPort n p
  let p := p.modPort n fun _ => { r.2.2 with ctr := { r.2.2.ctr with holds := r.2.2.ctr.holds + r.2.1 } }
  if 0 < r.2.1 then portRaise n 0x0A0C none p else p

/-- A new frame under the slot table. -/
def newFrame (n : Nat) (p : Panel) : LinkFrame :=
  let l := fillers n (filled n p)
  let y := l.2.getPort n
  withTrailer y ⟨y.sendSeq % 2048, 0, false, [], layCells (filledPort n p).1 l.1⟩

/-- A port that keeps a new frame for replay. -/
def FPort.keeping (f : LinkFrame) (x : FPort) : FPort := { x with replay := x.replay ++ [f], sendSeq := (x.sendSeq + 1) % 2048 }

/-- A new frame is kept for replay and leaves. -/
def sendNewFrame (n : Nat) (p : Panel) : Panel :=
  sendFrame n (newFrame n p) ((fillers n (filled n p)).2.modPort n (FPort.keeping (newFrame n p)))

theorem filled_getPort (n : Nat) (p : Panel) : ∃ t e c h, (filled n p).getPort n
    = FPort.holding h (FPort.served t e c (p.getPort n)) := by
  unfold filled
  extract_lets r p1
  obtain ⟨t, e, c, hr⟩ : ∃ t e c, r.2.2 = FPort.served t e c (p.getPort n) := fill_keeps ..
  refine ⟨t, e, c, r.2.2.ctr.holds + r.2.1, (ite_portRaise_getPort ..).trans ((Panel.modPort_same ..).trans ?_)⟩
  rw [← hr]
  rfl

/-- The port once a new frame's cells are laid: its sequence, its replay buffer, its pair and its keys are as before. -/
theorem laid_getPort (n : Nat) (p : Panel) : ∃ t e c h a b, (fillers n (filled n p)).2.getPort n
    = FPort.greeted a b (FPort.holding h (FPort.served t e c (p.getPort n))) := by
  obtain ⟨a, b, hl⟩ := fillers_getPort n (filled n p)
  obtain ⟨t, e, c, h, hf⟩ := filled_getPort n p
  exact ⟨t, e, c, h, a, b, by rw [hl, hf]⟩

theorem newFrame_seq (n : Nat) (p : Panel) : (newFrame n p).seq = (p.getPort n).sendSeq % 2048 := by
  obtain ⟨t, e, c, h, a, b, hl⟩ := laid_getPort n p
  have hseq : ((fillers n (filled n p)).2.getPort n).sendSeq = (p.getPort n).sendSeq := by
    rw [hl]
    rfl
  exact congrArg (· % 2048) hseq

theorem sends_of_phase (hruns : portRuns s.p n = true) (hc : (s.p.getPort n).counter + 1 < 2 ^ 48) (h5 : 5 ≤ (s.p.getPort n).phase) :
    ¬ (¬ portRuns s.p n ∨ (s.p.getPort n).phase < 5 ∨ 2 ^ 48 ≤ (s.p.getPort n).counter + 1) := by
  rw [hruns]
  simp only [not_true_eq_false, false_or]
  omega

section
variable (hn : n < 12)
include hn

theorem exec_fabricFrameSend_stopped (hruns : portRuns s.p n = false) : exec (.fabricFrameSend n) s = .next s := by
  change execFabricFrameSend n s = _
  rw [execFabricFrameSend, isPort_of_lt hn]
  exact State.runP_same (if_pos (.inl (by simp [hruns])))

variable (hruns : portRuns s.p n = true) (hc : (s.p.getPort n).counter + 1 < 2 ^ 48)
include hruns hc

theorem exec_fabricFrameSend_training (h5 : 5 ≤ (s.p.getPort n).phase) (h8 : (s.p.getPort n).phase < 8) :
    exec (.fabricFrameSend n) s = .next (s.onP (trainFrame n)) := by
  change execFabricFrameSend n s = _
  rw [execFabricFrameSend, isPort_of_lt hn]
  exact State.runP_eq ((if_neg (sends_of_phase hruns hc h5)).trans (if_pos h8))

theorem exec_fabricFrameSend_replay (h8 : (s.p.getPort n).phase = 8) {f : LinkFrame} {l : List LinkFrame} (hl : (s.p.getPort n).resend = f :: l) :
    exec (.fabricFrameSend n) s = .next (s.onP fun p => sendFrame n (withTrailer (p.getPort n) f) (p.modPort n fun x => { x with
      resend := l, replay := x.replay.map fun g => if g.seq = f.seq then withTrailer x g else g })) := by
  change execFabricFrameSend n s = _
  rw [execFabricFrameSend, isPort_of_lt hn]
  refine State.runP_eq ((if_neg (sends_of_phase hruns hc (by omega))).trans ((if_neg (by omega)).trans ?_))
  rw [hl]

theorem exec_fabricFrameSend_new (h8 : (s.p.getPort n).phase = 8) (hl : (s.p.getPort n).resend = []) (hr : (s.p.getPort n).replay.length < 1024) :
    exec (.fabricFrameSend n) s = .next (s.onP (sendNewFrame n)) := by
  change execFabricFrameSend n s = _
  rw [execFabricFrameSend, isPort_of_lt hn]
  refine State.runP_eq ((if_neg (sends_of_phase hruns hc (by omega))).trans ((if_neg (by omega)).trans ?_))
  rw [hl]
  exact if_neg (Nat.not_le.mpr hr)

end

theorem trainFrame_getPort (n : Nat) (p : Panel) : ((trainFrame n p).getPort n).ctr.sent = (p.getPort n).ctr.sent + 1
    ∧ ((trainFrame n p).getPort n).trainSeq = ((p.getPort n).trainSeq + 1) % 2048 := by
  obtain ⟨a, b, hl⟩ := fillers_getPort n p
  unfold trainFrame
  rw [sendFrame_getPort]
  obtain ⟨hsent, htrain, -⟩ := FPort.leaves_keeps (withTrailer (p.getPort n) ⟨(p.getPort n).trainSeq % 2048, 0, false, [],
    layCells (List.replicate 20 none) (fillers n p).1⟩) (((fillers n p).2.modPort n fun x => { x with trainSeq := (x.trainSeq + 1) % 2048 }).getPort n)
  rw [hsent, htrain, Panel.modPort_same, hl]
  exact ⟨rfl, rfl⟩

theorem sendNewFrame_getPort (h8 : (p.getPort n).phase = 8) : ((sendNewFrame n p).getPort n).sendSeq = ((p.getPort n).sendSeq + 1) % 2048
    ∧ ((sendNewFrame n p).getPort n).replay = (p.getPort n).replay ++ [newFrame n p]
    ∧ ((p.getPort n).half = none → ((sendNewFrame n p).getPort n).half = some (newFrame n p)
      ∧ ((sendNewFrame n p).getPort n).counter = (p.getPort n).counter)
    ∧ (∀ e, (p.getPort n).half = some e → ((sendNewFrame n p).getPort n).half = none
      ∧ ((sendNewFrame n p).getPort n).counter = (p.getPort n).counter + 2
      ∧ ((sendNewFrame n p).getPort n).sent = sealPair (p.getPort n).sendKey (p.getPort n).counter e (newFrame n p)) := by
  obtain ⟨t, e, c, h, a, b, hl⟩ := laid_getPort n p
  unfold sendNewFrame
  rw [sendFrame_getPort, Panel.modPort_same, hl]
  generalize newFrame n p = f
  generalize p.getPort n = x at h8 ⊢
  generalize hy : FPort.keeping f (FPort.greeted a b (FPort.holding h (FPort.served t e c x))) = y
  have hphase : y.phase = x.phase := hy ▸ rfl
  have hhalf : y.half = x.half := hy ▸ rfl
  have hcounter : y.counter = x.counter := hy ▸ rfl
  have hkey : y.sendKey = x.sendKey := hy ▸ rfl
  have hlast : y.sendSeq = (x.sendSeq + 1) % 2048 ∧ y.replay = x.replay ++ [f] := hy ▸ ⟨rfl, rfl⟩
  obtain ⟨-, -, -, hseq, hreplay⟩ := FPort.leaves_keeps f y
  rw [hseq, hreplay, ← hhalf, ← hcounter, ← hkey]
  exact ⟨hlast.1, hlast.2, FPort.leaves_half f (hphase.trans h8)⟩

/-! Pulled cables (R547). -/

theorem exec_cableRemoval (hn : n < 12) (h8 : (s.p.getPort n).phase = 8) :
    exec (.cableRemoval n) s = .next (s.onP fun p => (portDown n 1 p).modPort n fun x => { x with pulled := some p.now, width := 0 }) := by
  change execCableRemoval n s = _
  rw [execCableRemoval, isPort_of_lt hn]
  exact State.runP_eq (if_pos h8)

theorem exec_cableHoldExpiry (hn : n < 12) {at_ : Nat} (ha : (s.p.getPort n).pulled = some at_) (h8 : (s.p.getPort n).phase ≠ 8) :
    (at_ + 10 * ticksPerSecond ≤ s.p.now → exec (.cableHoldExpiry n) s = .next (s.onP (cutPort n)))
    ∧ (s.p.now < at_ + 10 * ticksPerSecond → exec (.cableHoldExpiry n) s = .next s) := by
  change (_ → execCableHoldExpiry n s = _) ∧ (_ → execCableHoldExpiry n s = _)
  rw [execCableHoldExpiry, isPort_of_lt hn]
  refine ⟨fun h => State.runP_eq ?_, fun h => State.runP_same ?_⟩
  · rw [ha]
    exact if_pos ⟨h, h8⟩
  · rw [ha]
    exact if_neg fun h' => absurd h'.1 (Nat.not_le.mpr h)

theorem cutPort_getPort (n : Nat) (p : Panel) : ((cutPort n p).getPort n).pulled = none ∧ ((cutPort n p).getPort n).replay = []
    ∧ ((cutPort n p).getPort n).egr = [] ∧ ((cutPort n p).getPort n).ctr.discards
      = (p.getPort n).ctr.discards + (portCells (p.getPort n) + (p.fab.transit.filter fun y => decide (y.owes = some n)).length) := by
  unfold cutPort
  extract_lets k p1
  have h : p1.getPort n = { p.getPort n with
      inq := [], egr := [], replay := [], resend := [], pulled := none, cut := true
      ctr := { (p.getPort n).ctr with discards := (p.getPort n).ctr.discards + k } } := Panel.modPort_same ..
  rw [ite_portRaise_getPort, h]
  exact ⟨rfl, rfl, rfl, rfl⟩

end Sys2Proof.Machine
end

section
open Sys2Proof Sys2Proof.Machine

/-- Settles O54: each clause names the panel its command makes, and reads the port of it. -/
theorem portsTrainAuthenticateAndExchangeFrames : Obligations.PortsTrainAuthenticateAndExchangeFrames := by
  unfold Obligations.PortsTrainAuthenticateAndExchangeFrames
  intro n g s hn
  extract_lets x peer theirs low z keys
  refine ⟨fun hruns => ⟨fun h1 hg => ?_, fun h2 h4 hg => ?_, fun h7 hs => ?_, exec_portTrainingPhase_noSession hn hruns,
    fun h2 h7 hheld hauth hlim => ?_, exec_portTrainingTimeout_early hn, fun hph hauth hh => ⟨fun hl => ?_, ?_⟩,
    fun at_ ha hh => ⟨fun hat hl => ?_, fun hat => exec_fabricAuthRetry_early hn ha hat _⟩, fun b h6 hp he => ?_,
    fun a b h8 ha hb => ⟨fun f h hopen hcells hf hh hq hlt hseq => ?_, fun hopen => ?_⟩,
    fun hc => ⟨fun h5 h8 => ?_, fun f l h8 hl => ?_, fun h8 hl hr => ?_⟩⟩,
    fun hruns => ⟨exec_portTrainingPhase_stopped hn hruns, exec_fabricFrameSend_stopped hn hruns, exec_fabricLinkSession_stopped hn hruns⟩,
    fun h8 => ?_, fun at_ ha h8 => ⟨fun hat => ?_, (exec_cableHoldExpiry hn ha h8).2⟩⟩
  · obtain ⟨nonce, hset⟩ := setPhase_getPort n 2 (s.p.modPort n fun x => { x with groups := 3 })
    refine ⟨_, exec_portTrainingPhase_first hn hruns h1 hg, State.onP_mem .., ?_⟩
    rw [State.onP_p, hset, Panel.modPort_same]
    exact ⟨rfl, rfl, rfl, rfl⟩
  · obtain ⟨nonce, hset⟩ := setPhase_getPort n (x.phase + 1) (s.p.modPort n fun y => { y with
      groups := x.groups &&& g, width := if x.phase = 4 then widthOf (x.groups &&& g) else y.width })
    refine ⟨_, exec_portTrainingPhase_groups hn hruns h2 h4 hg, State.onP_mem .., ?_⟩
    rw [State.onP_p, hset, Panel.modPort_same]
    exact ⟨rfl, rfl⟩
  · obtain ⟨hphase, hsession, hcounter⟩ := portUp_getPort n (s.p.modPort n fun x => { x with session := true })
    refine ⟨_, exec_portTrainingPhase_up hn hruns h7 hs, State.onP_mem .., hphase, hsession.trans ?_, hcounter⟩
    rw [Panel.modPort_same]
  · obtain ⟨hlost, hseen⟩ := exec_portTrainingTimeout hn hruns h2 h7 hheld hauth hlim
    refine ⟨?_, fun hf hprobe => ?_⟩
    · obtain ⟨nonce, hset⟩ := setPhase_getPort n 1 s.p
      exact ⟨_, hlost, State.onP_mem .., congrArg FPort.phase hset⟩
    · obtain ⟨nonce, hset⟩ := setPhase_getPort n 2 (s.p.modPort n fun x => { x with fails := [s.p.now] })
      refine ⟨_, hseen hf hprobe, State.onP_mem .., ?_⟩
      rw [State.onP_p, hset, Panel.modPort_same]
      exact ⟨rfl, rfl⟩
  · refine ⟨_, exec_fabricLinkSession hn hruns hph hauth hh true, State.onP_mem .., ?_⟩
    rw [State.onP_p, linkSession_listed hl]
    exact Panel.modPort_same ..
  · exact ⟨_, exec_fabricLinkSession hn hruns hph hauth hh false, State.onP_mem .., linkSession_unverified hph⟩
  · refine ⟨_, exec_fabricAuthRetry hn hruns ha hh hat true, State.onP_mem .., ?_⟩
    rw [State.onP_p, linkSession_listed hl]
    have hkeys : ((loadFabricKeys n s.p).getPort n).session = true ∧ ((loadFabricKeys n s.p).getPort n).authAt = none := by
      rw [loadFabricKeys, Panel.modPort_same]
      exact ⟨rfl, rfl⟩
    exact hkeys
  · refine ⟨_, exec_fabricHello hn hruns h6 b, State.onP_mem .., ?_⟩
    rw [State.onP_p, takeHello_getPort hp he]
    exact ⟨rfl, rfl, rfl⟩
  · refine ⟨_, exec_fabricFrameReceive_pair hn hruns h8 ha hb hopen hq hlt hseq, State.onP_mem .., ?_⟩
    have h1 : recvView n (actFrame n f (pairArrived n s.p)) = _ :=
      actFrame_recvView (fun c hc => hcells c (List.mem_append_left _ hc)) hf _
    have h2 : recvView n (actFrame n h (actFrame n f (pairArrived n s.p))) = _ :=
      actFrame_recvView (fun c hc => hcells c (List.mem_append_right _ hc)) hh _
    rw [pairArrived, Panel.modPort_same] at h1
    simp only [recvView, Prod.mk.injEq] at h1 h2
    obtain ⟨-, -, hseen1, hrec1, hreplay1⟩ := h1
    obtain ⟨hq2, hnak2, hseen2, hrec2, hreplay2⟩ := h2
    exact ⟨hq2, hnak2, hseen2.trans hseen1, hrec2.trans hrec1, hreplay2.trans (congrArg _ hreplay1)⟩
  · refine ⟨_, exec_fabricFrameReceive_refused hn hruns h8 ha hb hopen, State.onP_mem .., ?_⟩
    obtain ⟨hq, hseen, hfail, hnak⟩ := checkFailed_getPort n 2 (pairArrived n s.p)
    rw [pairArrived, Panel.modPort_same] at hq hseen hfail
    exact ⟨hq, hseen, hfail, hnak⟩
  · obtain ⟨hsent, htrain⟩ := trainFrame_getPort n s.p
    exact ⟨_, exec_fabricFrameSend_training hn hruns hc h5 h8, State.onP_mem .., hsent, htrain⟩
  · refine ⟨_, exec_fabricFrameSend_replay hn hruns hc h8 hl, State.onP_mem .., ?_⟩
    rw [State.onP_p, sendFrame_getPort]
    obtain ⟨hsent, -, hresend, hseq, -⟩ := FPort.leaves_keeps (withTrailer x f) ((s.p.modPort n fun x => { x with
      resend := l, replay := x.replay.map fun g => if g.seq = f.seq then withTrailer x g else g }).getPort n)
    rw [Panel.modPort_same] at hsent hresend hseq
    rw [Panel.modPort_same]
    exact ⟨hsent, hresend, hseq⟩
  · obtain ⟨hseq, hreplay, hnone, hsome⟩ := sendNewFrame_getPort h8
    exact ⟨_, exec_fabricFrameSend_new hn hruns hc h8 hl hr, State.onP_mem .., hseq, newFrame n s.p, newFrame_seq .., hreplay, hnone, hsome⟩
  · obtain ⟨nonce, hdown⟩ := portDown_getPort n 1 s.p
    refine ⟨_, exec_cableRemoval hn h8, State.onP_mem .., ?_⟩
    rw [State.onP_p, Panel.modPort_same, hdown]
    exact ⟨rfl, rfl, rfl, rfl⟩
  · exact ⟨_, (exec_cableHoldExpiry hn ha h8).1 hat, State.onP_mem .., cutPort_getPort n s.p⟩

end

section
/-! PROOFS. Reports, entropy, images, measurements, the direct writes of credentials and panel IDs, and the guests' firewall
(R456-R464, R468, R474-R480, R528). -/

namespace Sys2Proof.Machine

variable {p q : Panel} {s : State} {slot n g i : Nat}

/-! Reports, entropy and measurements (R460, R463, R464). -/

theorem exec_reportNonceWrite {x : Session} (h : s.p.od.sessions.find? (fun y => decide (y.slot = slot)) = some x) (v : BitVec 384) :
    exec (.reportNonceWrite slot v) s = .next (s.onP (signReport x (leBytes 48 v.toNat))) := by
  change execReportNonceWrite slot v s = _
  rw [execReportNonceWrite]
  refine State.runP_eq ?_
  rw [h]

/-- A report is counted at the active hub and kept for its session's slot. -/
theorem signReport_sec (x : Session) (b : List Byte) (p : Panel) :
    Tab.get 0 (signReport x b p).sec.reports p.book.active = Tab.get 0 p.sec.reports p.book.active + 1
    ∧ Tab.get [] (signReport x b p).sec.report x.slot = reportOf p x b (freeBytes 56 p).1 :=
  ⟨Tab.get_upd_same .., Tab.get_set_same ..⟩

theorem exec_entropyRetest_fails (s : State) : exec (.entropyRetest 0xDD false) s = .next s := by
  change execEntropyRetest 0xDD false s = _
  exact State.runP_same (if_pos (.inr Bool.false_ne_true))

/-- A retested source of the hub that is not active is healthy again. -/
theorem exec_entropyRetest_passes (h : Tab.get true s.p.sec.healthy 1 = false) (ha : s.p.book.active = 0) :
    exec (.entropyRetest 0xDD true) s = .next (s.onP fun p => p.modSec fun c => { c with healthy := Tab.del 1 c.healthy }) := by
  change execEntropyRetest 0xDD true s = _
  refine State.runP_eq ((if_neg ?_).trans (if_neg ?_))
  · change ¬ (Tab.get true s.p.sec.healthy 1 = true ∨ ¬ true = true)
    simp [h]
  · change ¬ 1 = s.p.book.active
    omega

theorem exec_measurementExtend (h5 : 5 ≤ i) (h8 : i < 8) (d : BitVec 384) :
    exec (.measurementExtend i d) s = .next (s.onP fun p => extend p.book.active i (leBytes 48 d.toNat) p) := by
  change execMeasurementExtend i d s = _
  rw [execMeasurementExtend]
  refine State.runP_eq ((if_pos h8).trans ?_)
  rw [writeExtend, if_neg (by omega)]

theorem exec_measurementExtend_refused (h5 : i < 5) (d : BitVec 384) : exec (.measurementExtend i d) s = .next s := by
  change execMeasurementExtend i d s = _
  rw [execMeasurementExtend]
  refine State.runP_same ((if_pos (by omega)).trans ?_)
  rw [writeExtend, if_pos h5]

theorem extend_same (h i : Nat) (b : List Byte) (p : Panel) : measOf (extend h i b p) h i = sha384 (measOf p h i ++ b) := by
  unfold measOf extend
  rw [show (p.modSec _).sec.meas = Tab.upd [] h _ p.sec.meas from rfl, Tab.get_upd_same, Tab.get_set_same]
  rfl

theorem extend_ne (h : Nat) {i j : Nat} (hj : j ≠ i) (b : List Byte) (p : Panel) : measOf (extend h i b p) h j = measOf p h j := by
  unfold measOf extend
  rw [show (p.modSec _).sec.meas = Tab.upd [] h _ p.sec.meas from rfl, Tab.get_upd_same, Tab.get_set_ne _ _ hj]

/-! Firmware images and signing slots (R474, R475). -/

/-- A sector has been written to NOR. -/
def norWritten (p : Panel) : Panel := p.modPwr fun w => { w with checked := w.checked + 1, lastEst := estNor }

theorem norSector_ok (h : holdupOk p estNor = true) : norSector p = (true, norWritten p) := if_pos h

/-- An image's write begins with sector 0 erased. -/
def imageBegun (i slot : Nat) (p : Panel) : Panel :=
  (norWritten p).modSec fun c => { c with
    imgWrite := some ⟨i, slot, 0⟩, image := Tab.upd image0 i (fun x => { x with valid := false }) c.image }

theorem beginImage_ok (hu : imageInUse p i = false) (hb : holdupOk p estNor = true) : beginImage i slot p = (0, imageBegun i slot p) := by
  rw [beginImage, hu, norSector_ok hb]
  rfl

/-- An image as its bytes say, valid as its checks find. -/
def imageRead (p : Panel) (d : List Byte) : Image :=
  let n (o k : Nat) : Nat := leNat ((d.drop o).take k)
  ⟨sha384 (d.take 264 ++ (d.drop 4096).take (n 12 4)), imageChecks p d, n 4 4, n 8 2, n 10 1⟩

/-- The panel once an image's last sector is in. -/
def imageEnded (i : Nat) (d : List Byte) (p : Panel) : Panel :=
  let q := (norWritten p).modSec fun c => { c with imgWrite := none, image := Tab.set i (imageRead p d) c.image }
  if imageChecks p d then q else raise 0x0B02 q.activeHub keyPanel none q

theorem ceilDiv_le_one {a b : Nat} (h : a ≤ b) : ceilDiv a b ≤ 1 := by
  rcases Nat.eq_zero_or_pos b with rfl | hb
  · rw [ceilDiv, Nat.div_zero]
    exact Nat.zero_le 1
  · exact Nat.le_of_lt_succ ((Nat.div_lt_iff_lt_mul hb).mpr (by omega))

/-- Nothing more is programmed where the sectors written cover the bytes. -/
theorem feedImage_covered {got k : Nat} {w : ImageWrite} (hw : p.sec.imgWrite = some w) (h : ceilDiv got 65536 - 1 ≤ w.sectors) :
    feedImage got true (k + 1) p = (0, p) := by
  simp only [feedImage, hw, if_true, if_pos h]

/-- An image of one sector needs no further sector. -/
theorem feedImage_one {d : List Byte} (hl : d.length ≤ 65536) (i slot k : Nat) (p : Panel) :
    feedImage d.length true (k + 1) (imageBegun i slot p) = (0, imageBegun i slot p) :=
  feedImage_covered (w := ⟨i, slot, 0⟩) rfl (Nat.sub_le_of_le_add (ceilDiv_le_one hl))

theorem endImage_begun (hb : holdupOk p estNor = true) (i slot : Nat) (d : List Byte) :
    (endImage d (imageBegun i slot p)).2 = imageEnded i d (imageBegun i slot p) := by
  have hb' : holdupOk (imageBegun i slot p) estNor = true := hb
  unfold endImage
  rw [norSector_ok hb']
  rfl

/-- An image whose sectors are all programmed ends. -/
theorem writeImage_begun {r : Panel} {d : List Byte} (hbegin : beginImage i slot p = (0, q)) (hfeed : feedImage d.length true 257 q = (0, r)) :
    writeImage i slot d p = endImage d r := by
  simp only [writeImage, hbegin, hfeed, ne_eq, not_true_eq_false, if_false]

theorem exec_bootImageWrite {d : List Byte} (hi : i < 2) (hd : d ≠ []) (hl : d.length ≤ 65536) (hu : imageInUse s.p i = false)
    (hb : holdupOk s.p estNor = true) :
    exec (.bootImageWrite i slot d) s = .next (s.onP fun p => imageEnded i d (imageBegun i slot p)) := by
  change execBootImageWrite i slot d s = _
  rw [execBootImageWrite]
  refine State.runP_eq ((if_pos ⟨hi, hd, by omega⟩).trans ?_)
  rw [writeImage_begun (beginImage_ok hu hb) (feedImage_one hl ..), endImage_begun hb]

theorem exec_bootImageWrite_inUse {d : List Byte} (hi : i < 2) (hd : d ≠ []) (hl : d.length ≤ 65536) (hu : imageInUse s.p i = true) :
    exec (.bootImageWrite i slot d) s = .next s := by
  change execBootImageWrite i slot d s = _
  rw [execBootImageWrite]
  refine State.runP_same ((if_pos ⟨hi, hd, by omega⟩).trans ?_)
  have hbegin : beginImage i slot s.p = (abortOf 0x09 1 0, s.p) := if_pos hu
  rw [writeImage, hbegin]
  have habort : abortOf 0x09 1 0 ≠ 0 := by decide
  exact congrArg Prod.snd (if_pos habort)

theorem imageEnded_sec (i : Nat) (d : List Byte) (p : Panel) : (imageEnded i d p).sec.imgWrite = none
    ∧ imageOf (imageEnded i d p) i = imageRead p d ∧ (imageChecks p d = false → Logged 0x0B02 (imageEnded i d p)) := by
  unfold imageEnded
  extract_lets q
  have hq : q.sec.imgWrite = none ∧ imageOf q i = imageRead p d := ⟨rfl, Tab.get_set_same ..⟩
  cases h : imageChecks p d
  · rw [if_neg Bool.false_ne_true]
    exact ⟨(congrArg Sec.imgWrite (raise_sec ..)).trans hq.1, (congrArg (fun c : Sec => Tab.get image0 c.image i) (raise_sec ..)).trans hq.2,
      fun _ => raise_logged (by decide) ..⟩
  · rw [if_pos rfl]
    exact ⟨hq.1, hq.2, fun h => absurd h (by decide)⟩

theorem raiseSvn_ok {svn : Nat} (hsvn : (imageOf p (Tab.get 0xFE p.boot.image p.book.active)).svn = svn)
    (hrun : Tab.get 0xFE p.boot.image p.book.active < 2) (hall : ∀ i < 2, (imageOf p i).valid = true ∧ svn ≤ (imageOf p i).svn)
    (hw : p.sec.imgWrite = none) :
    raiseSvn p = (0, raise 0x0B0A p.activeHub keyPanel none (p.modSec fun c => { c with minSvn := max c.minSvn svn })) := by
  unfold raiseSvn
  extract_lets run least bad
  have hleast : least = svn := hsvn
  have hgood (i : Nat) (hi : i < 2) : bad i = false := by
    unfold bad
    rw [(hall i hi).1, hleast, decide_eq_false (Nat.not_lt.mpr (hall i hi).2)]
    rfl
  rw [hgood 0 (by decide), hgood 1 (by decide), hw, hleast]
  exact if_neg (by simpa using hrun)

theorem raiseSvn_refused (h : 2 ≤ Tab.get 0xFE p.boot.image p.book.active ∨ (imageOf p 0).valid = false ∨ (imageOf p 1).valid = false) :
    (raiseSvn p).2 = p := by
  unfold raiseSvn
  extract_lets run least bad
  have hbad (i : Nat) (hi : (imageOf p i).valid = false) : bad i = true := by
    unfold bad
    rw [hi]
    rfl
  refine congrArg Prod.snd (if_pos ?_)
  rcases h with h | h | h
  · exact .inl h
  · exact .inr (.inl (hbad 0 h))
  · exact .inr (.inr (.inl (hbad 1 h)))

theorem revokeSlot_ok (h : ∀ i < 2, (imageOf p i).valid = true → (imageOf p i).slot ≠ n) :
    revokeSlot n p = (0, raise 0x0B0B p.activeHub keyPanel none (p.modSec fun c => { c with revoked := c.revoked ||| 2 ^ n })) := by
  unfold revokeSlot
  exact if_neg (by simpa using ⟨h 0 (by decide), h 1 (by decide)⟩)

theorem revokeSlot_refused (hi : i < 2) (hv : (imageOf p i).valid = true) (hs : (imageOf p i).slot = n) : (revokeSlot n p).2 = p := by
  unfold revokeSlot
  refine congrArg Prod.snd (if_pos ?_)
  have : i = 0 ∨ i = 1 := by omega
  rcases this with rfl | rfl
  · exact .inl (by simp [hv, hs])
  · exact .inr (by simp [hv, hs])

theorem exec_revokeSigningSlot (hn : n < 4) : exec (.revokeSigningSlot n) s = .next (s.onP fun p => (revokeSlot n p).2) := by
  change execRevokeSigningSlot n s = _
  rw [execRevokeSigningSlot]
  exact State.runP_eq (if_pos hn)

/-! Credentials and the panel ID, written directly (R343-R348, R468, R528). -/

/-- The row of the credentials, and of the panel ID. -/
def credentialRow : ORow := oBlob 0xB030 (.upTo 31) .rw .s true 112 112 0
def panelIdRow : ORow := oNum 0xA000 (.only 0) .rw .e true (fW .u16 0xFFFF 0 0xFFFF)

theorem odRow_has {v i c : Nat} {r : ORow} (h : odRow v i c = some r) : r ∈ odArea i ∧ r.has i = true ∧ r.sub.ok v c = true :=
  have hfound : (r.has i && r.sub.ok v c) = true := List.find?_some (p := fun r : ORow => r.has i && r.sub.ok v c) h
  ⟨List.mem_of_find?_eq_some h, (Bool.and_eq_true _ _ ▸ hfound)⟩

theorem odRow_credential {v : Nat} {r : ORow} (h : odRow v 0xB030 n = some r) : r = credentialRow := by
  obtain ⟨hmem, hhas, -⟩ := odRow_has h
  have hall : ∀ r ∈ odRowsA, r.has 0xB030 = true → r = credentialRow := by decide
  exact hall r hmem hhas

theorem odRow_panelId {v : Nat} {r : ORow} (h : odRow v 0xA000 0 = some r) : r = panelIdRow := by
  obtain ⟨hmem, hhas, hok⟩ := odRow_has h
  have hall : ∀ r ∈ odRowsA, r.has 0xA000 = true → r = panelIdRow ∨ r.sub = .only 1 := by decide
  rcases hall r hmem hhas with h | h
  · exact h
  · rw [h] at hok
    exact absurd hok (by simp [OSub.ok])

/-- A store of persistent objects that waits behind another. -/
def nvQueued (id : Nat) (job : NvJob) (p : Panel) : Panel := p.modPwr fun w => { w with writes := w.writes ++ [⟨id, 0, [], false, job⟩] }

theorem nvQueued_writes (id : Nat) (job : NvJob) (p : Panel) : (nvQueued id job p).pwr.writes = p.pwr.writes ++ [⟨id, 0, [], false, job⟩] := rfl

theorem nvAsk_queued {w : NvWrite} (h : p.pwr.writes = [w]) (id : Nat) (job : NvJob) : nvAsk id job p = (true, nvQueued id job p) := by
  rw [nvAsk, nvEnter, h]
  rfl

section
variable {c : Nat} {b : List Byte} {r : ORow} {w : NvWrite} (hr : odRow s.p.variant i c = some r) (hunit : unitOf r i c = none) (hpers : r.pers = true)
  (hacc : r.acc = .rw)

include hr hunit hpers hacc

/-- A changed persistent value of no unit, which nothing else checks, joins the writes that wait. -/
theorem commitPuts_queued (x : Session) (block : Nat) (job : NvJob) (hi : i ≠ 0x1032) (hc : c < 256) (hstate : stateCheck s.p i c b = 0)
    (hcons : consistency s.p [(i, c, b)] = 0) (hne : odBytes s.p i c ≠ b) (hw : s.p.pwr.writes = [w]) :
    (commitPuts x block [(i, c, b)] job s).2.2
      = s.onP (nvQueued (recOf (256 * i + c)) { job with puts := [(256 * i + c, b)], blocks := [block] }) := by
  have hbusy : busyCheck s.p r i c = 0 := by
    rw [busyCheck, hacc]
    rfl
  have hdiv : (256 * i + c) / 256 = i := by omega
  have hmod : (256 * i + c) % 256 = c := by omega
  simp only [commitPuts, List.filterMap_cons, List.filterMap_nil, hr, Option.map_some, hunit, List.filter_cons, hpers, List.findSome?_cons,
    List.findSome?_nil, hstate, hbusy, hcons, if_true]
  rw [if_neg (by simp), if_neg (by simp)]
  split
  · exact absurd (congrArg (fun l : Puts => l.map (·.1)) ‹[(i, c, b)] = _›) (by simp [hi])
  · rw [if_neg (by simp [hdiv, hmod, hne]), nvAsk_queued hw]
    rfl

/-- A direct write that its session may make and that passes its checks joins the writes that wait. -/
theorem directWrite_queued {x : Session} (hx : liveSession s.p slot = some x) (hallowed : writeAllowed s.p x r c 0 false = 0)
    (hgate : gateCheck r s.p = (0, s.p)) (htype : typeCheck r 0 b = 0) (hrange : rangeCheck s.p r c b = 0) (hi : i ≠ 0x1032) (hc : c < 256)
    (hstate : stateCheck s.p i c b = 0) (hcons : consistency s.p [(i, c, b)] = 0) (hne : odBytes s.p i c ≠ b) (hw : s.p.pwr.writes = [w]) :
    directWrite slot i c b s = s.onP (nvQueued (recOf (256 * i + c)) { job0 with puts := [(256 * i + c, b)], blocks := [r.block c] }) := by
  simp only [directWrite, hx, hr, hallowed, hgate, writeValue, htype, hrange, ne_eq, not_true_eq_false, if_false, Bool.false_eq_true, or_self]
  exact commitPuts_queued hr hunit hpers hacc x (r.block c) (jobOf x none false 0 []) hi hc hstate hcons hne hw

end

theorem directWrite_refused {c : Nat} {b : List Byte} {r : ORow} {x : Session} (hr : odRow s.p.variant i c = some r) (hx : liveSession s.p slot = some x)
    (hallowed : writeAllowed s.p x r c 0 false ≠ 0) : directWrite slot i c b s = s := by
  simp only [directWrite, hx, hr]
  exact if_pos hallowed

theorem exec_credentialWrite (hslot : slot ≤ 32) (hn : n < 32) (b : List Byte) (s : State) :
    exec (.credentialWrite slot n b) s = .next (directWrite slot 0xB030 n b s) := by
  change execCredentialWrite slot n b s = _
  rw [execCredentialWrite, decide_eq_true hslot, decide_eq_true hn]
  exact State.run_true ..

theorem exec_panelIdWrite (hslot : slot ≤ 32) (id : BitVec 16) (s : State) :
    exec (.panelIdWrite slot id) s = .next (directWrite slot 0xA000 0 (leBytes 2 id.toNat) s) := by
  change execPanelIdWrite slot id s = _
  rw [execPanelIdWrite, decide_eq_true hslot]
  exact State.run_true ..

/-! The guests' firewall (R476, R478). -/

section
variable {c : Cell}

theorem getGuest_of_sec (h : q.sec = p.sec) (g : Nat) : q.getGuest g = p.getGuest g := congrArg (fun x : Sec => Tab.get guest0 x.guest g) h

theorem raise_getGuest (ev site key : Nat) (d : Dat) (p : Panel) (g : Nat) : (raise ev site key d p).getGuest g = p.getGuest g :=
  getGuest_of_sec (raise_sec ..) g

theorem gaRefuse_getGuest (site : Nat) (p : Panel) (g : Nat) : (gaRefuse site p).getGuest g = p.getGuest g := raise_getGuest ..

theorem UnitsMoved.sec (h : UnitsMoved p q) : q.sec = p.sec := by
  obtain ⟨_, _, _, _, h⟩ := h.reported
  exact h.sec

theorem getGuest_extend (h i : Nat) (b : List Byte) (p : Panel) (g : Nat) : (extend h i b p).getGuest g = p.getGuest g := rfl

/-- Does a guest's request pass the firewall's checks 1 to 4? -/
def guestAllowed (p : Panel) (g : Nat) (c : Cell) : Bool :=
  let b := odBytes p 0xB040 g
  decide (p.ust (guestSite g) ≠ .fenced) && decide (Bind.part b < 16) && Bind.grants b (Svc.op c) (Svc.ga c) (Svc.len c)
    && gaAllowed p ⟨false, some (Bind.part b)⟩ (Svc.ga c) (Svc.len c)

theorem guestAllowed_iff : guestAllowed p g c = true ↔ ¬ (p.ust (guestSite g) = .fenced ∨ 16 ≤ Bind.part (odBytes p 0xB040 g)
    ∨ ¬ Bind.grants (odBytes p 0xB040 g) (Svc.op c) (Svc.ga c) (Svc.len c)
    ∨ ¬ gaAllowed p ⟨false, some (Bind.part (odBytes p 0xB040 g))⟩ (Svc.ga c) (Svc.len c)) := by
  simp only [guestAllowed, Bool.and_eq_true, decide_eq_true_eq, not_or, not_not, Nat.not_le, ne_eq, and_assoc]

section
variable (hg : g < 2) (ht : CellF.typ c = 3) (hl : (s.p.getGuest g).linkUp = true)
include ht hl

theorem heard_of_link : ¬ (CellF.typ c ≠ 3 ∨ ¬ (s.p.getGuest g).linkUp = true) := by
  simp [ht, hl]

include hg

theorem exec_guestRequest_admitted (hok : guestAllowed s.p g c = true) (hheld : (s.p.getGuest g).held = []) (ha : admits s.p g c = true) :
    exec (.guestRequest g c) s = .next (s.onP (admitGuest g c)) := by
  change execGuestRequest g c s = _
  rw [execGuestRequest, decide_eq_true hg]
  exact State.runP_eq ((if_neg (heard_of_link ht hl)).trans ((if_neg (guestAllowed_iff.mp hok)).trans (if_pos ⟨by rw [hheld]; rfl, ha⟩)))

theorem exec_guestRequest_held (hok : guestAllowed s.p g c = true) (ha : admits s.p g c = false) :
    exec (.guestRequest g c) s = .next (s.onP fun p => p.modGuest g fun x => { x with held := x.held ++ [⟨c, p.now⟩] }) := by
  change execGuestRequest g c s = _
  rw [execGuestRequest, decide_eq_true hg]
  exact State.runP_eq ((if_neg (heard_of_link ht hl)).trans ((if_neg (guestAllowed_iff.mp hok)).trans
    (if_neg fun h => Bool.eq_false_iff.mp ha h.2)))

theorem exec_guestRequest_refused (hok : guestAllowed s.p g c = false) :
    exec (.guestRequest g c) s = .next (s.onP (refuseGuest g c)) := by
  change execGuestRequest g c s = _
  rw [execGuestRequest, decide_eq_true hg]
  refine State.runP_eq ((if_neg (heard_of_link ht hl)).trans (if_pos ?_))
  exact Classical.not_not.mp fun h => Bool.eq_false_iff.mp hok (guestAllowed_iff.mpr h)

end

/-- A guest's request leaves its bucket. -/
def guestDebited (g : Nat) (c : Cell) (p : Panel) : Panel :=
  p.modGuest g fun x => { x with
    bucket := bucketNow p g - Svc.len c, filledAt := p.now, outstanding := x.outstanding ++ [svcTag c], admitted := x.admitted + 1,
    bytes := x.bytes + Svc.len c }

/-- A request on its way changes no guest. -/
theorem sendService_getGuest {gt : Nat} {req : Cell} (h : sendService g gt req p = some q) (m : Nat) : q.getGuest m = p.getGuest m := by
  unfold sendService at h
  split at h
  · exact absurd h (by simp)
  · rw [← Option.some.inj h]
    rfl

/-- A guest with other requests outstanding and other answers. -/
def Guest.served (o : List Nat) (a : List Cell) (x : Guest) : Guest := { x with outstanding := o, answers := a }

/-- An admitted request is debited and counted, whether or not a path carries it. -/
theorem admitGuest_getGuest (g : Nat) (c : Cell) (p : Panel) : ∃ o a, (admitGuest g c p).getGuest g
    = Guest.served o a ((guestDebited g c p).getGuest g) := by
  unfold admitGuest
  extract_lets k part left p1 req
  have h1 : p1 = guestDebited g c p := rfl
  split
  · exact ⟨(p1.getGuest g).outstanding, (p1.getGuest g).answers, sendService_getGuest ‹_› g⟩
  · refine ⟨(p1.getGuest g).outstanding.erase (svcTag c), (p1.getGuest g).answers ++ [refuseCell g c], (gaRefuse_getGuest ..).trans ?_⟩
    refine (Panel.modGuest_same ..).trans ?_
    rw [answerGuest, Panel.modGuest_same, h1]
    rfl

/-- A refused request is answered and counted, whether or not its guest is fenced for it. -/
theorem refuseGuest_getGuest (g : Nat) (c : Cell) (p : Panel) : ((refuseGuest g c p).getGuest g).refusals = (p.getGuest g).refusals + 1
    ∧ ((refuseGuest g c p).getGuest g).answers = (p.getGuest g).answers ++ [refuseCell g c]
    ∧ ((refuseGuest g c p).getGuest g).admitted = (p.getGuest g).admitted := by
  unfold refuseGuest
  extract_lets sec p1 p2 v
  have h2 : p2.getGuest g = p1.getGuest g := raise_getGuest ..
  have h1 : (p1.getGuest g).refusals = (p.getGuest g).refusals + 1 ∧ (p1.getGuest g).answers = (p.getGuest g).answers ++ [refuseCell g c]
      ∧ (p1.getGuest g).admitted = (p.getGuest g).admitted := by
    unfold p1
    rw [Panel.modGuest_same, answerGuest, Panel.modGuest_same]
    exact ⟨rfl, rfl, rfl⟩
  split
  · have hmove : (moveUnit (guestSite g) .fenced 0x0B08 p2).getGuest g = p1.getGuest g :=
      (getGuest_of_sec (moveUnit_unitsMoved ..).sec g).trans h2
    rw [fenceGuest, raise_getGuest, Panel.modGuest_same, hmove]
    exact h1
  · rw [h2]
    exact h1

theorem exec_guestRequestRelease {at_ : Nat} (hg : g < 2) (hheld : (s.p.getGuest g).held = [⟨c, at_⟩]) :
    (admits s.p g c = true → exec (.guestRequestRelease g) s = .next (s.onP fun p => admitGuest g c (p.modGuest g fun x => { x with
      held := [], heldTicks := x.heldTicks + (p.now - at_) })))
    ∧ (admits s.p g c = false → exec (.guestRequestRelease g) s = .next s) := by
  change (_ → execGuestRequestRelease g s = _) ∧ (_ → execGuestRequestRelease g s = _)
  rw [execGuestRequestRelease, decide_eq_true hg]
  refine ⟨fun ha => State.runP_eq ?_, fun ha => State.runP_same ?_⟩
  · rw [hheld]
    exact if_pos ha
  · rw [hheld]
    exact if_neg (Bool.eq_false_iff.mp ha)

theorem exec_guestLinkUp (hg : g < 2) (hl : (s.p.getGuest g).linkUp = false) (hr : siteReachable s.p (guestSite g) = true) (adv : Bool)
    (b : List Byte) : exec (.guestLinkUp g 16 adv b) s = .next (s.onP fun p => extend p.book.active 4 b (p.modGuest g fun x => { x with
      linkUp := true, rate := 16, advanced := adv })) := by
  change execGuestLinkUp g 16 adv b s = _
  rw [execGuestLinkUp, decide_eq_true hg]
  exact State.runP_eq (if_pos ⟨by decide, Bool.eq_false_iff.mp hl, hr⟩)

theorem exec_guestLinkUp_up (hg : g < 2) (hl : (s.p.getGuest g).linkUp = true) (adv : Bool) (b : List Byte) :
    exec (.guestLinkUp g 16 adv b) s = .next s := by
  change execGuestLinkUp g 16 adv b s = _
  rw [execGuestLinkUp, decide_eq_true hg]
  exact State.runP_same (if_neg fun h => h.2.1 hl)

end

end Sys2Proof.Machine
end

section
open Sys2Proof Sys2Proof.Machine

/-- Settles O53: each clause names the panel its command makes, and reads the security state of it. -/
theorem securityCommandsAndGuestsAreChecked : Obligations.SecurityCommandsAndGuestsAreChecked := by
  unfold Obligations.SecurityCommandsAndGuestsAreChecked
  intro slot n g s hn hg
  refine ⟨fun x v hx => ?_, ?_, fun hh => ⟨exec_entropyRetest_fails s, fun ha => ?_⟩, fun i idx sub b id x r w hslot hi hx hr => ?_,
    fun i d hi hd hl => ⟨fun hu hb => ?_, exec_bootImageWrite_inUse hi hd hl⟩, ⟨fun hrun hall hw => ?_, fun h => State.runP_same (raiseSvn_refused h)⟩,
    fun q hq => ⟨fun h => ?_, fun i hi hv hs => ?_⟩, fun i d => ⟨fun h5 h8 => ?_, fun h5 => exec_measurementExtend_refused h5 d⟩,
    fun c => ⟨fun ht hl => ⟨fun hok hheld ha => ?_, fun hok hheld ha => ?_, fun hok => ?_⟩, fun at_ hheld => ⟨fun ha => ?_,
      (exec_guestRequestRelease hg hheld).2⟩⟩,
    fun adv b hl hr => ?_, fun adv b hl => exec_guestLinkUp_up hg hl adv b⟩
  · have hslot : x.slot = slot := of_decide_eq_true (List.find?_some (p := fun y : Session => decide (y.slot = slot)) hx)
    obtain ⟨hcount, hreport⟩ := signReport_sec x (leBytes 48 v.toNat) s.p
    exact ⟨_, exec_reportNonceWrite hx v, State.onP_mem .., hcount, hslot ▸ hreport⟩
  · refine ⟨_, State.runP_true .., rfl, ?_, raise_logged (by decide) ..⟩
    rw [raise_sec]
    exact Tab.get_set_same ..
  · exact ⟨_, exec_entropyRetest_passes hh ha, State.onP_mem .., Tab.get_del_same ..⟩
  · have hplain : unitOf r idx sub = none ∧ r.pers = true ∧ r.acc = .rw ∧ idx ≠ 0x1032 ∧ sub < 256 ∧ consistency s.p [(idx, sub, b)] = 0
        ∧ exec i s = .next (directWrite slot idx sub b s) := by
      rcases hi with ⟨rfl, rfl, rfl⟩ | ⟨rfl, rfl, rfl, rfl⟩
      · obtain rfl := odRow_credential hr
        exact ⟨rfl, rfl, rfl, by decide, by omega, rfl, exec_credentialWrite hslot hn b s⟩
      · obtain rfl := odRow_panelId hr
        exact ⟨rfl, rfl, rfl, by decide, by decide, rfl, exec_panelIdWrite hslot id s⟩
    obtain ⟨hunit, hpers, hacc, hne, hsub, hcons, hexec⟩ := hplain
    refine ⟨fun hallowed hgate htype hrange hstate hval hw => ?_, fun hallowed => ?_⟩
    · refine ⟨_, hexec, ?_⟩
      rw [directWrite_queued hr hunit hpers hacc hx hallowed hgate htype hrange hne hsub hstate hcons hval hw]
      refine ⟨State.onP_mem .., rfl, ?_⟩
      rw [State.onP_p, nvQueued_writes, hw]
      rfl
    · rw [hexec, directWrite_refused hr hx hallowed]
  · obtain ⟨hnone, himage, hlog⟩ := imageEnded_sec i d (imageBegun i slot s.p)
    refine ⟨_, exec_bootImageWrite hi hd hl hu hb, State.onP_mem .., hnone, ?_, ?_, ?_, hlog⟩
    · exact congrArg Image.valid himage
    · exact congrArg Image.svn himage
    · exact congrArg Image.slot himage
  · refine ⟨_, State.runP_true .., rfl, ?_, ?_⟩
    · rw [raiseSvn_ok rfl hrun hall hw, raise_sec]
      rfl
    · rw [raiseSvn_ok rfl hrun hall hw]
      exact raise_logged (by decide) ..
  · refine ⟨_, exec_revokeSigningSlot hq, State.onP_mem .., ?_, ?_⟩
    · rw [State.onP_p, revokeSlot_ok h, raise_sec]
      rfl
    · rw [State.onP_p, revokeSlot_ok h]
      exact raise_logged (by decide) ..
  · rw [exec_revokeSigningSlot hq]
    exact congrArg _ (State.onP_eq_self (revokeSlot_refused hi hv hs))
  · exact ⟨_, exec_measurementExtend h5 h8 d, State.onP_mem .., extend_same .., fun j hj => extend_ne _ hj ..⟩
  · obtain ⟨o, a, hadmit⟩ := admitGuest_getGuest g c s.p
    refine ⟨_, exec_guestRequest_admitted hg ht hl hok hheld ha, State.onP_mem .., ?_⟩
    rw [State.onP_p, hadmit, guestDebited, Panel.modGuest_same]
    exact ⟨rfl, rfl, rfl, hheld⟩
  · refine ⟨_, exec_guestRequest_held hg ht hl hok ha, State.onP_mem .., ?_⟩
    rw [State.onP_p, Panel.modGuest_same, hheld]
    rfl
  · exact ⟨_, exec_guestRequest_refused hg ht hl hok, State.onP_mem .., refuseGuest_getGuest g c s.p⟩
  · obtain ⟨o, a, hadmit⟩ := admitGuest_getGuest g c (s.p.modGuest g fun x => { x with held := [], heldTicks := x.heldTicks + (s.p.now - at_) })
    refine ⟨_, (exec_guestRequestRelease hg hheld).1 ha, State.onP_mem .., ?_⟩
    rw [State.onP_p, hadmit, guestDebited, Panel.modGuest_same, Panel.modGuest_same]
    exact ⟨rfl, rfl, rfl⟩
  · refine ⟨_, exec_guestLinkUp hg hl hr adv b, State.onP_mem .., ?_, ?_, extend_same ..⟩
    · rw [State.onP_p, getGuest_extend, Panel.modGuest_same]
    · rw [State.onP_p, getGuest_extend, Panel.modGuest_same]

end

section
/-! PROOFS. Sessions, reports and management segments at their times (R349-R357, R470). -/

namespace Sys2Proof.Machine

variable {p q : Panel} {s : State} {g h slot : Nat} {x : Session}

/-! Numbers in bytes, and the sessions of a panel by their slots. -/

theorem leNat_leBytes (n x : Nat) : leNat (leBytes n x) = x % 256 ^ n := by
  induction n generalizing x with
  | zero => exact (Nat.mod_one x).symm
  | succ n ih =>
    have hb : (BitVec.ofNat 8 x).toNat = x % 256 := BitVec.toNat_ofNat ..
    rw [leBytes, leNat, ih, hb, Nat.pow_succ', Nat.mod_mul]

theorem Tab.get_of_find? {α : Type} {t : Tab α} {k : Nat} {v : α} (h : Tab.find? t k = some v) (d : α) : Tab.get d t k = v := by
  induction t with
  | nil => exact absurd h (by simp [Tab.find?])
  | cons e t ih =>
    obtain ⟨j, w⟩ := e
    by_cases hj : j = k
    · rw [Tab.find?, if_pos hj] at h
      rw [Tab.get, if_pos hj, Option.some.inj h]
    · rw [Tab.find?, if_neg hj] at h
      rw [Tab.get, if_neg hj, ih h]

/-- The first session of a slot stays the first of it where the slots stay. -/
theorem find?_map_slot (f : Session → Session) (hf : ∀ y, (f y).slot = y.slot) (l : List Session) :
    (l.map f).find? (fun y => decide (y.slot = slot)) = (l.find? fun y => decide (y.slot = slot)).map f := by
  rw [List.find?_map]
  exact congrArg (Option.map f) (congrArg (fun t => List.find? t l) (funext fun y => by simp [hf y]))

theorem slot_of_sessionAt (hx : sessionAt p slot = some x) : x.slot = slot :=
  of_decide_eq_true (List.find?_some (p := fun y : Session => decide (y.slot = slot)) hx)

theorem mem_of_sessionAt (hx : sessionAt p slot = some x) : x ∈ p.od.sessions := List.mem_of_find?_eq_some hx

theorem sessionAt_of_sessions (hq : q.od.sessions = p.od.sessions) (slot : Nat) : sessionAt q slot = sessionAt p slot := by
  rw [sessionAt, sessionAt, hq]

/-- The session in a slot, changed, is in the slot. -/
theorem sessionAt_modSession (hx : sessionAt p slot = some x) (f : Session → Session) (hf : ∀ y, (f y).slot = y.slot) :
    sessionAt (modSession slot x.id f p) slot = some (f x) := by
  have hslots (y : Session) : (if y.slot = slot ∧ y.id = x.id then f y else y).slot = y.slot := by
    split
    · exact hf y
    · rfl
  refine (find?_map_slot _ hslots p.od.sessions).trans ?_
  rw [show p.od.sessions.find? (fun y => decide (y.slot = slot)) = some x from hx]
  exact congrArg some (if_pos ⟨slot_of_sessionAt hx, rfl⟩)

theorem sessionAt_endSessions (reason slot : Nat) (p : Panel) : sessionAt (endSessions (fun y => decide (y.slot = slot)) reason p) slot = none := by
  refine List.find?_eq_none.mpr fun y hy => ?_
  have hne := (List.mem_filter.mp hy).2
  simpa using hne

theorem endSessions_ended (hx : sessionAt p slot = some x) (reason : Nat) :
    (x.id, reason) ∈ (endSessions (fun y => decide (y.slot = slot)) reason p).od.ended := by
  refine List.mem_append_left _ (List.mem_map.mpr ⟨x, List.mem_filter.mpr ⟨mem_of_sessionAt hx, ?_⟩, rfl⟩)
  exact decide_eq_true (slot_of_sessionAt hx)

/-- An event adds to what sessions are owed, and nothing else of them. -/
theorem raise_sessions (ev site key : Nat) (d : Dat) (p : Panel) : ∃ f : Session → Session, (raise ev site key d p).od.sessions = p.od.sessions.map f
    ∧ ∀ y, (f y).slot = y.slot ∧ (f y).unacked = y.unacked ∧ (f y).lost = y.lost := by
  have h := latch_od (evSpan ev) ev key p
  unfold raise raiseAs
  split
  · next supp q e =>
    rw [e] at h
    have hod := (ringEvents_onlyHost (evParts (takeData d q).2 key site) ⟨ev, evSev ev, site, 0, (takeData d q).2.now, (takeData d q).1, supp, 0⟩
      ((takeData d q).2.modBook (logEvent ⟨ev, evSev ev, site, 0, (takeData d q).2.now, (takeData d q).1, supp, 0⟩))).od
    refine ⟨oweReport (evParts (takeData d q).2 key site) ⟨ev, evSev ev, site, 0, (takeData d q).2.now, (takeData d q).1, supp, 0⟩, ?_, fun y => ?_⟩
    · refine (congrArg (fun o : Od => o.sessions.map _) hod).trans ?_
      exact congrArg (fun o : Od => o.sessions.map _) ((takeData_od d q).trans h)
    · unfold oweReport
      split <;> exact ⟨rfl, rfl, rfl⟩
  · next q e =>
    rw [e] at h
    exact ⟨id, by rw [h, List.map_id], fun _ => ⟨rfl, rfl, rfl⟩⟩

theorem raise_sessionAt (hx : sessionAt p slot = some x) (ev site key : Nat) (d : Dat) :
    ∃ z, sessionAt (raise ev site key d p) slot = some z ∧ z.unacked = x.unacked ∧ z.lost = x.lost := by
  obtain ⟨f, hmap, hf⟩ := raise_sessions ev site key d p
  refine ⟨f x, ?_, (hf x).2⟩
  rw [sessionAt, hmap, find?_map_slot f fun y => (hf y).1]
  exact congrArg (Option.map f) hx

/-! A request that a served segment takes (R354, R355). -/

/-- A frame on a segment is counted, and the segment heard. -/
def frameHeard (g : Nat) (p : Panel) : Panel :=
  p.modOd fun o => { o with
    proto := if g = 0 then { o.proto with rxA := o.proto.rxA + 1 } else { o.proto with rxB := o.proto.rxB + 1 },
    lastFrame := Tab.set g p.now o.lastFrame }

theorem segHeard_up (hup : p.od.segDown.contains g = false) : segHeard g p = p.modOd fun o => { o with lastFrame := Tab.set g p.now o.lastFrame } :=
  if_neg (Bool.eq_false_iff.mp hup)

section
variable {tag : Option (BitVec 128)} {u : Req} (hserves : segServes s.p h g = true) (hup : s.p.od.segDown.contains g = false)
include hserves hup

theorem mgmtFrame_taken (hop : ¬ (bothFailed s.p = true ∧ u.op = 0x10)) (hsound : frameSound s.p tag u = true) (hlen : u.data.length ≤ 1024) :
    mgmtFrame g h tag u s = request (.seg g h) (reqHeader s.p u) u (s.onP (frameHeard g)) := by
  unfold mgmtFrame
  rw [if_neg hop, if_neg (not_not_intro hserves)]
  refine (if_neg ?_).trans ?_
  · rintro (hbad | hbad)
    · exact hbad hsound
    · exact absurd hbad (Nat.not_lt.mpr hlen)
  · rw [State.onP_onP]
    exact congrArg (request (.seg g h) (reqHeader s.p u) u) (State.onP_congr (segHeard_up hup))

end

theorem frameOk_of_session {u : Req} (hg : g < 2) (hh : h < 2) (hid : u.sess < 65536) (hseq : u.seq < 2 ^ 32) (hindex : u.index = 0) (hsub : u.sub = 0)
    (hfield : u.field = 0) (hoffset : u.offset = 0) (htotal : u.total = 0) : frameOk g h u = true := by
  simp only [frameOk, Bool.and_eq_true, decide_eq_true_eq]
  exact ⟨⟨⟨⟨⟨⟨⟨⟨hg, hh⟩, hid⟩, hseq⟩, by omega⟩, by omega⟩, by omega⟩, by omega⟩, by omega⟩

theorem frameOk_req0 (hg : g < 2) (hh : h < 2) {id seq : Nat} (hid : id < 65536) (hseq : seq < 2 ^ 32) (op : Nat) (d : List Byte) :
    frameOk g h { req0 op id seq with data := d } = true :=
  frameOk_of_session hg hh hid hseq rfl rfl rfl rfl rfl

theorem exec_hello (hg : g < 2) (hh : h < 2) {seq : Nat} (hseq : seq < 2 ^ 32) (s : State) :
    exec (.hello g h seq) s = .next (mgmtFrame g h none (req0 0x10 0 seq) s) := by
  change execHello g h seq s = _
  have hok : frameOk g h (req0 0x10 0 seq) = true := frameOk_req0 hg hh (by decide) hseq 0x10 []
  rw [execHello, hok]
  exact State.run_true ..

theorem mgmtFrame_helloFailed (hb : bothFailed s.p = true) (g h seq : Nat) : mgmtFrame g h none (req0 0x10 0 seq) s
    = s.onP (deliver (.seg g h) [] (reqHeader s.p (req0 0x10 0 seq)) 0 seq (helloFailed h)) :=
  if_pos ⟨hb, rfl⟩

theorem mgmtFrame_hello (hb : bothFailed s.p = false) (hserves : segServes s.p h g = true) (hup : s.p.od.segDown.contains g = false) (seq : Nat) :
    mgmtFrame g h none (req0 0x10 0 seq) s
      = s.onP fun p => deliver (.seg g h) [] (reqHeader s.p (req0 0x10 0 seq)) 0 seq (helloResp h p) (frameHeard g p) := by
  rw [mgmtFrame_taken hserves hup (fun hf => Bool.eq_false_iff.mp hb hf.1) rfl (Nat.zero_le _)]
  unfold request
  exact if_pos rfl

theorem deliver_out (g h : Nat) (keys hdr : List Byte) (id seq : Nat) (r : Resp) (p : Panel) :
    (deliver (.seg g h) keys hdr id seq r p).od.out = p.od.out ++ [(id, seq, r)] := rfl

/-- An answer on a segment changes no session and nothing of the security state. -/
theorem deliver_keeps (g h : Nat) (keys hdr : List Byte) (id seq : Nat) (r : Resp) (p : Panel) :
    (deliver (.seg g h) keys hdr id seq r p).od.sessions = p.od.sessions ∧ (deliver (.seg g h) keys hdr id seq r p).sec = p.sec := ⟨rfl, rfl⟩

/-! The third step of an exchange (R470). -/

/-- The pending session is taken out. -/
def authTaken (a : PendingAuth) (p : Panel) : Panel :=
  p.modSec fun c => { c with pendingAuth := c.pendingAuth.filter fun x => decide (x.id ≠ a.id) }

theorem request_step3 {a : PendingAuth} {u : Req} (hact : h = s.p.book.active) (hop : u.op = 0x11) (hid : u.sess ≠ 0)
    (ha : s.p.sec.pendingAuth.find? (fun a => decide (a.id = u.sess) && !a.mailbox) = some a) (hdr : List Byte) :
    request (.seg g h) hdr u s
      = s.onP fun p => deliver (.seg g h) a.keys hdr u.sess u.seq (authStep3 (.seg g h) a hdr u p).1 (authStep3 (.seg g h) a hdr u p).2 := by
  simp only [request, hact, hop, hid, ha, reduceIte, Nat.reduceEqDiff, ne_eq, not_true_eq_false, and_false]
  rfl

section
variable {a : PendingAuth} {u : Req} {v : Via} {hdr : List Byte} (htime : p.now ≤ a.since + 5 * ticksPerSecond) (hh : healthy p = true)
include htime hh

/-- The session that a verified exchange opens. -/
def sessionOpened (v : Via) (a : PendingAuth) (hdr : List Byte) (u : Req) (p : Panel) : Panel :=
  modSession a.slot a.id (fun x => { x with
      seq := some u.seq, resp := ⟨0, openData a.id a.level [], (openData a.id a.level []).length, false, 0⟩, hdr := hdr, seg := v.seg_ })
    (openSession a.slot a.id (levelNamed a.level) a.scope a.cred a.keys a.eph ((authTaken a p).modSec fun c => { c with authed := c.authed + 1 }))

theorem authStep3_verified (hlen : u.data.length = 99) (hthree : byteAt u.data 2 = 3)
    (hsig : ecVerify ((odBytes p 0xB030 a.cred).drop 15) (u.data.drop 3) a.said = true) :
    (authStep3 v a hdr u p).2 = sessionOpened v a hdr u p := by
  unfold authStep3
  refine (congrArg Prod.snd (if_neg (Nat.not_lt.mpr htime))).trans ((congrArg Prod.snd (if_neg (not_not_intro hh))).trans ?_)
  exact congrArg Prod.snd (if_pos ⟨hlen, hthree, hsig⟩)

theorem authStep3_refused (hsig : ecVerify ((odBytes p 0xB030 a.cred).drop 15) (u.data.drop 3) a.said = false) :
    (authStep3 v a hdr u p).2 = authFail a.cred (authTaken a p) := by
  unfold authStep3
  refine (congrArg Prod.snd (if_neg (Nat.not_lt.mpr htime))).trans ((congrArg Prod.snd (if_neg (not_not_intro hh))).trans ?_)
  exact congrArg Prod.snd (if_neg fun h => Bool.eq_false_iff.mp hsig h.2.2)

end

/-- The session opened stands alone in its slot. -/
theorem sessionAt_openSession (slot id : Nat) (level : Level) (scope cred : Nat) (keys eph : List Byte) (p : Panel) :
    sessionAt (openSession slot id level scope cred keys eph p) slot = some { basicSession slot with
      id := id, level := level, scope := scope, last := p.now, cred := cred, keys := if slot < 16 then keys else [], eph := eph } := by
  refine List.find?_append.trans ?_
  rw [show List.find? _ (endSessions _ endedClose p).od.sessions = none from sessionAt_endSessions endedClose slot p]
  exact (Option.none_or ..).trans (List.find?_cons_of_pos (p := fun y : Session => decide (y.slot = slot)) (decide_eq_true (p := slot = slot) rfl))

theorem sessionOpened_sessionAt (v : Via) (a : PendingAuth) (hdr : List Byte) (u : Req) (p : Panel) :
    ∃ z, sessionAt (sessionOpened v a hdr u p) a.slot = some z ∧ z.id = a.id ∧ z.level = levelNamed a.level ∧ z.scope = a.scope
      ∧ z.seq = some u.seq := by
  have hopen := sessionAt_openSession a.slot a.id (levelNamed a.level) a.scope a.cred a.keys a.eph
    ((authTaken a p).modSec fun c => { c with authed := c.authed + 1 })
  refine ⟨_, sessionAt_modSession hopen _ fun _ => rfl, rfl, rfl, rfl, rfl⟩

/-- A failed step changes no session. -/
theorem authFail_frame (c : Nat) (p : Panel) : (authFail c p).od.sessions.map (·.id) = p.od.sessions.map (·.id)
    ∧ (authFail c p).sec.pendingAuth = p.sec.pendingAuth ∧ (authFail c p).sec.authFails = p.sec.authFails + 1 := by
  unfold authFail
  extract_lets p1 l n
  have h1 : p1.od.sessions.map (·.id) = p.od.sessions.map (·.id) ∧ p1.sec.pendingAuth = p.sec.pendingAuth ∧ p1.sec.authFails = p.sec.authFails + 1 := by
    unfold p1
    rw [raise_sec]
    exact ⟨congrArg HubView.ids (raise_sameHub ..).view, rfl, rfl⟩
  split
  · exact h1
  split
  · rw [raise_sec]
    exact ⟨(congrArg HubView.ids (raise_sameHub ..).view).trans h1.1, h1.2⟩
  · exact h1

theorem exec_sessionOpen (hg : g < 2) (hh : h < 2) {id seq : Nat} (hid : id < 65536) (hseq : seq < 2 ^ 32) (tag : Option (BitVec 128)) (level scope : Nat)
    (d : List Byte) (s : State) : exec (.sessionOpen g h tag id seq level scope 3 d) s
      = .next (mgmtFrame g h tag { req0 0x11 id seq with data := leBytes 1 level ++ leBytes 1 scope ++ 3 :: d } s) := by
  change execSessionOpen g h tag id seq level scope 3 d s = _
  rw [execSessionOpen, frameOk_req0 hg hh hid hseq]
  exact State.run_true ..

/-! Reports (R357). -/

theorem exec_reportAck (hg : g < 2) (hh : h < 2) {id : Nat} (hid : id < 65536) (tag : Option (BitVec 128)) (eseq : Nat) (s : State) :
    exec (.reportAck g h tag id eseq) s = .next (mgmtFrame g h tag { req0 0x21 id 0 with data := leBytes 4 eseq } s) := by
  change execReportAck g h tag id eseq s = _
  rw [execReportAck, frameOk_req0 hg hh hid (by decide)]
  exact State.run_true ..

/-- An acknowledgement of the only report owed leaves none. -/
theorem ackReports_one {w : Unacked} (hx : sessionAt p slot = some x) (hu : x.unacked = [w]) (hw : w.entry.eseq < 2 ^ 32) :
    ∃ z, sessionAt (ackReports slot (leNat (leBytes 4 w.entry.eseq)) p) slot = some z ∧ z.unacked = [] := by
  have hnum : leNat (leBytes 4 w.entry.eseq) = w.entry.eseq := (leNat_leBytes ..).trans (Nat.mod_eq_of_lt hw)
  have hmod : (w.entry.eseq + 2 ^ 32 - w.entry.eseq) % 2 ^ 32 = 0 := by omega
  rw [hnum]
  unfold ackReports
  extract_lets later
  have hlater : later w = false := by
    unfold later
    rw [hmod]
    rfl
  have hslots (y : Session) : (if y.slot = slot then { y with unacked := y.unacked.filter later } else y).slot = y.slot := by
    split <;> rfl
  refine ⟨{ x with unacked := x.unacked.filter later }, ?_, ?_⟩
  · refine (find?_map_slot _ hslots p.od.sessions).trans ?_
    rw [show p.od.sessions.find? (fun y => decide (y.slot = slot)) = some x from hx]
    exact congrArg some (if_pos (slot_of_sessionAt hx))
  · change x.unacked.filter later = []
    rw [hu, List.filter_cons_of_neg (Bool.eq_false_iff.mp hlater)]
    rfl

theorem request_ack {u : Req} (hact : h = s.p.book.active) (hop : u.op = 0x21)
    (ha : s.p.sec.pendingAuth.find? (fun a => decide (a.id = u.sess) && !a.mailbox) = none)
    (hx : s.p.od.sessions.find? (fun y => decide (y.slot < 16 ∧ y.id = u.sess ∧ u.sess ≠ 0)) = some x) (hdr : List Byte) :
    request (.seg g h) hdr u s = s.onP (ackReports x.slot (leNat u.data)) := by
  simp only [request, hact, hop, ha, sessionFor, hx, reduceIte, Nat.reduceEqDiff, ne_eq, not_true_eq_false, false_and]
  rfl

/-- A session's reports go out and wait for their acknowledgement. -/
def reportsSent (slot : Nat) (x : Session) (p : Panel) : Panel :=
  let l := x.due.take 32
  (modSession slot x.id (fun y => { y with due := y.due.drop 32, unacked := y.unacked ++ l.map fun e => ⟨e, p.now, 0⟩ }) p).modOd fun o => { o with
    reports := o.reports ++ l.map (fun e => (x.id, e)), frames := o.frames ++ onBoth (reportFrame x l)
    proto := { o.proto with sent := o.proto.sent + 1 } }

/-- The reports of a session that went out with `u`, again. -/
def reportsAgain (x : Session) (u : Unacked) (now : Nat) : List Unacked :=
  (x.unacked.filter fun w => decide (w.sentAt = u.sentAt ∧ w.resends = u.resends)).map fun w => { w with sentAt := now, resends := w.resends + 1 }

def reportsResent (slot : Nat) (x : Session) (u : Unacked) (p : Panel) : Panel :=
  (modSession slot x.id (fun y => { y with
      unacked := reportsAgain x u p.now ++ y.unacked.filter fun w => !decide (w.sentAt = u.sentAt ∧ w.resends = u.resends) }) p).modOd fun o => { o with
    reports := o.reports ++ (reportsAgain x u p.now).map (fun w => (x.id, w.entry))
    frames := o.frames ++ onBoth (reportFrame x ((reportsAgain x u p.now).map (·.entry))), proto := { o.proto with resent := o.proto.resent + 1 } }

def reportsLost (slot : Nat) (x : Session) (u : Unacked) (p : Panel) : Panel :=
  let q := (modSession slot x.id (fun y => { y with
      unacked := y.unacked.filter fun w => !decide (w.sentAt = u.sentAt ∧ w.resends = u.resends), lost := true }) p).modOd fun o => { o with
    proto := { o.proto with lost := o.proto.lost + 1 } }
  if x.lost then q else raise 0x0E21 q.activeHub keyPanel (some (BitVec.ofNat 64 x.id)) q

section
variable (hslot : slot < 16) (hx : sessionAt s.p slot = some x)
include hslot hx

theorem exec_reportSend (hdue : x.due ≠ []) : exec (.reportSend slot) s = .next (s.onP (reportsSent slot x)) := by
  change execReportSend slot s = _
  rw [execReportSend, decide_eq_true hslot]
  refine State.runP_eq ?_
  rw [hx]
  refine if_neg ?_
  cases h : x.due with
  | nil => exact absurd h hdue
  | cons e l => exact Bool.false_ne_true

theorem exec_reportSend_none (hdue : x.due = []) : exec (.reportSend slot) s = .next s := by
  change execReportSend slot s = _
  rw [execReportSend, decide_eq_true hslot]
  refine State.runP_same ?_
  rw [hx]
  refine if_pos ?_
  rw [hdue]
  rfl

variable {u : Unacked} (hu : x.unacked = [u])
include hu

theorem exec_reportResend_early (ht : s.p.now < u.sentAt + 5000000) : exec (.reportResend slot) s = .next s := by
  change execReportResend slot s = _
  rw [execReportResend, decide_eq_true hslot]
  refine State.runP_same ?_
  simp only [hx, hu]
  exact if_pos ht

theorem exec_reportResend_again (ht : u.sentAt + 5000000 ≤ s.p.now) (hr : u.resends < 8) :
    exec (.reportResend slot) s = .next (s.onP (reportsResent slot x u)) := by
  change execReportResend slot s = _
  rw [execReportResend, decide_eq_true hslot]
  refine State.runP_eq ?_
  simp only [hx, reportsResent, reportsAgain, hu]
  exact (if_neg (Nat.not_lt.mpr ht)).trans (if_pos hr)

theorem exec_reportResend_lost (ht : u.sentAt + 5000000 ≤ s.p.now) (hr : 8 ≤ u.resends) :
    exec (.reportResend slot) s = .next (s.onP (reportsLost slot x u)) := by
  change execReportResend slot s = _
  rw [execReportResend, decide_eq_true hslot]
  refine State.runP_eq ?_
  simp only [hx, hu]
  exact (if_neg (Nat.not_lt.mpr ht)).trans (if_neg (Nat.not_lt.mpr hr))

end

theorem reportsSent_one {e : Entry} (hx : sessionAt p slot = some x) (hdue : x.due = [e]) (hu : x.unacked = []) :
    (reportsSent slot x p).od.reports = p.od.reports ++ [(x.id, e)]
    ∧ ∃ z, sessionAt (reportsSent slot x p) slot = some z ∧ z.due = [] ∧ z.unacked = [⟨e, p.now, 0⟩] := by
  refine ⟨?_, _, sessionAt_modSession hx _ fun _ => rfl, ?_, ?_⟩
  · rw [reportsSent, hdue]
    rfl
  · rw [hdue]
    rfl
  · rw [hdue, hu]
    rfl

theorem reportsAgain_one {u : Unacked} (hu : x.unacked = [u]) (now : Nat) : reportsAgain x u now = [⟨u.entry, now, u.resends + 1⟩] := by
  simp [reportsAgain, hu]

/-- None of the reports that went out with `u` is left of `u` alone. -/
theorem unacked_rest {u : Unacked} (hu : x.unacked = [u]) :
    (x.unacked.filter fun w => !decide (w.sentAt = u.sentAt ∧ w.resends = u.resends)) = [] := by simp [hu]

theorem reportsResent_one {u : Unacked} (hx : sessionAt p slot = some x) (hu : x.unacked = [u]) :
    (reportsResent slot x u p).od.reports = p.od.reports ++ [(x.id, u.entry)]
    ∧ ∃ z, sessionAt (reportsResent slot x u p) slot = some z ∧ z.unacked = [⟨u.entry, p.now, u.resends + 1⟩] := by
  refine ⟨?_, _, sessionAt_modSession hx _ fun _ => rfl, ?_⟩
  · rw [reportsResent, reportsAgain_one hu]
    rfl
  · rw [unacked_rest hu, reportsAgain_one hu]
    rfl

theorem reportsLost_one {u : Unacked} (hx : sessionAt p slot = some x) (hu : x.unacked = [u]) :
    (reportsLost slot x u p).od.proto.lost = p.od.proto.lost + 1
    ∧ ∃ z, sessionAt (reportsLost slot x u p) slot = some z ∧ z.unacked = [] ∧ z.lost = true := by
  unfold reportsLost
  extract_lets q
  have hq : sessionAt q slot = some _ := sessionAt_modSession hx _ fun _ => rfl
  have hrest := unacked_rest hu
  split
  · exact ⟨rfl, _, hq, hrest, rfl⟩
  · obtain ⟨z, hz, hunacked, hlost⟩ := raise_sessionAt hq 0x0E21 q.activeHub keyPanel (some (BitVec.ofNat 64 x.id))
    exact ⟨congrArg ProtoCtr.lost (raise_reported ..).od_proto, z, hz, hunacked.trans hrest, hlost⟩

/-! Sessions, transfers, exchanges and lockouts that end by time (R349, R351, R470). -/

section
variable (hslot : slot < 16) (hx : sessionAt s.p slot = some x)
include hslot hx

theorem exec_sessionIdleTimeout (hidle : sessionIdle s.p x = true) :
    exec (.sessionIdleTimeout slot) s = .next (s.onP (endSessions (fun y => decide (y.slot = slot)) endedIdle)) := by
  change execSessionIdleTimeout slot s = _
  rw [execSessionIdleTimeout, decide_eq_true (by omega : slot ≤ 32)]
  refine State.runP_eq ?_
  rw [hx]
  exact if_pos hidle

theorem exec_sessionIdleTimeout_early (hidle : sessionIdle s.p x = false) : exec (.sessionIdleTimeout slot) s = .next s := by
  change execSessionIdleTimeout slot s = _
  rw [execSessionIdleTimeout, decide_eq_true (by omega : slot ≤ 32)]
  refine State.runP_same ?_
  rw [hx]
  exact if_neg (Bool.eq_false_iff.mp hidle)

variable {f : Transfer} (hf : x.xfer = some f)
include hf

theorem exec_transferGapTimeout (hgap : gapOver f s.p.now = true) : exec (.transferGapTimeout slot) s = .next (endTransfer x s) := by
  change execTransferGapTimeout slot s = _
  rw [execTransferGapTimeout, decide_eq_true (by omega : slot ≤ 32), State.run_true]
  simp only [hx, hf]
  exact congrArg _ (if_pos hgap)

theorem exec_transferGapTimeout_early (hgap : gapOver f s.p.now = false) : exec (.transferGapTimeout slot) s = .next s := by
  change execTransferGapTimeout slot s = _
  rw [execTransferGapTimeout, decide_eq_true (by omega : slot ≤ 32), State.run_true]
  simp only [hx, hf]
  exact congrArg _ (if_neg (Bool.eq_false_iff.mp hgap))

end

theorem endTransfer_sessionAt (hx : sessionAt s.p slot = some x) : (endTransfer x s).mem = s.mem
    ∧ ∃ z, sessionAt (endTransfer x s).p slot = some z ∧ z.xfer = none := by
  obtain rfl := slot_of_sessionAt hx
  unfold endTransfer
  extract_lets img t
  have ht : sessionAt t.p x.slot = some { x with xfer := none } := sessionAt_modSession hx _ fun _ => rfl
  split
  · exact ⟨rfl, _, ht, rfl⟩
  · exact ⟨rfl, _, ht, rfl⟩

theorem pendingAuth_timeout {a : PendingAuth} (ha : p.sec.pendingAuth = [a]) (now : Nat) :
    (p.sec.pendingAuth.filter fun b => !(decide (b.id = a.id) && decide (b.since + 5 * ticksPerSecond ≤ now)))
      = if a.since + 5 * ticksPerSecond ≤ now then [] else [a] := by
  rw [ha, List.filter_singleton, decide_eq_true rfl, Bool.true_and]
  by_cases h : a.since + 5 * ticksPerSecond ≤ now
  · rw [decide_eq_true h, if_pos h]
    rfl
  · rw [decide_eq_false h, if_neg h]
    rfl

section
variable {n b : Nat} {c : CredLock} (hn : n < 32) (hc : Tab.find? s.p.sec.lock n = some c) (hb : c.until_ = some b)
include hn hc hb

theorem exec_credentialLockoutEnd (ht : b ≤ s.p.now) :
    exec (.credentialLockoutEnd n) s = .next (s.onP fun p => p.modSec fun c => { c with lock := Tab.del n c.lock }) := by
  change execCredentialLockoutEnd n s = _
  rw [execCredentialLockoutEnd, decide_eq_true hn]
  refine State.runP_eq ?_
  rw [Tab.get_of_find? hc, hb]
  exact if_pos ht

theorem exec_credentialLockoutEnd_early (ht : s.p.now < b) : exec (.credentialLockoutEnd n) s = .next s := by
  change execCredentialLockoutEnd n s = _
  rw [execCredentialLockoutEnd, decide_eq_true hn]
  refine State.runP_same ?_
  rw [Tab.get_of_find? hc, hb]
  exact if_neg (Nat.not_le.mpr ht)

end

/-! Segments that fall silent and return, and what an attachment answers (R354). -/

/-- A segment is counted down. -/
def segLost (g : Nat) (p : Panel) : Panel :=
  let q := p.modOd fun o => { o with segDown := g :: o.segDown, proto := { o.proto with down := o.proto.down + 1 } }
  raise 0x0E22 q.activeHub keyPanel (some (BitVec.ofNat 64 g)) q

theorem exec_mgmtSegmentDown (hg : g < 2) (hcfg : cfg s.p 0x1010 0 (1 + g) = 1) (hup : s.p.od.segDown.contains g = false) :
    (Tab.get 0 s.p.od.lastFrame g + ticksPerSecond ≤ s.p.now → exec (.mgmtSegmentDown g) s = .next (s.onP (segLost g)))
    ∧ (s.p.now < Tab.get 0 s.p.od.lastFrame g + ticksPerSecond → exec (.mgmtSegmentDown g) s = .next s) := by
  change (_ → execMgmtSegmentDown g s = _) ∧ (_ → execMgmtSegmentDown g s = _)
  rw [execMgmtSegmentDown, decide_eq_true hg]
  exact ⟨fun ht => State.runP_eq (if_pos ⟨hcfg, Bool.eq_false_iff.mp hup, ht⟩),
    fun ht => State.runP_same (if_neg fun h => absurd h.2.2 (Nat.not_le.mpr ht))⟩

theorem segLost_down (g : Nat) (p : Panel) : g ∈ (segLost g p).od.segDown ∧ Logged 0x0E22 (segLost g p) := by
  refine ⟨?_, raise_logged (by decide) ..⟩
  rw [segLost, (raise_reported ..).od_segDown]
  exact List.mem_cons_self

theorem exec_mgmtSegmentReturn (hg : g < 2) (s : State) : exec (.mgmtSegmentReturn g) s = .next (s.onP (segHeard g)) := by
  change execMgmtSegmentReturn g s = _
  rw [execMgmtSegmentReturn, decide_eq_true hg]
  exact State.runP_eq rfl

theorem segHeard_returns (hdown : p.od.segDown.contains g = true) : g ∉ (segHeard g p).od.segDown ∧ Logged 0x0E22 (segHeard g p) := by
  unfold segHeard
  extract_lets q
  rw [if_pos (show q.od.segDown.contains g = true from hdown)]
  refine ⟨?_, raise_logged (by decide) ..⟩
  rw [(raise_reported ..).od_segDown]
  intro hmem
  exact absurd (List.mem_filter.mp hmem).2 (by simp)

/-- An answer to a neighbour or an echo on a segment that is heard. -/
def netAnswered (h g : Nat) (d : List Byte) (p : Panel) : Panel := (segHeard g p).modOd fun o => { o with net := o.net ++ [(2 * h + g, d)] }

section
variable (hg : g < 2) (hh : h < 2) (hserves : segServes s.p h g = true) (hup : s.p.od.segDown.contains g = false)
include hup

theorem netAnswered_net (h : Nat) (d : List Byte) : (netAnswered h g d s.p).od.net = s.p.od.net ++ [(2 * h + g, d)] := by
  rw [netAnswered, segHeard_up hup]
  rfl

/-- Hearing a segment moves no address. -/
theorem addressesOf_segHeard (h : Nat) : addressesOf (segHeard g s.p) h g = addressesOf s.p h g := by
  rw [segHeard_up hup]
  rfl

include hg hh hserves

theorem exec_neighborDiscovery {a : BitVec 128} (ha : (addressesOf s.p h g).contains (leBytes 16 a.toNat).reverse = true) :
    exec (.neighborDiscovery h g a) s = .next (s.onP (netAnswered h g ((leBytes 16 a.toNat).reverse ++ macOf h g))) := by
  change execNeighborDiscovery h g a s = _
  rw [execNeighborDiscovery, decide_eq_true hg, decide_eq_true hh]
  refine State.runP_eq ((if_neg (not_not_intro hserves)).trans (if_pos ?_))
  rw [addressesOf_segHeard hup]
  exact ha

theorem exec_icmpv6Echo {a : BitVec 128} (d : List Byte) (ha : (addressesOf s.p h g).contains (leBytes 16 a.toNat).reverse = true) :
    exec (.icmpv6Echo h g a d) s = .next (s.onP (netAnswered h g d)) := by
  change execIcmpv6Echo h g a d s = _
  rw [execIcmpv6Echo, decide_eq_true hg, decide_eq_true hh]
  refine State.runP_eq ((if_neg (not_not_intro hserves)).trans (if_pos ?_))
  rw [addressesOf_segHeard hup]
  exact ha

theorem exec_icmpv6Echo_other {a : BitVec 128} (d : List Byte) (ha : (addressesOf s.p h g).contains (leBytes 16 a.toNat).reverse = false) :
    exec (.icmpv6Echo h g a d) s = .next (s.onP (segHeard g)) := by
  change execIcmpv6Echo h g a d s = _
  rw [execIcmpv6Echo, decide_eq_true hg, decide_eq_true hh]
  refine State.runP_eq ((if_neg (not_not_intro hserves)).trans (if_neg ?_))
  rw [addressesOf_segHeard hup]
  exact Bool.eq_false_iff.mp ha

end

end Sys2Proof.Machine
end

section
open Sys2Proof Sys2Proof.Machine

/-- Settles O42: each clause names the panel its command makes, and finds the session or segment in it. -/
theorem sessionsReportsAndSegmentsFollowTheirTimes : Obligations.SessionsReportsAndSegmentsFollowTheirTimes := by
  unfold Obligations.SessionsReportsAndSegmentsFollowTheirTimes
  intro g h slot x s hg hh hslot
  refine ⟨fun seq hseq hb => ?_, fun seq hseq hb hserves hup => ?_,
    fun a seq level scope d hseq hserves hup hact hpend hbox hid0 hid htime hhealthy hlen => ?_,
    fun n w tag htakes hu hw hsound => ?_,
    fun hx => ⟨fun e hdue hu => ?_, fun hdue => exec_reportSend_none hslot hx hdue,
      fun u hu => ⟨exec_reportResend_early hslot hx hu, fun ht hr => ?_, fun ht hr => ?_⟩,
      fun hidle => ?_, exec_sessionIdleTimeout_early hslot hx,
      fun f hf => ⟨fun hgap => ?_, exec_transferGapTimeout_early hslot hx hf⟩⟩,
    fun a ha ht => ?_, fun a ha ht => ?_, fun c b n hn hc hb => ⟨fun ht => ?_, exec_credentialLockoutEnd_early hn hc hb⟩,
    fun hcfg hup => ⟨fun ht => ?_, (exec_mgmtSegmentDown hg hcfg hup).2⟩, fun hdown => ?_,
    fun a d hserves hup => ⟨fun ha => ⟨?_, ?_⟩, fun ha => ?_⟩⟩
  · exact ⟨_, (exec_hello hg hh hseq s).trans (congrArg _ (mgmtFrame_helloFailed hb g h seq)), State.onP_mem .., deliver_out g h ..⟩
  · exact ⟨_, (exec_hello hg hh hseq s).trans (congrArg _ (mgmtFrame_hello hb hserves hup seq)), State.onP_mem .., deliver_out g h ..,
      (deliver_keeps g h ..).1⟩
  · intro u tag hsound
    have hfind : (frameHeard g s.p).sec.pendingAuth.find? (fun a => decide (a.id = u.sess) && !a.mailbox) = some a := by
      change s.p.sec.pendingAuth.find? _ = some a
      rw [hpend]
      exact List.find?_cons_of_pos (by simp [u, req0, hbox])
    have hdata : u.data.length = 99 ∧ byteAt u.data 2 = 3 ∧ u.data.drop 3 = d := by
      refine ⟨?_, rfl, rfl⟩
      change (leBytes 1 level ++ leBytes 1 scope ++ 3 :: d).length = 99
      simp [hlen]
    obtain ⟨hlength, hthree, hdrop⟩ := hdata
    have hexec : exec (.sessionOpen g h tag a.id seq level scope 3 d) s = .next (s.onP fun p => deliver (.seg g h) a.keys (reqHeader s.p u)
        u.sess u.seq (authStep3 (.seg g h) a (reqHeader s.p u) u (frameHeard g p)).1
        (authStep3 (.seg g h) a (reqHeader s.p u) u (frameHeard g p)).2) := by
      rw [exec_sessionOpen hg hh hid hseq, mgmtFrame_taken hserves hup (fun hf => absurd (show 0x11 = 0x10 from hf.2) (by decide)) hsound (by omega),
        request_step3 (s := s.onP (frameHeard g)) hact rfl hid0 hfind, State.onP_onP]
    have hnone : (authTaken a (frameHeard g s.p)).sec.pendingAuth = [] := by
      change s.p.sec.pendingAuth.filter _ = []
      rw [hpend]
      exact List.filter_cons_of_neg (by simp)
    refine ⟨fun hsig => ?_, fun hsig => ?_⟩
    · have hopen : (authStep3 (.seg g h) a (reqHeader s.p u) u (frameHeard g s.p)).2 = sessionOpened (.seg g h) a (reqHeader s.p u) u (frameHeard g s.p) :=
        authStep3_verified htime hhealthy hlength hthree (by rw [hdrop]; exact hsig)
      refine ⟨_, hexec, State.onP_mem .., ?_⟩
      rw [State.onP_p, (deliver_keeps ..).2, hopen, sessionAt_of_sessions (deliver_keeps ..).1]
      exact ⟨hnone, rfl, sessionOpened_sessionAt ..⟩
    · have hfail : (authStep3 (.seg g h) a (reqHeader s.p u) u (frameHeard g s.p)).2 = authFail a.cred (authTaken a (frameHeard g s.p)) :=
        authStep3_refused htime hhealthy (by rw [hdrop]; exact hsig)
      obtain ⟨hids, hpending, hcount⟩ := authFail_frame a.cred (authTaken a (frameHeard g s.p))
      refine ⟨_, hexec, State.onP_mem .., ?_⟩
      rw [State.onP_p, (deliver_keeps ..).1, (deliver_keeps ..).2, hfail]
      exact ⟨hpending.trans hnone, hids, hcount⟩
  · obtain ⟨-, -, hact, hserves, hup, ⟨-, hid0, hid, hx, hfind⟩, hpend, -⟩ := htakes
    have hnone : (frameHeard g s.p).sec.pendingAuth.find? (fun a => decide (a.id = x.id) && !a.mailbox) = none := by
      refine List.find?_eq_none.mpr fun a ha => ?_
      have hne := List.any_eq_false.mp hpend a ha
      simp only [Bool.and_eq_true]
      exact fun hboth => hne hboth.1
    refine ⟨_, (exec_reportAck hg hh hid tag w.entry.eseq s).trans (congrArg _ ((mgmtFrame_taken hserves hup (fun hf => absurd (show 0x21 = 0x10 from hf.2) (by decide)) hsound
      (by simp)).trans (request_ack (s := s.onP (frameHeard g)) hact rfl hnone hfind _))), State.onP_mem .., ?_⟩
    exact ackReports_one hx hu hw
  · exact ⟨_, exec_reportSend hslot hx (by rw [hdue]; exact List.cons_ne_nil _ _), State.onP_mem .., reportsSent_one hx hdue hu⟩
  · exact ⟨_, exec_reportResend_again hslot hx hu ht hr, State.onP_mem .., reportsResent_one hx hu⟩
  · exact ⟨_, exec_reportResend_lost hslot hx hu ht hr, State.onP_mem .., reportsLost_one hx hu⟩
  · exact ⟨_, exec_sessionIdleTimeout hslot hx hidle, State.onP_mem .., sessionAt_endSessions .., endSessions_ended hx _⟩
  · exact ⟨_, exec_transferGapTimeout hslot hx hf hgap, endTransfer_sessionAt hx⟩
  · exact ⟨_, State.runP_true .., rfl, (pendingAuth_timeout ha s.p.now).trans (if_pos ht)⟩
  · refine State.runP_same ?_
    have hstay := (pendingAuth_timeout ha s.p.now).trans (if_neg (Nat.not_le.mpr ht))
    rw [← ha] at hstay
    exact congrArg (fun l => { s.p with sec := { s.p.sec with pendingAuth := l } }) hstay
  · refine ⟨_, exec_credentialLockoutEnd hn hc hb ht, State.onP_mem .., ?_, Tab.find?_del ..⟩
    rw [credLocked, State.onP_p, show (Tab.get default (s.p.modSec _).sec.lock n : CredLock) = default from Tab.get_del_same ..]
    rfl
  · exact ⟨_, (exec_mgmtSegmentDown hg hcfg hup).1 ht, State.onP_mem .., segLost_down g s.p⟩
  · exact ⟨_, exec_mgmtSegmentReturn hg s, State.onP_mem .., segHeard_returns hdown⟩
  · exact ⟨_, exec_neighborDiscovery hg hh hserves hup ha, State.onP_mem .., netAnswered_net hup h _⟩
  · exact ⟨_, exec_icmpv6Echo hg hh hserves hup d ha, State.onP_mem .., netAnswered_net hup h _⟩
  · refine ⟨_, exec_icmpv6Echo_other hg hh hserves hup d ha, State.onP_mem .., ?_⟩
    rw [State.onP_p, segHeard_up hup]
    rfl

end

section
/-! PROOFS. The host's ports, and what a function reset empties (R308-R311, R327-R331). -/

namespace Sys2Proof.Machine

variable {p q r : Panel} {s : State} {f n hp : Nat}

/-! Completions and events: they touch no slice, submission queue, disabled completion queue, copy or port, and only add to what the
panel sends. -/

/-- `q` is `p` after completions and events, as far as the host interface goes. -/
structure Posted (p q : Panel) : Prop where
  slices : ∀ j, (q.getFn j).slices = (p.getFn j).slices
  sq : ∀ j, (q.getFn j).sq = (p.getFn j).sq
  cq : ∀ j m, ((p.getFn j).cqOf m).st = .disabled → (q.getFn j).cqOf m = (p.getFn j).cqOf m
  copies : q.host.copies = p.host.copies
  port : q.host.port = p.host.port
  out : ∀ o ∈ p.host.out, o ∈ q.host.out
  active : q.book.active = p.book.active

theorem Posted.refl (p : Panel) : Posted p p := ⟨fun _ => rfl, fun _ => rfl, fun _ _ _ => rfl, rfl, rfl, fun _ ho => ho, rfl⟩

theorem Posted.trans (hq : Posted p q) (hr : Posted q r) : Posted p r where
  slices j := (hr.slices j).trans (hq.slices j)
  sq j := (hr.sq j).trans (hq.sq j)
  cq j m hst := (hr.cq j m (by rw [hq.cq j m hst]; exact hst)).trans (hq.cq j m hst)
  copies := hr.copies.trans hq.copies
  port := hr.port.trans hq.port
  out o ho := hr.out o (hq.out o ho)
  active := hr.active.trans hq.active

theorem Posted.ite {c : Prop} [Decidable c] (hq : Posted p q) (hr : Posted p r) : Posted p (if c then q else r) := by
  split
  · exact hq
  · exact hr

theorem Posted.each {α : Type} (l : List α) {g : α → Panel → Panel} (h : ∀ a p, Posted p (g a p)) (p : Panel) : Posted p (each l g p) :=
  each_keeps (P := Posted p) l (fun a _ hq => hq.trans (h a _)) (.refl p)

theorem Posted.of_host (h : q.host = p.host) (ha : q.book.active = p.book.active := by rfl) : Posted p q where
  slices j := by rw [Panel.getFn, Panel.getFn, h]
  sq j := by rw [Panel.getFn, Panel.getFn, h]
  cq j m _ := by rw [Panel.getFn, Panel.getFn, h]
  copies := by rw [h]
  port := by rw [h]
  out o ho := by rw [h]; exact ho
  active := ha

theorem Posted.of_sameFns (h : SameFns p q) (copies : q.host.copies = p.host.copies) (port : q.host.port = p.host.port)
    (out : ∀ o ∈ p.host.out, o ∈ q.host.out) (active : q.book.active = p.book.active) : Posted p q where
  slices j := (h.fn j).slices
  sq j := (h.fn j).sq
  cq j m _ := congrArg (fun t => Tab.get queue0 t m) (h.fn j).cq
  copies := copies
  port := port
  out := out
  active := active

/-- What a function counts, or what it holds back, is none of it. -/
theorem modFn_posted (f : Nat) {g : Fn → Fn} (p : Panel) (hs : ∀ x, (g x).slices = x.slices := by intro _; rfl)
    (hsq : ∀ x, (g x).sq = x.sq := by intro _; rfl) (hcq : ∀ x, (g x).cq = x.cq := by intro _; rfl) : Posted p (p.modFn f g) := by
  have hfn (j : Nat) : (p.modFn f g).getFn j = p.getFn j ∨ (p.modFn f g).getFn j = g (p.getFn j) := by
    by_cases h : j = f
    · subst h
      exact .inr (Panel.modFn_same ..)
    · exact .inl (Panel.modFn_ne _ _ h)
  refine ⟨fun j => ?_, fun j => ?_, fun j m _ => ?_, rfl, rfl, fun _ ho => ho, rfl⟩
  · rcases hfn j with h | h <;> rw [h]
    exact hs _
  · rcases hfn j with h | h <;> rw [h]
    exact hsq _
  · rcases hfn j with h | h <;> rw [h]
    exact congrArg (fun t => Tab.get queue0 t m) (hcq _)

theorem raiseVector_posted (f port v : Nat) (p : Panel) : Posted p (raiseVector f port v p) :=
  .ite (.refl p) (.ite (modFn_posted ..) ⟨fun _ => rfl, fun _ => rfl, fun _ _ _ => rfl, rfl, rfl, fun _ ho => List.mem_append_left _ ho, rfl⟩)

theorem setIcause_posted (f b : Nat) (p : Panel) : Posted p (setIcause f b p) :=
  .ite (.refl p) ((modFn_posted ..).trans (raiseVector_posted ..))

theorem modOut_posted (l : List HostOut) (p : Panel) : Posted p (p.modHost fun h => { h with out := h.out ++ l }) :=
  ⟨fun _ => rfl, fun _ => rfl, fun _ _ _ => rfl, rfl, rfl, fun _ ho => List.mem_append_left _ ho, rfl⟩

theorem hostWrite_posted (f c addr : Nat) (b : List Byte) (p : Panel) : Posted p (hostWrite f c addr b p) := by
  unfold hostWrite
  exact (modOut_posted ..).trans (modFn_posted ..)

theorem ringPut_posted (f : Nat) (e : Entry) (p : Panel) : Posted p (ringPut f e p) :=
  ((hostWrite_posted ..).trans (modFn_posted ..)).trans (setIcause_posted ..)

theorem ringEvent_posted (f : Nat) (e : Entry) (p : Panel) : Posted p (ringEvent f e p) :=
  .ite (.refl p) (.ite (modFn_posted ..) (ringPut_posted ..))

theorem hubEnter_out (ev site core key : Nat) (data : BitVec 64) (supp : Nat) (p : Panel) :
    ∀ o ∈ p.host.out, o ∈ (hubEnter ev site core key data supp p).host.out := by
  unfold hubEnter
  extract_lets e parts p1 p2 p3
  have h : Posted p1 p3 := (ringEvent_posted 0 e p1).trans (.each parts (fun n => ringEvent_posted (n + 1) e) p2)
  exact fun o ho => h.out o ho

theorem raise_out (ev site key : Nat) (d : Dat) (p : Panel) : ∀ o ∈ p.host.out, o ∈ (raise ev site key d p).host.out := by
  intro o ho
  have h := latch_host (evSpan ev) ev key p
  unfold raise raiseAs
  split
  · next supp u e =>
    rw [e] at h
    exact hubEnter_out _ _ _ _ _ _ _ o (by rw [takeData_host, h]; exact ho)
  · next u e =>
    rw [e] at h
    rw [h]
    exact ho

theorem raise_posted (ev site key : Nat) (d : Dat) (p : Panel) : Posted p (raise ev site key d p) :=
  .of_sameFns (raise_sameFns ..) (raise_reported ..).host_copies (raise_reported ..).host_port (raise_out _ _ _ _ _) (raise_reported ..).book_active

/-- A change of a completion queue that is not disabled, which keeps its state. -/
theorem modCq_posted {c : Nat} (hst : ((p.getFn f).cqOf c).st ≠ .disabled) (g : Queue → Queue) : Posted p (modCq f c g p) := by
  have hfn (j : Nat) (hj : j ≠ f) : (modCq f c g p).getFn j = p.getFn j := Panel.modFn_ne _ _ hj
  have hsame : (modCq f c g p).getFn f = { p.getFn f with cq := Tab.upd queue0 c g (p.getFn f).cq } := Panel.modFn_same ..
  refine ⟨fun j => ?_, fun j => ?_, fun j m hm => ?_, rfl, rfl, fun _ ho => ho, rfl⟩
  · by_cases hj : j = f
    · rw [hj, hsame]
    · rw [hfn j hj]
  · by_cases hj : j = f
    · rw [hj, hsame]
    · rw [hfn j hj]
  · by_cases hj : j = f
    · subst hj
      have hne : m ≠ c := fun h => hst (h ▸ hm)
      rw [hsame]
      exact Tab.get_upd_ne _ hne _ _
    · rw [hfn j hj]

theorem modCq_cqOf (f c : Nat) (g : Queue → Queue) (p : Panel) : ((modCq f c g p).getFn f).cqOf c = g ((p.getFn f).cqOf c) := by
  rw [modCq, Panel.modFn_same]
  exact Tab.get_upd_same ..

theorem signalCq_posted {c : Nat} (hst : ((p.getFn f).cqOf c).st ≠ .disabled) : Posted p (signalCq f c p) :=
  (modCq_posted hst _).trans (raiseVector_posted ..)

theorem noteWritten_posted (i : Option Nat) (p : Panel) : Posted p (noteWritten i p) := by
  cases i with
  | none => exact .refl p
  | some i => exact .of_host ((settleQuery_host ..).trans rfl) (by unfold noteWritten settleQuery; dsimp only; split <;> rfl)

theorem writeCompletion_posted {c : Completion} (hst : ((p.getFn f).cqOf c.cq).st ≠ .disabled) : Posted p (writeCompletion f c p) := by
  unfold writeCompletion
  extract_lets y p1 p2 p3 p4
  have hcq1 : (p1.getFn f).cqOf c.cq = (p.getFn f).cqOf c.cq := congrArg (fun t => Tab.get queue0 t c.cq) ((hostWrite_sameFns ..).fn f).cq
  have h1 : Posted p p1 := hostWrite_posted ..
  have h2 : Posted p1 p2 := modCq_posted (by rw [hcq1]; exact hst) _
  have h3 : Posted p2 p3 := modFn_posted ..
  have hst3 : ((p3.getFn f).cqOf c.cq).st ≠ .disabled := by
    have hcq3 : (p3.getFn f).cqOf c.cq = (p2.getFn f).cqOf c.cq := by
      unfold p3
      rw [Panel.modFn_same]
      rfl
    rw [hcq3, modCq_cqOf, hcq1]
    exact hst
  have h4 : Posted p3 p4 := .ite (signalCq_posted hst3) (.refl p3)
  refine (((h1.trans h2).trans h3).trans h4).trans ?_
  split
  · exact noteWritten_posted (some _) p4
  · exact .refl p4

theorem postCompletion_posted (f : Nat) (c : Completion) (p : Panel) : Posted p (postCompletion f c p) := by
  unfold postCompletion
  extract_lets y waits p1
  split
  · have h1 : Posted p p1 := modFn_posted f p
    refine h1.trans ?_
    split
    · exact noteWritten_posted (some _) p1
    · exact .refl p1
  · next hst => exact .ite ((modFn_posted ..).trans (raise_posted ..)) (.ite (modFn_posted ..) (writeCompletion_posted hst))

theorem postHeld_posted (f c fuel : Nat) (p : Panel) : Posted p (postHeld f c fuel p) := by
  induction fuel generalizing p with
  | zero => exact .refl p
  | succ m ih =>
    unfold postHeld
    split
    · exact .refl p
    · next e he =>
      have hcq : e.cq = c := of_decide_eq_true (List.find?_some (p := fun h : Completion => decide (h.cq = c)) he)
      split
      · exact .refl p
      · next hroom =>
        have hst : ((p.getFn f).cqOf c).st ≠ .disabled := fun h => hroom (by simp [h])
        refine ((modFn_posted f p).trans (writeCompletion_posted ?_)).trans (ih _)
        rw [hcq, Panel.modFn_same]
        exact hst

/-! The end of a query, of a copy, and of a function (R331). -/

theorem advanceEpoch_posted (i : Nat) (p : Panel) : Posted p (advanceEpoch i p) := by
  obtain ⟨c, hc⟩ := toGroup_onlyCtl 2 (0x40 + (p.getQuery i).part)
    (.epochSet p.ctl.setSeq (p.getQuery i).part false i ((queryEpoch p i + 1) % 2 ^ 16)) p
  have hsend : Posted p (toGroup 2 (0x40 + (p.getQuery i).part)
      (.epochSet p.ctl.setSeq (p.getQuery i).part false i ((queryEpoch p i + 1) % 2 ^ 16)) p) := by
    rw [hc]
    exact .of_host rfl
  exact hsend.trans (.of_host rfl)

theorem settleQuery_posted (i : Nat) (p : Panel) : Posted p (settleQuery i p) :=
  .of_host (settleQuery_host ..) (by unfold settleQuery; dsimp only; split <;> rfl)

theorem modQuery_posted (i : Nat) (g : Query → Query) (p : Panel) : Posted p (p.modQuery i g) := .of_host rfl

theorem completeQuery_posted (i status stage : Nat) (pairs : List Nat) (p : Panel) : Posted p (completeQuery i status stage pairs p) := by
  unfold completeQuery
  extract_lets x p1 p2
  have h1 : Posted p p1 := .of_host rfl
  exact .ite (h1.trans ((modQuery_posted ..).trans (settleQuery_posted ..))) (h1.trans ((hostWrite_posted ..).trans (postCompletion_posted ..)))

theorem failBound_posted (i status : Nat) (p : Panel) : Posted p (failBound i status p) :=
  ((advanceEpoch_posted ..).trans (modQuery_posted ..)).trans (completeQuery_posted ..)

theorem endQuery_posted (i status : Nat) (p : Panel) : Posted p (endQuery i status p) := by
  unfold endQuery
  split
  · exact (modQuery_posted ..).trans (completeQuery_posted ..)
  · exact failBound_posted ..
  · exact failBound_posted ..
  · exact .ite (failBound_posted ..) ((advanceEpoch_posted ..).trans (modQuery_posted ..))
  · exact .refl p

/-- A function without queues and slices. -/
structure Bare (f : Nat) (p : Panel) : Prop where
  slices : (p.getFn f).slices = []
  sq : ∀ m, (p.getFn f).sqOf m = queue0
  cq : ∀ m, (p.getFn f).cqOf m = queue0

theorem Posted.bare (h : Posted p q) (hp : Bare f p) : Bare f q where
  slices := (h.slices f).trans hp.slices
  sq m := (congrArg (fun t => Tab.get queue0 t m) (h.sq f)).trans (hp.sq m)
  cq m := (h.cq f m (by rw [hp.cq m]; rfl)).trans (hp.cq m)

/-- What clears a function, or leaves its queues and slices, keeps it bare. -/
theorem modFn_bare {j : Nat} {g : Fn → Fn} (hp : Bare f p) (hg : ∀ x, (g x).slices = [] ∧ (g x).sq = [] ∧ (g x).cq = []
    ∨ (g x).slices = x.slices ∧ (g x).sq = x.sq ∧ (g x).cq = x.cq) : Bare f (p.modFn j g) := by
  by_cases h : f = j
  · subst h
    have hsame : (p.modFn f g).getFn f = g (p.getFn f) := Panel.modFn_same ..
    rcases hg (p.getFn f) with ⟨hs, hsq, hcq⟩ | ⟨hs, hsq, hcq⟩
    · exact ⟨by rw [hsame, hs], fun m => by rw [hsame, Fn.sqOf, hsq]; rfl, fun m => by rw [hsame, Fn.cqOf, hcq]; rfl⟩
    · exact ⟨by rw [hsame, hs, hp.slices], fun m => by rw [hsame, Fn.sqOf, hsq]; exact hp.sq m, fun m => by rw [hsame, Fn.cqOf, hcq]; exact hp.cq m⟩
  · have hsame : (p.modFn j g).getFn f = p.getFn f := Panel.modFn_ne _ _ h
    exact ⟨by rw [hsame, hp.slices], fun m => by rw [hsame, hp.sq m], fun m => by rw [hsame, hp.cq m]⟩

theorem modSq_getFn (f m : Nat) (g : Queue → Queue) (p : Panel) :
    (modSq f m g p).getFn f = { p.getFn f with sq := Tab.upd queue0 m g (p.getFn f).sq } := Panel.modFn_same ..

theorem modSq_sqOf_ne {m j : Nat} (h : j ≠ m) (f : Nat) (g : Queue → Queue) (p : Panel) :
    ((modSq f m g p).getFn f).sqOf j = (p.getFn f).sqOf j := by
  rw [modSq_getFn]
  exact Tab.get_upd_ne _ h _ _

theorem modSq_sqOf (f m : Nat) (g : Queue → Queue) (p : Panel) : ((modSq f m g p).getFn f).sqOf m = g ((p.getFn f).sqOf m) := by
  rw [modSq_getFn]
  exact Tab.get_upd_same ..

/-- A queue that is no longer busy stays bare. -/
theorem endCopy_bare (hp : Bare f p) (c : Copy) (status info1 info2 : Nat) : Bare f (endCopy c status info1 info2 p) := by
  unfold endCopy
  extract_lets p1 p2
  have h1 : Bare f p1 := ⟨hp.slices, hp.sq, hp.cq⟩
  refine (postCompletion_posted ..).bare ?_
  by_cases hf : f = c.fn
  · subst hf
    refine ⟨(congrArg Fn.slices (modSq_getFn ..)).trans h1.slices, fun m => ?_, fun m => ?_⟩
    · by_cases hm : m = c.sq
      · subst hm
        exact (modSq_sqOf ..).trans (by rw [h1.sq]; rfl)
      · exact (modSq_sqOf_ne hm ..).trans (h1.sq m)
    · exact (congrArg (fun x => Tab.get queue0 (Fn.cq x) m) (modSq_getFn ..)).trans (h1.cq m)
  · have hsame : p2.getFn f = p1.getFn f := Panel.modFn_ne _ _ hf
    exact ⟨by rw [hsame]; exact h1.slices, fun m => by rw [hsame]; exact h1.sq m, fun m => by rw [hsame]; exact h1.cq m⟩

theorem endCopy_copies (c : Copy) (status info1 info2 : Nat) (p : Panel) :
    (endCopy c status info1 info2 p).host.copies = p.host.copies.filter fun x => decide (x.id ≠ c.id) := by
  unfold endCopy
  exact (postCompletion_posted ..).copies

/-- Copies that are aborted are gone, and no other comes. -/
theorem each_abortCopy (l : List Copy) (p : Panel) : ∀ x ∈ (each l abortCopy p).host.copies, x ∈ p.host.copies ∧ ∀ c ∈ l, x.id ≠ c.id := by
  induction l generalizing p with
  | nil => exact fun x hx => ⟨hx, fun c hc => absurd hc (by simp)⟩
  | cons c l ih =>
    intro x hx
    obtain ⟨hmem, hl⟩ := ih (abortCopy c p) x hx
    rw [abortCopy, endCopy_copies] at hmem
    obtain ⟨hmem, hne⟩ := List.mem_filter.mp hmem
    exact ⟨hmem, List.forall_mem_cons.mpr ⟨of_decide_eq_true hne, hl⟩⟩

theorem each_abortCopy_bare (l : List Copy) (hp : Bare f p) : Bare f (each l abortCopy p) :=
  each_keeps (P := Bare f) l (fun c _ hq => endCopy_bare hq c 0x15 noBlock _) hp

/-- A function's own state is cleared. -/
def fnCleared (f : Nat) (p : Panel) : Panel :=
  p.modFn f fun x => { x with
    sq := [], cq := [], ring := queue0, icause := 0, slices := [], reqLen := 0, busy := false, rspLen := 0, req := [], rsp := [],
    unconfirmed := [] }

/-- Its MSI-X table and its held entries are dropped. -/
def fnDropped (hp f : Nat) (p : Panel) : Panel := each (List.range 16) (dropHeld f) (dropMsix hp f (fnCleared f p))

/-- Its copies are aborted. -/
def copiesDropped (f : Nat) (p : Panel) : Panel :=
  each (p.host.copies.filter fun c => decide (c.fn = f)) abortCopy (dropScans (fun id => p.host.copies.any fun c => decide (c.fn = f ∧ c.id = id)) p)

/-- Its queries are ended. -/
def queriesDropped (f : Nat) (p : Panel) : Panel :=
  each (liveQueries p) (fun e p =>
    if (p.getQuery e.1).fn = f ∧ (p.getQuery e.1).st ≠ .free then
      let p := p.modQuery e.1 fun x => { x with silent := true }
      if (p.getQuery e.1).posted then settleQuery e.1 (p.modQuery e.1 fun x => { x with written := true }) else endQuery e.1 1 p
    else p) p

theorem stopFn_eq (hp f : Nat) (p : Panel) : stopFn hp f p = queriesDropped f (copiesDropped f (fnDropped hp f p)) := by
  simp only [stopFn, queriesDropped, copiesDropped, fnDropped, fnCleared]

theorem queriesDropped_posted (f : Nat) (p : Panel) : Posted p (queriesDropped f p) := by
  refine .each _ (fun e p => .ite ?_ (.refl p)) p
  exact .ite ((modQuery_posted ..).trans ((modQuery_posted ..).trans (settleQuery_posted ..))) ((modQuery_posted ..).trans (endQuery_posted ..))

theorem fnCleared_bare (f : Nat) (p : Panel) : Bare f (fnCleared f p) := by
  have hsame : (fnCleared f p).getFn f = _ := Panel.modFn_same ..
  exact ⟨by rw [hsame], fun m => by rw [hsame]; rfl, fun m => by rw [hsame]; rfl⟩

theorem dropHeld_posted (f c : Nat) (p : Panel) : Posted p (dropHeld f c p) := by
  unfold dropHeld
  refine Posted.trans (modFn_posted f p) (.each _ (fun e p => ?_) _)
  split
  · exact (modQuery_posted ..).trans (settleQuery_posted ..)
  · exact .refl p

theorem dropMsix_posted (hp f : Nat) (p : Panel) : Posted p (dropMsix hp f p) := modFn_posted ..

theorem fnDropped_posted (hp f : Nat) (p : Panel) : Posted (fnCleared f p) (fnDropped hp f p) :=
  (dropMsix_posted ..).trans (.each _ (fun c => dropHeld_posted f c) _)

theorem copiesDropped_bare {j : Nat} (hp : Bare f p) : Bare f (copiesDropped j p) := each_abortCopy_bare _ ⟨hp.slices, hp.sq, hp.cq⟩

theorem copiesDropped_copies (f : Nat) (p : Panel) : ∀ x ∈ (copiesDropped f p).host.copies, x ∈ p.host.copies ∧ x.fn ≠ f := by
  intro x hx
  obtain ⟨hmem, hne⟩ := each_abortCopy _ _ x hx
  exact ⟨hmem, fun hfn => hne x (List.mem_filter.mpr ⟨hmem, decide_eq_true hfn⟩) rfl⟩

theorem abortCopy_active (c : Copy) (p : Panel) : (abortCopy c p).book.active = p.book.active := (postCompletion_posted ..).active

theorem copiesDropped_active (f : Nat) (p : Panel) : (copiesDropped f p).book.active = p.book.active :=
  each_keeps (P := fun q : Panel => q.book.active = p.book.active) _ (fun c q hq => (abortCopy_active c q).trans hq) rfl

/-- A function without queues, slices and copies. -/
structure Emptied (f : Nat) (p : Panel) : Prop where
  bare : Bare f p
  copies : ∀ c ∈ p.host.copies, c.fn ≠ f

theorem Posted.emptied (h : Posted p q) (hp : Emptied f p) : Emptied f q := ⟨h.bare hp.bare, fun c hc => hp.copies c (h.copies ▸ hc)⟩

/-- A function that is stopped is emptied, -/
theorem stopFn_emptied (hp f : Nat) (p : Panel) : Emptied f (stopFn hp f p) := by
  rw [stopFn_eq]
  refine (queriesDropped_posted ..).emptied ⟨copiesDropped_bare ((fnDropped_posted ..).bare (fnCleared_bare ..)), fun c hc => ?_⟩
  exact (copiesDropped_copies _ _ c hc).2

/-- and stays so when another is stopped. -/
theorem stopFn_keeps_emptied {j : Nat} (h : Emptied f p) : Emptied f (stopFn hp j p) := by
  rw [stopFn_eq]
  have hclear : Bare f (fnCleared j p) := modFn_bare h.bare fun x => .inl ⟨rfl, rfl, rfl⟩
  refine (queriesDropped_posted ..).emptied ⟨copiesDropped_bare ((fnDropped_posted ..).bare hclear), fun c hc => ?_⟩
  have hmem := (copiesDropped_copies _ _ c hc).1
  rw [(fnDropped_posted ..).copies] at hmem
  exact h.copies c hmem

theorem stopFn_active (hp f : Nat) (p : Panel) : (stopFn hp f p).book.active = p.book.active := by
  rw [stopFn_eq, (queriesDropped_posted ..).active, copiesDropped_active, (fnDropped_posted ..).active]
  rfl

theorem endMailbox_posted (f reason : Nat) (p : Panel) : Posted p (endMailbox f reason p) := .of_host rfl

/-- A function reset on the active port empties its function, -/
theorem flrOne_emptied (hact : hp = activePort p) : Emptied f (flrOne hp f p) := by
  unfold flrOne
  rw [if_pos hact]
  exact (raise_posted ..).emptied ((endMailbox_posted ..).emptied (stopFn_emptied ..))

/-- and leaves another emptied. -/
theorem flrOne_keeps_emptied {j : Nat} (hact : hp = activePort p) (h : Emptied f p) : Emptied f (flrOne hp j p) := by
  unfold flrOne
  rw [if_pos hact]
  exact (raise_posted ..).emptied ((endMailbox_posted ..).emptied (stopFn_keeps_emptied h))

theorem flrOne_active (hp f : Nat) (p : Panel) : (flrOne hp f p).book.active = p.book.active := by
  unfold flrOne
  rw [(raise_posted ..).active]
  split
  · exact (endMailbox_posted ..).active.trans (stopFn_active ..)
  · rfl

theorem flrOne_logged (hp f : Nat) (p : Panel) : Logged 0x0909 (flrOne hp f p) := raise_logged (by decide) ..

/-- A reset of the PF resets it and every VF. -/
theorem each_flrOne_emptied (n : Nat) (hact : hp = activePort p) : Emptied 0 (each (List.range (n + 1)) (flrOne hp) p) := by
  rw [List.range_succ_eq_map]
  have h : Emptied 0 (each ((List.range n).map Nat.succ) (flrOne hp) (flrOne hp 0 p)) ∧ _ :=
    each_keeps (P := fun q => Emptied 0 q ∧ q.book.active = p.book.active) _
      (fun j q hq => ⟨flrOne_keeps_emptied (hact.trans hq.2.symm) hq.1, (flrOne_active ..).trans hq.2⟩) ⟨flrOne_emptied hact, flrOne_active ..⟩
  exact h.1

theorem each_flrOne_logged (hp n : Nat) (p : Panel) : Logged 0x0909 (each (List.range (n + 1)) (flrOne hp) p) := by
  rw [List.range_succ, each, List.foldl_append]
  exact flrOne_logged ..

theorem flr_logged (hp f : Nat) (p : Panel) : Logged 0x0909 (flr hp f p) := by
  unfold flr
  split
  · exact (each_flrOne_logged ..).congr rfl rfl
  · exact flrOne_logged ..

theorem flr_emptied (hact : hp = activePort p) : Emptied f (flr hp f p) := by
  unfold flr
  split
  · next h =>
    subst h
    have he := each_flrOne_emptied (p.getHPort hp).vfs hact
    exact ⟨⟨he.bare.slices, he.bare.sq, he.bare.cq⟩, he.copies⟩
  · exact flrOne_emptied hact

theorem flr_pf_vfs (hp : Nat) (p : Panel) : ((flr hp 0 p).getHPort hp).vfs = 0 := by
  rw [flr, if_pos rfl, Panel.modHPort_same]

/-- On the standby port a VF's reset empties its MSI-X table. -/
theorem flr_standby (hf : f ≠ 0) (hact : hp ≠ activePort p) :
    ((flr hp f p).getFn f).sq = (p.getFn f).sq ∧ Tab.get [] ((flr hp f p).getFn f).msix hp = [] := by
  rw [flr, if_neg hf, flrOne, if_neg hact]
  have hraise := (raise_sameFns 0x0909 0xFF (keyFn f) none (dropMsix hp f p)).fn f
  have hdrop : (dropMsix hp f p).getFn f = _ := Panel.modFn_same ..
  rw [hraise.sq, hraise.msix, hdrop]
  exact ⟨rfl, Tab.get_del_same ..⟩

/-! PERST_N and links (R309, R310). -/

/-- A port trained by the settings and by what comes. -/
def portTrained (rate width vfs : Nat) (flit enumd : Bool) (hp : Nat) (p : Panel) : Panel :=
  p.modHPort hp fun x => { x with
    perst := false, rate := trainedTo [25, 50, 80, 160, 320, 640] (min (10 * cfg p 0x9003 0 1) (if flit then rate else min rate 320)),
    width := trainedTo [1, 2, 4, 8, 16] (min width (cfg p 0x9003 0 2)), flit := flit, enumd := enumd, vfs := min vfs 16 }

theorem postAllHeld_posted (p : Panel) : Posted p (postAllHeld p) :=
  .each _ (fun f => Posted.each (List.range 16) fun n => postHeld_posted f n 4096) p

theorem getHPort_of_port (h : q.host.port = p.host.port) (hp : Nat) : q.getHPort hp = p.getHPort hp := by rw [Panel.getHPort, Panel.getHPort, h]

/-- A port whose link is up. -/
def Port.linked (x : Port) : Port := { x with up := true }

theorem tryLink_eq (hp : Nat) (p : Panel) : tryLink hp p = if ¬ (p.getHPort hp).perst = true ∧ (p.getBlk (if hp = 0 then 16 else 18)).st = .up then
      if hp = 1 ∧ p.host.taken = true then postAllHeld (p.modHPort hp Port.linked) else p.modHPort hp Port.linked
    else p := rfl

/-- A link that comes up changes of its port that it is up. -/
theorem tryLink_getHPort (hp : Nat) (p : Panel) : (tryLink hp p).getHPort hp
    = if ¬ (p.getHPort hp).perst = true ∧ (p.getBlk (if hp = 0 then 16 else 18)).st = .up then (p.getHPort hp).linked else p.getHPort hp := by
  rw [tryLink_eq]
  have hq : (p.modHPort hp Port.linked).getHPort hp = (p.getHPort hp).linked := Panel.modHPort_same ..
  by_cases h : ¬ (p.getHPort hp).perst = true ∧ (p.getBlk (if hp = 0 then 16 else 18)).st = .up
  · rw [if_pos h, if_pos h]
    split
    · exact (getHPort_of_port (postAllHeld_posted _).port hp).trans hq
    · exact hq
  · rw [if_neg h, if_neg h]

section
variable (hhp : hp < 2)
include hhp

theorem isHPort_of_lt : isHPort hp = true := decide_eq_true hhp

theorem exec_perstRelease (hpe : (s.p.getHPort hp).perst = true) (rate width vfs : Nat) (flit enumd : Bool) :
    exec (.perstRelease hp rate width flit enumd vfs) s = .next (s.onP fun p => tryLink hp (portTrained rate width vfs flit enumd hp p)) := by
  change execPerstRelease hp rate width flit enumd vfs s = _
  rw [execPerstRelease, isHPort_of_lt hhp]
  exact State.runP_eq (if_neg (not_not_intro hpe))

theorem exec_perstRelease_released (hpe : (s.p.getHPort hp).perst = false) (rate width vfs : Nat) (flit enumd : Bool) :
    exec (.perstRelease hp rate width flit enumd vfs) s = .next s := by
  change execPerstRelease hp rate width flit enumd vfs s = _
  rw [execPerstRelease, isHPort_of_lt hhp]
  exact State.runP_same (if_pos (Bool.eq_false_iff.mp hpe))

theorem exec_perstAssert (s : State) : exec (.perstAssert hp) s = .next (s.onP fun p => (flr hp 0 p).modHPort hp fun _ => port0) := by
  change execPerstAssert hp s = _
  rw [execPerstAssert, isHPort_of_lt hhp]
  exact State.runP_eq rfl

/-- The site of a port's hub. -/
def portHub (hp : Nat) : Nat := if hp = 0 then 0x00 else 0xDD

theorem exec_hostLinkDown (hup : (s.p.getHPort hp).up = true) (hpe : (s.p.getHPort hp).perst = false) :
    exec (.hostLinkDown hp) s = .next (s.onP fun p => raise 0x0908 (portHub hp) (portHub hp) none (p.modHPort hp fun x => { x with up := false })) := by
  change execHostLinkDown hp s = _
  rw [execHostLinkDown, isHPort_of_lt hhp]
  refine State.runP_eq ((if_pos hup).trans (if_neg ?_))
  rw [Panel.modHPort_same]
  exact Bool.eq_false_iff.mp hpe

theorem exec_hostLinkDown_down (hup : (s.p.getHPort hp).up = false) : exec (.hostLinkDown hp) s = .next s := by
  change execHostLinkDown hp s = _
  rw [execHostLinkDown, isHPort_of_lt hhp]
  exact State.runP_same (if_neg (Bool.eq_false_iff.mp hup))

theorem exec_flr (hf : f ≤ 16) (ha : arrives s.p hp f = true) : exec (.flr hp f) s = .next (s.onP (flr hp f)) := by
  change execFlr hp f s = _
  rw [execFlr, isHPort_of_lt hhp, show isFn f = true from decide_eq_true hf]
  exact State.runP_eq (if_pos ha)

end

theorem hostLinkDown_frame (hp : Nat) (p : Panel) :
    ((raise 0x0908 (portHub hp) (portHub hp) none (p.modHPort hp fun x => { x with up := false })).getHPort hp).up = false := by
  rw [getHPort_of_port (raise_reported ..).host_port, Panel.modHPort_same]

end Sys2Proof.Machine
end

section
/-! PROOFS. The mailbox, the slices and the apertures (R314-R316, R330). -/

namespace Sys2Proof.Machine

variable {p : Panel} {s : State} {f n hp : Nat}

/-! The mailbox (R330). -/

theorem setIcause_fn (f b : Nat) (p : Panel) : ((setIcause f b p).getFn f).busy = (p.getFn f).busy
    ∧ ((setIcause f b p).getFn f).rsp = (p.getFn f).rsp ∧ ((setIcause f b p).getFn f).icause.testBit b = true := by
  unfold setIcause
  split
  · next h => exact ⟨rfl, rfl, h⟩
  · have hv : ∀ q : Panel, ((raiseVector f (activePort p) 0 q).getFn f).busy = (q.getFn f).busy
        ∧ ((raiseVector f (activePort p) 0 q).getFn f).rsp = (q.getFn f).rsp
        ∧ ((raiseVector f (activePort p) 0 q).getFn f).icause = (q.getFn f).icause := by
      intro q
      unfold raiseVector
      split
      · exact ⟨rfl, rfl, rfl⟩
      · split
        · rw [Panel.modFn_same]
          exact ⟨rfl, rfl, rfl⟩
        · exact ⟨rfl, rfl, rfl⟩
    obtain ⟨hbusy, hrsp, hic⟩ := hv (p.modFn f fun x => { x with icause := x.icause ||| 2 ^ b })
    rw [hbusy, hrsp, hic, Panel.modFn_same]
    exact ⟨rfl, rfl, by simp⟩

/-- A request submitted to the mailbox. -/
def mailboxBusy (f len : Nat) (p : Panel) : Panel := (p.modFn f fun y => { y with reqLen := len }).modFn f fun y => { y with busy := true }

theorem exec_mailboxGo {len : Nat} {q : Req} (hhp : hp < 2) (hf : f ≤ 16) (hlen : len < 2 ^ 17) (ha : arrives s.p hp f = true)
    (hact : hp = activePort s.p) (hb : (s.p.getFn f).busy = false) (hph : 3 ≤ s.p.boot.phase)
    (hq : parseFrame (padTo len (s.p.getFn f).req) = some q) :
    exec (.mailboxGo hp f len) s = .next (request (.box f) (padTo 32 (s.p.getFn f).req) q (s.onP (mailboxBusy f len))) := by
  change execMailboxGo hp f len s = _
  have hguard : (isHPort hp && isFn f && decide (len < 2 ^ 17)) = true := by
    simp only [isHPort, isFn, hhp, hf, hlen, decide_true, Bool.and_self]
  rw [execMailboxGo, hguard, State.run_true, if_neg (not_not_intro ha), if_neg (not_not_intro hact), mailboxGo]
  have hfn : (s.onP fun p => p.modFn f fun y => { y with reqLen := len }).p.getFn f = { s.p.getFn f with reqLen := len } := Panel.modFn_same ..
  rw [hfn]
  refine congrArg _ (((if_neg (Bool.eq_false_iff.mp hb)).trans (if_neg (Nat.not_lt.mpr hph))).trans ?_)
  rw [hq]
  rfl

/-- A mailbox whose response is complete. -/
def answered (hdr : List Byte) (r : Resp) (x : Fn) : Fn :=
  { x with busy := false, rspLen := (respHeader hdr false r ++ r.data).length, rsp := respHeader hdr false r ++ r.data }

theorem boxAnswer_eq (f : Nat) (hdr : List Byte) (r : Resp) (p : Panel) : boxAnswer f hdr r p = setIcause f 1 (p.modFn f (answered hdr r)) := rfl

/-- HELLO is answered at once (R355). -/
theorem request_hello {hdr : List Byte} {q : Req} (hop : q.op = 0x10) (f : Nat) (s : State) :
    request (.box f) hdr q s = s.onP fun p => boxAnswer f hdr (helloResp p.book.active p) p := by
  unfold request
  exact if_pos hop

/-! The slices (R315). -/

theorem exec_apertureSliceWrite (hhp : hp < 2) (hf : f ≤ 16) (hn : n < 16) (ha : arrives s.p hp f = true) (hact : hp = activePort s.p)
    (x : BitVec 64) : exec (.apertureSliceWrite hp f n x) s = .next (s.onP (writeSlice f n x)) :=
  bar0_runP (by simp [isHPort, isFn, hhp, hf, hn]) ha hact _

theorem writeSlice_slices {x : BitVec 64} (hx : fld x 63 52 = 0) : ((writeSlice f n x p).getFn f).slices
    = Tab.set n (BitVec.ofNat 64 (fld x 63 32 * 2 ^ 32 + (if bit x 0 then 1 else 0))) (p.getFn f).slices := by
  rw [writeSlice, if_neg (not_not_intro hx), Panel.modFn_same]

/-! General accesses ask for their parts (R103, R106). -/

/-- A read asks with its data still to come. -/
theorem askGeneral_gen (who : Asker) (site x n : Nat) (wr : Option (List Byte)) (p : Panel) :
    ∃ g : GenAcc, (askGeneral who site x n wr p).gen = p.gen ++ [g] ∧ g.who = who ∧ g.data = if wr.isSome then [] else List.replicate n 0 := by
  unfold askGeneral
  apply each_keeps (P := fun q : Panel => ∃ g : GenAcc, q.gen = p.gen ++ [g] ∧ g.who = who
    ∧ g.data = if wr.isSome then [] else List.replicate n 0)
  case h => exact fun _ _ hq => hq
  case hb => exact ⟨_, rfl, rfl, rfl⟩

/-! Reads through the aperture (R314, R316). -/

section
variable {off a len : Nat} (hhp : hp < 2) (hf : f ≤ 16) (hn : n < 16) (hoff : off < 2 ^ 32) (ha : arrives s.p hp f = true)
  (hact : hp = activePort s.p) (hslice : sliceGa s.p f n off = some a) (hpath : hubPath s.p (Ga.site a) = true)
include hhp hf hn hoff ha hact hslice hpath

theorem exec_apertureRead_parts (hok : gaAllowed s.p ⟨false, fnPart f⟩ a len = true) (hsp : Ga.space a = 1) (rows : RowErrs) :
    exec (.apertureRead hp f n off len rows) s = .next (s.onP (askGeneral (.aperture hp f) (Ga.site a) (Ga.off a) len none)) := by
  change execApertureRead hp f n off len rows s = _
  rw [execApertureRead, show (isHPort hp && isFn f && decide (n < 16) && decide (off < 2 ^ 32)) = true by
    simp only [isHPort, isFn, hhp, hf, hn, hoff, decide_true, Bool.and_self], State.run_true]
  simp only [ha, hact.symm, hslice, hok, hpath, hsp, not_true_eq_false, if_false, if_true, ne_eq, Bool.and_self]

theorem exec_apertureRead_program (hok : gaAllowed s.p ⟨false, fnPart f⟩ a len = true) (hsp : Ga.space a = 2) (rows : RowErrs) :
    exec (.apertureRead hp f n off len rows) s
      = .next (s.onP (answerRead (.readData hp f (s.mem.readN (gaProgram (Ga.core a) (Ga.off a % 2 ^ 26)) len)))) := by
  change execApertureRead hp f n off len rows s = _
  have hw : ∀ rows, wordChecks a len rows s.p = (true, s.p) := fun rows => by rw [wordChecks, if_neg (by omega)]
  have hb : ∀ rows, gaBytes rows s a len = some (s.mem.readN (gaProgram (Ga.core a) (Ga.off a % 2 ^ 26)) len) := fun rows => by
    rw [gaBytes, hsp]
    rfl
  rw [execApertureRead, show (isHPort hp && isFn f && decide (n < 16) && decide (off < 2 ^ 32)) = true by
    simp only [isHPort, isFn, hhp, hf, hn, hoff, decide_true, Bool.and_self], State.run_true]
  simp only [ha, hact.symm, hslice, hok, hpath, hsp, hw, not_true_eq_false, if_false, ne_eq, Bool.and_self, show ¬ (2 : Nat) = 1 by decide]
  rw [hb]

variable {d : List Byte}

theorem exec_apertureWrite (rows : RowErrs) : exec (.apertureWrite hp f n off d rows) s
    = .next (let r := gaWrite ⟨false, fnPart f⟩ .posted a d rows s
        if r.1 = .refused ∨ r.1 = .busy then r.2.onP (countRefusal f) else r.2) := by
  change execApertureWrite hp f n off d rows s = _
  rw [execApertureWrite, show (isHPort hp && isFn f && decide (n < 16) && decide (off < 2 ^ 32)) = true by
    simp only [isHPort, isFn, hhp, hf, hn, hoff, decide_true, Bool.and_self], State.run_true]
  simp only [ha, hact.symm, hslice, hpath, not_true_eq_false, if_false, ne_eq]

end

/-! Writes by global address (R30, R56, R106). -/

/-- An allowed write outside the stacks puts its bytes at once. -/
theorem gaWrite_put {by_ : By} {a : Nat} {d : List Byte} (hok : gaAllowed s.p by_ a d.length = true) (hsp : Ga.space a ≠ 0) (who : Asker)
    (rows : RowErrs) (hdone : (gaPut by_.hub who (checkRows s.p s.mem (Ga.site a) rows) a d s).1 ≠ .refused) :
    gaWrite by_ who a d rows s = gaPut by_.hub who (checkRows s.p s.mem (Ga.site a) rows) a d s := by
  rw [gaWrite, if_pos hok]
  simp only [hsp, if_false, Option.isSome_none, Bool.false_eq_true]
  exact if_neg hdone

theorem gaPut_parts {a : Nat} (hsp : Ga.space a = 1) (hub : Bool) (who : Asker) (rows : RowChks) (d : List Byte) (s : State) :
    gaPut hub who rows a d s = (.asked, s.onP (askGeneral who (Ga.site a) (Ga.off a) d.length (some d))) := by
  rw [gaPut, hsp]
  rfl

theorem gaPut_program {a : Nat} (hsp : Ga.space a = 2) (hfree : programFree s.p (Ga.core a) = true) (hub : Bool) (who : Asker)
    (rows : RowChks) (d : List Byte) : gaPut hub who rows a d s = (.done, putProgram (Ga.core a) (Ga.off a % 2 ^ 26) d s) := by
  rw [gaPut, hsp]
  exact if_pos hfree

theorem gaWrite_parts {by_ : By} {a : Nat} {d : List Byte} (hok : gaAllowed s.p by_ a d.length = true) (hsp : Ga.space a = 1) (who : Asker)
    (rows : RowErrs) : gaWrite by_ who a d rows s = (.asked, s.onP (askGeneral who (Ga.site a) (Ga.off a) d.length (some d))) := by
  rw [gaWrite_put hok (by omega), gaPut_parts hsp]
  rw [gaPut_parts hsp]
  exact GaOut.noConfusion

theorem gaWrite_program {by_ : By} {a : Nat} {d : List Byte} (hok : gaAllowed s.p by_ a d.length = true) (hsp : Ga.space a = 2)
    (hfree : programFree s.p (Ga.core a) = true) (who : Asker) (rows : RowErrs) :
    gaWrite by_ who a d rows s = (.done, putProgram (Ga.core a) (Ga.off a % 2 ^ 26) d s) := by
  rw [gaWrite_put hok (by omega), gaPut_program hsp hfree]
  rw [gaPut_program hsp hfree]
  exact GaOut.noConfusion

end Sys2Proof.Machine
end

section
/-! PROOFS. Copies between the host and the panel (R323, R482, R483). -/

namespace Sys2Proof.Machine

variable {p q : Panel} {s : State} {f n : Nat} {c : Copy} {e : BitVec 512}

/-! A copy begins, and is found by its ID. -/

theorem find_newCopy {l : List Copy} (h : ∀ x ∈ l, x.id < c.id) : (l ++ [c]).find? (fun x => decide (x.id = c.id)) = some c := by
  rw [List.find?_append, List.find?_eq_none.mpr fun x hx => by simpa using Nat.ne_of_lt (h x hx)]
  simp

theorem startCopy_busy (c : Copy) (p : Panel) : (((startCopy c p).getFn c.fn).sqOf c.sq).busy = true :=
  congrArg Queue.busy (modSq_sqOf ..)

/-- The one copy named changes. -/
theorem mem_modCopy (hfind : p.host.copies.find? (fun x => decide (x.id = c.id)) = some c) (g : Copy → Copy) :
    g c ∈ (modCopy c.id g p).host.copies :=
  List.mem_map.mpr ⟨c, List.mem_of_find?_eq_some hfind, if_pos rfl⟩

/-! The check of a block is asked for (R482, R483). -/

/-- A copy whose check is asked for. -/
def Copy.waiting (c : Copy) : Copy := { c with asked := true }

theorem OnlyScans.host (h : OnlyScans p q) : q.host = p.host := by
  obtain ⟨_, _, _, _, rfl⟩ := h
  rfl

theorem askCopy_host (hfind : p.host.copies.find? (fun x => decide (x.id = c.id)) = some c) (hasked : c.asked = false) (hwr : c.writing = false)
    (hq : (p.getChk (Ga.site c.ga)).queue0 = []) : (askCopy c.id p).host = (modCopy c.id Copy.waiting p).host := by
  unfold askCopy
  rw [hfind]
  dsimp only
  rw [if_neg (by simp [hasked, hwr, hq])]
  exact (askCheck_onlyScans ..).host

/-! The block of a COPY_IN is written (R323, R481). -/

theorem copyInNext_put (hfind : s.p.host.copies.find? (fun x => decide (x.id = c.id)) = some c) (hlen : 4096 * c.block < c.len) (hstop : c.stop = none) :
    copyInNext c.id s = copyInNext.put c s := by
  unfold copyInNext
  rw [hfind]
  dsimp only
  rw [if_neg (Nat.not_le.mpr hlen), hstop]

theorem copyInNext_end (hfind : s.p.host.copies.find? (fun x => decide (x.id = c.id)) = some c) (hlen : c.len ≤ 4096 * c.block) :
    copyInNext c.id s = s.onP (endCopy c 0 noBlock c.len) := by
  unfold copyInNext
  rw [hfind]
  exact if_pos hlen

/-- What writes a stack leaves the host interface and the check engines. -/
theorem stackWrite_host (rows : RowChks) (site a : Nat) (d : List Byte) (s : State) :
    (stackWrite rows site a d s).p.host = s.p.host ∧ (stackWrite rows site a d s).p.chk = s.p.chk := by
  unfold stackWrite
  apply each_keeps (P := fun t : State => t.p.host = s.p.host ∧ t.p.chk = s.p.chk)
  case h => exact fun _ _ ht => ht
  case hb => exact ⟨rfl, rfl⟩

/-- Whole row words are not read. -/
theorem partRows_aligned {a len : Nat} (ha : a % 256 = 0) (hlen : len % 256 = 0) : partRows a len = [] := by
  unfold partRows rowWords
  split
  · rfl
  · refine List.filter_eq_nil_iff.mpr fun w hw => ?_
    obtain ⟨i, hi, rfl⟩ := List.mem_map.mp hw
    have := List.mem_range.mp hi
    simp only [Bool.or_eq_true, decide_eq_true_eq, not_or]
    omega

theorem gaWrite_stack {by_ : By} {a : Nat} {d : List Byte} (hok : gaAllowed s.p by_ a d.length = true) (hsp : Ga.space a = 0)
    (ha : a % 256 = 0) (hd : d.length % 256 = 0) (who : Asker) (rows : RowErrs) :
    gaWrite by_ who a d rows s = (.done, stackWrite (checkRows s.p s.mem (Ga.site a) rows) (Ga.site a) (Ga.off a) d s) := by
  have hput : ∀ rows, gaPut by_.hub who rows a d s = (.done, stackWrite rows (Ga.site a) (Ga.off a) d s) := fun rows => by
    rw [gaPut, hsp]
    rfl
  rw [gaWrite, if_pos hok]
  simp only [hsp, if_true, partRows_aligned (a := Ga.off a) (by unfold Ga.off; omega) hd, badRows, List.filterMap_nil, scanWords,
    Option.isSome_none, Bool.false_eq_true, if_false]
  rw [hput]
  exact if_neg GaOut.noConfusion

/-- A stack's block is written at once, and its readback asked for. -/
theorem put_stack (hfind : s.p.host.copies.find? (fun x => decide (x.id = c.id)) = some c)
    (hok : gaAllowed s.p ⟨false, fnPart c.fn⟩ (c.ga + 4096 * c.block) c.block_.length = true) (hsp : Ga.space (c.ga + 4096 * c.block) = 0) (ha : (c.ga + 4096 * c.block) % 256 = 0) (hd : c.block_.length % 256 = 0)
    (hasked : c.asked = false) (hwr : c.writing = false) (hq : (s.p.getChk (Ga.site c.ga)).queue0 = []) :
    (copyInNext.put c s).p.host = (modCopy c.id Copy.waiting s.p).host := by
  unfold copyInNext.put
  rw [gaWrite_stack hok hsp ha hd]
  obtain ⟨hhost, hchk⟩ := stackWrite_host (checkRows s.p s.mem (Ga.site (c.ga + 4096 * c.block)) c.rows)
    (Ga.site (c.ga + 4096 * c.block)) (Ga.off (c.ga + 4096 * c.block)) c.block_ s
  refine (askCopy_host (by rw [hhost]; exact hfind) hasked hwr ?_).trans ?_
  · rw [Panel.getChk, hchk]
    exact hq
  · rw [modCopy, Panel.modHost, hhost]
    rfl

/-- A copy whose block's parts are under way. -/
def Copy.inParts (c : Copy) : Copy := { c with writing := true }

/-- The panel with the parts of a copy's block asked for. -/
def partsAsked (id site x : Nat) (b : List Byte) (p : Panel) : Panel :=
  modCopy id Copy.inParts (askGeneral (.copyIn id) site x b.length (some b) p)

/-- A scratchpad's parts are asked for. -/
theorem put_parts (hok : gaAllowed s.p ⟨false, fnPart c.fn⟩ (c.ga + 4096 * c.block) c.block_.length = true) (hsp : Ga.space (c.ga + 4096 * c.block) = 1) : copyInNext.put c s
    = s.onP (partsAsked c.id (Ga.site (c.ga + 4096 * c.block)) (Ga.off (c.ga + 4096 * c.block)) c.block_) := by
  unfold copyInNext.put
  rw [gaWrite_parts hok hsp]
  rfl

theorem askGeneral_host (who : Asker) (site x n : Nat) (wr : Option (List Byte)) (p : Panel) : (askGeneral who site x n wr p).host = p.host := by
  unfold askGeneral
  apply each_keeps (P := fun q : Panel => q.host = p.host)
  case h => exact fun _ _ hq => hq
  case hb => rfl

/-! The commands. -/

/-- The copy that an entry asks for, of the host's bytes `d`. -/
def copyOf (f n : Nat) (e : BitVec 512) (isIn : Bool) (d : List Byte) (id : Nat) : Copy :=
  { id := id, fn := f, sq := n, cid := Sqe.cid e, copyIn := isIn, ga := Cpy.ga e, len := Cpy.len e, block := 0,
    data := d, asked := false, writing := false, retried := false, haddr := Cpy.haddr e, caddr := Cpy.caddr e, rows := [], stop := none }

/-- The panel with the copy begun. -/
def copyBegun (f n : Nat) (e : BitVec 512) (isIn : Bool) (d : List Byte) (p : Panel) : Panel :=
  startCopy (copyOf f n e isIn d p.host.nextCopy) (takeEntry f n p)

theorem copyOk_len {f : Nat} (h : copyOk p f e = true) : Ga.space (Cpy.ga e) ≤ 1 ∧ 1 ≤ Cpy.len e ∧ gaAllowed p ⟨false, fnPart f⟩ (Cpy.ga e) (Cpy.len e) = true := by
  simp only [copyOk, Bool.and_eq_true, decide_eq_true_eq] at h
  exact ⟨h.1.1.1.1, h.1.1.1.2, h.1.2⟩

theorem goodBlocks_one (b : List Byte) : goodBlocks 0 [some (b, crcHost b)] = (b, none) := by
  simp [goodBlocks]

theorem blocksFit_one {b : List Byte} {len : Nat} (hb : b.length = len) (h1 : 1 ≤ len) (hlen : len ≤ 4096) :
    blocksFit len [some (b, crcHost b)] = true := by
  have hceil : ceilDiv len 4096 = 1 := by
    unfold ceilDiv
    omega
  simp [blocksFit, hceil, hb, hlen]

section
variable (hf : f ≤ 16) (hn : n < 16) (htake : canTake s.p f n = true) (hok : Sqe.ok e = true) (hcopy : copyOk (takeEntry f n s.p) f e = true)
  (hper : periphOn s.p 8 = true)
include hf hn htake hok hcopy hper

theorem exec_copyIn {b : List Byte} (hopc : Sqe.opc e = 0x01) (hb : b.length = Cpy.len e) (hlen : Cpy.len e ≤ 4096) :
    exec (.copyIn f n e ⟨[some (b, crcHost b)], []⟩) s = .next (copyInNext s.p.host.nextCopy (s.onP (copyBegun f n e true b))) := by
  change execCopyIn f n e ⟨[some (b, crcHost b)], []⟩ s = _
  have hfit : blocksFit (Cpy.len e) [some (b, crcHost b)] = true := blocksFit_one hb (copyOk_len hcopy).2.1 hlen
  rw [execCopyIn, show (isFn f && decide (n < 16)) = true by simp [isFn, hf, hn], State.run_true, if_neg (not_not_intro hfit),
    runEntry_taken htake hok hopc, goodBlocks_one]
  refine congrArg _ (if_neg (not_not_intro ?_))
  rw [State.onP_p, hcopy]
  exact hper

theorem exec_copyOut (hopc : Sqe.opc e = 0x02) :
    exec (.copyOut f n e) s = .next (s.onP fun p => askCopy p.host.nextCopy (copyBegun f n e false [] p)) := by
  change execCopyOut f n e s = _
  rw [execCopyOut, show (isFn f && decide (n < 16)) = true by simp [isFn, hf, hn], State.run_true, runEntry_taken htake hok hopc, State.onP_onP]
  refine congrArg _ (State.onP_congr (if_neg (not_not_intro ?_)))
  rw [hcopy]
  exact hper

end

/-! What the commands leave. -/

theorem copyBegun_busy (f n : Nat) (e : BitVec 512) (isIn : Bool) (d : List Byte) (p : Panel) :
    (((copyBegun f n e isIn d p).getFn f).sqOf n).busy = true := startCopy_busy ..

section
variable (hids : ∀ c ∈ p.host.copies, c.id < p.host.nextCopy)
include hids

theorem copyBegun_find (f n : Nat) (e : BitVec 512) (isIn : Bool) (d : List Byte) :
    (copyBegun f n e isIn d p).host.copies.find? (fun x => decide (x.id = p.host.nextCopy)) = some (copyOf f n e isIn d p.host.nextCopy) :=
  find_newCopy (c := copyOf f n e isIn d p.host.nextCopy) hids

/-- A COPY_OUT asks for the check of its first block. -/
theorem askCopy_copyBegun (hq : (p.getChk (Ga.site (Cpy.ga e))).queue0 = []) (f n : Nat) (isIn : Bool) (d : List Byte) :
    (askCopy p.host.nextCopy (copyBegun f n e isIn d p)).host = (modCopy p.host.nextCopy Copy.waiting (copyBegun f n e isIn d p)).host :=
  askCopy_host (c := copyOf f n e isIn d p.host.nextCopy) (copyBegun_find hids ..) rfl rfl hq

end

theorem copyOf_block {b : List Byte} (hb : b.length ≤ 4096) (f n : Nat) (e : BitVec 512) (isIn : Bool) (id : Nat) :
    (copyOf f n e isIn b id).block_ = b := by
  change (b.drop 0).take 4096 = b
  rw [List.drop_zero, List.take_of_length_le hb]

theorem copyBegun_allowed {b : List Byte} (hcopy : copyOk (takeEntry f n p) f e = true) (hb : b.length = Cpy.len e) (isIn : Bool) :
    gaAllowed (copyBegun f n e isIn b p) ⟨false, fnPart f⟩ (Cpy.ga e) b.length = true :=
  hb ▸ (copyOk_len hcopy).2.2

theorem copyInNext_copyBegun (hids : ∀ c ∈ s.p.host.copies, c.id < s.p.host.nextCopy) (hcopy : copyOk (takeEntry f n s.p) f e = true)
    (isIn : Bool) (b : List Byte) : copyInNext s.p.host.nextCopy (s.onP (copyBegun f n e isIn b))
      = copyInNext.put (copyOf f n e isIn b s.p.host.nextCopy) (s.onP (copyBegun f n e isIn b)) :=
  copyInNext_put (c := copyOf f n e isIn b s.p.host.nextCopy) (copyBegun_find hids ..) (copyOk_len hcopy).2.1 rfl

section
variable {b : List Byte} (hids : ∀ c ∈ s.p.host.copies, c.id < s.p.host.nextCopy) (hcopy : copyOk (takeEntry f n s.p) f e = true)
  (hb : b.length = Cpy.len e) (hlen : Cpy.len e ≤ 4096)
include hids hcopy hb hlen

theorem copyIn_stack (hsp : Ga.space (Cpy.ga e) = 0) (ha : Cpy.ga e % 256 = 0) (hl : Cpy.len e % 256 = 0)
    (hq : (s.p.getChk (Ga.site (Cpy.ga e))).queue0 = []) :
    (copyInNext s.p.host.nextCopy (s.onP (copyBegun f n e true b))).p.host
      = (modCopy s.p.host.nextCopy Copy.waiting (copyBegun f n e true b s.p)).host := by
  rw [copyInNext_copyBegun hids hcopy]
  have hblock : (copyOf f n e true b s.p.host.nextCopy).block_ = b := copyOf_block (hb ▸ hlen) ..
  refine put_stack (s := s.onP (copyBegun f n e true b)) (copyBegun_find hids ..) ?_ hsp ha ?_ rfl rfl hq
  · rw [hblock]
    exact copyBegun_allowed hcopy hb true
  · rw [hblock, hb]
    exact hl

theorem copyIn_parts (hsp : Ga.space (Cpy.ga e) = 1) : copyInNext s.p.host.nextCopy (s.onP (copyBegun f n e true b))
    = s.onP fun p => partsAsked s.p.host.nextCopy (Ga.site (Cpy.ga e)) (Ga.off (Cpy.ga e)) b (copyBegun f n e true b p) := by
  rw [copyInNext_copyBegun hids hcopy]
  have hblock : (copyOf f n e true b s.p.host.nextCopy).block_ = b := copyOf_block (hb ▸ hlen) ..
  rw [put_parts (c := copyOf f n e true b s.p.host.nextCopy) (by rw [hblock]; exact copyBegun_allowed hcopy hb true) hsp, hblock, State.onP_onP]
  rfl

end

/-! The queue is busy, and the copy waits for its check or for its parts. -/

theorem getFn_of_host (h : q.host = p.host) (f : Nat) : q.getFn f = p.getFn f := by rw [Panel.getFn, h, Panel.getFn]

/-- A queue is busy with a copy. -/
def BusyWith (f n : Nat) (c : Copy) (p : Panel) : Prop := ((p.getFn f).sqOf n).busy = true ∧ c ∈ p.host.copies

theorem BusyWith.of_host (h : BusyWith f n c p) (hq : q.host = p.host) : BusyWith f n c q := by
  rw [BusyWith, getFn_of_host hq, hq]
  exact h

/-- The copy begun changes, its queue busy. -/
theorem modCopy_busyWith {isIn : Bool} {d : List Byte} {id : Nat} (hbusy : ((p.getFn f).sqOf n).busy = true)
    (hfind : p.host.copies.find? (fun x => decide (x.id = id)) = some (copyOf f n e isIn d id)) (g : Copy → Copy) :
    BusyWith f n (g (copyOf f n e isIn d id)) (modCopy id g p) :=
  ⟨hbusy, mem_modCopy (c := copyOf f n e isIn d id) hfind g⟩

theorem copyBegun_waits (hids : ∀ c ∈ p.host.copies, c.id < p.host.nextCopy) (f n : Nat) (e : BitVec 512) (isIn : Bool) (d : List Byte) :
    BusyWith f n (copyOf f n e isIn d p.host.nextCopy).waiting (modCopy p.host.nextCopy Copy.waiting (copyBegun f n e isIn d p)) :=
  modCopy_busyWith (copyBegun_busy ..) (copyBegun_find hids ..) _

theorem partsAsked_gen (id site x : Nat) (b : List Byte) (p : Panel) : ∃ g ∈ (partsAsked id site x b p).gen, g.who = .copyIn id := by
  obtain ⟨g, hgen, hwho, -⟩ := askGeneral_gen (.copyIn id) site x b.length (some b) p
  refine ⟨g, ?_, hwho⟩
  change g ∈ (askGeneral (.copyIn id) site x b.length (some b) p).gen
  rw [hgen]
  exact List.mem_append_right _ (List.mem_singleton_self g)

theorem partsAsked_busyWith {isIn : Bool} {d : List Byte} {id : Nat} (hbusy : ((p.getFn f).sqOf n).busy = true)
    (hfind : p.host.copies.find? (fun x => decide (x.id = id)) = some (copyOf f n e isIn d id)) (site x : Nat) (b : List Byte) :
    BusyWith f n (copyOf f n e isIn d id).inParts (partsAsked id site x b p) := by
  have hhost : (askGeneral (.copyIn id) site x b.length (some b) p).host = p.host := askGeneral_host ..
  refine modCopy_busyWith ?_ ?_ _
  · rw [getFn_of_host hhost]
    exact hbusy
  · rw [hhost]
    exact hfind

end Sys2Proof.Machine
end

section
/-! PROOFS. The last block of a copy (R482, R483). -/

namespace Sys2Proof.Machine

variable {p : Panel} {s : State} {f n : Nat} {c : Copy}

/-! The end of a copy. -/

theorem postCompletion_reported (f : Nat) {x : Completion} (hx : x.qid = none) (p : Panel) : Reported p (postCompletion f x p) := by
  obtain ⟨y, hy, h⟩ := postCompletion_cases f x p
  rw [hx] at h
  rw [h.elim id id]
  exact hy

theorem endCopy_chain (c : Copy) (status info1 info2 : Nat) (p : Panel) : (endCopy c status info1 info2 p).chain = p.chain := by
  unfold endCopy
  exact (postCompletion_reported _ rfl _).chain

theorem endCopy_busy (c : Copy) (status info1 info2 : Nat) (p : Panel) : (((endCopy c status info1 info2 p).getFn c.fn).sqOf c.sq).busy = false := by
  unfold endCopy
  exact (congrArg (fun t => (Tab.get queue0 t c.sq).busy) ((postCompletion_posted ..).sq c.fn)).trans (congrArg Queue.busy (modSq_sqOf ..))

theorem endCopy_out (c : Copy) (status info1 info2 : Nat) (p : Panel) : ∀ o ∈ p.host.out, o ∈ (endCopy c status info1 info2 p).host.out := by
  unfold endCopy
  exact fun o ho => (postCompletion_posted ..).out o ho

/-! The result of a block's check is taken. -/

/-- The hub's result of a site's engine is taken. -/
def checkTaken (site : Nat) (r : ScanRes) (p : Panel) : Panel := p.modChk site fun x => { x with ready := x.ready.erase r }

theorem takeReady_one {site : Nat} {r : ScanRes} {g : ScanFor → Bool} (hready : (p.getChk site).ready = [r]) (hg : g r.why = true) :
    takeReady site g p = (some r, checkTaken site r p) := by
  rw [takeReady, hready]
  simp only [List.find?_cons, hg]
  rfl

theorem findCopy_one (hc : p.host.copies = [c]) : findCopy p c.fn c.sq = some c := by
  rw [findCopy, hc]
  simp

/-- A copy whose next block comes. -/
def Copy.next (c : Copy) : Copy := { c with block := c.block + 1, retried := false, asked := false }

/-- A COPY_IN's block is counted, and the next comes. -/
def inCounted (c : Copy) (p : Panel) : Panel := modCopy c.id Copy.next (modChain (fun h => { h with inBlocks := h.inBlocks + 1 }) p)

theorem inCounted_copies (hc : p.host.copies = [c]) : (inCounted c p).host.copies = [c.next] := by
  unfold inCounted
  change (p.host.copies.map fun x => if x.id = c.id then x.next else x) = _
  rw [hc, List.map_singleton, if_pos rfl]

theorem exec_ingressReadbackDone (hf : c.fn ≤ 16) (hn : c.sq < 16) (hc : s.p.host.copies = [c]) {crc : BitVec 64} {b : List Byte}
    (hready : (s.p.getChk (Ga.site c.ga)).ready = [⟨.ingress c.id c.block, 0, crc, b⟩]) (hcrc : crc = crc64 0 c.block_) :
    exec (.ingressReadbackDone c.fn c.sq) s
      = .next (copyInNext c.id (s.onP fun p => inCounted c (checkTaken (Ga.site c.ga) ⟨.ingress c.id c.block, 0, crc, b⟩ p))) := by
  change execIngressReadbackDone c.fn c.sq s = _
  rw [execIngressReadbackDone, show (isFn c.fn && decide (c.sq < 16)) = true by simp [isFn, hf, hn], State.run_true, findCopy_one hc]
  dsimp only
  rw [takeReady_one hready (by simp)]
  exact congrArg _ (if_pos ⟨rfl, hcrc⟩)

/-- The last block ends the copy. -/
theorem copyInNext_inCounted (hc : s.p.host.copies = [c]) (hlast : c.len ≤ 4096 * (c.block + 1)) (site : Nat) (r : ScanRes) :
    copyInNext c.id (s.onP fun p => inCounted c (checkTaken site r p))
      = s.onP fun p => endCopy c.next 0 noBlock c.len (inCounted c (checkTaken site r p)) := by
  have hcopies : (inCounted c (checkTaken site r s.p)).host.copies = [c.next] := inCounted_copies hc
  refine copyInNext_end (c := c.next) ?_ hlast
  rw [State.onP_p, hcopies]
  simp [Copy.next]

/-- A COPY_OUT's block is written to the host and counted. -/
def outWritten (c : Copy) (b : List Byte) (p : Panel) : Panel :=
  hostData (c.haddr + 4096 * c.block) b (modChain (fun h => { h with outBlocks := h.outBlocks + 1 }) p)

theorem exec_egressBlockDone (hf : c.fn ≤ 16) (hn : c.sq < 16) (hc : s.p.host.copies = [c]) (hlast : c.len ≤ 4096 * (c.block + 1)) (haddr : c.caddr = 0)
    {crc : BitVec 64} {b : List Byte} (hready : (s.p.getChk (Ga.site c.ga)).ready = [⟨.egress c.id c.block, 0, crc, b⟩]) (hcrc : crc = crc64 0 b) :
    exec (.egressBlockDone c.fn c.sq true) s
      = .next (s.onP fun p => endCopy c 0 noBlock c.len (outWritten c b (checkTaken (Ga.site c.ga) ⟨.egress c.id c.block, 0, crc, b⟩ p))) := by
  change execEgressBlockDone c.fn c.sq true s = _
  rw [execEgressBlockDone, show (isFn c.fn && decide (c.sq < 16)) = true by simp [isFn, hf, hn], State.run_true, findCopy_one hc]
  dsimp only
  rw [takeReady_one hready (by simp)]
  dsimp only
  rw [if_neg (show ¬ (0 : Nat) = 4 by decide), if_neg (not_not_intro rfl), if_pos ⟨rfl, hcrc⟩]
  refine congrArg _ (congrArg (fun q => ({ s with p := q } : State)) ?_)
  dsimp only
  rw [if_pos haddr, if_pos hlast]
  rfl

/-! What the end of the last block leaves. -/

/-- Its one copy ended, a panel has none. -/
theorem endCopy_none {d : Copy} (hc : p.host.copies = [d]) (hid : d.id = c.id) (status info1 info2 : Nat) :
    (endCopy c status info1 info2 p).host.copies = [] := by
  rw [endCopy_copies, hc]
  simp [hid]

theorem inCounted_chain (c : Copy) (p : Panel) : (inCounted c p).chain.inBlocks = p.chain.inBlocks + 1 := rfl

theorem inCounted_ended (hc : p.host.copies = [c]) (site : Nat) (r : ScanRes) (status info1 info2 : Nat) :
    (endCopy c.next status info1 info2 (inCounted c (checkTaken site r p))).host.copies = []
      ∧ (endCopy c.next status info1 info2 (inCounted c (checkTaken site r p))).chain.inBlocks = p.chain.inBlocks + 1 := by
  have hcopies : (inCounted c (checkTaken site r p)).host.copies = [c.next] := inCounted_copies hc
  rw [endCopy_chain, inCounted_chain]
  exact ⟨endCopy_none hcopies rfl .., rfl⟩

theorem outWritten_keeps (c : Copy) (b : List Byte) (p : Panel) : (outWritten c b p).host.copies = p.host.copies
    ∧ (outWritten c b p).chain.outBlocks = p.chain.outBlocks + 1 ∧ HostOut.write (c.haddr + 4096 * c.block) b ∈ (outWritten c b p).host.out :=
  ⟨rfl, rfl, List.mem_append_right _ (List.mem_singleton_self _)⟩

theorem outWritten_ended (hc : p.host.copies = [c]) (site : Nat) (r : ScanRes) (b : List Byte) (status info1 info2 : Nat) :
    (endCopy c status info1 info2 (outWritten c b (checkTaken site r p))).host.copies = []
      ∧ (endCopy c status info1 info2 (outWritten c b (checkTaken site r p))).chain.outBlocks = p.chain.outBlocks + 1
      ∧ HostOut.write (c.haddr + 4096 * c.block) b ∈ (endCopy c status info1 info2 (outWritten c b (checkTaken site r p))).host.out := by
  obtain ⟨hcopies, hchain, hout⟩ := outWritten_keeps c b (checkTaken site r p)
  rw [endCopy_chain, hchain]
  exact ⟨endCopy_none (hcopies.trans hc) rfl .., rfl, endCopy_out _ _ _ _ _ _ hout⟩

end Sys2Proof.Machine
end

section
/-! PROOFS. The check engines: descriptors accepted and repeated, and scans that end (R485-R491). -/

namespace Sys2Proof.Machine

variable {p q r : Panel} {s : State} {cs c n : Nat} {e : CheckEng}

/-! Reading row words leaves the check engines and the clocks (R127, R128, R138, R139). -/

/-- `q` has the check engines and clocks of `p`. -/
structure SameChecks (p q : Panel) : Prop where
  chk : q.chk = p.chk
  clk : q.clk = p.clk

theorem SameChecks.refl (p : Panel) : SameChecks p p := ⟨rfl, rfl⟩

theorem SameChecks.trans (hq : SameChecks p q) (hr : SameChecks q r) : SameChecks p r := ⟨hr.chk.trans hq.chk, hr.clk.trans hq.clk⟩

theorem SameChecks.ite {b : Prop} [Decidable b] (hq : SameChecks p q) (hr : SameChecks p r) : SameChecks p (if b then q else r) := by
  split
  · exact hq
  · exact hr

theorem Reported.sameChecks (h : Reported p q) : SameChecks p q := ⟨h.chk, h.clk⟩

theorem modStk_sameChecks (j : Nat) (f : Stack → Stack) (p : Panel) : SameChecks p (p.modStk j f) := ⟨rfl, rfl⟩

theorem stackRaise_sameChecks (j ev : Nat) (d : Dat) (p : Panel) : SameChecks p (stackRaise j ev d p) := (dieRaise_reported ..).sameChecks

theorem retire_sameChecks (j layer w origin pois : Nat) (p : Panel) : SameChecks p (retire j layer w origin pois p) := by
  have hex : SameChecks p (stackRaise j 0x0405 none (p.modStk j fun k => { k with ctr := { k.ctr with exhausted := k.ctr.exhausted + 1 } })) :=
    (modStk_sameChecks ..).trans (stackRaise_sameChecks ..)
  unfold retire
  refine .ite (modStk_sameChecks ..) ?_
  split
  · exact hex
  · exact .ite hex (modStk_sameChecks ..)

theorem track_sameChecks (j layer w : Nat) (p : Panel) : SameChecks p (track j layer w p) := by
  unfold track
  dsimp only
  split
  · exact .ite ((modStk_sameChecks ..).trans (retire_sameChecks ..)) (modStk_sameChecks ..)
  · have hfull (b : Prop) [Decidable b] (f : Stack → Stack) :
        SameChecks p (if b then stackRaise j 0x0406 none (p.modStk j f) else p.modStk j f) :=
      .ite ((modStk_sameChecks ..).trans (stackRaise_sameChecks ..)) (modStk_sameChecks ..)
    exact .ite ((hfull ..).trans (retire_sameChecks ..)) (hfull ..)

theorem rowCheck_sameChecks (j w : Nat) (rq : Requester) (core : Nat) (x : RowChk) (p : Panel) : SameChecks p (rowCheck j w rq core x p).2 := by
  have hraised (b : Prop) [Decidable b] (ev : Nat) (q : Panel) : SameChecks q (if b then q else stackRaise j ev none q) :=
    .ite (.refl q) (stackRaise_sameChecks ..)
  have hstk (f g : Stack → Stack) : SameChecks p ((p.modStk j f).modStk j g) := ⟨rfl, rfl⟩
  unfold rowCheck
  dsimp only
  split
  case h_1 | h_2 => exact .refl p
  case h_3 =>
    rw [apply_ite Prod.snd]
    refine .ite (.refl p) (.ite ((hstk ..).trans (hraised ..)) ?_)
    exact each_keeps (P := SameChecks p) _ (fun l q hq => hq.trans (retire_sameChecks ..)) ((hstk ..).trans (hraised ..))
  case h_4 =>
    rw [apply_ite Prod.snd]
    dsimp only
    refine .ite (modStk_sameChecks ..) (SameChecks.trans ?_ (track_sameChecks ..))
    exact ((modStk_sameChecks ..).trans ((modStk_sameChecks ..).trans (modStk_sameChecks ..))).trans (stackRaise_sameChecks ..)

theorem scanWords_sameChecks (rq : Requester) (j a : Nat) (l : List (Nat × RowChk)) (p : Panel) : SameChecks p (scanWords rq j a l p).2 := by
  induction l generalizing p with
  | nil => exact .refl p
  | cons x l ih =>
    rw [scanWords, apply_ite Prod.snd]
    exact .ite (rowCheck_sameChecks ..) ((rowCheck_sameChecks ..).trans (ih _))

theorem gaRefuse_sameChecks (site : Nat) (p : Panel) : SameChecks p (gaRefuse site p) :=
  SameChecks.trans (q := { p with gaRefusals := p.gaRefusals + 1 }) ⟨rfl, rfl⟩ (raise_reported ..).sameChecks

/-- The end of a scan leaves the memory, the check engines and the clocks. -/
theorem scanEnd_same {d : CheckDesc} {rows : RowErrs} {x : ScanEnd} (h : scanEnd cs d rows s = some x) :
    x.t.mem = s.mem ∧ SameChecks s.p x.t.p := by
  unfold scanEnd at h
  dsimp only at h
  split at h
  · obtain rfl := Option.some.inj h
    dsimp only
    split
    · exact ⟨rfl, gaRefuse_sameChecks ..⟩
    · exact ⟨rfl, .refl _⟩
  · split at h
    · obtain rfl := Option.some.inj h
      split
      · exact ⟨rfl, scanWords_sameChecks ..⟩
      · exact ⟨rfl, scanWords_sameChecks ..⟩
    · split at h
      · exact nomatch h
      · split at h
        · obtain rfl := Option.some.inj h
          exact ⟨rfl, .refl _⟩
        · split at h
          · obtain rfl := Option.some.inj h
            exact ⟨rfl, .refl _⟩
          · exact nomatch h

/-! What asking for scans leaves of a channel (R485). -/

/-- A channel with no descriptor is not the next served. -/
theorem next_ne (hc : c ≠ 0) (hnone : Tab.find? e.chan c = none) : e.next ≠ some c := by
  intro h
  unfold CheckEng.next at h
  split at h
  · exact hc (Option.some.inj h).symm
  · have := List.find?_some h
    simp [hnone] at this

theorem startScan_chan (e : CheckEng) : (startScan e).chan = e.chan ∧ (startScan e).accepted = e.accepted := by
  unfold startScan
  split <;> exact ⟨rfl, rfl⟩

/-- An engine with a channel's result written. -/
def resultSet (c : Nat) (x : CheckRes) (e : CheckEng) : CheckEng := { e with res := Tab.set c x e.res }

theorem resultSet_same (c : Nat) (x : CheckRes) (e : CheckEng) : (resultSet c x e).result c = x := Tab.get_set_same ..

theorem resultSet_ne {j : Nat} (h : c ≠ j) (x : CheckRes) (e : CheckEng) : (resultSet j x e).result c = e.result c := Tab.get_set_ne _ _ h _

theorem startScan_result_cases (e : CheckEng) (c : Nat) :
    (startScan e).result c = e.result c ∨ e.next = some c ∧ (startScan e).result c = { e.result c with state := 2 } := by
  unfold startScan
  split
  · next j _ hnext =>
    by_cases h : c = j
    · subst h
      exact .inr ⟨hnext, resultSet_same c _ e⟩
    · exact .inl (resultSet_ne h _ e)
  · exact .inl rfl

theorem startScan_last (e : CheckEng) (c : Nat) : ((startScan e).result c).last = (e.result c).last := by
  rcases startScan_result_cases e c with h | ⟨-, h⟩ <;> rw [h]

theorem startScan_result (hc : c ≠ 0) (hnone : Tab.find? e.chan c = none) : (startScan e).result c = e.result c :=
  (startScan_result_cases e c).resolve_right fun h => next_ne hc hnone h.1

theorem askScan_getChk (j i : Nat) (p : Panel) : (askScan j p).getChk i = p.getChk i := by
  unfold askScan
  dsimp only
  split
  · rfl
  · split <;> rfl

/-- A scan that begins changes of the engines the range being read. -/
theorem beginScan_getChk (j i : Nat) (p : Panel) : ∃ x, (beginScan j p).getChk i = { p.getChk i with scan := x } := by
  unfold beginScan
  split
  · exact ⟨_, rfl⟩
  · split
    · rw [askScan_getChk]
      by_cases h : i = j
      · subst h
        exact ⟨_, Panel.modChk_same ..⟩
      · exact ⟨_, Panel.modChk_ne _ _ h⟩
    · exact ⟨_, rfl⟩

/-- A channel has a result and waits for nothing. -/
def Settled (cs c : Nat) (x : CheckRes) (p : Panel) : Prop := (p.getChk cs).result c = x ∧ Tab.find? (p.getChk cs).chan c = none

variable {x : CheckRes}

theorem Settled.of_chk (h : Settled cs c x p) (hq : q.chk = p.chk) : Settled cs c x q := by
  unfold Settled Panel.getChk
  rw [hq]
  exact h

theorem beginScan_settled (h : Settled cs c x p) (j : Nat) : Settled cs c x (beginScan j p) := by
  obtain ⟨y, hy⟩ := beginScan_getChk j cs p
  unfold Settled
  rw [hy]
  exact h

/-- A descriptor of channel 0 leaves another channel. -/
theorem acceptDesc_settled (hc : c ≠ 0) (h : Settled cs c x p) (j : Nat) (d : CheckDesc) : Settled cs c x (acceptDesc j 0 d p) := by
  refine beginScan_settled ?_ j
  unfold Settled
  by_cases hj : cs = j
  · subst hj
    obtain ⟨hres, hnone⟩ := h
    rw [Panel.modChk_same]
    refine ⟨(startScan_result hc ?_).trans ((Tab.get_set_ne _ _ hc _).trans hres), ?_⟩
    · exact hnone
    · rw [(startScan_chan _).1]
      exact hnone
  · rw [Panel.modChk_ne _ _ hj]
    exact h

theorem askCheck_settled (hc : c ≠ 0) (h : Settled cs c x p) (j ga len : Nat) (why : ScanFor) : Settled cs c x (askCheck j ga len why p) := by
  unfold askCheck
  dsimp only
  split
  · exact acceptDesc_settled hc h ..
  · exact h

theorem askCopy_settled (hc : c ≠ 0) (h : Settled cs c x p) (id : Nat) : Settled cs c x (askCopy id p) := by
  unfold askCopy
  split
  · exact h
  · dsimp only
    split
    · exact h
    · refine askCheck_settled hc ?_ _ _ _ _
      exact h.of_chk rfl

theorem pumpSite_settled (hc : c ≠ 0) (h : Settled cs c x p) (j : Nat) : Settled cs c x (pumpSite j p) := by
  unfold pumpSite pumpShards
  refine each_keeps (P := Settled cs c x) _ (fun i q hq => ?_) (each_keeps (P := Settled cs c x) _ (fun y q hq => askCopy_settled hc hq y.id) h)
  dsimp only
  split
  · refine askCheck_settled hc ?_ _ _ _ _
    exact hq.of_chk rfl
  · exact hq

/-! A descriptor written through the dictionary (R487). -/

theorem siteOpen_not_dead (h : siteOpen p cs = true) : deadDie p cs = false := by
  unfold siteOpen siteReachable at h
  unfold deadDie
  cases hst : p.ust cs <;> simp_all

section
variable {part : Option Nat} {d : BitVec 256} (hcs : isCompute cs = true) (hper : periphOn s.p 8 = true) (hopen : siteOpen s.p cs = true)
  (hc : Chk.chan d ≠ 0) (h1 : ((s.p.getChk cs).result (Chk.chan d)).state ≠ 1) (h2 : ((s.p.getChk cs).result (Chk.chan d)).state ≠ 2)
include hcs hper hopen hc h1 h2

theorem exec_checkDescriptorWrite : exec (.checkDescriptorWrite cs part d) s = .next (s.onP fun p =>
    (if Chk.alive d = (((p.getChk cs).result (Chk.chan d)).last + 1) % 256 then acceptDesc cs (Chk.chan d) ⟨d, .user part⟩ p
      else rejectDesc cs (Chk.chan d) d p)) := by
  change execCheckDescriptorWrite cs part d s = _
  rw [execCheckDescriptorWrite, hcs]
  refine State.runP_eq ?_
  rw [writeDesc, if_neg (not_not_intro hper), if_neg (by rw [siteOpen_not_dead hopen]; decide), if_neg hc, if_neg (not_or_intro h1 h2)]
  rw [apply_ite Prod.snd]

end

/-- The panel with a descriptor accepted on a channel, before its scan begins. -/
theorem acceptDesc_getChk (hc : c ≠ 0) (d : CheckDesc) (p : Panel) : ((acceptDesc cs c d p).getChk cs).accepted = (p.getChk cs).accepted + 1
    ∧ ((acceptDesc cs c d p).getChk cs).chan = Tab.set c d (p.getChk cs).chan
    ∧ (((acceptDesc cs c d p).getChk cs).result c).last = Chk.alive d.desc := by
  unfold acceptDesc
  generalize hq : p.modChk cs _ = q
  obtain ⟨y, hy⟩ := beginScan_getChk cs cs q
  rw [hy, ← hq, Panel.modChk_same]
  obtain ⟨hchan, hacc⟩ := startScan_chan { p.getChk cs with
    accepted := (p.getChk cs).accepted + 1
    queue0 := if c = 0 then (p.getChk cs).queue0 ++ [d] else (p.getChk cs).queue0
    chan := if c = 0 then (p.getChk cs).chan else Tab.set c d (p.getChk cs).chan
    res := Tab.set c { checkRes0 with state := 1, last := Chk.alive d.desc, alive := Chk.alive d.desc } (p.getChk cs).res }
  refine ⟨hacc, hchan.trans (if_neg hc), (startScan_last ..).trans ?_⟩
  exact congrArg CheckRes.last (Tab.get_set_same ..)

theorem rejectDesc_repeated {d : BitVec 256} (hrep : Chk.alive d = ((p.getChk cs).result c).last) :
    ((rejectDesc cs c d p).getChk cs).repeats = (p.getChk cs).repeats + 1 ∧ ((rejectDesc cs c d p).getChk cs).chan = (p.getChk cs).chan := by
  unfold rejectDesc
  rw [Panel.getChk, (plainEvent_reported ..).chk, ← Panel.getChk, Panel.modChk_same]
  simp [hrep]

/-! A scan that ends (R485-R491). -/

/-- A channel's result of a scan that has ended with `x`. -/
def resEnded (x : ScanEnd) (crc : BitVec 64) (tick : Nat) (r : CheckRes) : CheckRes :=
  { r with state := if x.reason = 0 then 3 else 5, reason := x.reason, crc := crc.toNat, bytes := x.data.length, tick := tick }

/-- The engine of a scan of channel `c` that has ended with `x`, before the next begins. -/
def scanEnded (c : Nat) (d : CheckDesc) (x : ScanEnd) (crc : BitVec 64) (tick : Nat) (e : CheckEng) : CheckEng :=
  { e with
    running := none, scan := none, queue0 := if c = 0 then e.queue0.drop 1 else e.queue0,
    chan := if c = 0 then e.chan else Tab.del c e.chan,
    ready := if c = 0 then e.ready ++ [⟨d.why, x.reason, crc, d.why.carried x.data⟩] else e.ready,
    errors := e.errors + (if x.reason = 0 then 0 else 1), bytes := e.bytes + x.data.length,
    res := if c = 0 ∧ 1 < e.queue0.length then e.res
      else Tab.set c (resEnded x crc tick (e.result c)) e.res }

/-- The CRC of a scan's bytes, where it is good. -/
def scanCrc (d : CheckDesc) (x : ScanEnd) : BitVec 64 := if x.reason = 0 then Chk.crc d.desc x.data else 0

/-- The panel once a scan has ended. -/
def scanClosed (cs c : Nat) (d : CheckDesc) (x : ScanEnd) (p : Panel) : Panel :=
  let p := pumpSite cs (beginScan cs (p.modChk cs fun e =>
    startScan (scanEnded c d x (scanCrc d x) p.now e)))
  if x.reason = 0 then p else plainEvent cs 0 (keyChan cs c) 0x0C03 none p

theorem serving_chan {d : CheckDesc} (hrun : e.running = some c) (hc : c ≠ 0) (hd : Tab.find? e.chan c = some d) : e.serving = some d := by
  unfold CheckEng.serving
  rw [hrun]
  cases c with
  | zero => exact absurd rfl hc
  | succ m => exact hd

section
variable {d : CheckDesc} {rows : RowErrs} (hcs : isCompute cs = true) (hrun : (s.p.getChk cs).running = some c) (hc : c ≠ 0)
  (hd : Tab.find? (s.p.getChk cs).chan c = some d)
include hcs hrun hc hd

theorem exec_checkScanDone_other {j : Nat} (hj : j < 16) (hne : j ≠ c) : exec (.checkScanDone cs j rows) s = .next s := by
  change execCheckScanDone cs j rows s = _
  rw [execCheckScanDone, show (isCompute cs && decide (j < 16)) = true by simp [hcs, hj], State.run_true, serving_chan hrun hc hd, hrun]
  exact congrArg _ (if_pos hne.symm)

theorem exec_checkScanDone_reading (hc16 : c < 16) (hend : scanEnd cs d rows s = none) : exec (.checkScanDone cs c rows) s = .next s := by
  change execCheckScanDone cs c rows s = _
  rw [execCheckScanDone, show (isCompute cs && decide (c < 16)) = true by simp [hcs, hc16], State.run_true, serving_chan hrun hc hd, hrun]
  dsimp only
  rw [if_neg (not_not_intro rfl), hend]

theorem exec_checkScanDone {x : ScanEnd} (hc16 : c < 16) (hend : scanEnd cs d rows s = some x) :
    exec (.checkScanDone cs c rows) s = .next (x.t.onP (scanClosed cs c d x)) := by
  change execCheckScanDone cs c rows s = _
  rw [execCheckScanDone, show (isCompute cs && decide (c < 16)) = true by simp [hcs, hc16], State.run_true, serving_chan hrun hc hd, hrun]
  dsimp only
  rw [if_neg (not_not_intro rfl), hend]
  rfl

end

/-- The channel of a scan that has ended has its result. -/
theorem scanClosed_settled (hc : c ≠ 0) (d : CheckDesc) (x : ScanEnd) (p : Panel) : Settled cs c
      (resEnded x (scanCrc d x) p.now ((p.getChk cs).result c)) (scanClosed cs c d x p) := by
  have hbase : Settled cs c (resEnded x (scanCrc d x) p.now ((p.getChk cs).result c)) (p.modChk cs fun e =>
      startScan (scanEnded c d x (scanCrc d x) p.now e)) := by
    have hnone (crc : BitVec 64) (tick : Nat) (e : CheckEng) : Tab.find? (scanEnded c d x crc tick e).chan c = none :=
      (congrArg (Tab.find? · c) (if_neg hc)).trans (Tab.find?_del ..)
    have hres (crc : BitVec 64) (tick : Nat) (e : CheckEng) : (scanEnded c d x crc tick e).result c = resEnded x crc tick (e.result c) := by
      rw [scanEnded, if_neg (fun h : c = 0 ∧ _ => hc h.1)]
      exact Tab.get_set_same ..
    unfold Settled
    rw [Panel.modChk_same, startScan_result hc (hnone ..), (startScan_chan _).1]
    exact ⟨hres .., hnone ..⟩
  have hpump := pumpSite_settled hc (beginScan_settled hbase cs) cs
  unfold scanClosed
  dsimp only
  split
  · exact hpump
  · exact Settled.of_chk hpump (plainEvent_reported ..).chk

end Sys2Proof.Machine
end

section
open Sys2Proof Sys2Proof.Machine

/-- Settles O40: each command is one change of the panel where its guard holds; a function reset leaves its function without queues,
slices and copies because the completions and query ends that it brings touch none of them, and a scan that ends leaves its
channel settled because everything that asks for scans afterwards does so on channel 0. -/
theorem portsAperturesCopiesAndChecks : Obligations.PortsAperturesCopiesAndChecks := by
  unfold Obligations.PortsAperturesCopiesAndChecks
  intro hp f n s hhp hf hn
  refine ⟨fun hpe rate width vfs flit enumd => ?_, fun hpe rate width vfs flit enumd => exec_perstRelease_released hhp hpe rate width vfs flit enumd,
    ⟨_, exec_perstAssert hhp s, State.onP_mem .., ?_⟩, fun hup hpe => ⟨_, exec_hostLinkDown hhp hup hpe, State.onP_mem .., ?_, ?_⟩,
    exec_hostLinkDown_down hhp, fun ha => ⟨_, exec_flr hhp hf ha, State.onP_mem .., ?_, fun hact => ?_, fun h0 => ?_, fun hf0 hact => ?_⟩,
    fun ha hact => ⟨fun q len hlen hb hph hq hop => ?_, fun x hx => ?_, fun off a len rows d hoff hslice hpath => ⟨fun hok => ⟨fun hsp => ?_, fun hsp => ?_⟩,
      fun hok => ⟨fun hsp => ?_, fun hsp hfree => ?_⟩⟩⟩,
    fun e htake hok hids hcopy hper hq => ⟨fun b hopc hb hlen halign => ?_, fun hopc => ?_⟩,
    fun c crc b hc hcf hcn hlast haddr => ⟨fun hready hcrc => ?_, fun hready hcrc => ?_⟩,
    fun cs part hcs hper hopen => ⟨fun x hc => ?_, fun c d rows hrun hc hc16 hd => ⟨exec_checkScanDone_reading hcs hrun hc hd hc16,
      fun j hj hne => exec_checkScanDone_other hcs hrun hc hd hj hne, fun x hend => ?_⟩⟩⟩
  -- ports: PERST_N and links (R310)
  · refine ⟨_, exec_perstRelease hhp hpe rate width vfs flit enumd, State.onP_mem .., ?_⟩
    have hport : (portTrained rate width vfs flit enumd hp s.p).getHPort hp = _ := Panel.modHPort_same ..
    by_cases hup : (s.p.getBlk (if hp = 0 then 16 else 18)).st = .up
    · rw [State.onP_p, tryLink_getHPort, if_pos ⟨by rw [hport]; exact Bool.false_ne_true, hup⟩, hport]
      exact ⟨rfl, rfl, rfl, rfl, fun _ => rfl⟩
    · rw [State.onP_p, tryLink_getHPort, if_neg fun h => hup h.2, hport]
      exact ⟨rfl, rfl, rfl, rfl, fun h => absurd h hup⟩
  · rw [State.onP_p, Panel.modHPort_same]
  · exact hostLinkDown_frame hp s.p
  · exact raise_logged (by decide) ..
  -- function resets (R331)
  · exact flr_logged ..
  · have hempty : Emptied f (flr hp f s.p) := flr_emptied hact
    exact ⟨hempty.bare.slices, hempty.bare.sq n, hempty.bare.cq n, hempty.copies⟩
  · subst h0
    exact flr_pf_vfs hp s.p
  · exact flr_standby hf0 hact
  -- mailbox, slices and apertures (R314-R316, R330)
  · refine ⟨_, (exec_mailboxGo hhp hf hlen ha hact hb hph hq).trans (congrArg _ (request_hello hop f _)), State.onP_mem .., ?_⟩
    rw [State.onP_onP, State.onP_p, boxAnswer_eq]
    obtain ⟨hbusy, hrsp, hbit⟩ := setIcause_fn f 1 ((mailboxBusy f len s.p).modFn f (answered (padTo 32 (s.p.getFn f).req) (helloResp s.p.book.active s.p)))
    rw [Panel.modFn_same] at hbusy hrsp
    exact ⟨hbusy, hbit, hrsp⟩
  · refine ⟨_, exec_apertureSliceWrite hhp hf hn ha hact x, State.onP_mem .., ?_⟩
    rw [State.onP_p, writeSlice_slices hx]
    exact ⟨Tab.get_set_same .., fun j hj => Tab.get_set_ne _ _ hj _⟩
  · obtain ⟨g, hgen, hwho, hdata⟩ := askGeneral_gen (.aperture hp f) (Ga.site a) (Ga.off a) len none s.p
    exact ⟨_, g, exec_apertureRead_parts hhp hf hn hoff ha hact hslice hpath hok hsp rows, State.onP_mem .., hgen, hwho, hdata⟩
  · exact exec_apertureRead_program hhp hf hn hoff ha hact hslice hpath hok hsp rows
  · obtain ⟨g, hgen, hwho, -⟩ := askGeneral_gen .posted (Ga.site a) (Ga.off a) d.length (some d) s.p
    refine ⟨_, g, exec_apertureWrite hhp hf hn hoff ha hact hslice hpath rows, ?_⟩
    rw [gaWrite_parts hok hsp]
    exact ⟨State.onP_mem .., hgen, hwho⟩
  · refine ⟨_, exec_apertureWrite hhp hf hn hoff ha hact hslice hpath rows, ?_⟩
    rw [gaWrite_program hok hsp hfree]
    rfl
  -- copies: the first block (R323)
  · have hexec := exec_copyIn hf hn htake hok hcopy hper hopc hb hlen
    rcases Nat.le_one_iff_eq_zero_or_eq_one.mp (copyOk_len hcopy).1 with hsp | hsp
    · obtain ⟨ha, hl⟩ := halign.resolve_left fun h => absurd (hsp.symm.trans h) (by decide)
      obtain ⟨hbusy, hmem⟩ := (copyBegun_waits hids f n e true b).of_host (copyIn_stack hids hcopy hb hlen hsp ha hl hq)
      have hspace (h : Ga.space (Cpy.ga e) = 1) : False := absurd (hsp.symm.trans h) (by decide)
      exact ⟨_, hexec, hbusy, ⟨_, hmem, rfl, rfl, rfl, rfl, fun _ => rfl, fun h => (hspace h).elim⟩, fun h => (hspace h).elim⟩
    · rw [copyIn_parts hids hcopy hb hlen hsp] at hexec
      obtain ⟨hbusy, hmem⟩ := partsAsked_busyWith (copyBegun_busy f n e true b s.p) (copyBegun_find hids f n e true b)
        (Ga.site (Cpy.ga e)) (Ga.off (Cpy.ga e)) b
      exact ⟨_, hexec, hbusy, ⟨_, hmem, rfl, rfl, rfl, rfl, fun h => absurd (h.symm.trans hsp) (by decide), fun _ => rfl⟩,
        fun _ => ⟨State.onP_mem .., partsAsked_gen ..⟩⟩
  · obtain ⟨hbusy, hmem⟩ := (copyBegun_waits hids f n e false []).of_host (askCopy_copyBegun hids hq f n false [])
    exact ⟨_, exec_copyOut hf hn htake hok hcopy hper hopc, State.onP_mem .., hbusy, _, hmem, rfl, rfl, rfl, rfl, rfl⟩
  -- copies: the last block (R482, R483)
  · subst hcf hcn
    obtain ⟨hcopies, hchain⟩ := inCounted_ended hc (Ga.site c.ga) ⟨.ingress c.id c.block, 0, crc, b⟩ 0 noBlock c.len
    exact ⟨_, (exec_ingressReadbackDone hf hn hc hready hcrc).trans (congrArg _ (copyInNext_inCounted hc hlast ..)), State.onP_mem ..,
      hcopies, hchain, endCopy_busy c.next ..⟩
  · subst hcf hcn
    obtain ⟨hcopies, hchain, hout⟩ := outWritten_ended hc (Ga.site c.ga) ⟨.egress c.id c.block, 0, crc, b⟩ b 0 noBlock c.len
    exact ⟨_, exec_egressBlockDone hf hn hc hlast haddr hready hcrc, State.onP_mem .., hcopies, hchain, hout, endCopy_busy c ..⟩
  -- check engines (R485-R491)
  · intro r h1 h2
    refine ⟨fun hnext => ?_, fun hrep hnot => ?_⟩
    · have hexec := exec_checkDescriptorWrite (part := part) hcs hper hopen hc h1 h2
      obtain ⟨hacc, hchan, hlast⟩ := acceptDesc_getChk (cs := cs) hc ⟨x, .user part⟩ s.p
      refine ⟨_, hexec, State.onP_mem .., ?_⟩
      rw [State.onP_p, if_pos hnext, hacc, hchan, Tab.find?_set, if_pos rfl]
      exact ⟨rfl, hlast, rfl⟩
    · refine ⟨_, exec_checkDescriptorWrite (part := part) hcs hper hopen hc h1 h2, State.onP_mem .., ?_⟩
      rw [State.onP_p, if_neg hnot]
      exact rejectDesc_repeated hrep
  · obtain ⟨hmem, hsame⟩ := scanEnd_same hend
    obtain ⟨hres, -⟩ := scanClosed_settled (cs := cs) hc d x x.t.p
    refine ⟨_, exec_checkScanDone hcs hrun hc hd hc16 hend, (State.onP_mem ..).trans hmem, ?_⟩
    rw [State.onP_p, hres]
    refine ⟨rfl, rfl, rfl, ?_, fun hgood => ?_⟩
    · exact congrArg Clocks.tb hsame.clk
    · change (scanCrc d x).toNat = _
      rw [scanCrc, if_pos hgood]

end
